-- ==== Sys2Proof/Word.lean ====
section
/-! DEFINITION. The word types of the manual's layouts (00_scope.md R3): a double word (DW) and a byte. -/

namespace Sys2Proof

/-- A double word, the unit of every layout (00_scope.md R3). -/
abbrev Word := BitVec 32

/-- A byte, the unit of every address space (00_scope.md R3). -/
abbrev Byte := BitVec 8

end Sys2Proof
end

