-- ==== Sys2Proof/Syntax.lean ====
section
/-! DEFINITION. The commands of the block: one constructor of `Instr` per row of spec/opcode_table.json, with the operands the
row needs. Operands that are not the manual's own fields carry what the device meets from outside: bytes read over PCI Express,
the result of codec syntax the manual refers to other standards for, a measurement, the outcome of a self-test. -/

namespace Sys2Proof

/-- What the read of a protected sector finds (11_memory.md Table 11.5, R266). -/
inductive EccCond where
  | clean | single | double
deriving DecidableEq, Repr, Inhabited

/-- One unit that executes Niches (01_architecture.md R12, 06_tensor_cores.md R135). -/
inductive UnitId where
  /-- matrix engine `e` of core `c`; a broadcast Niche is keyed by engine 0 -/
  | mx (c e : Nat)
  /-- vector engine of core `c` -/
  | vx (c : Nat)
  /-- shaping unit `u` -/
  | shp (u : Nat)
  /-- evidence encoder `u` -/
  | enc (u : Nat)
  /-- track association engine -/
  | tae
  /-- record writer -/
  | out
  /-- reconstruction engines, for DEC line Niches -/
  | dec
deriving DecidableEq, Repr, Inhabited

/-- Profiles a sequence parameter set can announce (04_stream_decode.md Table 4.6). -/
inductive Profile where
  | avcConstrainedBaseline | avcMain | avcHigh | hevcMain | hevcMain10 | other
deriving DecidableEq, Repr, Inhabited

/-- Chroma format of a sequence parameter set (04_stream_decode.md R93). -/
inductive Chroma where
  | c420 | c400 | other
deriving DecidableEq, Repr, Inhabited

/-- Picture kinds, in the code order of PIC_KIND (04_stream_decode.md Table 4.10). -/
inductive PicKind where
  | irap | p | b | rasl
deriving DecidableEq, Repr, Inhabited

/-- What the active sequence parameter set of an access unit says (04_stream_decode.md R93, R99, R100, R18, R20). -/
structure SpsInfo where
  hevc : Bool
  profile : Profile
  /-- level times ten -/
  level : Nat
  chroma : Chroma
  bitDepth : Nat
  interlaced : Bool
  /-- a tool of the `Not supported` column of Table 4.6 -/
  otherTool : Bool
  /-- W of R20 -/
  width : Nat
  /-- H_pic of R18 -/
  height : Nat
  /-- sps_max_dec_pic_buffering or max_dec_frame_buffering -/
  dpb : Nat
  /-- side of a CTU; 16 for macroblocks -/
  ctb : Nat
deriving DecidableEq, Repr, Inhabited

/-- One slice segment as its entropy decoding finds it (04_stream_decode.md R95, R104). -/
structure SegInfo where
  /-- its CTUs or macroblocks, as raster indices in the order they are coded: with Tiles they need not follow each other in raster order -/
  units : List Nat
  /-- bins of each unit, in order -/
  bins : List Nat
  /-- unit offset at which a syntax or entropy decoding error occurs -/
  errAt : Option Nat
  /-- bytes of the access unit up to the end of the segment -/
  endByte : Nat
  /-- decode-order distance of the picture at index 0 of the segment's list 0 -/
  list0 : Option Nat
deriving DecidableEq, Repr, Inhabited

/-- What entropy decoding extracts from an access unit: its next segments, all that are left in normal output. -/
structure AuInfo where
  sps : SpsInfo
  kind : PicKind
  segs : List SegInfo
  /-- the segments end the access unit -/
  last : Bool
  /-- distances in DON of the pictures the reference picture sets and lists name; 0 for one that never got a DON -/
  refs : List Nat
  /-- decode-order distance of the picture at index 0 of list 0 -/
  list0 : Option Nat
deriving DecidableEq, Repr, Inhabited

/-- One reconstructed row: the samples the codec standard gives for its coded units, row-major over the row's lines, and how many
lines of the picture in-loop filtering can no longer change (02_raster_time.md R19). -/
structure RowData where
  luma : List Nat
  cb : List Nat
  cr : List Nat
  finalLines : Nat
deriving DecidableEq, Repr, Inhabited

/-- Trigger entry (02_raster_time.md Table 2.2), and whether its slot is bound there as an audio stream. -/
structure TrigEntry where
  audio : Bool
  band : Nat
  frame : Bool
  slot : Nat
  halo : Nat
  trigLpos : Nat
  firstNiche : Nat
  nicheCount : Nat
deriving DecidableEq, Repr, Inhabited

/-- Niche entry (02_raster_time.md Table 2.3) with the words of its descriptor; DESC follows from where the commit puts them. -/
structure NicheEntry where
  order : Nat
  proof : Bool
  safety : Bool
  engine : Nat
  unit : Nat
  indep : Bool
  /-- Table 2.4 code -/
  station : Nat
  wdog : Nat
  depIn : Nat
  desc : List Word
  /-- SEQ, and the VX MUL of probabilities: layer and KV head whose pages it loads, and whether it loads values, not keys (09_sequence.md R224) -/
  kv : Option (Nat × Nat × Bool)
deriving DecidableEq, Repr, Inhabited

/-- One successor edge (07_mapping.md R176). -/
structure SuccEdge where
  afterXchg : Bool
  target : Nat
deriving DecidableEq, Repr, Inhabited

/-- One product of a model: shape, formats and feed (07_mapping.md Table 7.1). -/
structure Product where
  m : Nat
  n : Nat
  k : Nat
  aFmt : Nat
  bFmt : Nat
  outFmt : Nat
  indep : Bool
  complex : Bool
deriving DecidableEq, Repr, Inhabited

/-- A Niche as an operation's scratchpad layout gives it: station, the core, counted in the candidate, or the unit it names, engine and feed, watchdog
budget, descriptor (02_raster_time.md Table 2.3, 07_mapping.md R165). -/
structure OpNiche where
  /-- Table 2.4 code -/
  station : Nat
  unit : Nat
  engine : Nat
  indep : Bool
  wdog : Nat
  desc : List Word
  /-- SEQ, and the VX MUL of probabilities: layer and KV head whose pages it loads, and whether it loads values, not keys (09_sequence.md R224) -/
  kv : Option (Nat × Nat × Bool)
deriving DecidableEq, Repr, Inhabited

/-- An operation of a candidate schedule (07_mapping.md R172-R174, R177). -/
structure Operation where
  /-- its product; none where it is no product -/
  prod : Option Product
  /-- windowed: for each core its output positions and W_OUT; none for a plain product -/
  windows : List (Nat × Nat × Nat)
  /-- fused chain: the second product -/
  second : Option Product
  /-- cores the candidate schedule assigns, ascending -/
  cores : List Nat
  /-- its Niches, in order -/
  niches : List OpNiche
deriving DecidableEq, Repr, Inhabited

/-- Candidate schedule of a Maquette entry for a core count (07_mapping.md Table 7.1), with cores numbered from 0 up to the count: H_halo, the line
operations, the operations of each band in order, of which later bands repeat the last, and the scratchpad contents (weights, constants) as (core,
offset, bytes). A session model has one list, which every pack group runs. -/
structure Candidate where
  cores : Nat
  halo : Nat
  lines : List Operation
  bands : List (List Operation)
  contents : List (Nat × Nat × List Byte)
deriving DecidableEq, Repr, Inhabited

/-- An operation as Plinth has resolved it: the binding it belongs to, the band or pack group it runs for, none for a line operation, and where its Niches
begin. -/
structure PlacedOp where
  binding : Nat
  inst : Option Nat
  op : Operation
  first : Nat
deriving DecidableEq, Repr, Inhabited

/-- The LC pack groups of a session model (09_sequence.md R217, R220, R228): LC_GROUPS, LANES, the rows of a lane in the batch, and the
consecutive Niches of each group. -/
structure Pack where
  model : Nat
  groups : Nat
  lanes : Nat
  rows : Nat
  firstNiche : Nat
  nicheCount : Nat
deriving DecidableEq, Repr, Inhabited

/-- One resolved schedule: the tables of R27 and R176, the operations they come from and the figures Ronas reports for it. -/
structure Schedule where
  trigs : List TrigEntry
  niches : List NicheEntry
  succs : List (List SuccEdge)
  ops : List PlacedOp
  packs : List Pack
  /-- longest gap between Proof cast set completions that Ronas reports, in µs (14_safety.md R322) -/
  proofGap : Nat
  /-- no two Niches of different triggers or trigger instances that the timing model lets run at the same time on one core collide in scratchpad
  (07_mapping.md Table 7.6) -/
  collisionFree : Bool
deriving DecidableEq, Repr, Inhabited

/-- Per-binding figures of the commit report (07_mapping.md Table 7.4), as Ronas reports them (R171). -/
structure BindFigures where
  hHalo : Nat
  pArm : Nat
  tPg : Nat
  encInParm : Bool
  /-- (core, P_ARM_VAR of the variant with that core fenced) -/
  pArmVar : List (Nat × Nat)
deriving DecidableEq, Repr, Inhabited

/-- What Plinth resolves from the candidate schedules for one commit (07_mapping.md R165, R171, R190). -/
structure CommitPlan where
  main : Schedule
  /-- variant with the named core removed -/
  variants : List (Nat × Schedule)
  /-- scratchpad contents the commit places: constants, resident weights, Proof cast blocks (15_recovery.md R351, 14_safety.md R320):
  (core, offset, bytes) -/
  contents : List (Nat × Nat × List Byte)
deriving DecidableEq, Repr, Inhabited

/-- Kind of a Maquette entry: what may bind it (07_mapping.md Table 7.3) or a best-effort entry. -/
inductive EntryKind where
  | video | audio | session | bestEffort
deriving DecidableEq, Repr, Inhabited

/-- One entry of a Maquette package, as Ronas reports it (07_mapping.md R165, R166; 09_sequence.md R217). -/
structure MaqEntry where
  kind : EntryKind
  /-- candidate schedules, one for each core count the Maquette supports -/
  cands : List Candidate
  /-- best-effort: declared maximum batch count, scratchpad bytes and accumulator rows needed, and the operations of the entry resolved for one core, their
  addresses counted from the start of the region (10_work_classes.md R234, R239) -/
  maxBatch : Nat
  spad : Nat
  accRows : Nat
  ops : List Operation
  /-- best-effort: bytes read and written per batch item in DRAM -/
  inBytes : Nat
  outBytes : Nat
  /-- session: LC_GROUPS, LANES, LAYERS, KV_HEADS, item size in bytes, rows of a lane, START_TOKEN, EOS_TOKEN; `ops` are those of one step or append
  chunk that runs as best-effort work -/
  lcGroups : Nat
  lanes : Nat
  layers : Nat
  heads : Nat
  itemBytes : Nat
  laneRows : Nat
  startTok : Word
  eosTok : Word
deriving DecidableEq, Repr, Inhabited

/-- The Niches of an entry resolved for one core. -/
def MaqEntry.niches (e : MaqEntry) : List OpNiche := e.ops.flatMap (·.niches)

/-- A Maquette package as read from host memory (07_mapping.md R166). -/
structure Package where
  magic : Word
  crcOk : Bool
  tileRev : Nat
  bytes : Nat
  entries : List MaqEntry
deriving DecidableEq, Repr, Inhabited

/-- Keys and values of one new position: for each layer and KV head, the key and value rows of 128 FP32 numbers
(09_sequence.md R223). -/
structure KvRow where
  layer : Nat
  head : Nat
  key : List Word
  value : List Word
deriving DecidableEq, Repr, Inhabited

/-- What one run of the step entry yields (09_sequence.md R225): the position's keys and values and the FP32 logits. -/
structure StepRun where
  /-- the token the step entry was given -/
  input : Word
  rows : List KvRow
  logits : List Word
deriving DecidableEq, Repr, Inhabited

/-- What one run of the append entry yields for a chunk of items (09_sequence.md R225). -/
structure AppendRun where
  /-- the items are feature frames, not tokens (03_commands.md Table 3.5) -/
  frames : Bool
  /-- the items the run was given -/
  items : List (List Byte)
  /-- one list of rows per item -/
  rows : List (List KvRow)
deriving DecidableEq, Repr, Inhabited

/-- The slots of one packet read at the head of a submission ring and, for a feed or append, the bytes its source address holds
(03_commands.md R49, R63). -/
structure SlotRead where
  words : List Word
  data : List Byte
deriving DecidableEq, Repr, Inhabited

/-- A link packet: header fields of 12_links.md Table 12.4 and data words. -/
structure LinkPkt where
  dest : Nat
  src : Nat
  cls : Nat
  vc : Nat
  turned : Bool
  type : Nat
  hops : Nat
  context : Nat
  gen : Nat
  seq : Word
  aux : Word
  aux2 : Word
  crc : Word
  data : List Word
  /-- ACK: the class of the packets it acknowledges, which the header gives no field (log 20) -/
  ackFor : Nat := 0
deriving DecidableEq, Repr, Inhabited

/-- A slot of a shaping Niche's batches: the Niche, the core its batches are written to, and the slot's number counted over the batches of the band on
that core; over all batches for a crop list (05_shaping.md R129-R131). -/
structure SlotRef where
  niche : Nat
  core : Nat
  index : Nat
deriving DecidableEq, Repr, Inhabited

/-- A 16-bit video or audio record as OUT issues it: header fields that the record writer does not compute itself, and the body
words DW8 onwards (04_stream_decode.md Table 4.8, R117). -/
structure RecordReq where
  session : Bool
  context : Nat
  type : Nat
  don : Word
  band : Nat
  typeFlags : Nat
  t0 : Nat
  /-- every Niche that produced it has SAFETY = 1 -/
  safeNiches : Bool
  /-- the picture or block is within its declared budgets (R83) -/
  within : Bool
  concealed : Bool
  late : Bool
  catching : Bool
  replayed : Bool
  /-- STATUS field of the record, 0 where its type has none -/
  status : Nat
  body : List Word
  /-- BAND_RESULT: the slot each entry derives from, where it derives from one (05_shaping.md R131) -/
  slots : List (Option SlotRef)
deriving DecidableEq, Repr, Inhabited

/-- One output of a band as the OUT Niche hands it over (07_mapping.md R195): output index and its entries' bytes; ENTRY comes from the binding. -/
structure OutputData where
  output : Nat
  entry : Nat
  entryBytes : Nat
  /-- the slot of its band's batches each entry derives from, where it derives from one (05_shaping.md R131) -/
  slots : List (Option SlotRef)
  entries : List (List Byte)
deriving DecidableEq, Repr, Inhabited

/-- What a completing Niche meets that its descriptor does not fix. -/
structure NicheResult where
  /-- OUT: the outputs it writes -/
  outputs : List OutputData
  /-- consumed an uncorrectable sector, in SRAM (`sram`) or DRAM (R266, R318) -/
  eccFault : Bool
  sram : Bool
  /-- MX, VX: crop lists it writes to device memory for later Niches of its trigger (05_shaping.md R120): (address, bytes) -/
  boxes : List (Nat × List Byte)
  /-- pool buffers whose shares the Niche releases (11_memory.md R274): their addresses -/
  released : List Nat
deriving DecidableEq, Repr, Inhabited

/-- One slice the evidence encoder has finished (04_stream_decode.md R112-R115): the identity and the crop rectangle its Niche's descriptor
gives, and how long the coded rows came out. -/
structure SliceOut where
  evid : Word
  cropX : Int
  cropY : Int
  cropW : Nat
  cropH : Nat
  /-- bytes each CTU row that ends in the slice took -/
  rowBytes : List Nat
  /-- payload bytes of the record -/
  bytes : Nat
  /-- the slot of its band's batches the crop derives from, where it derives from one (05_shaping.md R131) -/
  slot : Option SlotRef
  /-- the slice is split here, since the next CTU, of this many bytes, would pass the limit of the payload -/
  nextCtu : Option Nat
deriving DecidableEq, Repr, Inhabited

/-- Result of one delay sweep (11_memory.md R256, R258): passing settings of each DQ, of the CS delay and of the VREF the step sweeps, and the error
count. -/
structure Sweep where
  /-- for each DQ, the settings that pass -/
  passing : List (List Nat)
  /-- step 2: settings of the CS delay that pass -/
  cs : List Nat
  /-- steps 2, 5 and 6: settings of VREF that pass, in the steps of the device's mode registers -/
  vref : List Nat
  errors : Nat
deriving DecidableEq, Repr, Inhabited

/-- Where a read of host memory fails (13_host_endpoint.md R299). -/
inductive ReadAt where
  /-- slot at the head of submission ring `q` -/
  | slot (q : Nat)
  /-- source bytes of the feed or append at the head of ring `q`; its slots are given -/
  | source (q : Nat) (words : List Word)
  /-- host read of the executing command at journal position `j` -/
  | command (j : Nat)
deriving DecidableEq, Repr, Inhabited

/-- How a read of host memory fails (13_host_endpoint.md R299, Table 13.10). -/
inductive ReadCause where
  | unsupported | aborted | poisoned | ecrc | timeout
deriving DecidableEq, Repr, Inhabited

/-- The host-memory read that failed, and the header of the completion, if one came. -/
structure ReadFail where
  place : ReadAt
  cause : ReadCause
  header : List Word
deriving DecidableEq, Repr, Inhabited

/-- A write of INTX_CAUSE, with the causes that hardware sets in the same clock (13_host_endpoint.md R307). -/
structure IntxWrite where
  v : Word
  same : Word
deriving DecidableEq, Repr, Inhabited

/-- DWs of the configuration space that hold the items of 13_host_endpoint.md R297 and R300, by name (log 141). -/
inductive ConfigReg where
  /-- Device ID and Vendor ID; Status and Command; class code and Revision ID; header type and Cache Line Size -/
  | id | commandStatus | classRevision | header
  /-- base address registers 0-5, BAR0 and BAR2 two DWs each -/
  | bar (n : Nat)
  /-- subsystem identity; Expansion ROM; Interrupt Pin and Interrupt Line -/
  | subsystem | rom | interrupt
  /-- Power Management status and control; Device Control and Device Control 2 -/
  | power | deviceControl | deviceControl2
  /-- Advanced Error Reporting -/
  | uncorStatus | uncorMask | uncorSeverity | corStatus | corMask | aerControl
  | headerLog (n : Nat)
  /-- Device Serial Number -/
  | serialLo | serialHi
deriving DecidableEq, Repr, Inhabited

/-- Where a register write of the host goes: BAR0, or the configuration space (log 141). -/
inductive RegAt where
  | bar0 (off : Nat)
  | config (r : ConfigReg)
deriving DecidableEq, Repr, Inhabited

/-- AER errors the endpoint can receive (13_host_endpoint.md Table 13.10, R308). -/
inductive AerError where
  | receiverError | badTlp | badDllp | replayTimeout | replayRollover | advisory
  | poisoned | ecrc | unsupported | completionTimeout | unexpectedCompletion
  | dataLinkProtocol | receiverOverflow | flowControl | malformed
deriving DecidableEq, Repr, Inhabited

/-- Where a latent uncorrectable error is found (14_safety.md Table 14.2 bits 1 and 2). -/
inductive ScrubPlace where
  | controlMemory | nicheCache | proofBlock | writerBuffer
deriving DecidableEq, Repr, Inhabited

/-- How a port's training attempt ends (12_links.md R282, R283, R290): the peer's identity and the credits it gives each class and channel
(control, LC, BE; channel 0, then 1), or a failed step before that. -/
inductive TrainEnd where
  | failed
  | identity (chip role port torusX torusY : Nat) (incarnation : Word) (credits : List Nat)
deriving DecidableEq, Repr, Inhabited

/-- One image in the boot flash: its header words (18_startup.md Table 18.5), and whether the SHA-384 digest of PUBKEY equals the fused one and the
ECDSA P-384 signature is valid (R387). -/
structure ImageInfo where
  header : List Word
  keyOk : Bool
  signatureOk : Bool
deriving DecidableEq, Repr, Inhabited

/-- What start-up meets (18_startup.md R384-R389). -/
structure BootInfo where
  barSize : Bool
  testEn : Bool
  bootSrc : Bool
  /-- the two copies of the boot configuration block: 1,024 words each (Table 18.4) -/
  configA : List Word
  configB : List Word
  stageA : ImageInfo
  stageB : ImageInfo
  mainA : ImageInfo
  mainB : ImageInfo
  /-- capacity per channel in MiB, ranks per channel, all channels equal and populated -/
  chanMib : Nat
  ranks : Nat
  uniform : Bool
  /-- training step that failed its third attempt: (step, rank, channel) -/
  trainFail : Option (Nat × Nat × Nat)
  /-- cores that failed both self-tests -/
  badCores : List Nat
  /-- how the first training attempt of each enabled port ends -/
  portsUp : List (Nat × TrainEnd)
  /-- negotiated PCI Express speed in GT/s and width (13_host_endpoint.md Table 13.1, 01_architecture.md R16) -/
  pcieSpeed : Nat
  pcieWidth : Nat
  /-- INCARNATION and chip facts come from State; stepping of the silicon -/
  stepping : Nat
deriving DecidableEq, Repr, Inhabited

/-- Where a command of the host and maintenance ports arrives: an accepted packet at journal position `j`, or a packet on the maintenance port
(03_commands.md R43, R44). -/
inductive TestSrc where
  | journal (j : Nat)
  | maintenance (pkt : List Word)
deriving DecidableEq, Repr, Inhabited

/-- Rails of 19_pins.md Table 19.2. -/
inductive Rail where
  | vddCore | vddPll | vddSram | vddDdrphy | vddqDdr | vddSerdes | vddIo
deriving DecidableEq, Repr, Inhabited

/-- Requesters of a channel controller, in the order of 11_memory.md R260. -/
inductive Requester where
  | control | recordWriter | stream | shaping | tae | sequence
  | core (c : Nat)
  | link | pcie | observation
deriving DecidableEq, Repr, Inhabited

/-- A DRAM line request (11_memory.md R259-R261). -/
inductive DramAction where
  /-- queue a requester's read of 64-byte line `line`, of class LC or BE -/
  | read (who : Requester) (line : Nat) (lc : Bool)
  /-- queue a requester's write of 64-byte line `line` with byte enables -/
  | write (who : Requester) (line : Nat) (lc : Bool) (bytes : List (Option Byte))
  /-- serve the next request of the channel: how many older requests a request to an open row passes, what a read finds in each of the line's two
  sectors, the row it opens (bank, row, last row of the bank), whether its data serves a safety Niche -/
  | serve (pick : Nat) (ecc : EccCond × EccCond) (activate : Option (Nat × Nat × Bool)) (safetyNiche : Bool)
deriving DecidableEq, Repr, Inhabited

/-- A picture that a late row names: its DON, and the head of its access unit, by which the picture is known while its decoding has not begun (log 21). -/
structure PicRef where
  don : Word
  head : AuInfo
deriving DecidableEq, Repr, Inhabited

/-- One SPI transaction: its words, and whether the entry of the packet it reports on was written before its chip select fell (14_safety.md R325). -/
structure SpiFrame where
  words : List Word
  written : Bool
deriving DecidableEq, Repr, Inhabited

/-- The commands of the block, one constructor per row of spec/opcode_table.json, in the table's order. -/
inductive Instr where
  | nop (j : Nat)
  | fence (j : Nat)
  | streamOpen (j : Nat)
  | streamClose (j : Nat)
  | streamFeed (j : Nat)
  | streamRetune (j : Nat)
  | maquetteLoad (j : Nat) (pkg : Package)
  | maquetteDrop (j : Nat)
  | armatureCommit (j : Nat) (block : List Word) (plan : CommitPlan)
  | armatureSwap (j : Nat)
  | tensorRun (j : Nat)
  | seqOpen (j : Nat) (answered : Bool)
  | seqAppend (j : Nat) (run : AppendRun)
  | seqStep (j : Nat) (runs : List StepRun)
  | seqClose (j : Nat)
  | trackConfig (j : Nat)
  | trackQuery (j : Nat)
  | poolConfig (j : Nat)
  | poolStatus (j : Nat)
  | linkConfig (j : Nat) (upPorts : List (Nat × TrainEnd))
  | routeSet (j : Nat)
  | collective (j : Nat) (rows : List (List KvRow))
  | safetyArm (j : Nat) (proofPass : Bool)
  | safetyClear (j : Nat) (proofPass : Bool) (during : Nat)
  | safetyStatus (j : Nat)
  | safetyHeartbeat (j : Nat)
  | counterFreeze (j : Nat)
  | counterRead (j : Nat)
  | traceConfig (j : Nat)
  | clientStats (j : Nat)
  | resetEngine (j : Nat)
  | resetCore (j : Nat)
  | resetCompute (j : Nat)
  | impressionRead (src : TestSrc)
  | dramTrainStep (pkt : List Word) (sweep : Sweep)
  | testOpcode (src : TestSrc)
  | commandAccept (r0 r1 : List SlotRead)
  | closeFinal (j : Nat)
  | deferredOpenRun (j : Nat) (session : Bool)
  | cmdRingTail (q : Nat) (v : Word)
  | cplRingHead (q : Nat) (v : Word)
  | ringEnSet (q : Nat)
  | ringEnClear (q : Nat)
  | outRingEnSet (o : Nat)
  | outRingEnClear (o : Nat)
  | outRingHead (o : Nat) (v : Word)
  | outCoal (o : Nat) (v : Word)
  | outCoalBytes (o : Nat) (v : Word)
  | intxCause (w : IntxWrite)
  | tickLo
  | outFullTicksLo (o : Nat)
  | accessErrors
  | registerWrite (at_ : RegAt) (v : Word) (be : Nat)
  | bar2Read (off len : Nat) (ecc : List EccCond)
  | bar2Write (off : Nat) (bytes : List Byte)
  | hostReadFail (r : ReadFail)
  | intxHoldoffExpiry
  | functionLevelReset (hung : Bool)
  | hotReset (hung : Bool)
  | d3hotEntry
  | d0Return
  | outCoalExpiry (o : Nat)
  | recordWrite (r : RecordReq)
  | heldRecordRelease (o : Nat)
  | tsPacket (slot : Nat)
  | warRecord (slot : Nat)
  | retentionShortEnd (slot : Nat)
  | retentionRelease (slot : Nat)
  | entropyDecode (slot : Nat) (info : AuInfo)
  | rowReconstructed (slot : Nat) (row : RowData)
  | stripFeedResume (slot : Nat)
  | bandTrigger (slot : Nat)
  | audioBlockTrigger (slot : Nat)
  | decodeLate (slot : Nat) (pic : PicRef)
  | shpTileRow (slot : Nat) (nicheIx : Nat)
  | nicheDispatch (u : UnitId)
  | nicheComplete (u : UnitId) (r : NicheResult)
  | fedAppend (sess : Nat) (run : AppendRun) (steps : List StepRun)
  | evidenceSlice (u : Nat) (sl : SliceOut)
  | xchgLand (pair : Nat × Nat)
  | beGap (u : UnitId)
  | bePause (u : UnitId) (tilesDone : Nat)
  | nicheWatchdog (u : UnitId)
  | xchgHang (c : Nat)
  | entropyHang (e : Nat)
  | reconHang (e : Nat)
  | stripRowHang (u : Nat)
  | impressionWritten
  | engineReset (c e : Nat)
  | engineResetEnd (c e : Nat) (pass : Bool)
  | engineResetTimeout (c e : Nat)
  | coreReset (c : Nat)
  | coreResetEnd (c : Nat) (pass : Bool)
  | coreResetTimeout (c : Nat)
  | computeReset
  | computeResetEnd (firstFail secondFail : List Nat) (lostA lostB : List Nat) (badCkpt : List Nat)
  | computeResetTimeout
  | safetyFrame (frame : SpiFrame)
  | lockstep (pair : Nat)
  | hbMissed
  | proofCastDue (c e : Nat)
  | proofCastCheck (c e : Nat) (ok : Bool)
  | proofCastInterval (c e : Nat)
  | lposStall (slot : Nat) (pic : PicRef) (band : Nat)
  | recordLate (slot : Nat) (pic : PicRef) (band : Nat)
  | clock (ref : Nat) (devPpm : Int)
  | voltage (r : Rail) (microvolts : Int)
  | temperatureSample (milliC : Int)
  | sramScrub (p : ScrubPlace) (uncorrectable : Bool)
  | patrolScrub (sector : Nat) (ecc : EccCond)
  | dramRequest (ch : Nat) (a : DramAction)
  | driftCheck (ch rank : Nat) (readDelta writeDelta : Int)
  | allBankRefresh (ch : Nat)
  | poolRefill (p : Nat) (bad : Option Nat)
  | refcountIncrement (addr : Nat)
  | codewordReceive (port : Nat) (corrected : Bool) (credits : Option (List Nat))
  | command (port : Nat) (pk : LinkPkt)
  | accept (port : Nat) (pk : LinkPkt)
  | refuse (port : Nat) (pk : LinkPkt)
  | completion (port : Nat) (pk : LinkPkt)
  | scatter (port : Nat) (pk : LinkPkt)
  | gather (port : Nat) (pk : LinkPkt)
  | stale (port : Nat) (pk : LinkPkt)
  | ack (port : Nat) (pk : LinkPkt)
  | flrNotice (port : Nat) (pk : LinkPkt)
  | linkPacketForward (port : Nat) (pk : LinkPkt)
  | ackSend (chip cls : Nat)
  | retransmit (chip cls : Nat)
  | portDown (port : Nat)
  | codewordTimeout (port : Nat)
  | portTrainRetry (port : Nat)
  | trainingComplete (port : Nat) (r : TrainEnd)
  | trigIn
  | counterSample (c : Nat)
  | traceDrain (src : Nat) (headRead : Nat)
  | pictureTap (don : Word) (written : Option Nat) (headRead : Nat)
  | capN (level : Bool)
  | clearFaults
  | statusTemperature
  | readTemperature1
  | pmbusRevision
  | capF (w : Option Nat)
  | capPinF (w : Option Nat)
  | capActive
  | otWarn (w : Option Nat)
  | thermtrip
  | powerOnReset
  | startUp (b : BootInfo)
  | interruptDisable (v : Bool)
  | aerError (e : AerError) (header : List Word)
  | seqTrigger (model group : Nat) (segs : List Nat)
deriving DecidableEq, Repr, Inhabited

end Sys2Proof
end

