-- ==== Sys2Proof/Decode.lean ====
section
/-! DEFINITION. The word decoder the host asks about. spec/opcode_table.json gives its rows no bits (every row's list of fields is
empty), so no word spells a command. -/

namespace Sys2Proof

/-- The command an `nbits`-bit word spells: none, because the table gives no row any bits. -/
def decodeTableWord (_nbits _w : Nat) : Option Instr := none

end Sys2Proof
end

