-- ==== Sys2Proof/Config.lean ====
section
/-! DEFINITION. What the manual fixes as one number for every part, and the free values: constants without a body, for values the
manual leaves open. -/

namespace Sys2Proof.Config

/-- Free value: the n-th draw of the CHALLENGE from the hardware random source (14_safety.md R328). -/
opaque freeChallenge : Nat → Word

/-- Free value: the INCARNATION drawn at the n-th power-on reset (12_links.md R283). -/
opaque freeIncarnation : Nat → Word

/-- Free value: whether the n-th activate draws a neighbour refresh at RFM_N = k (11_memory.md R262). -/
opaque freeNeighbourDraw : Nat → Nat → Bool

/-- Free value: the FP32 result of a transcendental operation (opcode of Table 6.8) where the manual gives an accuracy and no
bit pattern (06_tensor_cores.md R161). -/
opaque freeTranscendental : Nat → Word → Word

/-- Free value: an accumulator source past the last row or bank (06_tensor_cores.md R136, Table 6.9). -/
opaque freeAcc : Nat → Word

/-- Free value: scale byte that pad rows of PAD_CONST in BS4 have (07_mapping.md R187). -/
opaque freePadScale : Nat

/-- Free value: byte of the failure log that no Impression header has been written to (16_observation.md R375). -/
opaque freeFlash : Nat → Byte

/-- Free value: number that PART 3 of an Impression gives a unit: engines 0-3 and the vector engine 4 of a core, else the unit's own number
(16_observation.md R372). -/
opaque freeUnitNo : Nat → Nat

/-- Free value: result of a delay sweep the manual leaves to the device's mode registers (11_memory.md R256). -/
opaque freeDelay : Nat → Nat

/-- Free value: register contents captured in PART 2 of an Impression (16_observation.md R372). -/
opaque freeUnitState : Nat → Word

/-- Free value: words of head outputs a peer computes for a GATHER (12_links.md R293). -/
opaque freeHead : Nat → Word

/-- Free value: words of a layer's input that the home part sends in a SCATTER, and how many of its packet's 256 there are (12_links.md R293). -/
opaque freeLayer : Nat → Word

/-- Free value: byte `i` of the HEVC bitstream that an evidence encoder makes of a slice: of the samples it reads, the QP, the slice's number and the
preview it refers to (04_stream_decode.md R112-R114). -/
opaque freeCoded : List Nat → Nat → Byte

/-- Free value: a result word or a tensor-clock count that the manual leaves open. -/
opaque freeResult : Nat → Word

/-- Free value: figure number `item` that Ronas reports for binding `i` of a commit: 0 P_ARM, 1 T_PG, 2 ENC_IN_PARM, 3 + c P_ARM_VAR of core c; a function
of CORE_MASK and of each binding's fields with its entry (07_mapping.md R171, log 152). -/
opaque armFigure (mask : Nat) (l : List (List Nat × Option MaqEntry)) (i item : Nat) : Nat

/-- Free value: DW of the header of a TLP that the Header Log keeps (13_host_endpoint.md R308). -/
opaque freeHeader : Nat → Word

/-- Device Serial Number, from fuses (13_host_endpoint.md Table 13.2). -/
opaque serialNumber : BitVec 64

/-- Refresh management as the device's mode registers report it (11_memory.md R263): whether it is needed, the activates of a bank at which an RFM
command is issued, and those that an RFM command or an all-bank refresh takes off the count. -/
opaque rfmNeeded : Bool
opaque rfmThreshold : Nat
opaque rfmRelief : Nat

/-- Ticks of t_arr (02_raster_time.md R20). -/
def tArr : Nat := 400
/-- Stream slots, sessions, track contexts, cores (01_architecture.md Table 1.5). -/
def slots : Nat := 128
def sessions : Nat := 4096
def tracks : Nat := 65536
def cores : Nat := 16
/-- Scratchpad bytes of a core (06_tensor_cores.md Table 6.1). -/
def spadBytes : Nat := 6291456
/-- First byte of the Proof cast reference block (14_safety.md R320). -/
def proofBase : Nat := 6160384
/-- Accumulator rows of a bank left to Niches other than Proof casts (07_mapping.md Table 7.6). -/
def accUsable : Nat := 1504
/-- Decode pixel budget (04_stream_decode.md Table 4.2). -/
def decodeBudget : Nat := 6400000000
/-- Bins per second of one entropy engine (04_stream_decode.md R80). -/
def engineBins : Nat := 1000000000
/-- Journal shares (03_commands.md R65). -/
def journalShared : Nat := 15808
def journalSafety : Nat := 64
def journalRing : Nat := 512
/-- Heartbeat gap and safety marks in ticks (14_safety.md R328, R322). -/
def hbGap : Nat := 6000
def castDue : Nat := 6000
def castMax : Nat := 8000
/-- Ticks within which a safety-port journal entry is written (14_safety.md R325). -/
def spiWrite : Nat := 20
/-- TILE_REV of the firmware described (07_mapping.md R166). -/
def tileRev : Nat := 1

end Sys2Proof.Config
end

