-- ==== Sys2Proof/Machine/State.lean ====
section
/-! DEFINITION. The state of the WZ9640 as plain data, the reasons a step can stop, and the state right after reset.
Each field's docstring gives its width, the file and rule that names it and its reset value. -/

namespace Sys2Proof.Machine

/-- A sparse table keyed by number; an index with no entry holds the reset value its reader names. -/
abbrev Tab (α : Type) := List (Nat × α)

/-- Bytes by address in canonical form (addresses strictly rising, no entry equal to the unlisted value 0). -/
abbrev Mem := List Host.Cell

/-- A command port (03_commands.md Table 3.1). -/
inductive Port where
  | host | safety | ring | maintenance
deriving DecidableEq, Repr, Inhabited

/-- Life of an accepted command (03_commands.md R61-R72, 11_memory.md R268). -/
inductive CmdState where
  /-- accepted, execution not begun -/
  | waiting
  /-- an open that waits for a close of its context (R72) -/
  | deferred
  /-- execution begun, final completion not produced -/
  | running
  /-- forwarded to another part, its completion awaited (R74) -/
  | forwarded
  /-- final completion produced -/
  | done
deriving DecidableEq, Repr, Inhabited

/-- A completion (03_commands.md Table 3.6) without PHASE, which the ring gives it. -/
structure Cpl where
  status : Nat
  opcode : Nat
  tag : Word
  asn : Word
  final : Bool
  chip : Nat
  gen : Nat
  context : Nat
  r0 : Word
  r1 : Word
  r2 : Word
  r3 : Word
deriving DecidableEq, Repr, Inhabited

/-- A journal entry (11_memory.md R268). -/
structure JEntry where
  jpos : Nat
  port : Port
  queue : Nat
  asn : Word
  pkt : List Word
  /-- data copied before journalling (R63) -/
  data : List Byte
  tick : Nat
  st : CmdState
  /-- completions produced and not posted -/
  cpls : List Cpl
  /-- completions posted -/
  posted : Nat
  /-- FENCE: earlier commands in its scope unfinished at acceptance -/
  waited : Nat
  /-- forwarded from: (chip, journal position there) -/
  origin : Option (Nat × Nat)
  /-- forwarded to, with its ACCEPT received -/
  fwd : Option (Nat × Bool)
  /-- tick at which execution began -/
  began : Option Nat
  client : Nat
  /-- place of the 512-byte entry in both journal mirrors, which hold these fields as they stand until the final completion (11_memory.md R268) -/
  place : Nat
  /-- accepted while a compute-domain reset was requested or in progress (15_recovery.md R338) -/
  during : Bool
deriving DecidableEq, Repr, Inhabited

/-- Registers and device-side position of one host queue (13_host_endpoint.md Table 13.4). -/
structure HostQueue where
  /-- 32 bits each, Table 13.4, reset 0 -/
  cmdBaseLo : Word
  cmdBaseHi : Word
  cmdSize : Word
  headWbLo : Word
  headWbHi : Word
  cplBaseLo : Word
  cplBaseHi : Word
  cplSize : Word
  /-- RING_CTRL[0], R48, reset 0 -/
  ringEn : Bool
  /-- RING_STATUS CONFIG_ERR and BAD_TAIL, Table 13.9, reset 0 -/
  configErr : Bool
  badTail : Bool
  /-- CMD_LAST_ASN, CPL_LAST_ASN: 32 bits, Table 13.4, reset 0, kept across function-level reset -/
  cmdLastAsn : Word
  cplLastAsn : Word
  /-- CMD_RING_TAIL and CPL_RING_HEAD: 16 bits, reset 0 -/
  tail : Nat
  cplHead : Nat
  /-- HEAD of the last head write-back, which is the device's head (R50), reset 0 -/
  head : Nat
  /-- index of the next completion entry and its PHASE (R51), reset 0 and 1 -/
  cplIndex : Nat
  phase : Bool
  /-- ASN counter: last value given (R62), reset 0 -/
  asn : Word
  /-- consecutive failures of the ring's reads of host memory; 8 stop the reading (R299, R312), reset 0 -/
  failRun : Nat
  /-- a host ring has been enabled since the last power-on or function-level reset (R258), reset 0 -/
  everEnabled : Bool
deriving DecidableEq, Repr, Inhabited

/-- What a record is about, kept for the record watchdog and replay (14 R323, 15 R355). -/
structure RecTag where
  session : Bool
  context : Nat
  don : Nat
  band : Nat
  type : Nat
  seq : Nat
  last : Bool
deriving DecidableEq, Repr, Inhabited

/-- A built record: its tag and its words, CRC included (04_stream_decode.md Table 4.8). -/
structure BuiltRec where
  tag : RecTag
  words : List Word
deriving DecidableEq, Repr, Inhabited

/-- Registers and writer position of one output ring (13_host_endpoint.md Table 13.5, 03_commands.md R53, R54). -/
structure OutRing where
  /-- 32 bits each, reset 0; OUT_COAL_BYTES resets to 0x1000 -/
  baseLo : Word
  baseHi : Word
  size : Word
  tailWbLo : Word
  tailWbHi : Word
  coal : Word
  coalBytes : Word
  /-- OUT_CTRL, reset 0 -/
  irqEn : Bool
  ringEn : Bool
  /-- OUT_STATUS CONFIG_ERR and RING_ACTIVE, reset 0 -/
  configErr : Bool
  active : Bool
  /-- OUT_RING_HEAD, OUT_TAIL: 26 bits, reset 0 -/
  head : Nat
  tail : Nat
  /-- write offset of the record writer, reset 0 -/
  wr : Nat
  /-- records written and not covered by a tail write-back, oldest first -/
  uncovered : List RecTag
  /-- tick at which the OUT_COAL ticks in force when the oldest of them was written have passed -/
  due : Nat
  uncoveredBytes : Nat
  /-- records held, in order (R54) -/
  held : List BuiltRec
  /-- the hold is because the ring is full -/
  fullHold : Bool
  /-- OUT_FULL_TICKS: 64 bits, and the latched high half, reset 0 -/
  fullTicks : Nat
  fullHi : Word
deriving DecidableEq, Repr, Inhabited

/-- A Niche schedule in force: an Armature handle and, if a core is fenced, the variant without it (07 R190). -/
structure SchedRef where
  arm : Nat
  var : Option Nat
deriving DecidableEq, Repr, Inhabited

/-- Decoded STREAM_OPEN parameters (04_stream_decode.md Table 4.1). -/
structure StreamCfg where
  codec : Nat
  container : Nat
  timing : Nat
  output : Nat
  /-- lines -/
  hBand : Nat
  safety : Bool
  outRing : Nat
  depth10 : Bool
  maxDpb : Nat
  maxW : Nat
  maxH : Nat
  bPix : Nat
  bitrate : Nat
  framePeriod : Nat
  /-- ms -/
  retention : Nat
  /-- sixteenths -/
  deadline : Nat
  /-- ms -/
  irapMax : Nat
  /-- sample frames -/
  audioBlock : Nat
  mics : Nat
  tsPid : Nat
  evMode : Nat
  evRows : Nat
  evQpMin : Nat
  evQpMax : Nat
  evTarget : Nat
deriving DecidableEq, Repr, Inhabited

/-- TRACK_CONFIG values of a slot (08_tracking.md Table 8.2). -/
structure TrackCfg where
  alpha : Nat
  beta : Nat
  embAlpha : Nat
  classGate : Bool
  gateIou : Nat
  gateEmb : Nat
  wIou : Nat
  wEmb : Nat
  cNew : Nat
  birthConf : Nat
  confirmHits : Nat
  maxMissesTent : Nat
  maxMisses : Nat
  trackMax : Nat
deriving DecidableEq, Repr, Inhabited

/-- Coded bytes accepted and not yet taken by the container parser, with their feed's marks (04_stream_decode.md R85-R88). -/
structure FeedChunk where
  bytes : List Byte
  tick : Nat
  asn : Word
  auEnd : Bool
  discont : Bool
  /-- a mark without bytes: the rest of the access unit was discarded here (R86) -/
  drop : Bool
  /-- accepted while the RETENTION_SHORT condition lasted (R109) -/
  short : Bool
deriving DecidableEq, Repr, Inhabited

/-- An access unit in retention (04_stream_decode.md R88, R108). -/
structure Au where
  id : Nat
  bytes : List Byte
  /-- bytes of the feeds it counts in retention -/
  size : Nat
  /-- acceptance tick of the feed that completed it -/
  complete : Option Nat
  /-- acceptance tick of its last feed -/
  fed : Nat
  pts : Option Nat
  irap : Bool
  decoded : Bool
  retShort : Bool
  /-- no more data of the access unit is taken: complete, or cut short with its picture begun (R86, R87) -/
  closed : Bool
  /-- a discontinuity precedes it: earlier pictures are no references for it or what follows (R87) -/
  gap : Bool
  /-- DON of its picture once begun, and its decoding has begun since the last restart of decoding (R354) -/
  don : Option Nat
  started : Bool
  /-- bytes held after each feed of it, with the feed's acceptance tick (R89) -/
  marks : List (Nat × Nat)
  /-- bytes of the segments decoded -/
  taken : Nat
  /-- part of it was discarded by an overflow: its picture is no reference for later ones (R86) -/
  noRef : Bool
  /-- DECODE_LATE before its picture began: first band that does not fire, the schedule its deadline fixed (R40), and the head of its syntax -/
  late : Option (Nat × SchedRef × AuInfo)
  /-- its PICTURE_STATUS was written before its picture began (R107) -/
  reported : Bool
deriving DecidableEq, Repr, Inhabited

/-- A picture of a stream, from entropy decoding until its last user is done (02 R18-R41, 04 R83-R107). -/
structure Picture where
  don : Nat
  au : Nat
  pts : Option Nat
  w : Nat
  h : Nat
  depth : Nat
  ctb : Nat
  mono : Bool
  kind : PicKind
  /-- raster indices of the CTUs or macroblocks received coded -/
  coded : List Nat
  /-- the access unit has no more segments -/
  segsDone : Bool
  bins : Nat
  auTick : Nat
  within : Bool
  /-- decode order numbers of list 0 index 0 and of every reference -/
  list0 : Option Nat
  refs : List Nat
  concealed : Bool
  concealedUnits : Nat
  /-- LINE of R18 -/
  line : Nat
  /-- CTU or macroblock rows reconstructed -/
  rows : Nat
  sched : Option SchedRef
  /-- the stream was served by an Armature when the schedule was fixed (R169) -/
  bound : Bool
  /-- bands whose trigger fired, with the firing tick -/
  fired : Tab Nat
  /-- ticks in which LINE first reached y of band b -/
  reached : Tab Nat
  /-- first band that did not fire, once DECODE_LATE -/
  late : Option Nat
  replayed : Bool
  retShort : Bool
  /-- PICTURE_STATUS written -/
  statusDone : Bool
  /-- held in the reference store -/
  stored : Bool
  isRef : Bool
  /-- records issued per band, and to be discarded per band in replay -/
  issued : Tab Nat
  discard : Tab Nat
  /-- TRACK_UPDATE records issued per band (R355) -/
  trkDone : Tab Nat
  /-- judged under R83 -/
  judged : Bool
  /-- pictures before this DON are no references for it (R87, R105) -/
  loss : Nat
  /-- checkpoint written at its start: DONs of the pictures in the reference store (R354) -/
  ckpt : Option (List Nat)
  /-- LINE after each row, with its tick -/
  lineAt : List (Nat × Nat)
  /-- segments known to be fed: units, acceptance tick of the feed that held the end (R89) -/
  segTicks : List (List Nat × Nat)
  /-- values in force for this picture (R84) -/
  outRing : Nat
  bPix : Nat
  deadline : Nat
  tapped : Bool
  /-- steps of the tile plan each line Niche has written, by Niche index, and tiles of the step under way (R128, R129) -/
  tileRows : Tab Nat
  tileCols : Tab Nat
  /-- place in the reference store (Table 4.3) -/
  place : Nat
  /-- no reference for later pictures (R86) -/
  noRef : Bool
  /-- its access unit was discarded by a close: no more of it is decoded or reconstructed (R71) -/
  dropped : Bool
  /-- segments decoded: units, picture at index 0 of list 0 (R104) -/
  segSrc : List (List Nat × Option Nat)
  /-- bins of each row in the bin buffer (R96) -/
  rowBins : Tab Nat
  /-- concealment chains before the picture, restored when its access unit is discarded (R87) -/
  chains : Bool × Bool
  /-- TRACK_CONFIG values its TRK Niches use, from the first of them (08_tracking.md R199) -/
  trkCfg : Option TrackCfg
  /-- sample planes: line number to samples; an absent line is mid-grey -/
  luma : Tab (List Nat)
  cb : Tab (List Nat)
  cr : Tab (List Nat)
deriving DecidableEq, Repr, Inhabited

/-- A record of a stream whose turn has not come (04_stream_decode.md R118), and the output it carries for the sessions it feeds. -/
structure LateRec where
  req : RecordReq
  last : Bool
  feed : Option OutputData
deriving DecidableEq, Repr, Inhabited

/-- A close in progress (03_commands.md Table 3.8). -/
structure CloseSt where
  j : Nat
  flush : Bool
  /-- step 4 is done: the buffers are released -/
  freed : Bool
deriving DecidableEq, Repr, Inhabited

/-- A device-memory allocation (11_memory.md R271, R275). -/
structure Alloc where
  addr : Nat
  bytes : Nat
  /-- pool number, or 8 for the safety region -/
  pool : Nat
  ecc : Bool
deriving DecidableEq, Repr, Inhabited

/-- One stream slot (04_stream_decode.md, 03_commands.md R70). -/
structure Stream where
  /-- R69, reset closed -/
  isOpen : Bool
  /-- 8 bits, 1-255, R70, reset 1 -/
  gen : Nat
  cfg : StreamCfg
  /-- entropy engine, 3 bits, R80 -/
  engine : Nat
  /-- buffers of Table 4.3 -/
  allocs : List Alloc
  /-- reference-store allocation: the picture region of R406 -/
  picRegion : List Alloc
  /-- retention buffer, replaced by a retune (R84), and its capacity in bytes -/
  retAllocs : List Alloc
  retCap : Nat
  feeds : List FeedChunk
  /-- the rest of the access unit is discarded until its end (R86) -/
  dropRest : Bool
  aus : List Au
  nextAu : Nat
  /-- acceptance tick from which R109 counts, none before the first feed -/
  irapFrom : Option Nat
  /-- RETENTION_SHORT condition and the tick of its first release -/
  retShort : Bool
  retShortAt : Nat
  /-- TS parser: last continuity counter, run of scrambled packets, PMT PID and video PID, pending error gap -/
  lastCc : Option Nat
  scrambled : Bool
  pmtPid : Option Nat
  videoPid : Option Nat
  errGap : Bool
  /-- a discontinuity waits for the next access unit or audio record (R87, R92) -/
  gapNext : Bool
  /-- DON of the next picture, 32 bits, R18, reset 0 -/
  nextDon : Nat
  lastDon : Option Nat
  pics : List Picture
  /-- rejection status of R99 or DIM_EXCEEDS_OPEN state of R100 -/
  reject : Option Nat
  dim : Bool
  /-- pictures up to the next IRAP or IDR are concealed (R103) -/
  concealChain : Bool
  /-- the last IRAP or IDR ended such a chain: its RASL pictures are concealed (R103) -/
  raslChain : Bool
  /-- reference pictures before the last discontinuity or loss are unavailable below this DON (R87, R105) -/
  lossDon : Nat
  catchup : Bool
  /-- reconstruction paused for staging or reference-store room (R97, R98) -/
  paused : Bool
  /-- tick from which the next row could be reconstructed, once it can: the end of the last row, its data decoded, the end of a pause (R340) -/
  rowStart : Nat
  /-- ticks in which bins were last decoded, and in which the bin buffer last came to have room (R340) -/
  binAt : Nat
  roomAt : Nat
  /-- record sequence number of the last record, 32 bits, R116, reset 0 -/
  seq : Nat
  track : TrackCfg
  trackNext : Option TrackCfg
  /-- retuned values waiting for the next picture (R84) -/
  retune : Option StreamCfg
  /-- audio: block position, the PCM ring's bytes with the partial block last and its length, predicted PTS in eighths of its unit, blocks
  fired, blocks with inserted zeros, acceptance ticks of blocks (R110, R111) -/
  block : Nat
  pcm : List Byte
  pcmPart : Nat
  nextPts : Option Nat
  firedBlocks : Nat
  /-- number of the last block fired -/
  lastBlock : Option Nat
  zeroBlocks : List Nat
  blockTicks : Tab Nat
  closing : Option CloseSt
  /-- deferred open: journal position (R72) -/
  deferred : Option Nat
  /-- between the close's final completion and the deferred open's (R72) -/
  opening : Bool
  /-- pictures and bins of the judgement window: (tick, samples, bins) and fed bytes (tick, bytes) (R83) -/
  window : List (Nat × Nat × Nat)
  fedBytes : List (Nat × Nat)
  /-- replay: DON of a video stream's resume picture while replay runs; an audio stream's first block not replayed (R354, R355) -/
  replayFrom : Option Nat
  /-- tick at which decode last restarted: pictures whose access units were complete then are replayed (R355) -/
  replayTick : Option Nat
  /-- audio: records issued per block, and to be discarded per block in replay (R355) -/
  blockIssued : Tab Nat
  blockDiscard : Tab Nat
  /-- previews of each evidence identity since its last IDR preview, and the DON of the last one (R113) -/
  previews : Tab (Nat × Nat)
  /-- DONs of concealed pictures, newest first (R113) -/
  concealedDons : List Nat
  /-- tick of the open, or in which the last picture was wholly reconstructed (R36) -/
  wholeAt : Nat
  /-- streams of the engine to serve before this one, once a picture has passed 4 × b_pic (R95) -/
  yields : List Nat
  /-- TS: bytes of a PAT or PMT section under way, by PID (R90) -/
  psi : Tab (List Byte)
  /-- records handed over whose turn has not come, in order of hand-over (R118) -/
  outbox : List LateRec
deriving DecidableEq, Repr, Inhabited

/-- Life of a Niche of a fired trigger (02_raster_time.md R30, 07_mapping.md R176). -/
inductive RunSt where
  | waiting | ready | running | landing | done | skipped
deriving DecidableEq, Repr, Inhabited

/-- One Niche instance: a Niche of the schedule in force for one picture, block, pack group or Proof cast set. -/
structure Run where
  ref : SchedRef
  niche : Nat
  /-- stream slot, or session model for a pack group -/
  owner : Nat
  seq : Bool
  don : Nat
  band : Nat
  readyAt : Nat
  st : RunSt
  startAt : Nat
  /-- fault status that skipped it -/
  status : Nat
  /-- reruns used after an abort (R343) -/
  reruns : Nat
  /-- core and engine of a Proof cast set placed by Glethes -/
  cast : Option (Nat × Nat)
  /-- tile rows written (SHP), slices written (ENC) -/
  progress : Nat
  /-- a skip reaches successors of other bands of the picture too (R343) -/
  wide : Bool
  /-- ENC: QP and remaining bytes of the rate control (R114) -/
  qp : Nat
  remaining : Nat
  /-- ENC: CTU rows coded, and the last slice is written (R115) -/
  rowsDone : Nat
  encDone : Bool
  /-- ENC: identity and clipped crop, IDR picture, rows coded of the slice a split has left open (R112, R113, R115) -/
  crop : Option (Word × Nat × Nat × Nat × Nat)
  idr : Bool
  sliceRows : Nat
  /-- SHP crop list: slots that hold real tiles or skipped entries, and the skipped entries (R130, R131) -/
  entries : Nat
  pads : List Nat
deriving DecidableEq, Repr, Inhabited

/-- A best-effort job: a TENSOR_RUN in execution, or a step or append chunk of a session that runs as BE (10_work_classes.md R238). -/
structure BeJob where
  /-- journal position; for a fed append that of its issue -/
  j : Nat
  /-- the session it works for -/
  sess : Option Nat
  maq : Nat
  entry : Nat
  next : Nat
  core : Option Nat
  /-- a session's unit: the engine that took it -/
  engine : Option Nat
  /-- begun, then replayed from the start: its wait still counts from `startAt` (R246) -/
  again : Bool
  running : Option UnitId
  paused : Bool
  tiles : Nat
  startAt : Nat
  runAt : Nat
  pausedAt : Nat
  pausedTicks : Nat
  readyAt : Nat
  preempt : Nat
  aborts : Nat
  /-- its part of the core's region: first byte and first accumulator row, counted from the region's (log 135) -/
  base : Nat
  rowBase : Nat
deriving DecidableEq, Repr, Inhabited

/-- A Maquette handle (07_mapping.md R166, R167). -/
structure Maquette where
  pkg : Package
  allocs : List Alloc
deriving DecidableEq, Repr, Inhabited

/-- Binding entry of a commit block (07_mapping.md Table 7.3). -/
structure Binding where
  kind : Nat
  maq : Nat
  target : Nat
  entry : Nat
  maxH : Nat
  maxW : Nat
  bPix : Nat
  framePeriod : Nat
  profile : Word
  audio : Word
deriving DecidableEq, Repr, Inhabited

/-- Best-effort region of one core (07_mapping.md Table 7.4, 10_work_classes.md R234). -/
structure Region where
  spadBase : Nat
  spadBytes : Nat
  /-- per bank: first row, rows -/
  banks : List (Nat × Nat)
deriving DecidableEq, Repr, Inhabited

/-- A committed Armature (07_mapping.md R165, R190). -/
structure Armature where
  coreMask : Nat
  bindings : List Binding
  plan : CommitPlan
  /-- figures of the commit report, one for each binding (R171) -/
  figures : List BindFigures
  regions : List Region
  allocs : List Alloc
  /-- ROLE and torus dimensions at the commit (17_mode_matrix.md R380) -/
  role : Nat
  torusX : Nat
  torusY : Nat
deriving DecidableEq, Repr, Inhabited

/-- A key-value page (09_sequence.md R221, Table 9.2). -/
structure Page where
  valid : Bool
  tokens : Nat
  layer : Nat
  head : Nat
  firstPos : Nat
  data : Nat
  scale : Nat
deriving DecidableEq, Repr, Inhabited

/-- Where the unit under way of a session stands, a step or an append chunk (09_sequence.md R225, R228). -/
inductive SeqPhase where
  /-- no unit has begun -/
  | idle
  /-- it waits for its pack group's trigger, or for a best-effort gap -/
  | ready
  /-- its Niches run -/
  | running
  /-- its Niches have finished -/
  | done
deriving DecidableEq, Repr, Inhabited

/-- An append, steps or fed append in progress on a session (09_sequence.md R225, R226). -/
structure SeqWork where
  /-- the command; none for a fed append -/
  j : Option Nat
  asn : Word
  auto : Bool
  endOnEos : Bool
  concealed : Bool
  catching : Bool
  /-- its wait counts from here: acceptance, or issue of the feeding record; the tick of the begin that replay starts again (10_work_classes.md R246) -/
  tick : Nat
  /-- ticks its units have waited unplaced since then -/
  waited : Nat
  /-- items not yet appended, and steps to run; a command does one of the two -/
  items : List (List Byte)
  frames : Bool
  steps : Nat
  /-- steps done -/
  i : Nat
  phase : SeqPhase
  /-- status that abandons the unit: family 0x05, or LINK_DOWN; 0 while it stands -/
  fault : Nat
  /-- items of the chunk under way -/
  chunk : Nat
  /-- layer whose GATHERs are awaited; LAYERS once every layer's have come, or with no peers (12_links.md R293) -/
  layer : Nat
  /-- unit whose engine or core reset stopped it; its layers are sent again when that reset ends (12_links.md Table 12.7), reset none -/
  stopped : Option UnitId
  /-- the context slid for the unit under way (R225) -/
  slid : Bool
  /-- keys and values of the unit under way, written to its pages (R225) -/
  kv : Option (List (List KvRow))
  /-- LAYERS, START_TOKEN and EOS_TOKEN of the session's model, and the rows of a lane -/
  layers : Nat
  start : Word
  eos : Word
  laneRows : Nat
deriving DecidableEq, Repr, Inhabited

/-- One session context (09_sequence.md R217-R231), or a shadow session of another part (12_links.md R293). -/
structure Session where
  isOpen : Bool
  /-- 8 bits, 1-255, R70, reset 1 -/
  gen : Nat
  model : Nat
  be : Bool
  outRing : Nat
  slide : Bool
  tMax : Nat
  feedEn : Bool
  feedSlot : Nat
  feedOutput : Nat
  autoSteps : Nat
  spread : Nat
  lane : Option (Nat × Nat)
  /-- T_ctx and POS, R225, reset 0 -/
  tCtx : Nat
  pos : Nat
  /-- token of the last step since the last append -/
  lastTok : Option Word
  pages : List Page
  allocs : List Alloc
  seq : Nat
  closing : Option CloseSt
  deferred : Option Nat
  opening : Bool
  /-- shadow: home chip and home session with its generation; T_ctx committed by the home part -/
  shadow : Option (Nat × Nat × Nat)
  stepId : Nat
  /-- a peer underwent function-level reset (R230) -/
  peerLost : Bool
  client : Nat
  /-- fed appends waiting: (items, flags of the feeding record) (R226) -/
  fed : List (List (List Byte) × Nat × Nat)
  /-- peers whose GATHER for the layer under way has not arrived, and what arrived for this step or chunk: (chip, layer, data) (R293) -/
  gathers : List Nat
  headRows : List (Nat × Nat × List Word)
  /-- work in progress -/
  work : Option SeqWork
  /-- journal position of the open while it waits for its peers (R219) -/
  pendingOpen : Option Nat
  /-- collectives whose COMPLETION has not come: (chip, position, whether its ACCEPT has come); peers that accepted, with the pages they reserved; the
  first failing status -/
  colls : List (Nat × Nat × Bool)
  accepted : Tab Nat
  collFail : Nat
  /-- buffers of the page table (R221); `allocs` are the pages' -/
  table : List Alloc
  /-- shadow: rows of the last collective, not yet committed by the home part, one list per position (R230) -/
  pendRows : List (List KvRow)
deriving DecidableEq, Repr, Inhabited

/-- One tensor core (06_tensor_cores.md Table 6.1, 15_recovery.md R347). -/
structure Core where
  /-- 6 MiB of bytes, reset 0 -/
  spad : Mem
  /-- accumulator entries, key (bank x 1536 + row) x 32 + column, reset 0 -/
  acc : Tab Word
  /-- failed-reset count, R347, reset 0 -/
  failed : Nat
  /-- core reset in progress since tick -/
  resetAt : Option Nat
  /-- engine resets in progress: engine to start tick -/
  engineReset : Tab Nat
  /-- weights last held by the best-effort region: (Maquette or session model + 64, entry), R238 -/
  weights : Option (Nat × Nat)
  /-- tick of the last Proof cast set completion of each engine; engines with a placed set in progress; engines whose completed set is not compared yet -/
  castAt : Tab Nat
  castRunning : List Nat
  castDone : List Nat
  /-- f in force on the core, in 1/256, R402, reset 256 -/
  fNow : Nat
deriving DecidableEq, Repr, Inhabited

/-- One track context (08_tracking.md Table 8.1). -/
structure Track where
  incarn : Nat
  live : Bool
  state : Nat
  slot : Nat
  cls : Nat
  misses : Nat
  hits : Nat
  age : Nat
  conf : Nat
  lastDon : Nat
  x0 : Nat
  y0 : Nat
  x1 : Nat
  y1 : Nat
  /-- FP16 -/
  vx : Nat
  vy : Nat
  vw : Nat
  vh : Nat
  embValid : Bool
  embCount : Nat
  birthDon : Nat
  streamGen : Nat
  lastTick : Nat
deriving DecidableEq, Repr, Inhabited

/-- One buffer-pool partition (11_memory.md R270-R274, Table 11.9). -/
structure Part where
  total : Nat
  /-- on-chip cache, last in first out -/
  cache : List Nat
  /-- ring in pool metadata, first in first out, as runs (first buffer, count) -/
  ring : List (Nat × Nat)
  minFree : Nat
  fails : Nat
  waits : Nat
  underflow : Nat
deriving DecidableEq, Repr, Inhabited

/-- Training record and counters of one channel and rank (11_memory.md Table 11.10). -/
structure Chan where
  status : Nat
  attempts : Nat
  wck : Nat
  vrefCa : Nat
  cs : Nat
  ca : Nat
  vrefDqW : Nat
  vrefDqR : Nat
  gate : Nat
  readDq : Tab Nat
  writeDq : Tab Nat
  ce : Nat
  ue : Nat
  neighbour : Nat
  rfm : Nat
  repairs : Nat
  drift : Nat
  /-- drift adjustment waiting for the next all-bank refresh (R257): read and write delay change -/
  driftPend : Option (Int × Int)
deriving DecidableEq, Repr, Inhabited

/-- A queued line request of a channel controller (11_memory.md R259). -/
structure DramReq where
  line : Nat
  lc : Bool
  /-- write: enabled bytes; read: the bytes pending writes forwarded to it and DRAM held when it was queued (R260, R261) -/
  bytes : List (Option Byte)
  /-- a read that pending writes cover wholly needs no DRAM access -/
  forwarded : Bool
  passed : Nat
deriving DecidableEq, Repr, Inhabited

/-- One channel controller's queues (11_memory.md R259-R261). -/
structure ChanQ where
  reads : List DramReq
  writes : List DramReq
  /-- a write drain is on: of the LC writes, of the BE writes -/
  drainLc : Bool
  drainBe : Bool
  /-- row open in each bank -/
  openRow : Tab Nat
  /-- rolling accumulated activate count of each bank (11_memory.md R263), reset 0 -/
  activates : Tab Nat
  /-- data of the last read served -/
  last : List Byte
  poisoned : Bool
deriving DecidableEq, Repr, Inhabited

/-- Device DRAM and the pool manager (11_memory.md). -/
structure Dram where
  /-- capacity in MiB, rate in MT/s, ranks: Table 11.1, set by start-up -/
  capMib : Nat
  rate : Nat
  ranks : Nat
  /-- interleaved space, R253, as a read queued now finds it (R260, R261); unlisted bytes read 0 -/
  cells : Mem
  /-- sectors holding an uncorrectable error, by sector number -/
  bad : List Nat
  /-- pool p plain: key 2p; ECC: key 2p + 1 -/
  parts : Tab Part
  /-- SHARE and ECC of each pool, Table 11.6 -/
  shares : List (Nat × Nat)
  /-- SAFETY_MIB and allocated runs (granule, count) -/
  safetyMib : Nat
  safetyRuns : List (Nat × Nat)
  /-- reference counts by buffer address, R274 -/
  refs : Tab Nat
  /-- shares that Niches and link transfers hold, by buffer address; buffers whose increments wait at 65,535, R274 -/
  readers : Tab Nat
  refWaits : List Nat
  /-- pages of closed sessions still held by a reader: data address and header address (09 R231) -/
  pagesLeft : List (Nat × Nat)
  /-- RFM_N: 4 bits, R262, reset 9 -/
  rfmN : Nat
  /-- channel c rank k: key 2c + k -/
  chans : Tab Chan
  queues : Tab ChanQ
deriving DecidableEq, Repr, Inhabited

/-- One Keastan port (12_links.md R280-R283). -/
structure LPort where
  /-- LINK_STATUS code, Table 13.8, reset 0 -/
  st : Nat
  enabled : Bool
  dateline : Bool
  peer : Nat
  /-- codeword replays in a row -/
  replays : Nat
  /-- packets waiting to leave, oldest first, each with the port a through packet came in by and the class and channel of its buffer there (R290),
  reset none -/
  queue : List (LinkPkt × Option (Nat × Nat))
  /-- credits in hand, and credits to hand back to the peer, of each class and channel: key 2 × class + channel (R290), reset 0 -/
  credits : Tab Nat
  freed : Tab Nat
  /-- input port last served by the round robin (R290), reset 0 -/
  lastIn : Nat
deriving DecidableEq, Repr, Inhabited

/-- Sequenced traffic with one chip in one class (12_links.md R291). -/
structure Pair where
  nextSeq : Nat
  unacked : List LinkPkt
  retries : Nat
  expect : Nat
  sinceAck : Nat
deriving DecidableEq, Repr, Inhabited

/-- The link plane (12_links.md). -/
structure Link where
  /-- ROLE, CHIP_ID, torus dimensions, R284, reset standalone and chip 0 -/
  role : Nat
  chip : Nat
  torusX : Nat
  torusY : Nat
  ports : Tab LPort
  /-- routing table: 64 bytes, R286, reset 0 -/
  route : Tab Nat
  /-- INCARNATION: 32 bits, R283 -/
  incarnation : Word
  /-- last INCARNATION seen of each chip -/
  peerInc : Tab Word
  pairs : Tab Pair
  /-- highest journal position accepted from each chip, R75 -/
  highest : Tab Nat
  /-- every position accepted: (chip, position), newest first, R75 -/
  taken : List (Nat × Nat)
  /-- chips whose route has gone to its alternate since the last ROUTE_SET: 64 bits, R295 -/
  onAlt : Nat
  /-- completions of forwarded commands kept until acknowledged: (chip, journal position there, class, completion), R292 -/
  kept : List (Nat × Nat × Nat × Cpl)
  /-- packets that have left by a port, oldest first: (port, packet) -/
  tx : List (Nat × LinkPkt)
deriving DecidableEq, Repr, Inhabited

/-- What the safety port has to answer next (14_safety.md R325). -/
inductive SpiPrev where
  | idle (seq : Nat)
  | error (seq : Nat)
  | notReady (seq : Nat)
  | again (seq : Nat) (asn : Word)
  | packet (seq : Nat)
deriving DecidableEq, Repr, Inhabited

/-- The safety port (14_safety.md R324-R326). -/
structure SafetyPort where
  /-- ASN counter, R62, reset 0 -/
  asn : Word
  /-- FRAME_SEQ and ASN of the last accepted request -/
  lastAccepted : Option (Nat × Word)
  /-- packet not yet reported: FRAME_SEQ, words, written to the journal, challenge when its frame fell -/
  pend : Option (Nat × List Word × Word)
  prev : SpiPrev
  /-- CHALLENGE of the last response shifted out completely -/
  shownChallenge : Word
  /-- tick its chip select rose -/
  pendAt : Nat
  /-- highest CPL_ACK, R326 -/
  cplAck : Word
  /-- last response frame -/
  frame : List Word
deriving DecidableEq, Repr, Inhabited

/-- Functional safety (14_safety.md R315-R332). -/
structure Safety where
  /-- STATE: 0 off, 1 armed, 2 tripped; reset 0 -/
  state : Nat
  /-- CAUSES: 24 bits, reset 0 -/
  causes : Nat
  /-- FIRST_CAUSE, reset none -/
  first : Option Nat
  /-- TRIP_TICK and trips since power-on reset, reset 0 -/
  tripTick : Nat
  trips : Nat
  /-- HB_KEY: 32 bits, R328, reset 0 -/
  key : Word
  /-- armed mask: 128 bits, R330, reset 0 -/
  mask : Nat
  /-- CHALLENGE: 32 bits, R328 -/
  challenge : Word
  /-- number of challenges drawn -/
  draws : Nat
  /-- tick of arming or of the last correct heartbeat, and whether one was correct -/
  hbAt : Nat
  hbOk : Bool
  /-- correct heartbeats since arming, longest gap -/
  hbCount : Nat
  hbGap : Nat
  /-- conditions present now: bit 10 junction above its limit, bit 32 + r rail r out of tolerance, bit 48 + k clock k deviating -/
  present : Nat
  /-- SAFE_n level, R316, reset low -/
  safeN : Bool
  /-- detections counted while off, by cause (R315) -/
  seen : Tab Nat
deriving DecidableEq, Repr, Inhabited

/-- One client's accounts (10_work_classes.md Table 10.3). -/
structure Account where
  wait : Nat
  preempt : Nat
  commands : Nat
deriving DecidableEq, Repr, Inhabited

/-- Values a freeze keeps (16_observation.md R363). -/
structure Snapshot where
  tf : Nat
  ctrs : Tab Nat
  epoch : Bool
  accounts : Tab Account
  parts : Tab Part
  chans : Tab Chan
deriving DecidableEq, Repr, Inhabited

/-- Trace settings (16_observation.md Table 16.4). -/
structure TraceCfg where
  mode : Nat
  ctrl : Bool
  coreMask : Nat
  classMask : Nat
  ring : Nat
  ringLog2 : Nat
  tailWb : Nat
  headAddr : Nat
  period : Nat
  tapEn : Bool
  tapSlot : Nat
  tapEvery : Nat
deriving DecidableEq, Repr, Inhabited

/-- Counters, freeze, accounts and trace (16_observation.md, 10_work_classes.md R245). -/
structure Obs where
  /-- 48-bit counters keyed by their offset in the COUNTER_READ image over 8, R360, reset 0 -/
  ctrs : Tab Nat
  /-- EPOCH of every counter, R361, reset 0 -/
  epoch : Bool
  freeze : Option Snapshot
  /-- SOURCES: bits 0-3 for [9]-[12] of the header, R364, reset 0 -/
  sources : Nat
  /-- trigger in this tick, frozen at its end -/
  trigger : Bool
  /-- triggers of the current tick, bits as in `sources` -/
  tickTrig : Nat
  /-- TRIG_OUT level, reset low -/
  trigOut : Bool
  accounts : Tab Account
  /-- counters and accounts at the start of the current tick: what a read returns (R247, R361) -/
  ctrs0 : Tab Nat
  accounts0 : Tab Account
  /-- what each account has counted in the current tick (R247) -/
  accountsTick : Tab Account
  trace : TraceCfg
  /-- local buffers: source core c, or 16 for the control buffer; events of words, oldest first -/
  bufs : Tab (List (List Word))
  /-- events dropped and the first loss, by source -/
  lost : Tab (Nat × Nat)
  /-- write offset of the trace ring, offset last read from HEAD_ADDR and tick of the read -/
  wr : Nat
  head : Nat
  headAt : Option Nat
  /-- byte buckets, R370 -/
  pcieBucket : Nat
  dramBucket : Nat
  /-- pictures dropped by the tap since the last PICTURE event -/
  tapDropped : Nat
  /-- tick of each core's last COUNTER_SAMPLE event, or of the TRACE_CONFIG before it -/
  sampled : Tab Nat
deriving DecidableEq, Repr, Inhabited

/-- The core-network transfers of one completed Niche that have not landed (07_mapping.md R183, R184): writes (core, address, bytes). -/
structure Xchg where
  sender : Nat
  ref : SchedRef
  owner : Nat
  seq : Bool
  don : Nat
  niche : Nat
  since : Nat
  writes : List (Nat × Nat × List Byte)
deriving DecidableEq, Repr, Inhabited

/-- The last trigger of an LC pack group (09_sequence.md R228, 15_recovery.md R348): its schedule and its lanes' segment numbers. -/
structure PackRun where
  ref : SchedRef
  segs : List Nat
deriving DecidableEq, Repr, Inhabited

/-- A reset incident (15_recovery.md R341, R342; 16_observation.md Table 16.7). -/
structure Impression where
  incident : Nat
  detect : Nat
  condition : Nat
  unitCode : Nat
  finalUnit : Nat
  outcome : Nat
  unit : Nat
  context : Nat
  station : Nat
  niche : Nat
  order : Nat
  don : Nat
  band : Nat
  capture : Nat
  /-- items: (PART, CYCLE, payload words) -/
  items : List (Nat × Nat × List Word)
deriving DecidableEq, Repr, Inhabited

/-- A commanded reset that waits for its end (15_recovery.md R338). -/
structure Waiter where
  j : Nat
  start : Nat
  /-- unit it names: code of Table 15.1 and number -/
  code : Nat
  unit : Nat
  /-- accepted during a compute-domain reset -/
  during : Bool
deriving DecidableEq, Repr, Inhabited

/-- What a TRK Niche changes, in the TAE's commit log: its record (slot, DON, band), whether the record writer holds it, and the contexts and embeddings
after the change (15_recovery.md R352). -/
structure TaeLog where
  slot : Nat
  don : Nat
  band : Nat
  held : Bool
  tracks : Tab Track
  embs : Tab (List Int)
deriving DecidableEq, Repr, Inhabited

/-- Resets in progress and Impressions (15_recovery.md). -/
structure Recovery where
  /-- compute-domain reset in progress, with the tick of its request -/
  domainAt : Option Nat
  /-- Impressions being captured, oldest first, with the reset each precedes: (Impression, unit code, unit number) -/
  captures : List (Impression × Nat × Nat)
  /-- resets requested and not begun: (unit code, unit number, tick of the request) -/
  requests : List (Nat × Nat × Nat)
  /-- incidents whose outcome is open: (incident, unit code, unit number) of the unit now concerned -/
  incs : List (Nat × Nat × Nat)
  /-- incidents since power-on reset, R342 -/
  incidents : Nat
  /-- Impression store: slot to Impression, R342 -/
  store : Tab Impression
  /-- boot flash, R375: failure log by position with its next position, copies 0-3 and those kept since power-on reset -/
  log : Tab Impression
  logNext : Nat
  copies : Tab Impression
  kept : Nat
  waiters : List Waiter
  /-- units whose Niche hangs: they stay as they are until their reset (R341) -/
  hung : List UnitId
  /-- core-network transfers in flight, oldest first (07_mapping.md R183, R184) -/
  xchgs : List Xchg
  /-- the TAE's commit log, in the 2 MiB of the spill region after the embedding store (R352) -/
  taeLog : Option TaeLog
deriving DecidableEq, Repr, Inhabited

/-- PCI Express function state with an effect (13_host_endpoint.md). -/
structure Pcie where
  /-- INTX_CAUSE, INTX_MASK: 22 bits used; INTX_HOLDOFF: 10 bits; reset 0 -/
  cause : Word
  mask : Word
  holdoff : Word
  /-- causes set in a tick, of the last tick that set one (R307) -/
  recent : Nat × Word
  /-- Command: 16 bits, Interrupt Disable in bit 10, R306, reset 0 -/
  command : Word
  /-- Cache Line Size and Interrupt Line: 8 bits each, reset 0 -/
  cacheLine : Nat
  intLine : Nat
  /-- base addresses of BAR0 and BAR2: 32 bits each, R301, reset 0 -/
  bar0Lo : Word
  bar0Hi : Word
  bar2Lo : Word
  bar2Hi : Word
  /-- Device Control (Max_Payload_Size, Max_Read_Request_Size) and Device Control 2 (completion timeout): 16 bits, Table 13.1, reset 0x2810 and 0 -/
  devControl : Word
  devControl2 : Word
  /-- virtual INTA asserted; tick of the last Deassert_INTA -/
  asserted : Bool
  deassertAt : Option Nat
  /-- BAR2_WINDOW: 4 bits, reset 0 -/
  window : Word
  /-- latched TICK_HI, reset 0 -/
  tickHi : Word
  /-- ACCESS_ERRORS, FLR_COUNT: 32 bits, reset 0 -/
  accessErrors : Word
  flrCount : Word
  /-- D3hot, R302, reset D0 -/
  d3 : Bool
  /-- AER uncorrectable and correctable status (sticky), First Error Pointer and Header Log, R308, R309, reset 0 -/
  uncorStatus : Word
  corStatus : Word
  firstError : Nat
  headerLog : List Word
  /-- AER masks and severities: 32 bits, R308, Table 13.10; ECRC generation and check enabled, Table 13.1, reset off -/
  uncorMask : Word
  uncorSeverity : Word
  corMask : Word
  ecrcGen : Bool
  ecrcCheck : Bool
  /-- error messages sent: 0 correctable, 1 non-fatal, 2 fatal, oldest first -/
  errMsgs : List Nat
  /-- data of the last register or PMBus read answered; none for NACK or Unsupported Request -/
  rdata : Option (List Byte)
  rpoison : Bool
  /-- negotiated link speed in GT/s and width, Table 13.1 -/
  speed : Nat
  width : Nat
  /-- subsystem identity, Table 13.2 -/
  subsysVendor : Nat
  subsysId : Nat
deriving DecidableEq, Repr, Inhabited

/-- Phase of the part (18_startup.md R388, R390; 15_recovery.md R346; 19_pins.md R401). -/
inductive Phase where
  /-- power-on reset has ended, start-up not done -/
  | starting
  /-- start-up stop, R390 -/
  | stopped
  | ready
  /-- function-level reset hung, R346 -/
  | hung
  /-- THERMTRIP_n is low, R401 -/
  | thermal
deriving DecidableEq, Repr, Inhabited

/-- Start-up, pins and power cap (18_startup.md, 19_pins.md). -/
structure Chip where
  phase : Phase
  /-- tick counter: 64 bits, R34, reset 0 -/
  tick : Nat
  /-- DEVICE_STATUS.FATAL, R345, reset 0 -/
  fatal : Bool
  /-- FENCED: 16 bits, R347, reset 0 -/
  fenced : Nat
  /-- FW_VERSION, Table 13.3, reset 0 -/
  fwVersion : Word
  stepping : Nat
  /-- WZ9640-I: junction limit 105 °C -/
  industrial : Bool
  /-- straps of R384 -/
  barSize : Bool
  testEn : Bool
  bootSrc : Bool
  /-- function-level reset requested before the end of start-up, R311 -/
  flrPending : Bool
  /-- number of power-on resets, for the INCARNATION draw -/
  powerOns : Nat
  /-- DDR_RESET_n level, R382, reset low -/
  ddrResetN : Bool
  /-- DRAM_TRAIN_STEP packets held until start-up step 8 ends, with what their sweeps find, R391, reset none -/
  mntHeld : List (List Word × Sweep)
  faultN : Bool
  thermN : Bool
  /-- CAP_F, CAP_PIN_F: 9 bits, R402, reset 256 and 128; CAP_n level, reset high -/
  capF : Nat
  capPinF : Nat
  capPin : Bool
  /-- f last announced, in 1/256, reset 256; earlier ones with the tick each ended in, newest first (R39), reset none -/
  fNow : Nat
  fPast : List (Nat × Nat)
  /-- OT_WARN in °C, R403, reset 95 -/
  otWarn : Nat
  /-- hottest junction in thousandths of °C -/
  temp : Int
  /-- STATUS_TEMPERATURE: [7] fault, [6] warning -/
  otFault : Bool
  otWarned : Bool
  alertN : Bool
  /-- minimum security version fused at manufacture, R387, reset DESIGN CHOICE 0 (log 5) -/
  minSvn : Nat
  /-- LOG_BASE, SLOT_A and SLOT_B in force, Table 18.4, reset to its defaults -/
  flashMap : Nat × Nat × Nat
  /-- boot configuration fields kept for the link plane, Table 18.4 -/
  bootLink : Word
  bootRoutes : Option (List Word)
deriving DecidableEq, Repr, Inhabited

/-- Who raises each fault: no meaning of this model faults; the type is kept for the interface. -/
inductive Fault where
  /-- raised by nothing: the manual reports every error through a status, a record, AER, safety or FATAL (safe) -/
  | unreachable
deriving DecidableEq, Repr, Inhabited

/-- Why a command is refused. -/
inductive Refusal where
  /-- an arm of `exec` whose meaning is not written yet (safe) -/
  | notModelled (mnemonic : String)
  /-- raised by TEST_OPCODE on an active maintenance port: the manual says nothing about opcodes 0xF0-0xFF there (R44) (safe) -/
  | privateTestOpcode
deriving DecidableEq, Repr, Inhabited

/-- The machine. -/
structure State where
  /-- the MODEL's queue of waiting commands, first in first out; reset empty -/
  pending : List Instr
  /-- the MODEL's counter of free values drawn; reset 0 (DESIGN CHOICE) -/
  free : Nat
  chip : Chip
  pcie : Pcie
  /-- host queues 0-1 -/
  hq : Tab HostQueue
  /-- output rings 0-7 -/
  outq : Tab OutRing
  /-- what the device has written to host memory -/
  hostMem : Mem
  /-- accepted commands not freed, in journal order (R65, R268) -/
  journal : List JEntry
  /-- last journal position given (R62) -/
  jpos : Nat
  /-- tick of the last packet journalled and its place in the order of ports and queues (R68) -/
  jlast : Nat × Fin 6
  sport : SafetyPort
  /-- ring-port LC and BE queue ASN counters, maintenance-port ASN (R62) -/
  ringAsn : Tab Word
  mntAsn : Word
  mntCpl : Option Cpl
  streams : Tab Stream
  /-- the order of the reconstruction pool: open video streams with their weights B_pix and the time, in ns at B_pix, their rows have taken since the order
  was set (04_stream_decode.md R81, log 105), reset none -/
  pool : List (Nat × Nat × Nat)
  sessions : Tab Session
  maquettes : Tab Maquette
  armatures : Tab Armature
  /-- schedule in force, none before the first swap; `noSched` when no variant remains (R191) -/
  active : Option SchedRef
  noSched : Bool
  runs : List Run
  /-- yield marks: (unit, Niche index) (R244) -/
  marks : List (UnitId × Nat)
  jobs : List BeJob
  /-- staging buffers in use: key (Niche x 16 + core) x 16 + buffer to (slot, DON, band), and batches begun by Niche x 16 + core (R129) -/
  stages : Tab (Nat × Nat × Nat)
  stageNext : Tab Nat
  /-- last trigger of each LC pack group, key model x 256 + group -/
  packs : Tab PackRun
  cores : Tab Core
  tracks : Tab Track
  /-- embedding store: context index to 256 INT8 elements (R198) -/
  embs : Tab (List Int)
  dram : Dram
  link : Link
  safety : Safety
  obs : Obs
  recov : Recovery
deriving DecidableEq, Repr, Inhabited

/-- Host queue after reset (13_host_endpoint.md Table 13.4). -/
def HostQueue.reset : HostQueue :=
  { cmdBaseLo := 0, cmdBaseHi := 0, cmdSize := 0, headWbLo := 0, headWbHi := 0, cplBaseLo := 0, cplBaseHi := 0, cplSize := 0,
    ringEn := false, configErr := false, badTail := false, cmdLastAsn := 0, cplLastAsn := 0, tail := 0, cplHead := 0, head := 0,
    cplIndex := 0, phase := true, asn := 0, failRun := 0, everEnabled := false }

/-- Output ring after reset (13_host_endpoint.md Table 13.5). -/
def OutRing.reset : OutRing :=
  { baseLo := 0, baseHi := 0, size := 0, tailWbLo := 0, tailWbHi := 0, coal := 0, coalBytes := 0x1000, irqEn := false,
    ringEn := false, configErr := false, active := false, head := 0, tail := 0, wr := 0, uncovered := [], due := 0,
    uncoveredBytes := 0, held := [], fullHold := false, fullTicks := 0, fullHi := 0 }

/-- A slot that has never been opened (03_commands.md R70). -/
def StreamCfg.zero : StreamCfg :=
  { codec := 0, container := 0, timing := 0, output := 0, hBand := 16, safety := false, outRing := 0, depth10 := false, maxDpb := 1,
    maxW := 64, maxH := 64, bPix := 1000000, bitrate := 64000, framePeriod := 4000, retention := 200, deadline := 16, irapMax := 100,
    audioBlock := 160, mics := 1, tsPid := 0x1FFF, evMode := 0, evRows := 1, evQpMin := 0, evQpMax := 0, evTarget := 512 }

/-- Defaults of 08_tracking.md Table 8.2. -/
def TrackCfg.default : TrackCfg :=
  { alpha := 128, beta := 32, embAlpha := 26, classGate := true, gateIou := 26, gateEmb := 77, wIou := 128, wEmb := 128,
    cNew := 1024, birthConf := 0x3800, confirmHits := 3, maxMissesTent := 0, maxMisses := 30, trackMax := 0 }

/-- A closed stream slot of generation `g`. -/
def Stream.closed (g : Nat) : Stream :=
  { isOpen := false, gen := g, cfg := StreamCfg.zero, engine := 0, allocs := [], picRegion := [], retAllocs := [], retCap := 0, feeds := [],
    dropRest := false, aus := [], nextAu := 0, irapFrom := none, retShort := false, retShortAt := 0, lastCc := none,
    scrambled := false, pmtPid := none, videoPid := none, errGap := false, gapNext := false, nextDon := 0, lastDon := none, pics := [], reject := none,
    dim := false, concealChain := false, raslChain := false, lossDon := 0, catchup := false, paused := false, rowStart := 0, binAt := 0, roomAt := 0, seq := 0,
    track := TrackCfg.default, trackNext := none, retune := none, block := 0, pcm := [], pcmPart := 0, nextPts := none, firedBlocks := 0,
    zeroBlocks := [], blockTicks := [], closing := none, deferred := none, opening := false, window := [], fedBytes := [],
    replayFrom := none, replayTick := none, blockIssued := [], blockDiscard := [], previews := [], concealedDons := [],
    wholeAt := 0, yields := [], psi := [], outbox := [], lastBlock := none }

/-- A slot after power-on or function-level reset: generation 1 (03_commands.md R70). -/
def Stream.reset : Stream := Stream.closed 1

/-- A closed session of generation `g`. -/
def Session.closed (g : Nat) : Session :=
  { isOpen := false, gen := g, model := 0, be := false, outRing := 0, slide := false, tMax := 256, feedEn := false, feedSlot := 0,
    feedOutput := 0, autoSteps := 0, spread := 0, lane := none, tCtx := 0, pos := 0, lastTok := none, pages := [], allocs := [],
    seq := 0, closing := none, deferred := none, opening := false, shadow := none, stepId := 0, peerLost := false, client := 0,
    fed := [], gathers := [], headRows := [], work := none, pendingOpen := none, colls := [], accepted := [], collFail := 0, table := [],
    pendRows := [] }

/-- A session after power-on or function-level reset (03_commands.md R70). -/
def Session.reset : Session := Session.closed 1

/-- A core after power-on reset (06_tensor_cores.md, 15_recovery.md Table 15.6, 19_pins.md R402). -/
def Core.reset : Core :=
  { spad := [], acc := [], failed := 0, resetAt := none, engineReset := [], weights := none, castAt := [], castRunning := [], castDone := [], fNow := 256 }

/-- A track context that was never born (08_tracking.md Table 8.1). -/
def Track.reset : Track :=
  { incarn := 0, live := false, state := 0, slot := 0, cls := 0, misses := 0, hits := 0, age := 0, conf := 0, lastDon := 0, x0 := 0,
    y0 := 0, x1 := 0, y1 := 0, vx := 0, vy := 0, vw := 0, vh := 0, embValid := false, embCount := 0, birthDon := 0, streamGen := 0,
    lastTick := 0 }

/-- A pool partition without buffers. -/
def Part.reset : Part := { total := 0, cache := [], ring := [], minFree := 0, fails := 0, waits := 0, underflow := 0 }

/-- A channel before training (11_memory.md Table 11.10). -/
def Chan.reset : Chan :=
  { status := 0, attempts := 0, wck := 0, vrefCa := 0, cs := 0, ca := 0, vrefDqW := 0, vrefDqR := 0, gate := 0, readDq := [],
    writeDq := [], ce := 0, ue := 0, neighbour := 0, rfm := 0, repairs := 0, drift := 0, driftPend := none }

/-- An idle channel controller. -/
def ChanQ.reset : ChanQ := { reads := [], writes := [], drainLc := false, drainBe := false, openRow := [], activates := [], last := [], poisoned := false }

/-- A disabled port. -/
def LPort.reset : LPort :=
  { st := 0, enabled := false, dateline := false, peer := 0, replays := 0, queue := [], credits := [], freed := [], lastIn := 0 }

/-- No traffic yet: SEQ starts at 1 (12_links.md R291). -/
def Pair.reset : Pair := { nextSeq := 1, unacked := [], retries := 0, expect := 1, sinceAck := 0 }

/-- Accounts of a client without work. -/
def Account.reset : Account := { wait := 0, preempt := 0, commands := 0 }

/-- Default shares of 11_memory.md Table 11.6. -/
def defaultShares : List (Nat × Nat) := [(10, 1), (20, 1), (30, 1), (40, 1), (250, 1), (50, 1), (100, 1), (500, 1)]

/-- DRAM before start-up has trained it (11_memory.md R255, R262). -/
def Dram.reset : Dram :=
  { capMib := 0, rate := 6400, ranks := 1, cells := [], bad := [], parts := [], shares := defaultShares, safetyMib := 0,
    safetyRuns := [], refs := [], readers := [], refWaits := [], pagesLeft := [], rfmN := 9, chans := [], queues := [] }

/-- Link plane before start-up (12_links.md R284). -/
def Link.reset (n : Nat) : Link :=
  { role := 0, chip := 0, torusX := 2, torusY := 2, ports := [], route := [], incarnation := Config.freeIncarnation n, peerInc := [],
    pairs := [], highest := [], taken := [], onAlt := 0, kept := [], tx := [] }

/-- Safety port after reset (14_safety.md R317, R325). -/
def SafetyPort.reset : SafetyPort :=
  { asn := 0, lastAccepted := none, pend := none, prev := .idle 0, shownChallenge := 0, pendAt := 0, cplAck := 0, frame := [] }

/-- Safety after power-on reset (14_safety.md R315, R316, R328). -/
def Safety.reset : Safety :=
  { state := 0, causes := 0, first := none, tripTick := 0, trips := 0, key := 0, mask := 0, challenge := Config.freeChallenge 0,
    draws := 1, hbAt := 0, hbOk := false, hbCount := 0, hbGap := 0, present := 0, safeN := false, seen := [] }

/-- Trace off (16_observation.md Table 16.4). -/
def TraceCfg.reset : TraceCfg :=
  { mode := 0, ctrl := false, coreMask := 0, classMask := 0, ring := 0, ringLog2 := 16, tailWb := 0, headAddr := 0, period := 0,
    tapEn := false, tapSlot := 0, tapEvery := 1 }

/-- Observation after power-on reset (16_observation.md R360, R364). -/
def Obs.reset : Obs :=
  { ctrs := [], epoch := false, freeze := none, sources := 0, trigger := false, tickTrig := 0, trigOut := false, accounts := [],
    ctrs0 := [], accounts0 := [], accountsTick := [], trace := TraceCfg.reset, bufs := [], lost := [], wr := 0, head := 0, headAt := none, pcieBucket := 0, dramBucket := 0, tapDropped := 0, sampled := [] }

/-- Recovery state after power-on reset; the boot flash holds no Impression (DESIGN CHOICE, log 4). -/
def Recovery.reset : Recovery :=
  { domainAt := none, captures := [], requests := [], incs := [], incidents := 0, store := [], log := [], logNext := 0, copies := [],
    kept := 0, waiters := [], hung := [], xchgs := [], taeLog := none }

/-- PCI Express function after power-on reset (13_host_endpoint.md Tables 13.2, 13.3). -/
def Pcie.reset : Pcie :=
  { cause := 0, mask := 0, holdoff := 0, recent := (0, 0), command := 0, cacheLine := 0, intLine := 0, bar0Lo := 0, bar0Hi := 0, bar2Lo := 0, bar2Hi := 0,
    devControl := 0x2810, devControl2 := 0, uncorMask := 0, uncorSeverity := 0x462010, corMask := 0x2000, ecrcGen := false, ecrcCheck := false,
    asserted := false, deassertAt := none, window := 0, tickHi := 0,
    accessErrors := 0, flrCount := 0, d3 := false, uncorStatus := 0, corStatus := 0, firstError := 0, headerLog := [], errMsgs := [],
    rdata := none, rpoison := false, speed := 32, width := 8, subsysVendor := 0x1F2B, subsysId := 0 }

/-- Chip state at the end of power-on reset (18_startup.md R383, R384; 19_pins.md R402, R403). -/
def Chip.reset : Chip :=
  { phase := .starting, tick := 0, fatal := false, fenced := 0, fwVersion := 0, stepping := 0, industrial := false, barSize := false,
    testEn := false, bootSrc := false, flrPending := false, powerOns := 0, ddrResetN := false, mntHeld := [],
    faultN := false, thermN := true, capF := 256,
    capPinF := 128, capPin := true, fNow := 256, fPast := [], otWarn := 95, temp := 25000, otFault := false, otWarned := false, alertN := true,
    minSvn := 0, flashMap := (0x02100000, 0x00100000, 0x01100000), bootLink := 0, bootRoutes := none }

/-- The machine right after power-on reset, before start-up. -/
def State.reset : State :=
  { pending := [], free := 0, chip := Chip.reset, pcie := Pcie.reset, hq := [], outq := [], hostMem := [], journal := [], jpos := 0, jlast := (0, 0),
    sport := SafetyPort.reset, ringAsn := [], mntAsn := 0, mntCpl := none, streams := [], pool := [], sessions := [], maquettes := [],
    armatures := [], active := none, noSched := false, runs := [], marks := [], jobs := [], stages := [], stageNext := [], packs := [], cores := [], tracks := [], embs := [],
    dram := Dram.reset, link := Link.reset 0, safety := Safety.reset, obs := Obs.reset, recov := Recovery.reset }

end Sys2Proof.Machine
end

