-- ==== Sys2Proof/Machine/Bits.lean ====
section
/-! DEFINITION. Bit fields, byte order, the CRC-32 of 04_stream_decode.md R116, sparse tables and byte memories. -/

namespace Sys2Proof.Machine

/-- Field [hi:lo] of a DW (00_scope.md R5). -/
def fld (w : Word) (hi lo : Nat) : Nat := (w.toNat / 2 ^ lo) % 2 ^ (hi + 1 - lo)

/-- Bit `k` of a DW. -/
def bit (w : Word) (k : Nat) : Bool := w.getLsbD k

/-- A DW from (value, hi, lo) fields; each value is cut to its field. -/
def dw (fs : List (Nat × Nat × Nat)) : Word :=
  BitVec.ofNat 32 (fs.foldl (fun a f => a + (f.1 % 2 ^ (f.2.1 + 1 - f.2.2)) * 2 ^ f.2.2) 0)

/-- 1 for true. -/
def b2n (b : Bool) : Nat := if b then 1 else 0

/-- Word from a number, modulo 2^32. -/
def w32 (n : Nat) : Word := BitVec.ofNat 32 n

/-- High half of a 64-bit number. -/
def hi32 (n : Nat) : Word := BitVec.ofNat 32 (n / 2 ^ 32)

/-- 64-bit number from its halves. -/
def join64 (lo hi : Word) : Nat := lo.toNat + hi.toNat * 2 ^ 32

/-- Exact ceiling of a division; 0 for a divisor of 0. -/
def cdiv (a b : Nat) : Nat := if b = 0 then 0 else (a + b - 1) / b

/-- Bit `k` of a mask held as a number. -/
def maskBit (m k : Nat) : Bool := m.testBit k

/-- Mask with bit `k` set. -/
def maskSet (m k : Nat) : Nat := m ||| 2 ^ k

/-- The indices below `n` set in a mask, ascending. -/
def maskList (m n : Nat) : List Nat := (List.range n).filter (fun k => m.testBit k)

/-- Little-endian bytes of a DW (00_scope.md R3). -/
def wordBytes (w : Word) : List Byte :=
  [w.extractLsb' 0 8, w.extractLsb' 8 8, w.extractLsb' 16 8, w.extractLsb' 24 8]

/-- Little-endian bytes of words, in address order. -/
def wordsBytes (ws : List Word) : List Byte := ws.flatMap wordBytes

/-- DW from up to four little-endian bytes. -/
def bytesWord : List Byte → Word
  | [] => 0
  | b :: bs => BitVec.ofNat 32 (b.toNat + 256 * (bytesWord bs).toNat)

/-- Words from bytes, four at a time; a short tail is padded with zeros. -/
def bytesWords : List Byte → List Word
  | a :: b :: c :: d :: t => bytesWord [a, b, c, d] :: bytesWords t
  | [] => []
  | t => [bytesWord t]

/-- Little-endian number of `n` bytes at the front of a list. -/
def leNat : Nat → List Byte → Nat
  | 0, _ => 0
  | _ + 1, [] => 0
  | n + 1, b :: bs => b.toNat + 256 * leNat n bs

/-- Big-endian number of `n` bytes at the front of a list (fields of ISO/IEC 13818-1 packets). -/
def beNat (n : Nat) (bs : List Byte) : Nat := (bs.take n).foldl (fun a b => a * 256 + b.toNat) 0

/-- One bit step of the reflected CRC-32. -/
def crcBit (c : Word) : Word := if c.getLsbD 0 then (c >>> 1) ^^^ 0xEDB88320 else c >>> 1

/-- One byte of the CRC-32. -/
def crcByte (c : Word) (b : Byte) : Word :=
  let x := c ^^^ b.setWidth 32
  crcBit (crcBit (crcBit (crcBit (crcBit (crcBit (crcBit (crcBit x)))))))

/-- CRC-32 of IEEE 802.3 over bytes in address order (04_stream_decode.md R116). -/
def crc32 (bs : List Byte) : Word := (bs.foldl crcByte 0xFFFFFFFF) ^^^ 0xFFFFFFFF

/-- CRC-32 over the bytes of words. -/
def crcWords (ws : List Word) : Word := crc32 (wordsBytes ws)

/-- Entry of a sparse table, or `d`. -/
def tget {α : Type} (t : Tab α) (k : Nat) (d : α) : α :=
  match t with
  | [] => d
  | (k', v) :: r => if k' = k then v else tget r k d

/-- Entry of a sparse table, if listed. -/
def tfind {α : Type} (t : Tab α) (k : Nat) : Option α :=
  match t with
  | [] => none
  | (k', v) :: r => if k' = k then some v else tfind r k

/-- Write one entry, keys kept rising. -/
def tput {α : Type} (t : Tab α) (k : Nat) (v : α) : Tab α :=
  match t with
  | [] => [(k, v)]
  | (k', v') :: r => if k = k' then (k, v) :: r else if k < k' then (k, v) :: (k', v') :: r else (k', v') :: tput r k v

/-- Remove one entry. -/
def tdel {α : Type} (t : Tab α) (k : Nat) : Tab α := t.filter (fun e => e.1 ≠ k)

/-- One byte of a memory; an unlisted byte is 0 (DESIGN CHOICE, log 3). -/
def mget (m : Mem) (a : Nat) : Byte := tget m a 0

/-- Drop the entry of one address. -/
def mdel (m : Mem) (a : Nat) : Mem :=
  match m with
  | [] => []
  | (a', v) :: r => if a = a' then r else if a < a' then (a', v) :: r else (a', v) :: mdel r a

/-- Write one byte, keeping the canonical form: a 0 is not listed. -/
def mput (m : Mem) (a : Nat) (b : Byte) : Mem := if b = 0 then mdel m a else tput m a b

/-- Write bytes at consecutive addresses. -/
def mwrite (m : Mem) (a : Nat) : List Byte → Mem
  | [] => m
  | b :: bs => mwrite (mput m a b) (a + 1) bs

/-- Read `n` bytes from an address. -/
def mread (m : Mem) (a n : Nat) : List Byte := (List.range n).map (fun i => mget m (a + i))

/-- Read a DW. -/
def mreadW (m : Mem) (a : Nat) : Word := bytesWord (mread m a 4)

/-- Keys strictly rising and above `lo`, no entry with value 0. -/
def canonFrom : Nat → Mem → Bool
  | _, [] => true
  | lo, (a, b) :: r => decide (lo ≤ a) && decide (b ≠ 0) && canonFrom (a + 1) r

/-- The canonical form of a byte memory. -/
def Memory.wf (m : Mem) : Bool := canonFrom 0 m

/-- Largest of a list, 0 for none. -/
def maxNat (l : List Nat) : Nat := l.foldl Nat.max 0

/-- Smallest number below `n` that is not in the list. -/
def lowestFree (n : Nat) (used : List Nat) : Option Nat := (List.range n).find? (fun k => !used.contains k)

/-- A counter of `w` bits that saturates. -/
def satAdd (w n k : Nat) : Nat := min (n + k) (2 ^ w - 1)

/-- Signed value of a field of `w` bits. -/
def signed (w n : Nat) : Int := if n < 2 ^ (w - 1) then n else (n : Int) - 2 ^ w

/-- Low `w` bits of a signed number. -/
def unsigned (w : Nat) (x : Int) : Nat := (x % (2 ^ w : Int)).toNat

/-- DON `a` precedes `b`, modulo 2^32 (02_raster_time.md R18). -/
def donLt (a b : Nat) : Bool := let d := (b + 2 ^ 32 - a) % 2 ^ 32; decide (0 < d) && decide (d < 2 ^ 31)

end Sys2Proof.Machine
end

