-- ==== Sys2Proof/Machine/Ops.lean ====
section
/-! DEFINITION. Named operations over the state: accessors, the clock, counters, trace, freeze, interrupts, the safety trip, host
writes, completions and the journal, records and output rings. -/

namespace Sys2Proof.Machine

/-! ### Accessors -/

/-- Host queue `q`. -/
def State.queue (s : State) (q : Nat) : HostQueue := tget s.hq q HostQueue.reset
/-- Replace host queue `q`. -/
def State.setQueue (s : State) (q : Nat) (x : HostQueue) : State := { s with hq := tput s.hq q x }
/-- Output ring `o`. -/
def State.oring (s : State) (o : Nat) : OutRing := tget s.outq o OutRing.reset
/-- Replace output ring `o`. -/
def State.setOring (s : State) (o : Nat) (x : OutRing) : State := { s with outq := tput s.outq o x }
/-- Stream slot `n`. -/
def State.stream (s : State) (n : Nat) : Stream := tget s.streams n Stream.reset
/-- Replace stream slot `n`. -/
def State.setStream (s : State) (n : Nat) (x : Stream) : State := { s with streams := tput s.streams n x }
/-- Change stream slot `n`. -/
def State.modStream (s : State) (n : Nat) (f : Stream → Stream) : State := s.setStream n (f (s.stream n))
/-- Session `n`. -/
def State.session (s : State) (n : Nat) : Session := tget s.sessions n Session.reset
/-- Replace session `n`. -/
def State.setSession (s : State) (n : Nat) (x : Session) : State := { s with sessions := tput s.sessions n x }
/-- Change session `n`. -/
def State.modSession (s : State) (n : Nat) (f : Session → Session) : State := s.setSession n (f (s.session n))
/-- Tensor core `c`. -/
def State.core (s : State) (c : Nat) : Core := tget s.cores c Core.reset
/-- Replace tensor core `c`. -/
def State.setCore (s : State) (c : Nat) (x : Core) : State := { s with cores := tput s.cores c x }
/-- Change tensor core `c`. -/
def State.modCore (s : State) (c : Nat) (f : Core → Core) : State := s.setCore c (f (s.core c))
/-- Keastan port `p`. -/
def State.lport (s : State) (p : Nat) : LPort := tget s.link.ports p LPort.reset
/-- Track context `n`. -/
def State.track (s : State) (n : Nat) : Track := tget s.tracks n Track.reset
/-- Pool partition by key. -/
def State.part (s : State) (k : Nat) : Part := tget s.dram.parts k Part.reset
/-- Replace a pool partition. -/
def State.setPart (s : State) (k : Nat) (x : Part) : State := { s with dram := { s.dram with parts := tput s.dram.parts k x } }
/-- Training record and counters of channel `c`, rank `k`. -/
def State.chan (s : State) (c k : Nat) : Chan := tget s.dram.chans (2 * c + k) Chan.reset
/-- Replace a training record. -/
def State.setChan (s : State) (c k : Nat) (x : Chan) : State :=
  { s with dram := { s.dram with chans := tput s.dram.chans (2 * c + k) x } }
/-- Queues of a channel. -/
def State.chanQ (s : State) (ch : Nat) : ChanQ := tget s.dram.queues ch ChanQ.reset
/-- Replace the queues of a channel. -/
def State.setChanQ (s : State) (ch : Nat) (q : ChanQ) : State := { s with dram := { s.dram with queues := tput s.dram.queues ch q } }
/-- Core `c` is fenced (R347). -/
def State.isFenced (s : State) (c : Nat) : Bool := maskBit s.chip.fenced c
/-- The tick counter. -/
def State.now (s : State) : Nat := s.chip.tick
/-- Slots that hold an open stream, ascending. -/
def State.openSlots (s : State) : List Nat := (s.streams.filter (fun e => e.2.isOpen)).map (·.1)
/-- Sessions that are open, ascending. -/
def State.openSessions (s : State) : List Nat := (s.sessions.filter (fun e => e.2.isOpen)).map (·.1)

/-- Apply a function for each element of a list, in order. -/
def forAll {α : Type} (l : List α) (f : α → State → State) (s : State) : State := l.foldl (fun s a => f a s) s

/-! ### Counters and accounts (16_observation.md R360, Table 16.1; 10_work_classes.md R245) -/

/-- Key of core counter `e` of Table 16.2. -/
def ctrCore (c e : Nat) : Nat := 8 + 32 * c + e
/-- Key of stream counter `e` of Table 16.3. -/
def ctrSlot (n e : Nat) : Nat := 520 + 16 * n + e
/-- Key of port counter `e` of Table 16.1. -/
def ctrPort (p e : Nat) : Nat := 2568 + 8 * p + e
/-- Key of READ_FAILURES of host queue `q`. -/
def ctrReadFail (q : Nat) : Nat := 2600 + q
/-- Key of FED_DISCARDED of session `n`. -/
def ctrFed (n : Nat) : Nat := 2608 + n

/-- Count `k` events; every counter counts modulo 2^48 (R360). -/
def count (key k : Nat) (s : State) : State :=
  { s with obs := { s.obs with ctrs := tput s.obs.ctrs key ((tget s.obs.ctrs key 0 + k) % 2 ^ 48) } }

/-- Change the accounts of a client (R245). -/
def account (cl : Nat) (f : Account → Account) (s : State) : State :=
  { s with obs := { s.obs with accounts := tput s.obs.accounts cl (f (tget s.obs.accounts cl Account.reset)),
                               accountsTick := tput s.obs.accountsTick cl (f (tget s.obs.accountsTick cl Account.reset)) } }

/-! ### INTA (13_host_endpoint.md R306) -/

/-- Interrupt Disable of the Command register. -/
def Pcie.disable (p : Pcie) : Bool := bit p.command 10

/-- A masked cause is set, which Interrupt Status shows whatever Interrupt Disable holds (R306). -/
def causePending (p : Pcie) : Bool := decide (p.cause &&& p.mask ≠ 0)

/-- The expression of R306: a masked cause is set and Interrupt Disable is 0. -/
def intaWanted (p : Pcie) : Bool := causePending p && !p.disable

/-- The holdoff after the last Deassert_INTA has passed (R306). -/
def holdoffPassed (s : State) : Bool :=
  match s.pcie.deassertAt with
  | none => true
  | some t => decide (t + s.pcie.holdoff.toNat ≤ s.now)

/-- Send Assert_INTA or Deassert_INTA as R306 allows; no interrupt message is sent in D3hot (R302). -/
def inta (s : State) : State :=
  if s.pcie.d3 then s
  else if intaWanted s.pcie then
    if !s.pcie.asserted && holdoffPassed s then { s with pcie := { s.pcie with asserted := true } } else s
  else if s.pcie.asserted then { s with pcie := { s.pcie with asserted := false, deassertAt := some s.now } } else s

/-- Causes that hardware has set in this tick (R307). -/
def recentCauses (s : State) : Word := if s.pcie.recent.1 = s.now then s.pcie.recent.2 else 0

/-- Hardware sets bits of INTX_CAUSE (Table 13.7). -/
def setCause (k : Nat) (s : State) : State :=
  inta { s with pcie := { s.pcie with cause := s.pcie.cause ||| w32 (2 ^ k), recent := (s.now, recentCauses s ||| w32 (2 ^ k)) } }

/-! ### Trace (16_observation.md R366-R369) -/

/-- Local buffer a source writes to: its core, or 16 for the control buffer (R368). -/
def traceBuf (src : Nat) : Nat := if src < 16 then src else 16

/-- Bytes of an event list. -/
def evBytes (l : List (List Word)) : Nat := (l.map (fun e => 4 * e.length)).sum

/-- Words of a native event (Table 16.5) or legacy event (R369). -/
def eventWords (mode : Nat) (lossBit : Bool) (t kind src ctx niche don band a0 a1 : Nat) : List Word :=
  if mode = 2 then
    [dw [(b2n lossBit, 31, 31), (kind, 30, 24), (src, 23, 16), (ctx, 15, 0)], w32 t, dw [(niche, 23, 0)], w32 a0]
  else
    [dw [(kind, 31, 24), (src, 23, 16), (ctx, 15, 0)], w32 t, hi32 t, dw [(niche, 23, 0)], w32 don, dw [(band, 31, 20)], w32 a0, w32 a1]

/-- The source and kind are selected by the trace settings (R366, R367, R369). -/
def traceWants (c : TraceCfg) (kind src : Nat) : Bool :=
  (if src < 16 then maskBit c.coreMask src else c.ctrl) &&
  (match c.mode with
   | 1 => if kind = 0x0F then c.tapEn else kind = 0x0E || maskBit c.classMask (kind - 1)
   | 2 => decide (1 ≤ kind) && decide (kind ≤ 0x0A) && maskBit c.classMask (kind - 1)
   | _ => false)

/-- Emit a trace event: into the local buffer, or dropped and counted when the buffer is full (R368, R369). -/
def emit (kind src ctx niche don band a0 a1 : Nat) (s : State) : State :=
  let c := s.obs.trace
  if !traceWants c kind src then s else
  let b := traceBuf src
  let buf := tget s.obs.bufs b []
  let lost := tget s.obs.lost src (0, 0)
  let sz := if c.mode = 2 then 16 else 32
  let room := 65536 - evBytes buf
  let need := if lost.1 > 0 && c.mode = 1 then 2 * sz else sz
  if room < need then
    { s with obs := { s.obs with lost := tput s.obs.lost src (lost.1 + 1, if lost.1 = 0 then s.now else lost.2) } }
  else
    let gap := if lost.1 > 0 && c.mode = 1 then
        [eventWords 1 false s.now 0x0E src 0xFFFF 0xFFFFFF 0 0xFFF lost.1 lost.2] else []
    let ev := eventWords c.mode (decide (lost.1 > 0)) s.now kind src ctx niche don band a0 a1
    let s := { s with obs := { s.obs with bufs := tput s.obs.bufs b (buf ++ gap ++ [ev]), lost := tdel s.obs.lost src } }
    if gap.isEmpty then s else setCause 21 s

/-! ### Counter freeze (16_observation.md R362, R364) -/

/-- Trigger a global freeze; `k` is 0 command, 1 TRIG_IN, 2 safety trip. During a freeze only SOURCES changes. -/
def freezeTrigger (k : Nat) (s : State) : State :=
  let src := maskSet s.obs.sources k
  let src := if s.obs.freeze.isSome then maskSet src 3 else src
  { s with obs := { s.obs with sources := src, trigger := s.obs.trigger || s.obs.freeze.isNone, tickTrig := maskSet s.obs.tickTrig k } }

/-- The snapshot at the boundary that begins tick `tf` (R363). -/
def snapshot (tf : Nat) (s : State) : Snapshot :=
  { tf := tf, ctrs := s.obs.ctrs, epoch := s.obs.epoch, accounts := s.obs.accounts, parts := s.dram.parts, chans := s.dram.chans }

/-! ### The tick (02_raster_time.md R34) -/

/-- Bytes the PCI Express bucket gains in a tick: 3 % of speed x width x 128/130 / 8 (R370). -/
def pcieGain (p : Pcie) : Nat := p.speed * p.width * 1000 * 128 * 3 / (130 * 8 * 100)

/-- Bytes the DRAM bucket gains in a tick: 3 % of the peak of Table 11.1 (R370). -/
def dramGain (rate : Nat) : Nat := match rate with | 8533 => 8193 | 7500 => 7200 | _ => 6144

/-- Held ticks, observation buckets and the values a tick begins with after `n` ticks (R54, R247, R361, R370). -/
def accrue (n : Nat) (s : State) : State :=
  { s with
    outq := s.outq.map (fun e => (e.1, if e.2.fullHold then { e.2 with fullTicks := (e.2.fullTicks + n) % 2 ^ 64 } else e.2))
    obs := { s.obs with
      ctrs0 := s.obs.ctrs, accounts0 := s.obs.accounts, accountsTick := []
      pcieBucket := min 65536 (s.obs.pcieBucket + n * pcieGain s.pcie)
      dramBucket := min 65536 (s.obs.dramBucket + n * dramGain s.dram.rate) }
    chip := { s.chip with tick := (s.chip.tick + n) % 2 ^ 64 } }

/-- One tick: TRIG_OUT falls, and a trigger of the tick that ends freezes the counters at its boundary (R362). -/
def tickOne (s : State) : State :=
  let s := accrue 1 { s with obs := { s.obs with trigOut := false, tickTrig := 0 } }
  if s.obs.trigger then
    let snap := snapshot s.now s
    let s := { s with obs := { s.obs with freeze := some snap, trigger := false, trigOut := true } }
    emit 0x0A 0x24 0xFFFF 0xFFFFFF 0 0xFFF s.obs.sources 0 s
  else s

/-- Let `n` ticks pass. -/
def advance (n : Nat) (s : State) : State :=
  match n with
  | 0 => s
  | 1 => tickOne s
  | k + 2 => let s := accrue (k + 1) (tickOne s); { s with obs := { s.obs with trigOut := false } }

/-- Carry the clock to tick `t` when it lies ahead. -/
def advanceTo (t : Nat) (s : State) : State := advance (t - s.now) s

/-! ### Safety word and trips (14_safety.md R315-R319, R327) -/

/-- Causes marked FLR in Table 14.2: LOCKSTEP and FATAL. -/
def flrCauses : Nat := 2 ^ 0 + 2 ^ 14

/-- LOCKED (Table 14.5). -/
def Safety.locked (f : Safety) : Bool := maskBit f.causes 0 || maskBit f.causes 14

/-- The safety word (14_safety.md Table 14.5). -/
def Safety.word (f : Safety) : Word :=
  dw [(f.state, 31, 30), (b2n f.safeN, 29, 29), (b2n f.locked, 28, 28), (f.causes, 23, 0)]

/-- Replace the safety state; a change of the word sets SAFETY in INTX_CAUSE (R327). -/
def setSafety (f : Safety) (s : State) : State :=
  let old := s.safety.word
  let s := { s with safety := f }
  if f.word = old then s else setCause 17 s

/-- A cause of Table 14.2 is detected (R315, R318, R319): counted while off; trips while armed; adds its bit while tripped. -/
def detect (n : Nat) (s : State) : State :=
  let f := s.safety
  match f.state with
  | 1 =>
    let s := setSafety { f with state := 2, causes := maskSet f.causes n, first := some n, tripTick := s.now,
                                trips := satAdd 16 f.trips 1, safeN := false } s
    freezeTrigger 2 s
  | 2 =>
    let first := match f.first with
      | some m => some (if f.tripTick = s.now then min m n else m)
      | none => some n
    setSafety { f with causes := maskSet f.causes n, first := first } s
  | _ => { s with safety := { f with seen := tput f.seen n (tget f.seen n 0 + 1) } }

/-! ### Host writes (01_architecture.md R10, 13_host_endpoint.md R298) -/

/-- Posted writes of the device to host memory, in ascending address order. -/
def hostWrite (a : Nat) (bs : List Byte) (s : State) : State := { s with hostMem := mwrite s.hostMem a bs }

/-- Posted write of words. -/
def hostWords (a : Nat) (ws : List Word) (s : State) : State := hostWrite a (wordsBytes ws) s

/-! ### Regions of device memory made of several buffers (11_memory.md R271) -/

/-- Write bytes at an offset of a region that the buffers make up in order; what passes its end is not written. -/
def regionWrite : List Alloc → Nat → List Byte → Mem → Mem
  | [], _, _, m => m
  | a :: as, off, bs, m =>
    if a.bytes ≤ off then regionWrite as (off - a.bytes) bs m
    else regionWrite as 0 (bs.drop (a.bytes - off)) (mwrite m (a.addr + off) (bs.take (a.bytes - off)))

/-- Device address of an offset of a region. -/
def regionAddr : List Alloc → Nat → Nat
  | [], off => off
  | a :: as, off => if a.bytes ≤ off then regionAddr as (off - a.bytes) else a.addr + off

/-- The bytes of a region cleared. -/
def regionClear (l : List Alloc) (m : Mem) : Mem :=
  m.filter (fun e => l.all (fun a => !(decide (a.addr ≤ e.1) && decide (e.1 < a.addr + a.bytes))))

/-! ### Packets (03_commands.md Table 3.4) -/

def JEntry.word (e : JEntry) (n : Nat) : Word := e.pkt.getD n 0
def JEntry.param (e : JEntry) (n : Nat) : Word := e.word (n + 4)
def JEntry.opcode (e : JEntry) : Nat := fld (e.word 0) 7 0
def JEntry.ext (e : JEntry) : Nat := fld (e.word 0) 25 24
def JEntry.irq (e : JEntry) : Bool := bit (e.word 0) 8
def JEntry.tag (e : JEntry) : Word := e.word 1
def JEntry.gen (e : JEntry) : Nat := fld (e.word 2) 23 16
def JEntry.ctx (e : JEntry) : Nat := fld (e.word 2) 15 0
def JEntry.remote (e : JEntry) : Bool := bit (e.word 3) 7
def JEntry.dest (e : JEntry) : Nat := fld (e.word 3) 5 0

/-- Final completions a command posts, plus interim ones: what it reserves in the ring (R52). -/
def reserve (op : Nat) : Nat := if op = 0x10 ∨ op = 0x11 ∨ op = 0x31 ∨ op = 0x34 then 2 else 1

/-- Kind of context an opcode names (Table 3.7). -/
inductive CtxKind where
  | stream | session | maquette | armature | engine | core | client | channel | none
deriving DecidableEq, Repr, Inhabited

/-- A row of Table 3.5: permitted ports, extension units, context kind. -/
structure OpInfo where
  host : Bool
  safety : Bool
  ring : Bool
  maint : Bool
  ext : Nat
  kind : CtxKind
deriving DecidableEq, Repr, Inhabited

/-- Table 3.5. -/
def opInfo (op : Nat) : Option OpInfo :=
  let h (k : CtxKind) : Option OpInfo := some ⟨true, false, false, false, 0, k⟩
  match op with
  | 0x01 => some ⟨true, true, true, false, 0, .none⟩
  | 0x02 => some ⟨true, false, true, false, 0, .none⟩
  | 0x10 => some ⟨true, false, false, false, 1, .stream⟩
  | 0x11 => h .stream
  | 0x12 => h .stream
  | 0x13 => h .stream
  | 0x20 => h .maquette
  | 0x21 => h .maquette
  | 0x22 => h .armature
  | 0x23 => h .armature
  | 0x30 => some ⟨true, false, true, false, 0, .maquette⟩
  | 0x31 => some ⟨true, false, false, false, 1, .session⟩
  | 0x32 => h .session
  | 0x33 => some ⟨true, false, true, false, 0, .session⟩
  | 0x34 => h .session
  | 0x40 => h .stream
  | 0x41 => h .stream
  | 0x50 => h .none
  | 0x51 => h .none
  | 0x60 => h .none
  | 0x61 => some ⟨true, false, false, false, 1, .none⟩
  | 0x62 => some ⟨false, false, true, false, 1, .session⟩
  | 0x70 => some ⟨false, true, false, false, 0, .none⟩
  | 0x71 => some ⟨false, true, false, false, 0, .none⟩
  | 0x72 => some ⟨true, true, false, false, 0, .none⟩
  | 0x73 => some ⟨false, true, false, false, 0, .none⟩
  | 0x80 => some ⟨true, true, false, false, 0, .none⟩
  | 0x81 => h .none
  | 0x82 => some ⟨true, false, false, false, 1, .none⟩
  | 0x83 => h .client
  | 0x90 => h .engine
  | 0x91 => h .core
  | 0x92 => some ⟨true, true, false, false, 0, .none⟩
  | 0x93 => some ⟨true, false, false, true, 0, .none⟩
  | 0xA0 => some ⟨false, false, false, true, 0, .channel⟩
  | _ => none

/-- The opcode is permitted on the port (R44). -/
def OpInfo.allows (i : OpInfo) : Port → Bool
  | .host => i.host
  | .safety => i.safety
  | .ring => i.ring
  | .maintenance => i.maint

/-- First number outside the range of a context kind (Table 3.7). -/
def CtxKind.bound : CtxKind → Nat
  | .stream => 128 | .session => 4096 | .maquette => 64 | .armature => 4 | .engine => 64 | .core => 16
  | .client => 256 | .channel => 16 | .none => 1

/-- CONTEXT = 0xFFFF has a meaning for the opcode (R69, R216). -/
def anyContext (op : Nat) : Bool := op = 0x10 || op = 0x31 || op = 0x20 || op = 0x22 || op = 0x41

/-- The command's CONTEXT names this part's context (a forwarded command's names the executing part's, R74). -/
def JEntry.remoteTo (e : JEntry) (chip : Nat) : Bool := e.remote && e.dest ≠ chip

/-- Stream slot or session of this part a command names: (false, slot) or (true, session) (R67). -/
def JEntry.named (e : JEntry) (chip : Nat) : Option (Bool × Nat) :=
  if e.remoteTo chip then none
  else match opInfo e.opcode with
    | some i =>
      if i.kind = .stream ∧ e.ctx < 128 then some (false, e.ctx)
      else if i.kind = .session ∧ e.ctx < 4096 ∧ e.opcode ≠ 0x62 then some (true, e.ctx)
      else none
    | none => none

/-- What orders a command among others: the slot or session it names; a COLLECTIVE names the sender's session, which is none of this part's
numbers (R67, 12_links.md R293). -/
def JEntry.orderKey (e : JEntry) (chip : Nat) : Option (Bool × Nat) :=
  if e.opcode = 0x62 then e.origin.map (fun o => (true, 4096 * (o.1 + 1) + e.ctx)) else e.named chip

/-! ### The journal and completions (03_commands.md R59-R68) -/

/-- Journal entry at a position. -/
def State.entry? (s : State) (j : Nat) : Option JEntry := s.journal.find? (fun e => e.jpos = j)

/-- Change the entry at a position. -/
def modEntry (j : Nat) (f : JEntry → JEntry) (s : State) : State :=
  { s with journal := s.journal.map (fun e => if e.jpos = j then f e else e) }

/-- Words of a completion entry (Table 3.6). -/
def Cpl.words (c : Cpl) (phase : Bool) : List Word :=
  [dw [(b2n phase, 24, 24), (c.opcode, 23, 16), (c.status, 15, 0)], c.tag, c.asn,
   dw [(b2n c.final, 31, 31), (c.chip, 29, 24), (c.gen, 23, 16), (c.context, 15, 0)], c.r0, c.r1, c.r2, c.r3]

/-- Write one completion to host ring `q`: PHASE inverts on each later pass (R51), a first completion updates CPL_LAST_ASN
(Table 13.4), a final completion with IRQ sets its cause (Table 13.7). -/
def postHost (q : Nat) (first irq : Bool) (c : Cpl) (s : State) : State :=
  let h := s.queue q
  let n := h.cplSize.toNat
  let addr := join64 h.cplBaseLo h.cplBaseHi + 32 * h.cplIndex
  let next := if h.cplIndex + 1 ≥ n then 0 else h.cplIndex + 1
  let h' := { h with cplIndex := next, phase := if next = 0 then !h.phase else h.phase,
                     cplLastAsn := if first then c.asn else h.cplLastAsn }
  let s := (hostWords addr (c.words h.phase) s).setQueue q h'
  if c.final && irq then setCause q s else s

/-- Post the completions an entry holds, first to last. -/
def postAll (q : Nat) (irq : Bool) : Nat → List Cpl → State → State
  | _, [], s => s
  | k, c :: cs, s => postAll q irq (k + 1) cs (postHost q (k = 0) irq c s)

/-- Pass over the entries of host queue `q` in journal order: an entry's first completion waits for that of every earlier one
(R66); later completions do not wait. Posted entries whose final completion left are freed (R65). A command another part executed is counted
there (10_work_classes.md R245). -/
def flushEntries (q : Nat) : Bool → List JEntry → List JEntry → State → State
  | _, done, [], s => { s with journal := done }
  | ok, done, e :: es, s =>
    if e.port = .host ∧ e.queue = q then
      if e.cpls.isEmpty then flushEntries q (ok && decide (e.posted > 0)) (done ++ [e]) es s
      else if ok || decide (e.posted > 0) then
        let s := postAll q e.irq e.posted e.cpls s
        if e.cpls.any (·.final) then
          flushEntries q ok done es (if e.cpls.any (fun c => c.final && decide (c.chip ≠ s.link.chip)) then s
            else account e.client (fun a => { a with commands := satAdd 32 a.commands 1 }) s)
        else flushEntries q ok (done ++ [{ e with cpls := [], posted := e.posted + e.cpls.length }]) es s
      else flushEntries q false (done ++ [e]) es s
    else flushEntries q ok (done ++ [e]) es s

/-- Post what may be posted on both host queues. Nothing is posted in D3hot (R302) or while FATAL is set (R345). -/
def flush (s : State) : State :=
  if s.pcie.d3 || s.chip.fatal then s
  else
    let s := flushEntries 0 true [] s.journal s
    flushEntries 1 true [] s.journal s

/-- A completion of an entry. -/
def JEntry.cpl (e : JEntry) (chip status : Nat) (final : Bool) (gen ctx : Nat) (r : List Word) : Cpl :=
  { status := status, opcode := e.opcode, tag := e.tag, asn := e.asn, final := final, chip := chip, gen := gen, context := ctx,
    r0 := r.getD 0 0, r1 := r.getD 1 0, r2 := r.getD 2 0, r3 := r.getD 3 0 }

/-- What the CRC of a link packet covers: DW0-DW6 with HOPS, VC and TURNED taken as 0, and the data (12_links.md R289, Table 12.4). -/
def pktCovered (p : LinkPkt) : List Word :=
  [dw [(p.dest, 31, 26), (p.src, 25, 20), (p.cls, 19, 18), (p.type, 15, 8)], dw [(p.context, 31, 16), (p.gen, 15, 8)],
   dw [(4 * p.data.length, 10, 0)], p.seq, p.aux, p.aux2, 0] ++ p.data

/-- The packet with its CRC. -/
def sealPkt (p : LinkPkt) : LinkPkt := { p with crc := crcWords (pktCovered p) }

/-- The receiver's CRC check passes. -/
def pktCrcOk (p : LinkPkt) : Bool := p.crc = crcWords (pktCovered p)

/-- A port is UP. -/
def portUp (s : State) (p : Nat) : Bool := (s.lport p).st = 2

/-- Replace port `p`. -/
def State.setLport (s : State) (p : Nat) (x : LPort) : State := { s with link := { s.link with ports := tput s.link.ports p x } }

/-- Key of the credits of a packet's class and channel (12_links.md R290). -/
def creditKey (p : LinkPkt) : Nat := 2 * p.cls + p.vc

/-- Place of a waiting packet in the choice of an output port: control before LC before BE, channel 1 before 0, through before own, then round
robin over the input ports (12_links.md R290). -/
def txRank (x : LPort) (q : LinkPkt × Option (Nat × Nat)) : Nat :=
  16 * q.1.cls + (if q.1.vc = 1 then 0 else 8) + (match q.2 with | some i => (i.1 + 3 - x.lastIn) % 4 | none => 4)

/-- The packet an output port sends next: the first in rank among those with a credit, oldest first. -/
def pickTx (x : LPort) : Option Nat :=
  (List.range x.queue.length).foldl (fun best k =>
    match x.queue[k]? with
    | none => best
    | some q =>
      if tget x.credits (creditKey q.1) 0 = 0 then best
      else match best with
        | none => some k
        | some b => match x.queue[b]? with
          | some r => if txRank x q < txRank x r then some k else best
          | none => some k) none

/-- A buffer of a port for class and channel `k` is free again: its credit goes back to the peer of that port (12_links.md R290). -/
def creditFree (port k : Nat) (s : State) : State :=
  let x := s.lport port
  s.setLport port { x with freed := tput x.freed k (tget x.freed k 0 + 1) }

/-- A packet leaves the buffer it came in by. -/
def creditBack (port : Nat) (p : LinkPkt) (s : State) : State := creditFree port (creditKey p) s

/-- The packet at place `k` of a port's queue leaves, for one credit. -/
def sendAt (port k : Nat) (s : State) : State :=
  let x := s.lport port
  match x.queue[k]? with
  | none => s
  | some q =>
    let c := creditKey q.1
    let s := s.setLport port { x with queue := x.queue.eraseIdx k, credits := tput x.credits c (tget x.credits c 0 - 1), lastIn := (q.2.map (·.1)).getD x.lastIn }
    let s := { s with link := { s.link with tx := s.link.tx ++ [(port, q.1)] } }
    match q.2 with | some i => creditFree i.1 i.2 s | none => s

/-- An UP port sends what its credits allow, in the order of R290; `fuel` bounds the packets. -/
def drainPort : Nat → Nat → State → State
  | 0, _, s => s
  | fuel + 1, port, s =>
    if !portUp s port then s
    else match pickTx (s.lport port) with
      | none => s
      | some k => drainPort fuel port (sendAt port k s)

/-- Hand a packet to a port: it waits there, then leaves as R290 allows. `from_`: the port a through packet came in by, and the class and channel
of its buffer there. -/
def linkTx (port : Nat) (from_ : Option (Nat × Nat)) (p : LinkPkt) (s : State) : State :=
  let x := s.lport port
  drainPort (x.queue.length + 1) port (s.setLport port { x with queue := x.queue ++ [(p, from_)] })

/-- The route to a chip has gone to its alternate, which is UP (12_links.md R295). -/
def onAlternate (s : State) (dest : Nat) : Bool :=
  let e := tget s.link.route dest 0
  maskBit s.link.onAlt dest && decide (e / 64 % 2 = 1) && portUp s (e / 16 % 4)

/-- Port a packet of this part leaves by: PRIMARY when UP, else ALT_PORT (12_links.md R287, R295); true when turned. -/
def routeOut (s : State) (dest : Nat) : Option (Nat × Bool) :=
  let e := tget s.link.route dest 0
  let prim := e % 4
  let alt := (e / 16) % 4
  if e / 128 % 2 = 1 && portUp s prim && !onAlternate s dest then some (prim, false)
  else if e / 128 % 2 = 1 && e / 64 % 2 = 1 && portUp s alt then some (alt, true)
  else none

/-- Send a control packet (class 0, SEQ 0). -/
def sendControl (dest type : Nat) (aux aux2 : Word) (s : State) : State :=
  match routeOut s dest with
  | none => s
  | some (p, t) =>
    linkTx p none (sealPkt { dest := dest, src := s.link.chip, cls := 0, vc := 0, turned := t, type := type, hops := 32, context := 0xFFFF,
                                    gen := 0, seq := 0, aux := aux, aux2 := aux2, crc := 0, data := [] }) s

/-- Key of the sequenced traffic with a chip in a class. -/
def pairKey (chip cls : Nat) : Nat := chip * 4 + cls

/-- Send a sequenced packet of class LC or BE: numbered per pair and kept until acknowledged, at most 256 (12_links.md R291). -/
def sendSeq (dest cls type ctx gen : Nat) (aux aux2 : Word) (data : List Word) (s : State) : State :=
  let k := pairKey dest cls
  let pr := tget s.link.pairs k Pair.reset
  let p : LinkPkt := sealPkt
    { dest := dest, src := s.link.chip, cls := cls, vc := 0, turned := false, type := type, hops := 32, context := ctx,
      gen := gen, seq := w32 pr.nextSeq, aux := aux, aux2 := aux2, crc := 0, data := data }
  let pr' : Pair := { pr with nextSeq := (pr.nextSeq + 1) % 2 ^ 32, unacked := pr.unacked ++ [p] }
  let s := { s with link := { s.link with pairs := tput s.link.pairs k pr' } }
  if pr.unacked.length ≥ 256 then s
  else match routeOut s dest with
    | none => s
    | some (port, t) => linkTx port none { p with turned := t } s

/-- CONTEXT and GEN of a COMPLETION packet: the home session of a collective; of any other command none, since the context is one of the executing part
(12_links.md R294, Table 12.4, log 140). -/
def cplContext (c : Cpl) : Nat × Nat := if c.opcode = 0x62 then (c.context, c.gen) else (0xFFFF, 0)

/-- Send the COMPLETION packet of a command forwarded from journal position `oj` of a chip. -/
def sendCpl (chip cls oj : Nat) (c : Cpl) (s : State) : State :=
  sendSeq chip cls 0x04 (cplContext c).1 (cplContext c).2 (w32 oj) 0 (c.words false) s

/-- Give an entry a completion and post what may be posted. A ring-port command's completion travels back as a COMPLETION packet
and is kept until acknowledged (12_links.md R292); a safety-port completion waits for CPL_ACK (14_safety.md R326); a
maintenance-port completion is posted when produced. -/
def produce (j : Nat) (c : Cpl) (s : State) : State :=
  match s.entry? j with
  | none => s
  | some e =>
    let s := modEntry j (fun e => { e with cpls := e.cpls ++ [c], st := if c.final then .done else e.st }) s
    match e.port with
    | .host => flush s
    | .safety => s
    | .maintenance =>
      let s := { s with mntCpl := some c, journal := s.journal.filter (fun x => x.jpos ≠ j) }
      account e.client (fun a => { a with commands := satAdd 32 a.commands 1 }) s
    | .ring =>
      match e.origin with
      | none => { s with journal := s.journal.filter (fun x => x.jpos ≠ j) }
      | some (chip, oj) =>
        let cls := if e.queue = 0 then 1 else 2
        let s := { s with journal := s.journal.filter (fun x => x.jpos ≠ j),
                          link := { s.link with kept := s.link.kept ++ [(chip, oj, cls, c)] } }
        let s := account e.client (fun a => { a with commands := satAdd 32 a.commands 1 }) s
        sendCpl chip cls oj c s

/-- Final completion with a status and results, CONTEXT and GEN as the packet names them: where the command acts on no context the packet's values are
echoed (DESIGN CHOICE, log 143). -/
def finish (j status : Nat) (r : List Word) (s : State) : State :=
  match s.entry? j with
  | none => s
  | some e => produce j (e.cpl s.link.chip status true e.gen e.ctx r) s

/-- Final completion with the generation and number of the context acted on. -/
def finishCtx (j status gen ctx : Nat) (r : List Word) (s : State) : State :=
  match s.entry? j with
  | none => s
  | some e => produce j (e.cpl s.link.chip status true gen ctx r) s

/-- Interim completion (R59, R60). -/
def interim (j status gen : Nat) (s : State) : State :=
  match s.entry? j with
  | none => s
  | some e => produce j (e.cpl s.link.chip status false gen e.ctx []) s

/-- Every command of the scope with an earlier journal position has posted its final completion (R67); a safety-port command
has finished when its final completion is produced (R326). -/
def fenceClear (s : State) (e : JEntry) (allQueues : Bool) : Bool :=
  s.journal.all (fun x => !(decide (x.jpos < e.jpos) && decide (x.port = e.port) && (allQueues || decide (x.queue = e.queue)) &&
    !(decide (x.port = .safety) && decide (x.st = .done))))

/-- Commands of the scope of a FENCE with an earlier position that have not finished: what the FENCE waits for. -/
def fenceCount (s : State) (port : Port) (queue jpos : Nat) (allQueues : Bool) : Nat :=
  (s.journal.filter (fun x => decide (x.jpos < jpos) && decide (x.port = port) && (allQueues || decide (x.queue = queue)) &&
    !(decide (x.port = .safety) && decide (x.st = .done)))).length

/-- No FENCE before the command holds it back (R67). -/
def unfenced (s : State) (e : JEntry) : Bool :=
  s.journal.all (fun x => !(decide (x.opcode = 0x02) && decide (x.jpos < e.jpos) && decide (x.port = e.port) &&
    (bit (x.param 0) 0 || decide (x.queue = e.queue)) && decide (x.st ≠ .done)))

/-- Every earlier command that names the same stream slot or session has finished (R67). -/
def ctxFree (s : State) (e : JEntry) : Bool :=
  match e.orderKey s.link.chip with
  | none => true
  | some n => s.journal.all (fun x => !(decide (x.jpos < e.jpos) && decide (x.orderKey s.link.chip = some n) && decide (x.st ≠ .done)))

/-- Opcodes whose execution uses the compute domain (15_recovery.md R353). -/
def usesCompute (op : Nat) : Bool := op = 0x12 || op = 0x30 || op = 0x32 || op = 0x33 || op = 0x62

/-- Opcodes whose execution reads or writes host memory: in D3hot they wait (13_host_endpoint.md R302). -/
def usesHost (op : Nat) : Bool := [0x20, 0x22, 0x41, 0x51, 0x81, 0x82, 0x93].contains op

/-- A compute-domain reset is requested and has not begun. -/
def domainRequested (s : State) : Bool := s.recov.requests.any (fun r => decide (r.1 = 3))

/-- The units of the compute domain work: no compute-domain reset or recovery is running and FATAL is not set (R345). -/
def domainUp (s : State) : Bool := s.recov.domainAt.isNone && !s.chip.fatal

/-- The compute domain takes new work: issue stops when its reset is requested (R351 step 1). -/
def computeUp (s : State) : Bool := domainUp s && !domainRequested s

/-- The unit is neither fenced nor under a reset of its own. -/
def unitUp (s : State) (u : UnitId) : Bool :=
  match u with
  | .mx c e => !s.isFenced c && (s.core c).resetAt.isNone && (tfind (s.core c).engineReset e).isNone
  | .vx c => !s.isFenced c && (s.core c).resetAt.isNone
  | _ => true

/-- The part executes commands: start-up done and FATAL not set. -/
def live (s : State) : Bool := decide (s.chip.phase = .ready) && !s.chip.fatal

/-- The waiting command at position `j` with the given opcode may begin execution. -/
def mayBegin (s : State) (j op : Nat) : Bool :=
  match s.entry? j with
  | none => false
  | some e => decide (e.opcode = op) && decide (e.st = .waiting) && live s && unfenced s e && ctxFree s e &&
      (!usesCompute op || computeUp s) && !(usesHost op && s.pcie.d3)

/-- Begin execution: the ticks since acceptance go to WAIT_TICKS of the client (10_work_classes.md Table 10.3). -/
def beginCmd (e : JEntry) (s : State) : State :=
  account e.client (fun a => { a with wait := (a.wait + (s.now - e.tick)) % 2 ^ 64 })
    (modEntry e.jpos (fun x => { x with st := .running, began := some s.now }) s)

/-- Execute the command at `j` when it may begin; otherwise no step of the device takes place (log 2). -/
def withCmd (j op : Nat) (s : State) (body : JEntry → State → State) : State :=
  if mayBegin s j op then
    match s.entry? j with
    | some e => body e (beginCmd e s)
    | none => s
  else s

/-! ### Statuses (03_commands.md Table 3.9) -/

def stOk : Nat := 0x0000
def stOpenOk : Nat := 0x0001
def stTruncated : Nat := 0x0002
def stOpenDeferred : Nat := 0x0101
def stCloseDraining : Nat := 0x0102
def stBadOpcode : Nat := 0x0201
def stBadLength : Nat := 0x0202
def stPortPrivilege : Nat := 0x0203
def stBadContext : Nat := 0x0204
def stStaleGen : Nat := 0x0205
def stCtxBusy : Nat := 0x0206
def stBadParam : Nat := 0x0207
def stCtxClosing : Nat := 0x0208
def stPoolEmpty : Nat := 0x0301
def stTrackFull : Nat := 0x0302
def stJournalFull : Nat := 0x0303
def stNoFree : Nat := 0x0304
def stDecodeBudget : Nat := 0x0305
def stArmResource : Nat := 0x0306
def stDecodeLate : Nat := 0x0401
def stDimExceeds : Nat := 0x0402
def stUnsupProfile : Nat := 0x0403
def stUnsupLevel : Nat := 0x0404
def stInterlaced : Nat := 0x0405
def stConcealed : Nat := 0x0406
def stFeedOverflow : Nat := 0x0407
def stAccOverflow : Nat := 0x0501
def stSpadOverflow : Nat := 0x0502
def stWatchdog : Nat := 0x0503
def stEcc : Nat := 0x0504
def stFenced : Nat := 0x0505
def stLinkDown : Nat := 0x0601
def stNoRoute : Nat := 0x0602
def stPeerRejected : Nat := 0x0603
def stPeerFlr : Nat := 0x0702

/-! ### Output rings and records (03_commands.md R53, R54; 04_stream_decode.md R116-R118; 14_safety.md R333) -/

/-- Bytes of an output ring. -/
def OutRing.bytes (r : OutRing) : Nat := 2 ^ fld r.size 4 0

/-- A record of `len` bytes fits: one 32-byte unit stays free between its end and OUT_RING_HEAD (R54). -/
def OutRing.fits (r : OutRing) (len : Nat) : Bool :=
  let used := (r.wr + r.bytes - r.head) % r.bytes
  decide (used + len + 32 ≤ r.bytes)

/-- Write bytes into a ring at an offset, wrapping at its size (R53). -/
def ringWrite (base size off : Nat) (bs : List Byte) (s : State) : State :=
  let first := size - off
  hostWrite base (bs.drop first) (hostWrite (base + off) (bs.take first) s)

/-- Issue the output tail write-back of ring `o`: every record written becomes visible (R53). -/
def tailWriteBack (o : Nat) (s : State) : State :=
  let r := s.oring o
  let s := hostWords (join64 r.tailWbLo r.tailWbHi) [w32 r.wr, 0] s
  let s := s.setOring o { r with tail := r.wr, uncovered := [], uncoveredBytes := 0, active := r.ringEn }
  let s := emit 0x08 0x23 0xFFFF 0xFFFFFF 0 0xFFF o r.wr s
  if r.irqEn then setCause (8 + o) s else s

/-- Coalescing conditions (a) with OUT_COAL = 0 and (b) of R53 after a record was written. -/
def coalesce (o : Nat) (s : State) : State :=
  let r := s.oring o
  if r.uncovered.isEmpty then s
  else if r.coal = 0 || decide (r.coalBytes.toNat ≤ r.uncoveredBytes) then tailWriteBack o s else s

/-- Begin or continue a hold: HOLDING reads 1; a hold because the ring is full sets OUT_FULL; a hold of a ring that carries a
masked slot trips OUTPUT_HELD (R54, Table 14.2). -/
def beginHold (o : Nat) (full : Bool) (s : State) : State :=
  let r := s.oring o
  let already := !r.held.isEmpty
  let s := if full && !r.fullHold then setCause 16 (s.setOring o { r with fullHold := true }) else s
  let masked := s.openSlots.any (fun n => maskBit s.safety.mask n && (s.stream n).cfg.outRing = o)
  if masked && !already && (s.safety.state = 1 || s.safety.state = 2) then detect 16 s else s

/-- Place one built record in ring `o`, which has room. -/
def placeRec (o : Nat) (b : BuiltRec) (s : State) : State :=
  let r := s.oring o
  let bs := wordsBytes b.words
  let s := ringWrite (join64 r.baseLo r.baseHi) r.bytes r.wr bs s
  let r' := { r with wr := (r.wr + bs.length) % r.bytes, uncovered := r.uncovered ++ [b.tag],
                     due := if r.uncovered.isEmpty then s.now + r.coal.toNat else r.due, uncoveredBytes := r.uncoveredBytes + bs.length }
  let s := s.setOring o r'
  let s := emit 0x07 0x23 b.tag.context 0xFFFFFF b.tag.don b.tag.band b.tag.seq (b.tag.type + 256 * o) s
  coalesce o s

/-- Hand a record to ring `o`: placed, or held behind every record already held (R54, R302, R305). -/
def putRec (o : Nat) (b : BuiltRec) (s : State) : State :=
  let r := s.oring o
  if r.ringEn && r.held.isEmpty && r.fits (4 * b.words.length) && !s.pcie.d3 then placeRec o b s
  else
    let full := r.ringEn && !r.fits (4 * b.words.length)
    let s := beginHold o full s
    let r := s.oring o
    s.setOring o { r with held := r.held ++ [b] }

/-- Write held records of ring `o` in order while they fit, `fuel` of them at most; a hold that goes on because the ring is full is a hold of
that kind from here (R54). -/
def releaseHeld : Nat → Nat → State → State
  | 0, _, s => s
  | fuel + 1, o, s =>
    let r := s.oring o
    match r.held with
    | [] => s.setOring o { r with fullHold := false }
    | b :: bs =>
      if r.ringEn && r.fits (4 * b.words.length) && !s.pcie.d3 then
        releaseHeld fuel o (placeRec o b (s.setOring o { r with held := bs, fullHold := r.fullHold && !bs.isEmpty }))
      else if r.ringEn && !r.fits (4 * b.words.length) && !r.fullHold then setCause 16 (s.setOring o { r with fullHold := true })
      else s

/-- Header words DW0-DW6 of a record (Table 4.8). -/
def recHeader (len type chip gen ctx seq don band tf : Nat) (last late valid concealed replayed catching : Bool) (t0 issue : Nat) :
    List Word :=
  [dw [(len, 31, 16), (type, 15, 8), (1, 7, 0)],
   dw [(chip, 29, 24), (gen, 23, 16), (ctx, 15, 0)],
   w32 seq, w32 don,
   dw [(band, 31, 20), (tf, 15, 8), (b2n last, 5, 5), (b2n late, 4, 4), (b2n valid, 3, 3), (b2n concealed, 2, 2),
       (b2n replayed, 1, 1), (b2n catching, 0, 0)],
   w32 t0, w32 issue]

/-- Pad words to a multiple of eight, the 32-byte unit of LEN. -/
def padRec (ws : List Word) : List Word := ws ++ List.replicate ((8 - ws.length % 8) % 8) 0

/-- SAFETY_VALID of a record (R106, R117, R333). -/
def safetyValid (s : State) (r : RecordReq) : Bool :=
  !r.session && (s.stream r.context).cfg.safety && !r.concealed && !r.catching && !r.late && !r.replayed &&
  decide (r.type ≠ 1) && decide (r.type ≠ 2) && decide (s.safety.state = 1) && maskBit s.safety.mask r.context &&
  r.within && r.safeNiches && decide (r.status = 0)

/-- Number, build and hand over one record of a context (R116): SEQ rises by 1 with each record, CRC over DW0-DW6 and the body. -/
def issueTo (o : Nat) (last : Bool) (r : RecordReq) (s : State) : State :=
  let seq := ((if r.session then (s.session r.context).seq else (s.stream r.context).seq) + 1) % 2 ^ 32
  let gen := if r.session then (s.session r.context).gen else (s.stream r.context).gen
  let body := padRec (List.replicate 8 0 ++ r.body) |>.drop 8
  let len := (8 + body.length) / 8
  let hdr := recHeader len r.type s.link.chip gen r.context seq r.don.toNat r.band r.typeFlags last r.late (safetyValid s r)
    r.concealed r.replayed r.catching r.t0 s.now
  let words := hdr ++ [crcWords (hdr ++ body)] ++ body
  let s := if r.session then s.modSession r.context (fun x => { x with seq := seq })
           else s.modStream r.context (fun x => { x with seq := seq })
  putRec o { tag := { session := r.session, context := r.context, don := r.don.toNat, band := r.band, type := r.type, seq := seq,
                      last := last }, words := words } s

/-- Output ring that carries a context's records; a stream's picture keeps the ring in force for it (R84). -/
def ringOf (s : State) (r : RecordReq) : Nat :=
  if r.session then (s.session r.context).outRing
  else match (s.stream r.context).pics.find? (fun p => p.don = r.don.toNat) with
    | some p => p.outRing
    | none => (s.stream r.context).cfg.outRing

/-- Replay of the stream runs: a video stream has not come to its first picture after the replayed ones, an audio stream has replayed
blocks to fire. -/
def Stream.replaying (x : Stream) : Bool :=
  match x.replayFrom with
  | none => false
  | some d => decide (x.cfg.codec ≠ 2) || donLt x.firedBlocks d

/-- A STREAM_EVENT record (Table 4.11): no picture flags, DON of the last picture decoded. -/
def streamEvent (slot event status detail : Nat) (s : State) : State :=
  let x := s.stream slot
  let don := match x.lastDon with | some d => w32 d | none => 0xFFFFFFFF
  let s := emit 0x0D 0x20 slot 0xFFFFFF don.toNat 0xFFF event status s
  issueTo x.cfg.outRing false
    { session := false, context := slot, type := 2, don := don, band := 0xFFF, typeFlags := 0, t0 := 0, safeNiches := false,
      within := true, concealed := false, late := false, catching := false, replayed := x.replaying, status := status, slots := [],
      body := [dw [(status, 31, 16), (event, 7, 0)], w32 detail, 0, 0, 0, 0, 0, 0] } s

/-- Records of a context that no tail write-back covers yet, in any ring. -/
def uncoveredOf (s : State) (session : Bool) (ctx : Nat) : List RecTag :=
  s.outq.flatMap (fun e => (e.2.uncovered ++ e.2.held.map (·.tag)).filter (fun t => t.session = session && t.context = ctx))

/-- The status word of an entry of a command family image: cut bytes at an entry boundary; true when cut. -/
def cutImage (entries : List (List Byte)) (room : Nat) : List Byte × Nat × Bool :=
  let rec go : List (List Byte) → Nat → List Byte → Nat → List Byte × Nat × Bool
    | [], _, acc, n => (acc, n, false)
    | e :: es, room, acc, n => if e.length ≤ room then go es (room - e.length) (acc ++ e) (n + 1) else (acc, n, true)
  go entries room [] 0

end Sys2Proof.Machine
end

