-- ==== Sys2Proof/Machine/Flags.lean ====
section
/-! DEFINITION. The status words and the register file of BAR0 (13_host_endpoint.md Tables 13.3-13.9) as reads return them. -/

namespace Sys2Proof.Machine

/-- DEVICE_STATUS (Table 13.6). -/
def deviceStatus (s : State) : Word :=
  dw [(b2n (decide (s.chip.phase = .ready)), 31, 31), (b2n s.chip.fatal, 30, 30), (b2n (s.safety.state = 1 ∨ s.safety.state = 2), 29, 29),
      (b2n (s.safety.state = 2), 28, 28), (s.link.role, 23, 22), (s.link.chip, 21, 16), (s.chip.fenced, 15, 0)]

/-- LINK_STATUS (Table 13.8). -/
def linkStatus (s : State) : Word :=
  dw [((s.lport 3).st, 15, 12), ((s.lport 2).st, 11, 8), ((s.lport 1).st, 7, 4), ((s.lport 0).st, 3, 0)]

/-- RING_ACTIVE of host queue `q`: 1 while RING_EN is 1 or an accepted command has not posted its final completion (R48). -/
def ringActive (s : State) (q : Nat) : Bool :=
  (s.queue q).ringEn || s.journal.any (fun e => decide (e.port = .host) && decide (e.queue = q))

/-- RING_STATUS of host queue `q` (Table 13.9). -/
def ringStatus (s : State) (q : Nat) : Word :=
  dw [(b2n (s.queue q).configErr, 2, 2), (b2n (s.queue q).badTail, 1, 1), (b2n (ringActive s q), 0, 0)]

/-- OUT_STATUS of output ring `o`: HOLDING is 1 while records are held (Table 13.9, R54). -/
def outStatus (s : State) (o : Nat) : Word :=
  dw [(b2n (s.oring o).configErr, 2, 2), (b2n (!(s.oring o).held.isEmpty), 1, 1), (b2n (s.oring o).active, 0, 0)]

/-- The value a read of a global register returns (Table 13.3); its side effects are the commands TICK_LO and ACCESS_ERRORS. -/
def regGlobal (s : State) (off : Nat) : Word :=
  match off with
  | 0x0000 => dw [(0x9640, 31, 16), (s.chip.stepping, 15, 8)]
  | 0x0004 => s.chip.fwVersion
  | 0x0008 => deviceStatus s
  | 0x0010 => w32 s.chip.tick
  | 0x0014 => s.pcie.tickHi
  | 0x0020 => s.pcie.cause
  | 0x0024 => s.pcie.mask
  | 0x0028 => s.pcie.holdoff
  | 0x0030 => linkStatus s
  | 0x0038 => s.pcie.window
  | 0x0040 => s.pcie.flrCount
  | 0x0044 => s.pcie.accessErrors
  | _ => 0

/-- A register of host queue `q` (Table 13.4). -/
def regQueue (s : State) (q off : Nat) : Word :=
  let h := s.queue q
  match off with
  | 0x00 => h.cmdBaseLo
  | 0x04 => h.cmdBaseHi
  | 0x08 => h.cmdSize
  | 0x0C => h.headWbLo
  | 0x10 => h.headWbHi
  | 0x14 => h.cplBaseLo
  | 0x18 => h.cplBaseHi
  | 0x1C => h.cplSize
  | 0x20 => w32 (b2n h.ringEn)
  | 0x24 => ringStatus s q
  | 0x28 => h.cmdLastAsn
  | 0x2C => h.cplLastAsn
  | 0x40 => w32 h.tail
  | 0x44 => w32 h.cplHead
  | 0x48 => w32 h.head
  | _ => 0

/-- A register of output ring `o` (Table 13.5). -/
def regOut (s : State) (o off : Nat) : Word :=
  let r := s.oring o
  match off with
  | 0x00 => r.baseLo
  | 0x04 => r.baseHi
  | 0x08 => r.size
  | 0x0C => r.tailWbLo
  | 0x10 => r.tailWbHi
  | 0x14 => r.coal
  | 0x18 => r.coalBytes
  | 0x1C => dw [(b2n r.irqEn, 1, 1), (b2n r.ringEn, 0, 0)]
  | 0x20 => outStatus s o
  | 0x24 => w32 r.fullTicks
  | 0x28 => r.fullHi
  | 0x40 => w32 r.head
  | 0x44 => w32 r.tail
  | _ => 0

/-- The value a read of BAR0 offset `off` returns; an offset that holds no register reads 0 (R304). -/
def regRead (s : State) (off : Nat) : Word :=
  if off < 0x1000 then regGlobal s off
  else if off < 0x2000 then regQueue s 0 (off - 0x1000)
  else if off < 0x3000 then regQueue s 1 (off - 0x2000)
  else if off < 0x3800 then regOut s ((off - 0x3000) / 0x100) ((off - 0x3000) % 0x100)
  else 0

/-- One DW read of BAR0 with its side effect: TICK_LO and OUT_FULL_TICKS_LO latch their high halves, ACCESS_ERRORS is cleared (Tables 13.3, 13.5). -/
def readDw (off : Nat) (s : State) : Word × State :=
  let ring := (off - 0x3000) / 0x100
  (regRead s off,
   if off = 0x10 then { s with pcie := { s.pcie with tickHi := hi32 s.chip.tick } }
   else if off = 0x44 then { s with pcie := { s.pcie with accessErrors := 0 } }
   else if 0x3000 ≤ off ∧ off < 0x3800 ∧ (off - 0x3000) % 0x100 = 0x24 then s.setOring ring { s.oring ring with fullHi := hi32 (s.oring ring).fullTicks }
   else s)

/-- The DWs of a BAR0 read in rising order, so that LO is read before HI. -/
def readDws : Nat → Nat → State → List Byte × State
  | _, 0, s => ([], s)
  | off, n + 1, s =>
    let r := readDw off s
    let t := readDws (off + 4) n r.2
    (wordBytes r.1 ++ t.1, t.2)

/-- A read of `len` bytes at BAR0 offset `off`: the bytes of the DWs it covers, and the state it leaves (R304). -/
def bar0Read (off len : Nat) (s : State) : List Byte × State :=
  let r := readDws (off / 4 * 4) ((off % 4 + len + 3) / 4) s
  ((r.1.drop (off % 4)).take len, r.2)

/-- Bits [lo] to [hi] of a written word, in place. -/
def keep (w : Word) (hi lo : Nat) : Word := dw [(fld w hi lo, hi, lo)]

/-- A power of two between two bounds. -/
def pow2In (n lo hi : Nat) : Bool := decide (lo ≤ n) && decide (n ≤ hi) && decide (n = 2 ^ Nat.log2 n)

/-- The register values RING_EN of a host queue is set under (R305, Table 13.4). -/
def queueConfigOk (h : HostQueue) : Bool := pow2In h.cmdSize.toNat 64 4096 && pow2In h.cplSize.toNat 128 8192

/-- OUT_COAL and OUT_COAL_BYTES lie in their ranges (Table 13.5). -/
def coalOk (v : Word) : Bool := decide (v.toNat ≤ 4000)
def coalBytesOk (v : Word) : Bool := decide (4096 ≤ v.toNat) && decide (v.toNat ≤ 1048576) && decide (v.toNat % 32 = 0)

/-- The register values RING_EN of an output ring is set under (R305, Table 13.5). -/
def outConfigOk (r : OutRing) : Bool :=
  decide (18 ≤ fld r.size 4 0) && decide (fld r.size 4 0 ≤ 26) && coalOk r.coal && coalBytesOk r.coalBytes

end Sys2Proof.Machine
end

