-- ==== Sys2Proof/Machine/Operands.lean ====
section
/-! DEFINITION. What every packet is checked for before its opcode's own parameters (03_commands.md R57, R69, R70, R74), the shared
shape of a command's execution, output images (R58, R361) and the observation buckets (16_observation.md R370). -/

namespace Sys2Proof.Machine

/-- Opcode, port, forwarding, EXT and CONTEXT range: the first failing status (R57). CONTEXT of a forwarded command names a context
of the executing part, which checks it (R74). -/
def staticCheck (chip : Nat) (e : JEntry) : Option Nat :=
  match opInfo e.opcode with
  | none => if e.opcode ≥ 0xF0 then some stPortPrivilege else some stBadOpcode
  | some i =>
    if !i.allows e.port then some stPortPrivilege
    else if e.remoteTo chip && e.port ≠ .ring && !(e.port = .host && (e.opcode = 0x30 || e.opcode = 0x33)) then some stPortPrivilege
    else if e.ext ≠ i.ext then some stBadLength
    else if e.remoteTo chip && e.port = .host then none
    else if e.ctx < i.kind.bound then none
    else if e.ctx = 0xFFFF && anyContext e.opcode then none
    else some stBadContext

/-- The packet is one that no opcode's own row executes: undefined, private, or not permitted on its port (R44). -/
def foreignOpcode (e : JEntry) : Bool :=
  match opInfo e.opcode with
  | none => true
  | some i => !i.allows e.port

/-- State and generation check of a command that names a stream slot (R69, R70, R72). -/
def streamCheck (s : State) (e : JEntry) : Option Nat :=
  let x := s.stream e.ctx
  if !x.isOpen then some stBadContext
  else if x.closing.isSome then some stCtxClosing
  else if e.gen ≠ x.gen then some stStaleGen
  else none

/-- As `streamCheck`, of a command that a slot with an audio stream has no context for: BAD_CONTEXT before the generation check (R57, 08_tracking.md R199,
R216). -/
def videoCheck (s : State) (e : JEntry) : Option Nat :=
  let x := s.stream e.ctx
  if x.isOpen && x.closing.isNone && decide (x.cfg.codec = 2) then some stBadContext else streamCheck s e

/-- State and generation check of a command that names a session of this part (R69, R70, R72); one whose open waits for its peers is not open yet. -/
def sessionCheck (s : State) (e : JEntry) : Option Nat :=
  let x := s.session e.ctx
  if !x.isOpen || x.shadow.isSome || x.pendingOpen.isSome then some stBadContext
  else if x.closing.isSome then some stCtxClosing
  else if e.gen ≠ x.gen then some stStaleGen
  else none

/-- Execute the waiting command at `j` with opcode `op`: a packet that fails the static check completes with its status (R57). -/
def runCmd (j op : Nat) (s : State) (body : JEntry → State → State) : State :=
  withCmd j op s (fun e s =>
    match staticCheck s.link.chip e with
    | some st => finish j st [] s
    | none => body e s)

/-- First of a list of checks that fails. -/
def firstFail : List (Bool × Nat) → Option Nat
  | [] => none
  | (ok, st) :: r => if ok then firstFail r else some st

/-- 64-bit number in PARAM n and PARAM n + 1. -/
def JEntry.param64 (e : JEntry) (n : Nat) : Nat := join64 (e.param n) (e.param (n + 1))

/-- Write an image of entries to the host buffer a command names, cut at an entry boundary, and complete with OK or OK_TRUNCATED
(03_commands.md Table 3.9). RESULT0 counts bytes, or entries when `entriesResult` is set, with RESULT1 the entries of the image. -/
def writeImage (j addr len : Nat) (entries : List (List Byte)) (entriesResult : Bool) (s : State) : State :=
  let c := cutImage entries len
  let s := hostWrite addr c.1 s
  let r := if entriesResult then [w32 c.2.1, w32 entries.length] else [w32 c.1.length]
  finish j (if c.2.2 then stTruncated else stOk) r s

/-- Let ticks pass until the PCI Express observation bucket holds `n` bytes, and take them (R370). -/
def takePcie (n : Nat) (s : State) : State :=
  let s := advance (cdiv (n - s.obs.pcieBucket) (pcieGain s.pcie)) s
  { s with obs := { s.obs with pcieBucket := s.obs.pcieBucket - n } }

/-- Let ticks pass until the DRAM observation bucket holds `n` bytes, and take them (R370). -/
def takeDram (n : Nat) (s : State) : State :=
  let s := advance (cdiv (n - s.obs.dramBucket) (dramGain s.dram.rate)) s
  { s with obs := { s.obs with dramBucket := s.obs.dramBucket - n } }

end Sys2Proof.Machine
end

