-- ==== Sys2Proof/Machine/Pools.lean ====
section
/-! DEFINITION. The memory plane (11_memory.md): the interleaved address space, buffer pools, reference counts, the safety region,
request queues, ECC outcomes, patrol, drift and training steps. -/

namespace Sys2Proof.Machine

/-! ### Address space (R253, R254, R264) -/

def mib : Nat := 1048576
/-- Largest pool buffer. -/
def mib4 : Nat := 4194304

/-- Bytes of the interleaved space (R253). -/
def spaceBytes (d : Dram) : Nat := (d.capMib - 160) * mib

/-- Channel of a device address (R253). -/
def chanOf (a : Nat) : Nat := ((a / 256) % 16) ^^^ (((a / 256) / 16) % 16)

/-- Bytes of a channel-local area (R252). -/
def localBytes : Nat := 10 * mib

/-- Channel of any address: past the interleaved space stand the 16 channel-local areas, channel 0 first, which the spec gives no device
addresses (R252, log 125). -/
def channelAt (d : Dram) (a : Nat) : Nat := if a < spaceBytes d then chanOf a else (a - spaceBytes d) / localBytes

/-- First byte of the pool metadata region, and of the safety region (Table 11.2). -/
def metaBase : Nat := (64 + 24 + 9) * mib
def safetyBase (d : Dram) : Nat := metaBase + d.capMib * mib / 512

/-- First byte of the pool space: the first 4 MiB boundary after the safety region (R270). -/
def poolBase (d : Dram) : Nat := cdiv (safetyBase d + d.safetyMib * mib) mib4 * mib4

/-- Pool space in bytes (Table 11.2). -/
def poolSpace (d : Dram) : Nat := spaceBytes d - poolBase d

/-- Buffer size of pool `p` (Table 11.6). -/
def poolSize (p : Nat) : Nat := 256 * 4 ^ p

/-- Bytes a protected buffer of `n` data bytes occupies (R264). -/
def eccBytes (n : Nat) : Nat := cdiv n 480 * 512

/-- Key of a partition. -/
def partKey (p : Nat) (ecc : Bool) : Nat := 2 * p + b2n ecc

/-- Buffers of a partition (R277). -/
def partCount (d : Dram) (p : Nat) (ecc : Bool) : Nat :=
  let sh := d.shares.getD p (0, 0)
  if ecc then poolSpace d * sh.1 * sh.2 / (1000 * 8 * eccBytes (poolSize p))
  else poolSpace d * sh.1 * (8 - sh.2) / (1000 * 8 * poolSize p)

/-- Bytes between buffers of a partition. -/
def partStride (p : Nat) (ecc : Bool) : Nat := if ecc then eccBytes (poolSize p) else poolSize p

/-- Partitions in the order of R270. -/
def partOrder : List (Nat × Bool) :=
  [(7, false), (6, false), (5, false), (4, false), (3, false), (2, false), (1, false),
   (7, true), (6, true), (5, true), (4, true), (3, true), (2, true), (1, true), (0, true), (0, false)]

/-- First byte of a partition (R270). -/
def partBase (d : Dram) (p : Nat) (ecc : Bool) : Nat :=
  let before := partOrder.takeWhile (fun x => x ≠ (p, ecc))
  poolBase d + (before.map (fun x => partCount d x.1 x.2 * partStride x.1 x.2)).sum

/-- Where a device address lies. -/
inductive Place where
  | firmware | taeSpill | impressions | metadata | safety
  | plain (p ix : Nat) | ecc (p ix : Nat)
  | unused
  /-- journal mirror A or B, a training row, the rest of a channel-local area (R252) -/
  | mirror (b : Bool) | training (ch : Nat) | channelLocal (ch : Nat)
  | beyond
deriving DecidableEq, Repr, Inhabited

/-- The place of byte `off` of the channel-local area of channel `ch` (R252). -/
def localPlace (ch off : Nat) : Place :=
  if off ≥ localBytes - 65536 then .training ch
  else if off ≥ 9 * mib then .channelLocal ch
  else if ch = 0 then .mirror false
  else if ch = 8 then .mirror true
  else .channelLocal ch

/-- The place of address `a` (Table 11.2, R252, R270). -/
def placeOf (d : Dram) (a : Nat) : Place :=
  if a ≥ spaceBytes d + 16 * localBytes then .beyond
  else if a ≥ spaceBytes d then localPlace ((a - spaceBytes d) / localBytes) ((a - spaceBytes d) % localBytes)
  else if a < 64 * mib then .firmware
  else if a < 88 * mib then .taeSpill
  else if a < metaBase then .impressions
  else if a < safetyBase d then .metadata
  else if a < safetyBase d + d.safetyMib * mib then .safety
  else
    match partOrder.find? (fun x => decide (partBase d x.1 x.2 ≤ a) &&
        decide (a < partBase d x.1 x.2 + partCount d x.1 x.2 * partStride x.1 x.2)) with
    | some (p, e) =>
      let ix := (a - partBase d p e) / partStride p e
      if e then .ecc p ix else .plain p ix
    | none => .unused

/-- The address lies under inline ECC (R265). -/
def Place.protected : Place → Bool
  | .firmware => true
  | .taeSpill => true
  | .impressions => true
  | .metadata => true
  | .safety => true
  | .ecc _ _ => true
  | .mirror _ => true
  | _ => false

/-- The same byte of the other journal mirror (R252, R269): mirror A lies on channel 0, mirror B on channel 8. -/
def mirrorTwin (b : Bool) (a : Nat) : Nat := if b then a - 8 * localBytes else a + 8 * localBytes

/-- Sector `k` of the data of a journal mirror: 15 data sectors stand in every 512 bytes (R264, R268). -/
def mirrorSector (d : Dram) (b : Bool) (k : Nat) : Nat := (spaceBytes d + (if b then 8 * localBytes else 0)) / 32 + k / 15 * 16 + k % 15

/-- The address lies in a check sector (R264). -/
def checkSector (d : Dram) (a : Nat) : Bool := (placeOf d a).protected && decide (a % 512 ≥ 480)

/-- The address lies in one of some allocations. -/
def inAllocs (a : Nat) (l : List Alloc) : Bool := l.any (fun x => decide (x.addr ≤ a) && decide (a < x.addr + x.bytes))

/-- The address lies in a picture region (R406). -/
def inPicture (s : State) (a : Nat) : Bool := s.streams.any (fun e => inAllocs a e.2.picRegion)

/-- The address lies in the picture region of slot `n`. -/
def inPictureOf (s : State) (n a : Nat) : Bool := inAllocs a (s.stream n).picRegion

/-- The address lies in a buffer of a loaded Maquette or of an Armature (R254). -/
def inModels (s : State) (a : Nat) : Bool :=
  s.maquettes.any (fun e => inAllocs a e.2.allocs) || s.armatures.any (fun e => inAllocs a e.2.allocs)

/-- Buffers of the active Armature and of the Maquettes it binds (Table 14.2, DRAM_UE). -/
def inActiveModels (s : State) (a : Nat) : Bool :=
  match s.active with
  | none => false
  | some r =>
    match tfind s.armatures r.arm with
    | none => false
    | some arm => inAllocs a arm.allocs || arm.bindings.any (fun b =>
        match tfind s.maquettes b.maq with
        | some m => inAllocs a m.allocs
        | none => false)

/-- The four places where an uncorrectable sector trips DRAM_UE whoever consumes it (Table 14.2). -/
def ueTrips (s : State) (a : Nat) : Bool :=
  match placeOf s.dram a with
  | .firmware => true
  | .safety => true
  | _ => inActiveModels s a

/-! ### Counters of a channel (Table 11.10) -/

/-- Count CE of the channel of an address. -/
def countCe (a : Nat) (s : State) : State :=
  let c := s.chan (channelAt s.dram a) 0
  s.setChan (channelAt s.dram a) 0 { c with ce := satAdd 32 c.ce 1 }

/-- Count UE of the channel of an address. -/
def countUe (a : Nat) (s : State) : State :=
  let c := s.chan (channelAt s.dram a) 0
  s.setChan (channelAt s.dram a) 0 { c with ue := satAdd 32 c.ue 1 }

/-- Count JOURNAL_REPAIRS of the channel of an address. -/
def countRepair (a : Nat) (s : State) : State :=
  let c := s.chan (channelAt s.dram a) 0
  s.setChan (channelAt s.dram a) 0 { c with repairs := satAdd 16 c.repairs 1 }

/-- What a read of a protected sector at `a` does (Table 11.5): a single-bit error is corrected and counted, a double-bit error is
counted and, in the places of Table 14.2, trips DRAM_UE; `serves` says that the data serves a Niche with SAFETY = 1. -/
def eccRead (a : Nat) (c : EccCond) (serves : Bool) (s : State) : State :=
  if !(placeOf s.dram a).protected then s
  else match c with
    | .clean => s
    | .single => countCe a s
    | .double =>
      let s := countUe a { s with dram := { s.dram with bad := (a / 32) :: s.dram.bad.filter (fun x => x ≠ a / 32) } }
      if ueTrips s a || serves then detect 2 s else s

/-- An uncorrectable sector of a journal mirror is counted, rewritten from the other mirror when that one can be read, and trips no safety cause (R269). -/
def mirrorUe (b : Bool) (a : Nat) (s : State) : State :=
  let rest := s.dram.bad.filter (fun x => x ≠ a / 32)
  let s := countUe a s
  if rest.contains (mirrorTwin b a / 32) then { s with dram := { s.dram with bad := (a / 32) :: rest } }
  else countRepair a { s with dram := { s.dram with bad := rest } }

/-- Sectors that hold `n` data bytes from data byte `off` of the protected region at `base`, with an uncorrectable error among them
(R264). -/
def dataBad (s : State) (base off n : Nat) : Bool :=
  s.dram.bad.any (fun x =>
    let y := x - base / 32
    decide (base / 32 ≤ x) && decide (y % 16 < 15) && decide ((y / 16 * 15 + y % 16) * 32 < off + n) && decide (off < (y / 16 * 15 + y % 16) * 32 + 32))

/-! ### Free stores (R270-R274) -/

/-- Free buffers of a partition (Table 11.9 FREE). -/
def Part.free (x : Part) : Nat := x.cache.length + (x.ring.map (·.2)).sum

/-- Take up to `n` buffers from the head of the ring. -/
def ringTake : Nat → List (Nat × Nat) → List Nat × List (Nat × Nat)
  | _, [] => ([], [])
  | n, (f, c) :: r =>
    if c ≤ n then
      let t := ringTake (n - c) r
      ((List.range c).map (f + ·) ++ t.1, t.2)
    else ((List.range n).map (f + ·), (f + n, c - n) :: r)

/-- Put one buffer at the tail of the ring. -/
def ringPut (r : List (Nat × Nat)) (b : Nat) : List (Nat × Nat) :=
  match r.getLast? with
  | some (f, c) => if f + c = b then r.dropLast ++ [(f, c + 1)] else r ++ [(b, 1)]
  | none => [(b, 1)]

/-- Move 64 entries in from the ring, below the entries of the cache (R273). -/
def Part.refill (x : Part) : Part :=
  let t := ringTake 64 x.ring
  { x with cache := x.cache ++ t.1, ring := t.2 }

/-- Move the 64 entries at the bottom of the cache out to the ring (R273). -/
def Part.spill (x : Part) : Part :=
  let k := x.cache.length - 64
  { x with cache := x.cache.take k, ring := (x.cache.drop k).foldl ringPut x.ring }

/-- Take one buffer: the top of the cache, after a refill when the cache is empty (R272, R273). -/
def Part.take (x : Part) : Option (Nat × Part) :=
  let x := if x.cache.isEmpty then x.refill else x
  match x.cache with
  | [] => none
  | b :: r =>
    let y := { x with cache := r }
    some (b, { y with minFree := min y.minFree y.free })

/-- Return one buffer to the top of the cache; a full cache spills first (R273). -/
def Part.give (x : Part) (b : Nat) : Part :=
  let x := if x.cache.length ≥ 256 then x.spill else x
  { x with cache := b :: x.cache }

/-- A partition after initialisation: every buffer in the ring (log 12). -/
def Part.init (n : Nat) : Part :=
  { total := n, cache := [], ring := if n = 0 then [] else [(0, n)], minFree := n, fails := 0, waits := 0, underflow := 0 }

/-- Build every partition from the shares in force (R277). -/
def initParts (d : Dram) : Dram :=
  { d with parts := partOrder.foldl (fun t x => tput t (partKey x.1 x.2) (Part.init (partCount d x.1 x.2))) [], refs := [],
           readers := [], refWaits := [], pagesLeft := [], safetyRuns := [] }

/-- Address of buffer `b` of a partition. -/
def bufAddr (d : Dram) (p : Nat) (ecc : Bool) (b : Nat) : Nat := partBase d p ecc + b * partStride p ecc

/-- Smallest pool whose buffers hold `n` bytes. -/
def poolFor (n : Nat) : Nat := ((List.range 8).find? (fun p => decide (n ≤ poolSize p))).getD 7

/-- Pools a request for `n` bytes takes one buffer of each from, in order (R271). -/
def poolPlan (n : Nat) : List Nat :=
  if n ≤ mib4 then [poolFor n]
  else List.replicate (n / mib4) 7 ++ (if n % mib4 = 0 then [] else [poolFor (n % mib4)])

/-- Take one buffer of pool `p`; its reference count becomes 1 (R274). An empty partition counts FAILS (Table 11.9). -/
def takeBuf (p : Nat) (ecc : Bool) (s : State) : Option Alloc × State :=
  let k := partKey p ecc
  let x := s.part k
  match x.take with
  | none => (none, s.setPart k { x with fails := satAdd 32 x.fails 1 })
  | some (b, x') =>
    let a := bufAddr s.dram p ecc b
    let s := s.setPart k x'
    (some { addr := a, bytes := partStride p ecc, pool := p, ecc := ecc }, { s with dram := { s.dram with refs := tput s.dram.refs a 1 } })

/-- VALID clears in the header of a page whose last reader has left, when the page table is still held (09_sequence.md R231). -/
def clearValid (a : Nat) (d : Dram) : Dram :=
  match d.pagesLeft.find? (fun p => p.1 = a) with
  | some p => { d with cells := mput d.cells p.2 (mget d.cells p.2 &&& 0xFE), pagesLeft := d.pagesLeft.filter (fun q => q.1 ≠ a) }
  | none => d

/-- Return a pool buffer to its free store; headers that stood in it are no headers any more. -/
def freeBuf (a : Alloc) (s : State) : State :=
  let k := partKey a.pool a.ecc
  let b := (a.addr - partBase s.dram a.pool a.ecc) / partStride a.pool a.ecc
  let s := s.setPart k ((s.part k).give b)
  let d := clearValid a.addr s.dram
  { s with dram := { d with refs := tdel d.refs a.addr, pagesLeft := d.pagesLeft.filter (fun q => !(decide (a.addr ≤ q.2) && decide (q.2 < a.addr + a.bytes))) } }

/-- Take one buffer of each pool of a plan, all or nothing (R271). -/
def takePlan (ecc : Bool) : List Nat → List Alloc → State → Option (List Alloc) × State
  | [], got, s => (some got.reverse, s)
  | p :: ps, got, s =>
    match takeBuf p ecc s with
    | (some a, s) => takePlan ecc ps (a :: got) s
    | (none, s) => (none, forAll got freeBuf s)

/-- Granules a run of `n` data bytes of the safety region takes (R264, R275). -/
def granules (n : Nat) : Nat := cdiv (eccBytes n) 4096

/-- First fit in the safety region, from granule `at_`, over allocated runs in rising order (R275). -/
def firstFit (total need : Nat) : Nat → List (Nat × Nat) → Option Nat
  | at_, [] => if at_ + need ≤ total then some at_ else none
  | at_, (f, c) :: r => if at_ + need ≤ f then some at_ else firstFit total need (f + c) r

/-- Insert a run, keeping the runs in rising order. -/
def addRun (x : Nat × Nat) : List (Nat × Nat) → List (Nat × Nat)
  | [] => [x]
  | y :: r => if x.1 < y.1 then x :: y :: r else y :: addRun x r

/-- Take a run of the safety region. -/
def takeRun (n : Nat) (s : State) : Option Alloc × State :=
  let need := granules n
  match firstFit (s.dram.safetyMib * 256) need 0 s.dram.safetyRuns with
  | none => (none, s)
  | some g =>
    (some { addr := safetyBase s.dram + g * 4096, bytes := need * 4096, pool := 8, ecc := true },
     { s with dram := { s.dram with safetyRuns := addRun (g, need) s.dram.safetyRuns } })

/-- Return a run of the safety region. -/
def freeRun (a : Alloc) (s : State) : State :=
  let g := (a.addr - safetyBase s.dram) / 4096
  { s with dram := { s.dram with safetyRuns := s.dram.safetyRuns.filter (fun r => r.1 ≠ g) } }

/-- Drop one share of a pool buffer (R274): an increment that waits takes it up, at 0 the buffer returns to its free store, and a decrement at 0 is a
memory-plane fault. -/
def release (a : Alloc) (s : State) : State :=
  if a.pool = 8 then freeRun a s
  else if s.dram.refWaits.contains a.addr then
    { s with dram := { s.dram with refWaits := s.dram.refWaits.erase a.addr, readers := tput s.dram.readers a.addr (tget s.dram.readers a.addr 0 + 1) } }
  else match tfind s.dram.refs a.addr with
    | some (n + 2) => { s with dram := { s.dram with refs := tput s.dram.refs a.addr (n + 1) } }
    | some 1 => freeBuf a s
    | _ =>
      let k := partKey a.pool a.ecc
      let x := s.part k
      detect 17 (s.setPart k { x with underflow := satAdd 32 x.underflow 1 })

/-- Allocate one request of `n` bytes from the pools. -/
def allocPool (ecc : Bool) (n : Nat) (s : State) : Option (List Alloc) × State := takePlan ecc (poolPlan n) [] s

/-- Allocate several requests, all or nothing, from the safety region or the pools (R79, R271, R275). -/
def allocAll (safety ecc : Bool) : List Nat → List (List Alloc) → State → Option (List (List Alloc)) × State
  | [], got, s => (some got.reverse, s)
  | n :: ns, got, s =>
    let r := if safety then (match takeRun n s with | (some a, s) => (some [a], s) | (none, s) => (none, s))
             else allocPool ecc n s
    match r with
    | (some l, s) => allocAll safety ecc ns (l :: got) s
    | (none, s) => (none, forAll got.flatten release s)

/-! ### POOL_CONFIG and POOL_STATUS (R276-R278) -/

/-- No stream, session, Maquette or Armature exists (R276). -/
def noContexts (s : State) : Bool :=
  s.openSlots.isEmpty && s.openSessions.isEmpty && s.maquettes.isEmpty && s.armatures.isEmpty

/-- Shares PARAM0-7 give (Table 11.7). -/
def poolShares (e : JEntry) : List (Nat × Nat) :=
  let l := (List.range 8).map (fun p => (fld (e.param p) 15 4, fld (e.param p) 3 0))
  if l.all (fun x => decide (x = (0, 0))) then defaultShares else l

/-- RFM_N is 0 or 6-12 (Table 11.7). -/
def rfmOk (n : Nat) : Bool := decide (n = 0) || (decide (6 ≤ n) && decide (n ≤ 12))

/-- RFM_N of a command, 0 to leave it (Table 11.6). -/
def setRfm (n : Nat) (s : State) : State := if n = 0 then s else { s with dram := { s.dram with rfmN := n } }

/-- Every sector of the ECC partitions written with zero data and valid check words (Table 11.3 step 8). -/
def initEcc (d : Dram) : Dram :=
  let inEcc (a : Nat) : Bool := match placeOf d a with | .ecc _ _ => true | _ => false
  { d with cells := d.cells.filter (fun x => !inEcc x.1), bad := d.bad.filter (fun x => !inEcc (32 * x)) }

/-- Pools laid out anew with the shares and the safety region of a command (R276). -/
def repartition (sh : List (Nat × Nat)) (mib : Nat) (s : State) : State :=
  { s with dram := initEcc (initParts { s.dram with shares := sh, safetyMib := mib }) }

/-- POOL_CONFIG (0x50), R276. -/
def doPoolConfig (j : Nat) (s : State) : State :=
  runCmd j 0x50 s (fun e s =>
    let n := fld (e.param 9) 3 0
    if bit (e.param 10) 0 then
      if rfmOk n then finish j stOk [] (setRfm n s) else finish j stBadParam [] s
    else if !noContexts s then finish j stCtxBusy [] s
    else
      let sh := poolShares e
      let sm := (e.param 8).toNat
      let d := { s.dram with shares := sh, safetyMib := sm }
      let ok := sh.all (fun x => decide (x.2 ≤ 8)) && decide (sm ≤ 4096) && rfmOk n && decide ((sh.map (·.1)).sum ≤ 1000) &&
                decide (0 < poolSpace d)
      if !ok then finish j stBadParam [] s
      else finish j stOk [] (setRfm n (repartition sh sm s)))

/-- The frozen or live counters of a partition or channel (R363). -/
def shownPart (s : State) (k : Nat) : Part :=
  let x := s.part k
  match s.obs.freeze with
  | none => x
  | some f => let y := tget f.parts k Part.reset; { x with fails := y.fails, waits := y.waits, underflow := y.underflow }

/-- As `shownPart`, for a channel and rank. -/
def shownChan (s : State) (c k : Nat) : Chan :=
  let x := s.chan c k
  match s.obs.freeze with
  | none => x
  | some f =>
    let y := tget f.chans (2 * c + k) Chan.reset
    { x with ce := y.ce, ue := y.ue, neighbour := y.neighbour, rfm := y.rfm, repairs := y.repairs, drift := y.drift }

/-- Partition entry (Table 11.9). -/
def partEntry (s : State) (p : Nat) (ecc : Bool) : List Word :=
  let x := shownPart s (partKey p ecc)
  [dw [(p, 15, 8), (b2n ecc, 0, 0)], w32 x.total, w32 x.free, w32 x.minFree, w32 x.fails, w32 x.waits, w32 x.underflow, 0]

/-- Four delay settings packed in a DW. -/
def dqWords (t : Tab Nat) : List Word :=
  (List.range 4).map (fun i => dw ((List.range 4).map (fun k => (tget t (4 * i + k) 0, 8 * k + 7, 8 * k))))

/-- Channel entry (Table 11.10, R407). -/
def chanEntry (s : State) (c k : Nat) : List Word :=
  if k ≥ s.dram.ranks then [dw [(0xFF, 31, 24), (k, 4, 4), (c, 3, 0)]] ++ List.replicate 15 0
  else
    let x := shownChan s c k
    let z (n : Nat) : Word := if k = 0 then w32 n else 0
    [dw [(x.status, 31, 24), (x.attempts, 15, 8), (k, 4, 4), (c, 3, 0)],
     dw [(x.wck, 31, 24), (x.vrefCa, 23, 16), (x.cs, 15, 8), (x.ca, 7, 0)],
     dw [(x.vrefDqW, 23, 16), (x.vrefDqR, 15, 8), (x.gate, 7, 0)]] ++ dqWords x.readDq ++ dqWords x.writeDq ++
    [z x.ce, z x.ue, z x.neighbour, z x.rfm, dw [(x.repairs, 31, 16), (x.drift, 15, 0)]]

/-- Free granules of the safety region. -/
def safetyFree (d : Dram) : Nat := d.safetyMib * 256 - (d.safetyRuns.map (·.2)).sum

/-- The POOL_STATUS image, entry by entry (Table 11.8). -/
def poolImage (s : State) : List (List Byte) :=
  let hdr := [1, w32 s.dram.capMib, w32 s.dram.rate, w32 s.dram.rfmN, w32 (s.dram.safetyMib * 256), w32 (safetyFree s.dram)] ++
             List.replicate 10 0
  wordsBytes hdr ::
  ((List.range 8).flatMap (fun p => [wordsBytes (partEntry s p false), wordsBytes (partEntry s p true)]) ++
   (List.range 16).flatMap (fun c => [wordsBytes (chanEntry s c 0), wordsBytes (chanEntry s c 1)]))

/-- POOL_STATUS (0x51), R278: the image, then MIN_FREE takes FREE. -/
def doPoolStatus (j : Nat) (s : State) : State :=
  runCmd j 0x51 s (fun e s =>
    let im := poolImage s
    let s := { s with dram := { s.dram with parts := s.dram.parts.map (fun x => (x.1, { x.2 with minFree := x.2.free })) } }
    writeImage j (e.param64 0) (e.param 2).toNat im false s)

/-! ### Pool manager events -/

/-- A partition's cache is refilled below 32 entries and spilled above 224 (R273); an uncorrectable sector of the metadata met on the
way, at address `bad`, is counted and trips nothing by itself (R266). -/
def doPoolRefill (k : Nat) (bad : Option Nat) (s : State) : State :=
  let x := s.part k
  let s := match bad with
    | some a => if placeOf s.dram a = .metadata then eccRead a .double false s else s
    | none => s
  if x.cache.length < 32 && !x.ring.isEmpty then s.setPart k x.refill
  else if x.cache.length > 224 then s.setPart k x.spill
  else s

/-- Pool and kind of the partition an address lies in. -/
def partitionAt (d : Dram) (a : Nat) : Option (Nat × Bool) :=
  match placeOf d a with
  | .plain p _ => some (p, false)
  | .ecc p _ => some (p, true)
  | _ => none

/-- A Niche or a link transfer takes a share of a buffer; at 65,535 it waits for a decrement and the wait is counted (R274). -/
def doRefcountIncrement (addr : Nat) (s : State) : State :=
  match tfind s.dram.refs addr with
  | none => s
  | some n =>
    if n ≥ 65535 then
      match partitionAt s.dram addr with
      | some (p, e) =>
        let x := s.part (partKey p e)
        let s := s.setPart (partKey p e) { x with waits := satAdd 32 x.waits 1 }
        { s with dram := { s.dram with refWaits := s.dram.refWaits ++ [addr] } }
      | none => s
    else { s with dram := { s.dram with refs := tput s.dram.refs addr (n + 1), readers := tput s.dram.readers addr (tget s.dram.readers addr 0 + 1) } }

/-- One share fewer is taken of a buffer. -/
def dropReader (addr : Nat) (d : Dram) : Dram :=
  let k := tget d.readers addr 0
  { d with readers := if k ≤ 1 then tdel d.readers addr else tput d.readers addr (k - 1) }

/-- A holder releases a share that `doRefcountIncrement` took (R274); with none taken there is nothing to release. -/
def releaseShare (addr : Nat) (s : State) : State :=
  (partitionAt s.dram addr).elim s (fun pe =>
    if tget s.dram.readers addr 0 = 0 then s
    else release { addr := addr, bytes := partStride pe.1 pe.2, pool := pe.1, ecc := pe.2 } { s with dram := dropReader addr s.dram })

/-! ### Channel controllers (R259-R263, R266) -/

/-- Bytes of `new` where enabled, else of `old`. -/
def overlay (old new : List (Option Byte)) : List (Option Byte) := List.zipWith (fun o n => n.orElse (fun _ => o)) old new

/-- What the pending writes of a line hold for it (R261). -/
def pendingOf (q : ChanQ) (line : Nat) : List (Option Byte) :=
  (q.writes.filter (fun w => w.line = line)).foldl (fun a w => overlay a w.bytes) (List.replicate 64 none)

/-- The drain of a class (R259): it starts at 48 entries of the write queue or when no read of the class waits, and ends at 16. -/
def drains (q : ChanQ) (lc was : Bool) : Bool :=
  if q.writes.length ≥ 48 then true else if q.writes.length ≤ 16 then false else was || !(q.reads.any (fun x => x.lc = lc))

/-- The queues of a channel with the drains as they are after a change. -/
def ChanQ.judge (q : ChanQ) : ChanQ := { q with drainLc := drains q true q.drainLc, drainBe := drains q false q.drainBe }

/-- Store the enabled bytes of a line. -/
def storeLine (m : Mem) (a : Nat) : List (Option Byte) → Mem
  | [] => m
  | none :: r => storeLine m (a + 1) r
  | some b :: r => storeLine (mput m a b) (a + 1) r

/-- Queue a read: it returns the bytes as every write queued before it leaves them, and needs no DRAM access where pending writes cover the whole line
(R260, R261). -/
def queueRead (line : Nat) (lc : Bool) (s : State) (ch : Nat) : State :=
  let q := s.chanQ ch
  if q.reads.length ≥ 64 then s
  else
    let r : DramReq := { line := line, lc := lc, bytes := (mread s.dram.cells (line * 64) 64).map some, forwarded := (pendingOf q line).all (·.isSome), passed := 0 }
    s.setChanQ ch { q with reads := q.reads ++ [r] }.judge

/-- Queue a write: it merges into a pending entry of its line (R261), and what is queued after it finds its bytes (R260). -/
def queueWrite (line : Nat) (lc : Bool) (bs : List (Option Byte)) (s : State) (ch : Nat) : State :=
  let q := s.chanQ ch
  let merged := q.writes.any (fun w => w.line = line)
  if !merged && decide (q.writes.length ≥ 64) then s
  else
    let w : DramReq := { line := line, lc := lc, bytes := bs, forwarded := false, passed := 0 }
    let writes := if merged then q.writes.map (fun w => if w.line = line then { w with bytes := overlay w.bytes bs } else w) else q.writes ++ [w]
    let s := s.setChanQ ch { q with writes := writes }.judge
    { s with dram := { s.dram with cells := storeLine s.dram.cells (line * 64) bs } }

/-- The requests one kind and class of which is served next (R259): LC before BE, reads before writes outside a drain. -/
def nextKind (q : ChanQ) : Option (Bool × Bool) :=
  let has (rd lc : Bool) : Bool := (if rd then q.reads else q.writes).any (fun r => r.lc = lc)
  let pick (lc : Bool) : Option (Bool × Bool) :=
    if (if lc then q.drainLc else q.drainBe) && has false lc then some (false, lc)
    else if has true lc then some (true, lc)
    else if has false lc then some (false, lc)
    else none
  match pick true with
  | some x => some x
  | none => pick false

/-- Take the request at position `pick` among those of a class; each older one it passes has been passed less than 8 times, and once more now (R259). -/
def takeReq (lc : Bool) : Nat → List DramReq → Option (DramReq × List DramReq)
  | _, [] => none
  | pick, r :: l =>
    if r.lc ≠ lc then (takeReq lc pick l).map (fun x => (x.1, r :: x.2))
    else match pick with
      | 0 => some (r, l)
      | k + 1 => if r.passed ≥ 8 then none else (takeReq lc k l).map (fun x => (x.1, { r with passed := r.passed + 1 } :: x.2))

/-- A management command at the threshold the device reports (R263, log 139). -/
def manageRow (ch bank : Nat) (s : State) : State :=
  let q := s.chanQ ch
  let n := tget q.activates bank 0 + 1
  if Config.rfmNeeded && decide (Config.rfmThreshold ≤ n) then
    let c := s.chan ch 0
    (s.setChan ch 0 { c with rfm := satAdd 32 c.rfm 1 }).setChanQ ch { q with activates := tput q.activates bank (n - Config.rfmRelief) }
  else s.setChanQ ch { q with activates := tput q.activates bank n }

/-- An activate of a row (R262): the neighbour draw, and the neighbours refreshed. -/
def activateRow (ch : Nat) (row : Nat) (lastRow : Bool) (s : State) : State :=
  let hit := Config.freeNeighbourDraw s.free s.dram.rfmN
  let s := { s with free := s.free + 1 }
  if hit then
    let c := s.chan ch 0
    s.setChan ch 0 { c with neighbour := satAdd 32 c.neighbour (b2n (decide (row ≠ 0)) + b2n (!lastRow)) }
  else s

/-- The activate, if the served request opens a row. -/
def openRowOf (ch : Nat) (act : Option (Nat × Nat × Bool)) (s : State) : State :=
  match act with
  | none => s
  | some (bank, row, lastRow) =>
    let s := manageRow ch bank (activateRow ch row lastRow s)
    let q := s.chanQ ch
    s.setChanQ ch { q with openRow := tput q.openRow bank row }

/-- Sectors of a line whose 32 bytes a write covers wholly lose an uncorrectable error. -/
def healSectors (line : Nat) (bs : List (Option Byte)) (bad : List Nat) : List Nat :=
  bad.filter (fun x => !((x = 2 * line && (bs.take 32).all (·.isSome)) || (x = 2 * line + 1 && (bs.drop 32).all (·.isSome))))

/-- What a read of a sector finds: an uncorrectable error known to stand there, else the row's own condition. -/
def sectorCond (s : State) (sector : Nat) (c : EccCond) : EccCond := if s.dram.bad.contains sector then .double else c

/-- A write covers part of a sector (R261). -/
def partialSector (l : List (Option Byte)) : Bool := l.any (·.isSome) && !l.all (·.isSome)

/-- The two sectors of a line with their conditions and the enabled bytes of each. -/
def lineSectors (s : State) (r : DramReq) (ecc : EccCond × EccCond) : List (Nat × EccCond × List (Option Byte)) :=
  [(2 * r.line, sectorCond s (2 * r.line) ecc.1, r.bytes.take 32), (2 * r.line + 1, sectorCond s (2 * r.line + 1) ecc.2, r.bytes.drop 32)]

/-- A read is served: nothing of DRAM where it was forwarded whole, else both sectors of its line (R261, R266). -/
def serveRead (ch : Nat) (r : DramReq) (ecc : EccCond × EccCond) (sn : Bool) (s : State) : State :=
  let l := if r.forwarded then [] else lineSectors s r ecc
  let prot := (placeOf s.dram (r.line * 64)).protected
  let s := forAll l (fun x s => eccRead (32 * x.1) x.2.1 sn s) s
  let q := s.chanQ ch
  s.setChanQ ch { q with last := r.bytes.map (·.getD 0), poisoned := prot && l.any (fun x => decide (x.2.1 = .double)) }

/-- A write is served; a protected sector it covers in part is read first, and one it covers wholly loses an uncorrectable error (R261). -/
def serveWrite (r : DramReq) (ecc : EccCond × EccCond) (sn : Bool) (s : State) : State :=
  let s := forAll ((lineSectors s r ecc).filter (fun x => partialSector x.2.2)) (fun x s => eccRead (32 * x.1) x.2.1 sn s) s
  { s with dram := { s.dram with bad := healSectors r.line r.bytes s.dram.bad } }

/-- Serve one request of a channel. A request other than the oldest may be served only to a row that is open (R259), and one forwarded whole opens
none. -/
def serveReq (ch pick : Nat) (ecc : EccCond × EccCond) (act : Option (Nat × Nat × Bool)) (sn : Bool) (s : State) : State :=
  let q := s.chanQ ch
  if pick ≠ 0 && act.isSome then s
  else match nextKind q with
  | none => s
  | some (rd, lc) =>
    match takeReq lc pick (if rd then q.reads else q.writes) with
    | none => s
    | some (r, rest) =>
      let s := s.setChanQ ch (if rd then { q with reads := rest } else { q with writes := rest }).judge
      let s := if rd && r.forwarded then s else openRowOf ch act s
      if rd then serveRead ch r ecc sn s else serveWrite r ecc sn s

/-- The line lies on the channel and the requester may address it: the channel-local areas belong to the control cluster (R252, R253). -/
def lineOn (s : State) (ch : Nat) (who : Requester) (line : Nat) : Bool :=
  decide (channelAt s.dram (line * 64) = ch) && decide (placeOf s.dram (line * 64) ≠ .beyond) &&
  (decide (line * 64 < spaceBytes s.dram) || decide (who = .control))

/-- DRAM_REQUEST: a request is queued or served on the channel its address lies in. -/
def doDramRequest (ch : Nat) (a : DramAction) (s : State) : State :=
  match a with
  | .read who line lc => if lineOn s ch who line then queueRead line lc s ch else s
  | .write who line lc bs => if lineOn s ch who line then queueWrite line lc bs s ch else s
  | .serve pick ecc act sn => serveReq ch pick ecc act sn s

/-- Mirror an address lies in: false for A, true for B. -/
def mirrorAt (d : Dram) (a : Nat) : Option Bool :=
  match placeOf d a with
  | .mirror b => some b
  | _ => none

/-- PATROL_SCRUB (R267): sectors count from address 0, those of the journal mirrors included, which are repaired (R269). -/
def doPatrolScrub (sector : Nat) (c : EccCond) (s : State) : State :=
  let c := sectorCond s sector c
  (if c = .double then mirrorAt s.dram (32 * sector) else none).elim (eccRead (32 * sector) c false s) (fun b => mirrorUe b (32 * sector) s)

/-- DRIFT_CHECK (R257): a change of 4 or more settings is adjusted at the next all-bank refresh. -/
def doDriftCheck (ch rank : Nat) (rd wr : Int) (s : State) : State :=
  let x := s.chan ch rank
  if rank < s.dram.ranks && (rd.natAbs ≥ 4 || wr.natAbs ≥ 4) then
    s.setChan ch rank { x with driftPend := some (if rd.natAbs ≥ 4 then rd else 0, if wr.natAbs ≥ 4 then wr else 0) }
  else s

/-- Shift the 16 delay settings, held in 0-255. -/
def shiftDq (t : Tab Nat) (d : Int) : Tab Nat :=
  (List.range 16).map (fun i => (i, (max 0 (min 255 (((tget t i 0 : Nat) : Int) + d))).toNat))

/-- Apply the pending adjustment of a channel and rank. -/
def applyDrift (ch rank : Nat) (s : State) : State :=
  let x := s.chan ch rank
  match x.driftPend with
  | none => s
  | some (rd, wr) =>
    s.setChan ch rank { x with readDq := if rd = 0 then x.readDq else shiftDq x.readDq rd,
                               writeDq := if wr = 0 then x.writeDq else shiftDq x.writeDq wr,
                               drift := satAdd 16 x.drift (b2n (decide (rd ≠ 0)) + b2n (decide (wr ≠ 0))), driftPend := none }

/-- Every bank's activate count falls at an all-bank refresh (R263, log 139). -/
def ChanQ.refreshed (q : ChanQ) : ChanQ := { q with activates := q.activates.map (fun x => (x.1, x.2 - Config.rfmRelief)) }

/-- ALL_BANK_REFRESH (R257, R263). -/
def doAllBankRefresh (ch : Nat) (s : State) : State :=
  let s := applyDrift ch 1 (applyDrift ch 0 s)
  s.setChanQ ch (s.chanQ ch).refreshed

/-! ### DRAM_TRAIN_STEP on the maintenance port (R258) -/

/-- Widest run of consecutive settings in a rising list: (first, last). -/
def widestRun (l : List Nat) : Option (Nat × Nat) :=
  let step (st : Option (Nat × Nat) × Option (Nat × Nat)) (x : Nat) : Option (Nat × Nat) × Option (Nat × Nat) :=
    let cur := match st.1 with | some (f, e) => if x = e + 1 then (f, x) else (x, x) | none => (x, x)
    let best := match st.2 with
      | some (bf, be) => if cur.2 - cur.1 > be - bf then cur else (bf, be)
      | none => cur
    (some cur, some best)
  (l.foldl step (none, none)).2

/-- Settings in the swept range that pass for one DQ. -/
def swept (sw : Sweep) (i from_ to_ : Nat) : List Nat :=
  (List.range 256).filter (fun x => decide (from_ ≤ x) && decide (x ≤ to_) && (sw.passing.getD i []).contains x)

/-- A run at least 32 settings wide (R256). -/
def wide (r : Option (Nat × Nat)) : Bool := match r with | some (f, e) => decide (e + 1 - f ≥ 32) | none => false

/-- Centre of a run (R256). -/
def centre (r : Option (Nat × Nat)) : Nat := match r with | some (f, e) => (f + e) / 2 | none => 0

/-- Centre of the widest run of passing VREF settings, else the value that stands (R256). -/
def vrefSet (sw : Sweep) (old : Nat) : Nat := match widestRun sw.vref with | some r => centre (some r) | none => old

/-- CS delay of a sweep: the centre of a run wide enough, else the value that stands (R256). -/
def csSet (sw : Sweep) (old : Nat) : Nat := if wide (widestRun sw.cs) then centre (widestRun sw.cs) else old

/-- Replace the values of a step in the training record (R258, APPLY = 1, Table 11.3). -/
def applyTrain (step : Nat) (sw : Sweep) (dqs : List (Nat × Nat)) (c : Nat) (x : Chan) : Chan :=
  match step with
  | 2 => { x with ca := c, cs := csSet sw x.cs, vrefCa := vrefSet sw x.vrefCa }
  | 3 => { x with wck := c }
  | 4 => { x with gate := c }
  | 5 => { x with readDq := dqs.foldl (fun t d => tput t d.1 d.2) x.readDq, vrefDqR := vrefSet sw x.vrefDqR }
  | 6 => { x with writeDq := dqs.foldl (fun t d => tput t d.1 d.2) x.writeDq, vrefDqW := vrefSet sw x.vrefDqW }
  | _ => x

/-- Shared journal entries in use (R65). -/
def sharedUsed (s : State) : Nat := (s.journal.filter (fun e => e.port = .host || e.port = .maintenance)).length

/-- Lowest place of the journal mirrors that no entry holds; a final completion frees its entry's in both (R268, log 125). -/
def mirrorPlace (s : State) : Nat :=
  let used := (s.journal.filter (fun e => e.st ≠ .done)).map (·.place)
  (lowestFree (used.length + 1) used).getD used.length

/-- A packet comes to the journal at its place in the order of ports and queues: 0 safety, 1 and 2 host queues, 3 and 4 ring-port queues,
5 maintenance. Behind a packet of a later place in this tick it is ready in the next one (R68, log 110). -/
def inOrder (place : Fin 6) (s : State) : State :=
  let s := if decide (s.jlast.1 = s.now) && decide (place < s.jlast.2) then advance 1 s else s
  { s with jlast := (s.now, place) }

/-- Accept a maintenance-port packet that completes at once: ASN, journal position, client 254 (R56, R62). With every shared entry in use it
stays unaccepted (R65). -/
def maintenance (pkt : List Word) (s : State) (body : JEntry → State → Nat × List Word × State) : State :=
  if sharedUsed s ≥ Config.journalShared then s else
  let s := inOrder 5 s
  let e : JEntry := { jpos := s.jpos + 1, port := .maintenance, queue := 0, asn := s.mntAsn + 1, pkt := pkt, data := [], tick := s.now,
                      st := .running, cpls := [], posted := 0, waited := 0, origin := none, fwd := none, began := some s.now, client := 254, place := mirrorPlace s, during := s.recov.domainAt.isSome || domainRequested s }
  let s := { s with jpos := s.jpos + 1, mntAsn := s.mntAsn + 1 }
  let r := body e s
  let s := r.2.2
  let s := { s with mntCpl := some (e.cpl s.link.chip r.1 true e.gen e.ctx r.2.1) }
  account 254 (fun a => { a with commands := satAdd 32 a.commands 1 }) s

/-- The maintenance port takes packets: TEST_EN was high, start-up is done, FATAL is not set (R43, R345, R391). -/
def maintenanceUp (s : State) : Bool := s.chip.testEn && live s

/-- TEST_EN has been sampled: at the end of power-on reset, before the first start-up ends (18_startup.md R384). -/
def strapsTaken (s : State) : Bool := decide (s.chip.phase ≠ .starting) || decide (s.pcie.flrCount ≠ 0)

/-- DRAM_TRAIN_STEP (0xA0); during start-up a port that is not known to be inactive holds it until step 8 ends (18_startup.md R391). -/
def doDramTrainStep (pkt : List Word) (sw : Sweep) (s : State) : State :=
  if s.chip.phase = .starting && (s.chip.testEn || !strapsTaken s) then { s with chip := { s.chip with mntHeld := s.chip.mntHeld ++ [(pkt, sw)] } }
  else if !(maintenanceUp s && decide (fld (pkt.getD 0 0) 7 0 = 0xA0)) then s
  else maintenance pkt s (fun e s =>
    match staticCheck s.link.chip e with
    | some st => (st, [], s)
    | none =>
      let step := fld (e.param 0) 3 0
      let rank := fld (e.param 0) 8 8
      let lane := fld (e.param 1) 23 16
      let dt := fld (e.param 1) 15 8
      let df := fld (e.param 1) 7 0
      let ok := decide (1 ≤ step) && decide (step ≤ 7) && (decide (lane < 16) || decide (lane = 0xFF)) && decide (df ≤ dt) &&
                decide (fld (e.param 2) 2 0 ≤ 5)
      if (s.queue 0).everEnabled || (s.queue 1).everEnabled then (stCtxBusy, [], s)
      else if !ok then (stBadParam, [], s)
      else
        let lanes := (List.range 16).filter (fun i => decide (lane = 0xFF) || decide (lane = i))
        let runs := lanes.map (fun i => (i, widestRun (swept sw i df dt)))
        let mask := (runs.filter (fun r => wide r.2)).foldl (fun m r => m + 2 ^ r.1) 0
        let best := runs.foldl (fun (b : Option (Nat × Nat)) r =>
          match b, r.2 with
          | none, x => x
          | some x, some y => if y.2 - y.1 > x.2 - x.1 then some y else some x
          | some x, none => some x) none
        let apply := bit (e.param 0) 16 && wide best && decide ((s.chan e.ctx rank).status ≠ 0xFF)
        let dqs := (runs.filter (fun r => wide r.2)).map (fun r => (r.1, centre r.2))
        let x := s.chan e.ctx rank
        let x := if apply then { applyTrain step sw dqs (centre best) x with status := 0, attempts := 1 } else x
        let win := match best with | some (f, l) => dw [(l, 15, 8), (f, 7, 0)] | none => 0xFFFF
        (stOk, [w32 mask, win, w32 sw.errors, if apply then w32 (centre best) else 0xFF], s.setChan e.ctx rank x))

/-! ### Key-value pages (09_sequence.md R221, R222, R231) -/

/-- Header of a page (Table 9.2): GEN and SESSION are those of the home part. -/
def pageHeader (gen sess : Nat) (p : Page) : List Word :=
  [dw [(p.tokens, 22, 14), (1, 13, 6), (b2n p.valid, 0, 0)], dw [(p.layer, 31, 16), (p.head, 15, 8), (gen, 7, 0)], dw [(sess, 11, 0)],
   w32 p.firstPos, w32 p.data, hi32 p.data, w32 p.scale, hi32 p.scale]

/-- Write bytes of device memory. -/
def dramWrite (a : Nat) (bs : List Byte) (s : State) : State := { s with dram := { s.dram with cells := mwrite s.dram.cells a bs } }

/-- Session number and generation of the home part. -/
def homeOf (n : Nat) (x : Session) : Nat × Nat := match x.shadow with | some (_, m, g) => (m, g) | none => (n, x.gen)

/-- Bytes of a session's page table. -/
def tableBytes (n : Nat) (x : Session) : List Byte :=
  let h := homeOf n x
  x.pages.flatMap (fun p => wordsBytes (pageHeader h.2 h.1 p))

/-- Write every page header of a session into its page table, over all its buffers (11_memory.md R271). -/
def writeHeaders (n : Nat) (s : State) : State :=
  let x := s.session n
  { s with dram := { s.dram with cells := regionWrite x.table 0 (tableBytes n x) s.dram.cells } }

/-- A session drops its reference on each page, scale block and page table: VALID clears for a page whose count reaches zero (R231). -/
def dropPages (n : Nat) (s : State) : State :=
  let x := s.session n
  let heads := ((List.range x.pages.length).zip x.pages).map (fun p => (p.2.data, regionAddr x.table (32 * p.1)))
  let s := forAll x.allocs release { s with dram := { s.dram with pagesLeft := s.dram.pagesLeft ++ heads } }
  forAll x.table release (s.modSession n (fun x => { x with allocs := [], table := [] }))

/-! ### The commands -/

def execPoolConfig (j : Nat) (s : State) : Host.Outcome State Fault Refusal := .next (doPoolConfig j s)
def execPoolStatus (j : Nat) (s : State) : Host.Outcome State Fault Refusal := .next (doPoolStatus j s)
def execPoolRefill (p : Nat) (bad : Option Nat) (s : State) : Host.Outcome State Fault Refusal := .next (doPoolRefill p bad s)
def execRefcountIncrement (addr : Nat) (s : State) : Host.Outcome State Fault Refusal := .next (doRefcountIncrement addr s)
def execDramRequest (ch : Nat) (a : DramAction) (s : State) : Host.Outcome State Fault Refusal := .next (doDramRequest ch a s)
def execPatrolScrub (sector : Nat) (ecc : EccCond) (s : State) : Host.Outcome State Fault Refusal := .next (doPatrolScrub sector ecc s)
def execDriftCheck (ch rank : Nat) (readDelta writeDelta : Int) (s : State) : Host.Outcome State Fault Refusal :=
  .next (doDriftCheck ch rank readDelta writeDelta s)
def execAllBankRefresh (ch : Nat) (s : State) : Host.Outcome State Fault Refusal := .next (doAllBankRefresh ch s)
def execDramTrainStep (pkt : List Word) (sweep : Sweep) (s : State) : Host.Outcome State Fault Refusal :=
  .next (doDramTrainStep pkt sweep s)

end Sys2Proof.Machine
end

