-- ==== Sys2Proof/Machine/Commands.lean ====
section
/-! DEFINITION. Acceptance and the commands of no plane: NOP, FENCE, private test opcodes, and the context-state checks taken when a
command is journalled (03_commands.md R49-R72). -/

namespace Sys2Proof.Machine

/-! ### Journalling (R61-R66) -/

/-- The opcode closes a context. -/
def isClose (op : Nat) : Bool := op = 0x11 || op = 0x34
/-- The opcode opens a context. -/
def isOpenOp (op : Nat) : Bool := op = 0x10 || op = 0x31

/-- The named context is open, or an open of it stands before position `j` in the journal and will have run by then (R67). -/
def willBeOpen (s : State) (n : Bool × Nat) (j : Nat) : Bool :=
  (if n.1 then (s.session n.2).isOpen else (s.stream n.2).isOpen) ||
  s.journal.any (fun o => isOpenOp o.opcode && decide (o.named s.link.chip = some n) && decide (o.st = .waiting) && decide (o.jpos < j) &&
    decide (staticCheck s.link.chip o = none))

/-- A close of the named context has been journalled and has not posted its final completion (R72). -/
def closingOf (s : State) (n : Bool × Nat) : Bool :=
  (if n.1 then (s.session n.2).closing.isSome else (s.stream n.2).closing.isSome) ||
  s.journal.any (fun x => isClose x.opcode && decide (x.named s.link.chip = some n) && decide (x.st = .waiting) &&
    decide (staticCheck s.link.chip x = none) && willBeOpen s n x.jpos &&
    decide (x.gen = if n.1 then (s.session n.2).gen else (s.stream n.2).gen))

/-- Generation of the named context. -/
def genOf (s : State) (n : Bool × Nat) : Nat := if n.1 then (s.session n.2).gen else (s.stream n.2).gen

/-- Generation after a close (R70). -/
def nextGen (g : Nat) : Nat := if g ≥ 255 then 1 else g + 1

/-- An open of the named context is deferred behind its close. -/
def deferredOf (s : State) (n : Bool × Nat) : Bool :=
  if n.1 then (s.session n.2).deferred.isSome else (s.stream n.2).deferred.isSome

/-- The close is final and the deferred open is not (R72). -/
def openingOf (s : State) (n : Bool × Nat) : Bool := if n.1 then (s.session n.2).opening else (s.stream n.2).opening

/-- What R72 does with a command when it is journalled. -/
inductive Early where
  | proceed | complete (st : Nat) | defer
deriving DecidableEq, Repr, Inhabited

/-- The context-state checks that are taken at once (R72), and rejections that no FENCE or earlier command of the context holds
back (R57, R67). -/
def earlyCheck (s : State) (e : JEntry) : Early :=
  match staticCheck s.link.chip e with
  | some st => if unfenced s e && ctxFree s e then .complete st else .proceed
  | none =>
    match e.named s.link.chip with
    | none => .proceed
    | some n =>
      if openingOf s n then .complete stCtxBusy
      else if closingOf s n then
        if isOpenOp e.opcode then (if deferredOf s n then .complete stCtxBusy else .defer)
        else if e.gen = genOf s n then .complete stCtxClosing
        else if deferredOf s n then .complete stCtxBusy
        else .complete stCtxClosing
      else .proceed

/-- A close that ends in a rejection leaves the open deferred behind it to run, unless another close of the context stands (R72). -/
def rejectClose (j st : Nat) (n : Bool × Nat) (s : State) : State :=
  let s := finish j st [] s
  if deferredOf s n && !closingOf s n then
    if n.1 then s.modSession n.2 (fun x => { x with opening := true }) else s.modStream n.2 (fun x => { x with opening := true })
  else s

/-- Record a deferred open. -/
def setDeferred (n : Bool × Nat) (j : Nat) (s : State) : State :=
  if n.1 then s.modSession n.2 (fun x => { x with deferred := some j }) else s.modStream n.2 (fun x => { x with deferred := some j })

/-- The next journal entry (R62, R268). -/
def newEntry (s : State) (port : Port) (queue : Nat) (asn : Word) (pkt : List Word) (data : List Byte) (client : Nat)
    (origin : Option (Nat × Nat)) : JEntry :=
  { jpos := s.jpos + 1, port := port, queue := queue, asn := asn, pkt := pkt, data := data, tick := s.now, st := .waiting, cpls := [],
    posted := 0, waited := fenceCount s port queue (s.jpos + 1) (bit (pkt.getD 4 0) 0), origin := origin, fwd := none, began := none,
    client := client, place := mirrorPlace s, during := s.recov.domainAt.isSome || domainRequested s }

/-- Write an entry to the journal, that is to both mirrors at its place (R268). -/
def journalWrite (e : JEntry) (s : State) : State := { s with jpos := e.jpos, journal := s.journal ++ [e] }

/-- What R72 does with an entry just journalled. -/
def journalAct (act : Early) (e : JEntry) (s : State) : State :=
  match act with
  | .proceed => s
  | .complete st => finish e.jpos st [] s
  | .defer =>
    match e.named s.link.chip with
    | none => s
    | some n => interim e.jpos stOpenDeferred (nextGen (genOf s n)) (setDeferred n e.jpos (modEntry e.jpos (fun x => { x with st := .deferred }) s))

/-- Journal a packet and take the checks of R72: the entry of one accepted command. -/
def journalEntry (e : JEntry) (s : State) : State := journalAct (earlyCheck s e) e (journalWrite e s)

/-- Entries of one port in use. -/
def portUsed (s : State) (p : Port) : Nat := (s.journal.filter (fun e => e.port = p)).length

/-! ### Host queues (R49-R52) -/

/-- Unread completions and reservations of host queue `q` (R52). -/
def cplLoad (s : State) (q : Nat) : Nat :=
  let h := s.queue q
  let n := h.cplSize.toNat
  let unread := if n = 0 then 0 else (h.cplIndex + n - h.cplHead) % n
  unread + ((s.journal.filter (fun e => e.port = .host && e.queue = q)).map (fun e => reserve e.opcode - e.posted)).sum

/-- Slots the tail covers past the head. -/
def slotsReady (h : HostQueue) : Nat := if h.cmdSize = 0 then 0 else (h.tail + h.cmdSize.toNat - h.head) % h.cmdSize.toNat

/-- The packet read at the head of queue `q` can be accepted: queue enabled, every slot covered, completion room, a shared journal
entry (R49, R52, R65). -/
def canAccept (s : State) (q : Nat) (words : List Word) : Bool :=
  let h := s.queue q
  let units := 1 + fld (words.getD 0 0) 25 24
  live s && !s.pcie.d3 && h.ringEn && decide (h.failRun < 8) && decide (words.length = 16 * units) && decide (units ≤ slotsReady h) &&
  decide (cplLoad s q + reserve (fld (words.getD 0 0) 7 0) + 1 ≤ h.cplSize.toNat) && decide (sharedUsed s < Config.journalShared)

/-- Advance the head past an accepted packet and issue the head write-back (R50, R61); packets whose reads all succeeded end a run of failures (R312). -/
def headWriteBack (q units : Nat) (asn : Word) (ok : Bool) (s : State) : State :=
  let h := s.queue q
  let head := (h.head + units) % h.cmdSize.toNat
  let s := s.setQueue q { h with head := head, asn := asn, cmdLastAsn := asn, failRun := if ok then 0 else h.failRun }
  hostWords (join64 h.headWbLo h.headWbHi) [w32 head, asn, 0, 0] s

/-- Accept one packet of host queue `q`, its source data read (`ok`) or not: the entry is in both mirrors before the head write-back that accepts it (R268),
then come the checks. -/
def acceptHost (q : Nat) (words : List Word) (data : List Byte) (ok : Bool) (s : State) : State :=
  let s := inOrder (if q = 0 then 1 else 2) s
  let asn := (s.queue q).asn + 1
  let e := newEntry s .host q asn words data (fld (words.getD 0 0) 23 16) none
  journalAct (earlyCheck s e) e (headWriteBack q (1 + fld (words.getD 0 0) 25 24) asn ok (journalWrite e s))

/-- Accept packets of one queue in slot order, up to the first that cannot be accepted. -/
def acceptAll (q : Nat) : List SlotRead → State → State
  | [], s => s
  | r :: rs, s => if canAccept s q r.words then acceptAll q rs (acceptHost q r.words r.data true s) else s

/-- COMMAND_ACCEPT: every ready packet of queue 0, then those of queue 1 (R68). -/
def doCommandAccept (r0 r1 : List SlotRead) (s : State) : State := acceptAll 1 r1 (acceptAll 0 r0 s)

/-! ### NOP, FENCE, private test opcodes -/

/-- NOP (0x01), R58. -/
def doNop (j : Nat) (s : State) : State := runCmd j 0x01 s (fun _ s => finish j stOk [] s)

/-- FENCE (0x02), R67: begins once every earlier command of its scope has posted its final completion. -/
def doFence (j : Nat) (s : State) : State :=
  match s.entry? j with
  | none => s
  | some e =>
    if fenceClear s e (bit (e.param 0) 0) then runCmd j 0x02 s (fun e s => finish j stOk [w32 e.waited] s) else s

/-- A packet that no other row executes completes with its status (R44). -/
def doForeign (j : Nat) (s : State) : State :=
  match s.entry? j with
  | none => s
  | some e =>
    if foreignOpcode e then withCmd j e.opcode s (fun e s => finish j ((staticCheck s.link.chip e).getD stBadOpcode) [] s) else s

/-- A packet on the maintenance port that is neither DRAM_TRAIN_STEP nor IMPRESSION_READ, nor private: rejected (R44). -/
def doMaintenanceForeign (pkt : List Word) (s : State) : State :=
  let op := fld (pkt.getD 0 0) 7 0
  if !maintenanceUp s || op = 0xA0 || op = 0x93 then s
  else maintenance pkt s (fun e s => ((staticCheck s.link.chip e).getD stOk, [], s))

def execNop (j : Nat) (s : State) : Host.Outcome State Fault Refusal := .next (doNop j s)
def execFence (j : Nat) (s : State) : Host.Outcome State Fault Refusal := .next (doFence j s)
def execCommandAccept (r0 r1 : List SlotRead) (s : State) : Host.Outcome State Fault Refusal := .next (doCommandAccept r0 r1 s)

/-- TEST_OPCODE: rejected on every port but M; on an active maintenance port the manual says nothing about it (R44). -/
def execTestOpcode (src : TestSrc) (s : State) : Host.Outcome State Fault Refusal :=
  match src with
  | .journal j => .next (doForeign j s)
  | .maintenance pkt =>
    if maintenanceUp s && decide (fld (pkt.getD 0 0) 7 0 ≥ 0xF0) then .refused .privateTestOpcode
    else .next (doMaintenanceForeign pkt s)

end Sys2Proof.Machine
end

