-- ==== Sys2Proof/Machine/Links.lean ====
section
/-! DEFINITION. The link plane (12_links.md): ports and training, configuration, routing, delivery, forwarded commands, link faults. -/

namespace Sys2Proof.Machine

/-! ### Ports -/

/-- Replace port `p`; a change of LINK_STATUS sets LINK in INTX_CAUSE (Table 13.7). -/
def setPort (p : Nat) (x : LPort) (s : State) : State :=
  let old := (s.lport p).st
  let s := s.setLport p x
  if x.st = old then s else setCause 19 s

/-- Dimension of a port: 0 for ports 0-1, 1 for ports 2-3 (R284). -/
def dimOf (p : Nat) : Nat := p / 2

/-- The port that faces the opposite way in the same dimension (R287). -/
def opposite (p : Nat) : Nat := if p % 2 = 0 then p + 1 else p - 1

/-- Port a packet of another chip leaves by, and its TURNED bit (R287, R295). -/
def routeThrough (s : State) (port : Nat) (pk : LinkPkt) : Option (Nat × Bool) :=
  let e := tget s.link.route pk.dest 0
  let valid := decide (e / 128 % 2 = 1)
  let altOk := decide (e / 64 % 2 = 1)
  let prim := e % 4
  let alt := e / 16 % 4
  let straight := pk.turned && decide (dimOf prim = dimOf port)
  let turned := pk.turned && !(valid && decide (dimOf prim ≠ dimOf port))
  if straight then some (opposite port, true)
  else if valid && portUp s prim && !turned && !onAlternate s pk.dest then some (prim, false)
  else if valid && altOk && portUp s alt then some (alt, true)
  else none

/-- Route a packet of another chip out of a port, or drop and count it (R287, R288). -/
def forward (port : Nat) (pk : LinkPkt) (s : State) : State :=
  match routeThrough s port pk with
  | none => count (ctrPort port 3) 1 (creditBack port pk s)
  | some (o, t) =>
    if !portUp s o then count (ctrPort port 3) 1 (creditBack port pk s)
    else if pk.hops = 0 then count (ctrPort port 4) 1 (creditBack port pk s)
    else
      let vc := if (s.lport port).dateline then 1 else pk.vc
      let vc := if dimOf o ≠ dimOf port then 0 else vc
      linkTx o (some (port, creditKey pk)) { pk with hops := pk.hops - 1, turned := t, vc := vc } s

/-- Send a packet handed to this part's own link plane on the route in force. -/
def sendOn (pk : LinkPkt) (s : State) : State :=
  match routeOut s pk.dest with
  | none => s
  | some (port, t) => linkTx port none { pk with turned := t } s

/-- Chips whose route names a port as PRIMARY and may use an alternate. -/
def altChips (s : State) (p : Nat) : List Nat :=
  (List.range 64).filter (fun d => let e := tget s.link.route d 0
    decide (e / 128 % 2 = 1) && decide (e / 64 % 2 = 1) && decide (e % 4 = p))

/-- A packet queued for a port that went down and not yet started leaves by the route then in force (R295). -/
def requeue (q : LinkPkt × Option (Nat × Nat)) (s : State) : State :=
  match q.2 with
  | none => sendOn q.1 s
  | some i => forward i.1 { q.1 with hops := q.1.hops + 1, vc := i.2 % 2 } s

/-- A port becomes DOWN_FAULT: the change is counted, its routes go to their alternates, and what is queued for it leaves by them (R295). -/
def portFault (p : Nat) (s : State) : State :=
  let x := s.lport p
  if x.st = 2 then
    let s := count (ctrPort p 6) 1 (setPort p { x with st := 3, replays := 0, queue := [] } s)
    let s := { s with link := { s.link with onAlt := (altChips s p).foldl maskSet s.link.onAlt } }
    forAll x.queue requeue s
  else s

/-! ### A peer's incarnation (R283, R292) -/

/-- Forwarded commands pending towards a chip. -/
def forwardedTo (s : State) (chip : Nat) : List Nat :=
  (s.journal.filter (fun e => e.st = .forwarded && (match e.fwd with | some (c, _) => decide (c = chip) | none => false))).map (·.jpos)

/-- Close a shadow session; its buffers return. -/
def dropShadow (n : Nat) (s : State) : State :=
  let s := dropPages n s
  s.setSession n (Session.closed (s.session n).gen)

/-- Close the shadow sessions a chip opened here (R295, Table 12.7). -/
def closeShadows (chip : Nat) (s : State) : State :=
  forAll (s.sessions.filter (fun e => match e.2.shadow with | some (c, _, _) => decide (c = chip) | none => false)) (fun e => dropShadow e.1) s

/-- Sessions of this part that have a share on a chip. -/
def spreadOver (s : State) (chip : Nat) : List Nat :=
  (s.sessions.filter (fun e => e.2.isOpen && e.2.shadow.isNone && maskBit e.2.spread chip && decide (chip ≠ s.link.chip))).map (·.1)

/-- A session loses a peer: its pending command completes with ABANDONED_PEER_FLR, an open once its other peers have answered (R230). -/
def losePeer (chip n : Nat) (s : State) : State :=
  let x := s.session n
  let s := { s with jobs := s.jobs.filter (fun b => decide (b.sess ≠ some n)) }
  let s := s.modSession n (fun x => { x with peerLost := true, work := none, gathers := [], headRows := [],
                                             colls := x.colls.filter (fun c => c.1 ≠ chip), accepted := tdel x.accepted chip,
                                             collFail := if x.collFail = 0 then stPeerFlr else x.collFail })
  match x.work.bind (·.j) with
  | some j => finish j stPeerFlr [] s
  | none => s

/-- Sessions of this part spread over a chip lose that peer (R230). -/
def loseSpread (chip : Nat) (s : State) : State := forAll (spreadOver s chip) (losePeer chip) s

/-- An INCARNATION of a chip is seen: a change abandons what is forwarded to it and forgets what it sent, so that its next SEQ is 1; what this part sends
to it restarts only at a path failure (R291, R292, R75). -/
def seeIncarnation (chip : Nat) (inc : Word) (s : State) : State :=
  let old := tfind s.link.peerInc chip
  let s := { s with link := { s.link with peerInc := tput s.link.peerInc chip inc } }
  match old with
  | none => s
  | some o =>
    if o = inc then s
    else
      let s := forAll (forwardedTo s chip) (fun j s => finish j stPeerFlr [] s) s
      let s := loseSpread chip (closeShadows chip s)
      { s with link := { s.link with
          pairs := s.link.pairs.map (fun p => if p.1 / 4 = chip then (p.1, { p.2 with expect := 1, sinceAck := 0 }) else p), highest := tdel s.link.highest chip,
          taken := s.link.taken.filter (fun t => t.1 ≠ chip), kept := s.link.kept.filter (fun k => k.1 ≠ chip) } }

/-- Resend completions of forwarded commands that no pending packet carries (R292). -/
def resendKept (s : State) : State :=
  forAll s.link.kept (fun k s =>
    let has := s.link.pairs.any (fun p => p.2.unacked.any (fun u => u.dest = k.1 && u.type = 4 && u.aux = w32 k.2.1))
    if has || (routeOut s k.1).isNone then s else sendCpl k.1 k.2.2.1 k.2.1 k.2.2.2 s) s

/-! ### Training and faults -/

/-- TRAINING_COMPLETE (R282, R283). -/
def doTrainingComplete (p : Nat) (r : TrainEnd) (s : State) : State :=
  let x := s.lport p
  if !(x.enabled && decide (x.st = 1)) then s
  else match r with
    | .failed => s
    | .identity chip role peer tx ty inc credits =>
      if role ≠ s.link.role ∨ (s.link.role = 2 ∧ (tx ≠ s.link.torusX ∨ ty ≠ s.link.torusY)) ∨ peer ≠ opposite p then
        setPort p { x with st := 4 } s
      else if chip = s.link.chip then setPort p { x with st := 5 } s
      else resendKept (seeIncarnation chip inc (setPort p
        { x with st := 2, peer := chip, replays := 0, queue := [], credits := (List.range 6).zip credits, freed := [], lastIn := 0 } s))

/-- PORT_TRAIN_RETRY (R282): an enabled port whose attempt failed or that is down starts again from step 1. -/
def doPortTrainRetry (p : Nat) (s : State) : State :=
  let x := s.lport p
  if x.enabled && decide (x.st ≠ 2) then setPort p { x with st := 1 } s else s

/-- Credits of each class and channel are added to those in hand. -/
def addCredits (t : Tab Nat) (l : List Nat) : Tab Nat := ((List.range 6).zip l).foldl (fun t c => tput t c.1 (tget t c.1 0 + c.2)) t

/-- CODEWORD_RECEIVE (R281, R290, R295): corrected and replayed codewords are counted; the credits a codeword hands back let waiting packets
leave; 8 replays in a row take the port down. -/
def doCodewordReceive (p : Nat) (corrected ok : Bool) (credits : List Nat) (s : State) : State :=
  let x := s.lport p
  if x.st ≠ 2 then s
  else if ok then
    let s := if corrected then count (ctrPort p 0) 1 s else s
    drainPort x.queue.length p (setPort p { x with replays := 0, credits := addCredits x.credits credits } s)
  else
    let s := count (ctrPort p 1) 1 s
    if x.replays + 1 ≥ 8 then portFault p s else setPort p { x with replays := x.replays + 1 } s

/-! ### Delivery (R289, R291) -/

/-- A packet addressed to this part whose CRC passes; a failed CRC is counted on the arrival port (R289). Its buffer is free again either way
(R290). -/
def crcGate (port : Nat) (pk : LinkPkt) (s : State) (body : State → State) : State :=
  if !(portUp s port && decide (pk.dest = s.link.chip)) then s
  else if !pktCrcOk pk then count (ctrPort port 2) 1 (creditBack port pk s)
  else body (creditBack port pk s)

/-- ACK_SEND (R291). -/
def doAckSend (chip cls : Nat) (s : State) : State :=
  let k := pairKey chip cls
  let pr := tget s.link.pairs k Pair.reset
  if pr.sinceAck = 0 then s
  else match routeOut s chip with
    | none => s
    | some (p, t) =>
      let pr' : Pair := { pr with sinceAck := 0 }
      linkTx p none (sealPkt { dest := chip, src := s.link.chip, cls := 0, vc := 0, turned := t, type := 0x08, hops := 32, context := 0xFFFF,
                                      gen := 0, seq := 0, aux := w32 (pr.expect + 2 ^ 32 - 1), aux2 := s.link.incarnation, crc := 0, data := [], ackFor := cls })
        { s with link := { s.link with pairs := tput s.link.pairs k pr' } }

/-- Arrival of a sequenced packet: only the next SEQ of its pair is accepted, any other is silently discarded; the 16th since the last ACK is
acknowledged at once (R291). -/
def seqGate (port : Nat) (pk : LinkPkt) (s : State) (body : State → State) : State :=
  crcGate port pk s (fun s =>
    let k := pairKey pk.src pk.cls
    let pr := tget s.link.pairs k Pair.reset
    if pk.seq.toNat ≠ pr.expect then s
    else
      let pr' : Pair := { pr with expect := (pr.expect + 1) % 2 ^ 32, sinceAck := pr.sinceAck + 1 }
      let s := body { s with link := { s.link with pairs := tput s.link.pairs k pr' } }
      if pr'.sinceAck ≥ 16 then doAckSend pk.src pk.cls s else s)

/-- COMMAND (R61, R65, R75): journalled with ACCEPT, refused with JOURNAL_FULL, or recognised as already accepted. -/
def doCommand (port : Nat) (pk : LinkPkt) (s : State) : State :=
  if !live s || s.link.role = 0 then s
  else seqGate port pk s (fun s =>
    let pos := pk.aux.toNat
    if s.link.taken.contains (pk.src, pos) then
      let s := match s.journal.find? (fun e => e.origin = some (pk.src, pos)) with
        | some e => sendControl pk.src 0x02 pk.aux e.asn s
        | none => s
      match s.link.kept.find? (fun k => k.1 = pk.src && k.2.1 = pos) with
      | some k => sendCpl pk.src pk.cls pos k.2.2.2 s
      | none => s
    else if portUsed s .ring ≥ Config.journalRing then sendControl pk.src 0x03 pk.aux (w32 stJournalFull) s
    else
      let q := if pk.cls = 1 then 0 else 1
      let s := inOrder (if q = 0 then 3 else 4) s
      let asn := tget s.ringAsn q 0 + 1
      let e := newEntry s .ring q asn pk.data [] (fld (pk.data.getD 0 0) 23 16) (some (pk.src, pos))
      let s := { s with ringAsn := tput s.ringAsn q asn, link := { s.link with highest := tput s.link.highest pk.src (max pos (tget s.link.highest pk.src 0)),
                                                                                       taken := (pk.src, pos) :: s.link.taken } }
      journalEntry e (sendControl pk.src 0x02 pk.aux asn s))

/-- The forwarded command a returning packet is about. -/
def forwardedFrom (s : State) (chip pos : Nat) : Option JEntry :=
  s.journal.find? (fun e => e.jpos = pos && e.st = .forwarded && (match e.fwd with | some (c, _) => decide (c = chip) | none => false))

/-- The collective to a chip at a journal position. -/
def isColl (chip : Nat) (pos : Word) (c : Nat × Nat × Bool) : Bool := decide (c.1 = chip) && decide (w32 c.2.1 = pos)

/-- Session that waits for the collective to a chip at a journal position. -/
def collSession (s : State) (chip : Nat) (pos : Word) : Option Nat :=
  (s.sessions.find? (fun e => e.2.colls.any (isColl chip pos))).map (·.1)

/-- ACCEPT (R61): of a forwarded command, or of a collective. -/
def doAccept (port : Nat) (pk : LinkPkt) (s : State) : State :=
  crcGate port pk s (fun s =>
    match forwardedFrom s pk.src pk.aux.toNat with
    | some e => modEntry e.jpos (fun x => { x with fwd := some (pk.src, true) }) s
    | none => match collSession s pk.src pk.aux with
      | some n => s.modSession n (fun x => { x with colls := x.colls.map (fun c => if isColl pk.src pk.aux c then (c.1, c.2.1, true) else c) })
      | none => s)

/-- A collective of a session has failed: its step or chunk is abandoned with LINK_DOWN (R230), its open rejected (R219). -/
def failColl (status : Nat) (x : Session) : Session :=
  { x with collFail := if x.collFail = 0 then status else x.collFail, gathers := [],
           work := x.work.map (fun w => if w.fault = 0 then { w with fault := stLinkDown } else w) }

/-- A peer has answered the collective at position `pos`: with the pages it reserved or its T_ctx, or with a failing status (R293). -/
def answerColl (chip : Nat) (pos : Word) (status pages : Nat) (s : State) : State :=
  match collSession s chip pos with
  | none => s
  | some n =>
    s.modSession n (fun x =>
      let x := { x with colls := x.colls.filter (fun c => !isColl chip pos c) }
      if status = 0 then { x with accepted := if x.pendingOpen.isSome then tput x.accepted chip pages else x.accepted } else failColl status x)

/-- REFUSE (R65): the original command completes with the status the packet carries; a collective has failed. -/
def doRefuse (port : Nat) (pk : LinkPkt) (s : State) : State :=
  crcGate port pk s (fun s =>
    match forwardedFrom s pk.src pk.aux.toNat with
    | some e => finish e.jpos (fld pk.aux2 15 0) [] s
    | none => answerColl pk.src pk.aux (fld pk.aux2 15 0) 0 s)

/-- Current generation of the context a packet names (R294): for a SCATTER, that of the sender's session as SHADOW_OPEN recorded it; for a GATHER, that of
this part's session; for a COMPLETION, that of the stream slot or session of this part which the forwarded command is about. -/
def currentGen (s : State) (pk : LinkPkt) : Option Nat :=
  let stream : Bool := match forwardedFrom s pk.src pk.aux.toNat with
    | some e => decide (pk.type = 4) && (opInfo e.opcode).any (fun i => decide (i.kind = .stream))
    | none => false
  if pk.type = 5 then
    (s.sessions.find? (fun e => e.2.isOpen && e.2.shadow.any (fun h => decide (h.1 = pk.src) && decide (h.2.1 = pk.context)))).bind
      (fun e => e.2.shadow.map (·.2.2))
  else if stream then some (s.stream pk.context).gen
  else some (s.session pk.context).gen

/-- A packet that names a context of another generation is discarded and STALE is sent (R294). -/
def staleGate (pk : LinkPkt) (s : State) (body : State → State) : State :=
  if pk.context = 0xFFFF then body s
  else if currentGen s pk = some pk.gen then body s
  else sendControl pk.src 0x07 (w32 pk.type) pk.seq s

/-- COMPLETION (R74, R76): posted with SRC_CHIP of the executing part; a rejection there is PEER_REJECTED with its status in RESULT3. One of a
collective answers its session (R293). -/
def doCompletion (port : Nat) (pk : LinkPkt) (s : State) : State :=
  seqGate port pk s (fun s => staleGate pk s (fun s =>
    let w (n : Nat) : Word := pk.data.getD n 0
    match forwardedFrom s pk.src pk.aux.toNat with
    | none => answerColl pk.src pk.aux (fld (w 0) 15 0) (w 4).toNat s
    | some e =>
      let st := fld (w 0) 15 0
      let rejected := decide (st / 256 = 2) || decide (st / 256 = 3)
      let c := e.cpl pk.src (if rejected then stPeerRejected else st) true (fld (w 3) 23 16) (fld (w 3) 15 0)
                 [w 4, w 5, w 6, if rejected then w32 st else w 7]
      produce e.jpos c s))

/-- SCATTER (R293): a peer computes its heads for the layer and answers with their outputs, free values here. During a
reset of the work the packet is discarded at delivery (Table 12.7). -/
def doScatter (port : Nat) (pk : LinkPkt) (s : State) : State :=
  seqGate port pk s (fun s => staleGate pk s (fun s =>
    if !domainUp s then s
    else
      let n := pk.data.length
      let data := (List.range n).map (fun i => Config.freeHead (s.free + i))
      sendSeq pk.src pk.cls 0x06 pk.context pk.gen pk.aux pk.aux2 data { s with free := s.free + n }))

/-- Chips of a spread, ascending. -/
def spreadChips (spread : Nat) : List Nat := maskList spread 64

/-- Peers of a session. -/
def peersOf (s : State) (spread : Nat) : List Nat := (spreadChips spread).filter (fun c => c ≠ s.link.chip)

/-- The input of a layer goes to every peer, and their GATHERs are awaited (R293). What a layer's Niches hand over is not described, so the words are
free values (log 115). -/
def scatterLayer (n layer : Nat) (s : State) : State :=
  let x := s.session n
  let peers := peersOf s x.spread
  let k := (Config.freeLayer s.free).toNat % 257
  let data := (List.range k).map (fun i => Config.freeLayer (s.free + 1 + i))
  let s := (s.modSession n (fun x => { x with gathers := peers, work := x.work.map (fun w => { w with layer := layer }) }))
  forAll peers (fun p s => sendSeq p (if x.be then 2 else 1) 0x05 n x.gen (w32 layer) (w32 x.stepId) data s) { s with free := s.free + 1 + k }

/-- A unit's layers start again: after a reset of the engine or core that had stopped it (Table 12.7, R293). -/
def sendLayers (n : Nat) (s : State) : State :=
  let x := s.session n
  let s := s.modSession n (fun x => { x with headRows := [], work := x.work.map (fun w => { w with stopped := none }) })
  match x.work with
  | none => s
  | some w => if (peersOf s x.spread).isEmpty || decide (w.layers = 0) then s else scatterLayer n 0 s

/-- The reset of the units `hit` has ended: what it had stopped sends its layers again. -/
def layersAgain (hit : UnitId → Bool) (s : State) : State :=
  forAll ((s.sessions.filter (fun e => e.2.work.any (fun w => w.stopped.any hit))).map (·.1)) sendLayers s

/-- The work of a session is being reset: its compute domain, or the engine or core that stopped it (Table 12.7). -/
def workReset (s : State) (x : Session) : Bool := !domainUp s || x.work.any (fun w => w.stopped.any (fun u => !unitUp s u))

/-- GATHER (R293): the head outputs of one peer for the layer under way. With those of every peer the next layer's input leaves. -/
def doGather (port : Nat) (pk : LinkPkt) (s : State) : State :=
  seqGate port pk s (fun s => staleGate pk s (fun s =>
    let x := s.session pk.context
    match x.work with
    | none => s
    | some w =>
      if workReset s x || decide (pk.aux ≠ w32 w.layer) || decide (pk.aux2 ≠ w32 x.stepId) || !x.gathers.contains pk.src then s
      else
        let left := x.gathers.erase pk.src
        let s := s.modSession pk.context (fun x => { x with gathers := left, headRows := x.headRows ++ [(pk.src, w.layer, pk.data)] })
        if !left.isEmpty then s
        else if w.layer + 1 < w.layers then scatterLayer pk.context (w.layer + 1) s
        else s.modSession pk.context (fun x => { x with work := x.work.map (fun w => { w with layer := w.layers }) })))

/-- STALE (R294): counted on the port the discarded packet left by (Table 16.1). -/
def doStale (port : Nat) (pk : LinkPkt) (s : State) : State :=
  crcGate port pk s (fun s => count (ctrPort ((routeOut s pk.src).elim port (·.1)) 5) 1 s)

/-- SEQ number `a` lies at or before `b`, modulo 2^32. -/
def seqLe (a b : Nat) : Bool := decide ((b + 2 ^ 32 - a) % 2 ^ 32 < 2 ^ 31)

/-- ACK (R291, R292): acknowledged packets are released, waiting ones enter the window; the INCARNATION is seen first. Which class it is for stands in no
field of the header (log 20). -/
def doAck (port : Nat) (pk : LinkPkt) (s : State) : State :=
  crcGate port pk s (fun s =>
    let s := seeIncarnation pk.src pk.aux2 s
    let k := pairKey pk.src pk.ackFor
    let pr := tget s.link.pairs k Pair.reset
    let gone := pr.unacked.filter (fun u => seqLe u.seq.toNat pk.aux.toNat)
    let stay := pr.unacked.filter (fun u => !seqLe u.seq.toNat pk.aux.toNat)
    let pr' : Pair := { pr with unacked := stay, retries := if gone.isEmpty then pr.retries else 0 }
    let kept := s.link.kept.filter (fun c => !gone.any (fun u => u.type = 4 && u.aux = w32 c.2.1 && u.dest = c.1))
    let s := { s with link := { s.link with pairs := tput s.link.pairs k pr', kept := kept } }
    forAll ((stay.drop (256 - gone.length)).take (if stay.length > 256 - gone.length then gone.length else 0)) sendOn s)

/-- FLR_NOTICE (R295, Table 12.7): the port becomes DOWN_FAULT and the sender's shadow sessions are closed. -/
def doFlrNotice (port : Nat) (pk : LinkPkt) (s : State) : State :=
  if !portUp s port then s
  else if !pktCrcOk pk then count (ctrPort port 2) 1 (creditBack port pk s)
  else portFault port (closeShadows pk.src (creditBack port pk s))

/-- LINK_PACKET_FORWARD (R287, R288). -/
def doLinkPacketForward (port : Nat) (pk : LinkPkt) (s : State) : State :=
  if !portUp s port || pk.dest = s.link.chip then s else forward port pk s

/-- A collective to the chip that has received no ACCEPT: an accepted one stays pending (R292). -/
def unaccepted (chip : Nat) (c : Nat × Nat × Bool) : Bool := decide (c.1 = chip) && !c.2.2

/-- A session waits for a GATHER of the chip in this class, or for its ACCEPT of a collective. -/
def awaits (chip cls : Nat) (x : Session) : Bool :=
  decide ((if x.be then 2 else 1) = cls) && (x.gathers.contains chip || x.colls.any (unaccepted chip))

/-- Packets of this part to a chip that wait at a port are dropped (R291). -/
def dropQueued (own chip cls : Nat) (x : LPort) : LPort :=
  { x with queue := x.queue.filter (fun q => !(q.2.isNone && decide (q.1.src = own) && decide (q.1.dest = chip) && decide (q.1.cls = cls))) }

/-- The path to a chip failed in one class (R291, R292): pending packets are dropped, SEQ restarts at 1, commands without ACCEPT
complete with LINK_DOWN, and the collectives that wait for the chip have failed (R230). -/
def pathFailure (chip cls : Nat) (s : State) : State :=
  let k := pairKey chip cls
  let pr := tget s.link.pairs k Pair.reset
  let pr' : Pair := { pr with nextSeq := 1, unacked := [], retries := 0 }
  let s := { s with link := { s.link with pairs := tput s.link.pairs k pr', ports := s.link.ports.map (fun e => (e.1, dropQueued s.link.chip chip cls e.2)) } }
  let dead := s.journal.filter (fun e => e.st = .forwarded && e.fwd = some (chip, false) && (if e.queue = 0 then 1 else 2) = cls)
  let hit := (spreadOver s chip).filter (fun n => awaits chip cls (s.session n))
  let s := forAll hit (fun n s => s.modSession n (fun x => failColl stLinkDown { x with colls := x.colls.filter (fun c => !unaccepted chip c) })) s
  forAll (dead.map (·.jpos)) (fun j s => finish j stLinkDown [] s) s

/-- RETRANSMIT (R291): from the first unacknowledged packet on the route in force; the fourth fruitless attempt, or no route, is a path
failure. -/
def doRetransmit (chip cls : Nat) (s : State) : State :=
  let k := pairKey chip cls
  let pr := tget s.link.pairs k Pair.reset
  if pr.unacked.isEmpty then s
  else if pr.retries ≥ 3 || (routeOut s chip).isNone then pathFailure chip cls s
  else
    let pr' : Pair := { pr with retries := pr.retries + 1 }
    forAll (pr.unacked.take 256) sendOn { s with link := { s.link with pairs := tput s.link.pairs k pr' } }

/-! ### Configuration (R284-R286) -/

/-- A link configuration word (Table 12.2). -/
structure LinkWord where
  role : Nat
  chip : Nat
  en : Nat
  dateline : Nat
  tx : Nat
  ty : Nat
deriving DecidableEq, Repr, Inhabited

def LinkWord.ofWord (w : Word) : LinkWord :=
  { role := fld w 31 30, chip := fld w 29 24, en := fld w 23 20, dateline := fld w 19 16, tx := fld w 15 12, ty := fld w 11 8 }

/-- The word passes the checks of R285. -/
def LinkWord.ok (c : LinkWord) : Bool :=
  match c.role with
  | 0 => decide (c.en = 0)
  | 1 => decide (c.en < 4) && decide (c.dateline < 4)
  | 2 => decide (2 ≤ c.tx) && decide (c.tx ≤ 8) && decide (2 ≤ c.ty) && decide (c.ty ≤ 8)
  | _ => false

/-- Apply enable and dateline bits to one port: a newly enabled port trains, a disabled port that was UP counts as a fault (R285). -/
def configPort (c : LinkWord) (p : Nat) (s : State) : State :=
  let x := s.lport p
  let en := maskBit c.en p
  let dl := maskBit c.dateline p
  if en then setPort p { x with enabled := true, dateline := dl, st := if x.enabled then x.st else 1 } s
  else
    let s := portFault p s
    setPort p { (s.lport p) with enabled := false, dateline := dl, st := 0 } s

/-- Put a link configuration in force. -/
def applyLink (c : LinkWord) (s : State) : State :=
  let s := { s with link := { s.link with role := c.role, chip := c.chip, torusX := if c.role = 2 then c.tx else s.link.torusX,
                                          torusY := if c.role = 2 then c.ty else s.link.torusY } }
  forAll [0, 1, 2, 3] (fun p s => configPort c p s) s

/-- The first training attempts of the enabled ports end (R282, R285). -/
def bringUp (ports : List (Nat × TrainEnd)) (s : State) : State :=
  forAll ports (fun e s => if e.1 < 4 then doTrainingComplete e.1 e.2 s else s) s

/-- Mask of ports that are UP. -/
def upMask (s : State) : Nat := ([0, 1, 2, 3].filter (portUp s)).foldl maskSet 0

/-- Work that fixes role and chip ID: a command forwarded from this part or to it, a shadow session, a spread session (R285). -/
def linkBusy (s : State) : Bool :=
  s.journal.any (fun e => decide (e.st = .forwarded) || e.origin.isSome) || s.sessions.any (fun e => e.2.shadow.isSome || (e.2.isOpen && decide (e.2.spread ≠ 0)))

/-- LINK_CONFIG (0x60), R285. -/
def doLinkConfig (j : Nat) (ups : List (Nat × TrainEnd)) (s : State) : State :=
  runCmd j 0x60 s (fun e s =>
    let c := LinkWord.ofWord (e.param 0)
    if (c.role ≠ s.link.role || c.chip ≠ s.link.chip) && linkBusy s then finish j stCtxBusy [] s
    else if !c.ok then finish j stBadParam [] s
    else
      let s := bringUp ups (applyLink c s)
      finish j stOk [w32 (upMask s)] s)

/-- The 64 route entries of 16 words (R286). -/
def routeBytes (w : Nat → Word) : List Nat := (List.range 64).map (fun i => fld (w (i / 4)) (8 * (i % 4) + 7) (8 * (i % 4)))

/-- One route entry passes the checks of R286: the ports of a valid entry are enabled, and ALT_PORT of any entry with ALT_VALID differs from PRIMARY; the
own entry is ignored. -/
def routeOk (s : State) (i b : Nat) : Bool :=
  let valid := decide (b / 128 % 2 = 1)
  let alt := decide (b / 64 % 2 = 1)
  decide (i = s.link.chip) ||
  ((!valid || ((s.lport (b % 4)).enabled && (!alt || (s.lport (b / 16 % 4)).enabled))) && !(alt && decide (b / 16 % 4 = b % 4)))

/-- A routing table as a sparse table. -/
def routeTable (l : List Nat) : Tab Nat := ((List.range 64).zip l).filter (fun e => e.2 ≠ 0)

/-- ROUTE_SET (0x61), R286; completions kept for a chip that has a route again leave (R292). -/
def doRouteSet (j : Nat) (s : State) : State :=
  runCmd j 0x61 s (fun e s =>
    let l := routeBytes e.param
    if ((List.range 64).zip l).all (fun x => routeOk s x.1 x.2) then
      resendKept (finish j stOk [] { s with link := { s.link with route := routeTable l, onAlt := 0 } })
    else finish j stBadParam [] s)

/-- The link plane takes the boot configuration as LINK_CONFIG and ROUTE_SET would; values they would reject leave the part
standalone (R388 step 7, R284). -/
def linkBoot (s : State) : State :=
  let c := LinkWord.ofWord s.chip.bootLink
  let c := if c.ok then c else LinkWord.ofWord 0
  let s := applyLink c s
  match s.chip.bootRoutes with
  | none => s
  | some ws =>
    let l := routeBytes (fun n => ws.getD n 0)
    if ((List.range 64).zip l).all (fun x => routeOk s x.1 x.2) then { s with link := { s.link with route := routeTable l, onAlt := 0 } } else s

/-- Forward a command to another part (R74, R75); CONTEXT names a stream slot or session, else none (R289, Table 12.4). -/
def forwardCmd (e : JEntry) (s : State) : State :=
  let hasRoute := decide (s.link.role ≠ 0) && decide (tget s.link.route e.dest 0 / 128 % 2 = 1)
  if !hasRoute then finish e.jpos stNoRoute [] s
  else
    let s := modEntry e.jpos (fun x => { x with st := .forwarded, fwd := some (e.dest, false) }) s
    let c := if (opInfo e.opcode).any (fun i => decide (i.kind = .stream) || decide (i.kind = .session)) then (e.ctx, e.gen) else (0xFFFF, 0)
    sendSeq e.dest (if e.queue = 0 then 1 else 2) 0x01 c.1 c.2 (w32 e.jpos) 0 e.pkt s

def execTrainingComplete (port : Nat) (r : TrainEnd) (s : State) : Host.Outcome State Fault Refusal := .next (doTrainingComplete port r s)
def execPortTrainRetry (port : Nat) (s : State) : Host.Outcome State Fault Refusal := .next (doPortTrainRetry port s)
/-- `credits`: what a codeword that passes its check hands back; none, where it fails. -/
def execCodewordReceive (port : Nat) (corrected : Bool) (credits : Option (List Nat)) (s : State) : Host.Outcome State Fault Refusal :=
  .next (doCodewordReceive port corrected credits.isSome (credits.getD []) s)
def execCommand (port : Nat) (pk : LinkPkt) (s : State) : Host.Outcome State Fault Refusal := .next (doCommand port pk s)
def execAccept (port : Nat) (pk : LinkPkt) (s : State) : Host.Outcome State Fault Refusal := .next (doAccept port pk s)
def execRefuse (port : Nat) (pk : LinkPkt) (s : State) : Host.Outcome State Fault Refusal := .next (doRefuse port pk s)
def execCompletion (port : Nat) (pk : LinkPkt) (s : State) : Host.Outcome State Fault Refusal := .next (doCompletion port pk s)
def execScatter (port : Nat) (pk : LinkPkt) (s : State) : Host.Outcome State Fault Refusal := .next (doScatter port pk s)
def execGather (port : Nat) (pk : LinkPkt) (s : State) : Host.Outcome State Fault Refusal := .next (doGather port pk s)
def execStale (port : Nat) (pk : LinkPkt) (s : State) : Host.Outcome State Fault Refusal := .next (doStale port pk s)
def execAck (port : Nat) (pk : LinkPkt) (s : State) : Host.Outcome State Fault Refusal := .next (doAck port pk s)
def execFlrNotice (port : Nat) (pk : LinkPkt) (s : State) : Host.Outcome State Fault Refusal := .next (doFlrNotice port pk s)
def execLinkPacketForward (port : Nat) (pk : LinkPkt) (s : State) : Host.Outcome State Fault Refusal :=
  .next (doLinkPacketForward port pk s)
def execAckSend (chip cls : Nat) (s : State) : Host.Outcome State Fault Refusal := .next (doAckSend chip cls s)
def execRetransmit (chip cls : Nat) (s : State) : Host.Outcome State Fault Refusal := .next (doRetransmit chip cls s)
def execPortDown (port : Nat) (s : State) : Host.Outcome State Fault Refusal := .next (portFault port s)

/-- CODEWORD_TIMEOUT (R295): no codeword for 10 µs. -/
def execCodewordTimeout (port : Nat) (s : State) : Host.Outcome State Fault Refusal := .next (portFault port s)
def execLinkConfig (j : Nat) (upPorts : List (Nat × TrainEnd)) (s : State) : Host.Outcome State Fault Refusal := .next (doLinkConfig j upPorts s)
def execRouteSet (j : Nat) (s : State) : Host.Outcome State Fault Refusal := .next (doRouteSet j s)

end Sys2Proof.Machine
end

