-- ==== Sys2Proof/Machine/Host.lean ====
section
/-! DEFINITION. The PCI Express endpoint (13_host_endpoint.md): register writes and latching reads, the BAR2 window, INTA, host read
failures, AER, power states and function-level reset. -/

namespace Sys2Proof.Machine

/-! ### BAR access -/

/-- The function answers BAR accesses: start-up is done or stopped, and the endpoint is in D0 (R302, R310, R390). -/
def barOpen (s : State) : Bool := (decide (s.chip.phase = .ready) || decide (s.chip.phase = .stopped)) && !s.pcie.d3

/-- Configuration requests are answered: start-up and function-level reset give Configuration Request Retry Status (R310, R346, R390). -/
def configOpen (s : State) : Bool := decide (s.chip.phase = .ready) || decide (s.chip.phase = .stopped)

/-- The error is a correctable one (Table 13.10). -/
def aerCorrectable : AerError → Bool
  | .receiverError => true
  | .badTlp => true
  | .badDllp => true
  | .replayTimeout => true
  | .replayRollover => true
  | .advisory => true
  | _ => false

/-- Bit of an error in the AER status, mask and severity registers, as the base specification lays them out (R300, log 141). -/
def aerBit : AerError → Nat
  | .receiverError => 0
  | .badTlp => 6
  | .badDllp => 7
  | .replayRollover => 8
  | .replayTimeout => 12
  | .advisory => 13
  | .dataLinkProtocol => 4
  | .poisoned => 12
  | .flowControl => 13
  | .completionTimeout => 14
  | .unexpectedCompletion => 16
  | .receiverOverflow => 17
  | .malformed => 18
  | .ecrc => 19
  | .unsupported => 20

/-- Record an uncorrectable error by its bit: the status is sticky; unless masked, its message goes out by its severity, and its header is logged while no
error stands under the First Error Pointer (R308, R309). -/
def uncorLog (k : Nat) (header : List Word) (s : State) : State :=
  let p := s.pcie
  let q := { p with uncorStatus := p.uncorStatus ||| w32 (2 ^ k) }
  if bit p.uncorMask k then { s with pcie := q }
  else
    let first := !bit p.uncorStatus p.firstError
    { s with pcie := { q with errMsgs := p.errMsgs ++ [if bit p.uncorSeverity k then 2 else 1], firstError := if first then k else p.firstError,
                              headerLog := if first then header.take 4 else p.headerLog } }

/-- Record a correctable error by its bit; unless masked, its message goes out. -/
def corLog (k : Nat) (s : State) : State :=
  let p := s.pcie
  { s with pcie := { p with corStatus := p.corStatus ||| w32 (2 ^ k), errMsgs := if bit p.corMask k then p.errMsgs else p.errMsgs ++ [0] } }

/-- Log an error of Table 13.10 in AER and send its message (R308). -/
def aerLog (e : AerError) (header : List Word) (s : State) : State :=
  if aerCorrectable e then corLog (aerBit e) s else uncorLog (aerBit e) header s

/-- A BAR access the function does not answer: Unsupported Request, its header a free value. -/
def barRefused (s : State) : State :=
  let s := aerLog .unsupported ((List.range 4).map (fun i => Config.freeHeader (s.free + i))) { s with free := s.free + 4 }
  { s with pcie := { s.pcie with rdata := none, rpoison := false } }

/-- A BAR access, answered or refused. -/
def barAccess (s : State) (body : State → State) : State := if barOpen s then body s else barRefused s

/-- A register read answers with bytes. -/
def answer (r : List Byte × State) : State := { r.2 with pcie := { r.2.pcie with rdata := some r.1, rpoison := false } }

/-! ### Ring registers (R48, R49, R305) -/

/-- CONFIG_ERR of a host queue becomes 1 (Tables 13.7, 13.9). -/
def queueConfigErr (q : Nat) (s : State) : State :=
  let h := s.queue q
  let s' := s.setQueue q { h with configErr := true }
  if h.configErr then s' else setCause 3 s'

/-- CONFIG_ERR of an output ring becomes 1. -/
def outConfigErr (o : Nat) (s : State) : State :=
  let r := s.oring o
  let s' := s.setOring o { r with configErr := true }
  if r.configErr then s' else setCause 3 s'

/-- CMD_RING_TAIL (R49). -/
def cmdRingTail (q v : Nat) (s : State) : State :=
  let h := s.queue q
  let n := h.cmdSize.toNat
  if v < n && decide ((v + n - h.head) % n ≥ (h.tail + n - h.head) % n) then s.setQueue q { h with tail := v }
  else
    let s' := s.setQueue q { h with badTail := true }
    if h.badTail then s' else setCause 2 s'

/-- CPL_RING_HEAD (R52, R305): ignored at or beyond the ring size, or past the last completion posted. -/
def cplRingHead (q v : Nat) (s : State) : State :=
  let h := s.queue q
  let n := h.cplSize.toNat
  if v < n && decide ((v + n - h.cplHead) % n ≤ (h.cplIndex + n - h.cplHead) % n) then s.setQueue q { h with cplHead := v }
  else queueConfigErr q s

/-- Setting a host queue's RING_EN (R48, R62, R305, R390). -/
def ringEnSet (q : Nat) (s : State) : State :=
  let h := s.queue q
  if h.ringEn then s
  else if s.chip.phase ≠ .ready || !queueConfigOk h then queueConfigErr q s
  else s.setQueue q { h with ringEn := true, head := 0, tail := 0, cplHead := 0, cplIndex := 0, phase := true, asn := 0,
                             cmdLastAsn := 0, cplLastAsn := 0, failRun := 0, everEnabled := true }

/-- Clearing a host queue's RING_EN: acceptance stops at once (R48). -/
def ringEnClear (q : Nat) (s : State) : State := s.setQueue q { s.queue q with ringEn := false }

/-- Setting an output ring's RING_EN (R305): head and tail become 0 and held records are written from offset 0. -/
def outRingEnSet (o : Nat) (s : State) : State :=
  let r := s.oring o
  if r.ringEn then s
  else if s.chip.phase ≠ .ready || !outConfigOk r then outConfigErr o s
  else releaseHeld r.held.length o (s.setOring o { r with ringEn := true, active := true, head := 0, tail := 0, wr := 0,
                                                          uncovered := [], uncoveredBytes := 0 })

/-- Clearing an output ring's RING_EN (R305): one last tail write-back covers what is written; a ring that carries a masked slot trips
OUTPUT_HELD (Table 14.2). -/
def outRingEnClear (o : Nat) (s : State) : State :=
  let r := s.oring o
  if !r.ringEn then s
  else
    let masked := s.openSlots.any (fun n => maskBit s.safety.mask n && decide ((s.stream n).cfg.outRing = o))
    let s := s.setOring o { r with ringEn := false, fullHold := false }
    let s := if masked && decide (s.safety.state ≠ 0) then detect 16 s else s
    if s.pcie.d3 then s else if r.uncovered.isEmpty then s.setOring o { (s.oring o) with active := false } else tailWriteBack o s

/-- OUT_RING_HEAD (R305). -/
def outRingHead (o v : Nat) (s : State) : State :=
  let r := s.oring o
  if v % 32 = 0 && decide (v < r.bytes) then s.setOring o { r with head := v } else outConfigErr o s

/-- OUT_COAL (R305). -/
def outCoal (o : Nat) (v : Word) (s : State) : State :=
  let r := s.oring o
  let v := keep v 12 0
  if r.ringEn && !coalOk v then outConfigErr o s else s.setOring o { r with coal := v }

/-- OUT_COAL_BYTES (R305). -/
def outCoalBytes (o : Nat) (v : Word) (s : State) : State :=
  let r := s.oring o
  let v := keep v 20 0
  if r.ringEn && !coalBytesOk v then outConfigErr o s else s.setOring o { r with coalBytes := v }

/-- INTX_CAUSE: writing 1 clears a bit, but for a cause that hardware sets in the same clock, which stays 1 (R307, R7). -/
def intxCause (w : IntxWrite) (s : State) : State :=
  inta { s with pcie := { s.pcie with cause := s.pcie.cause &&& ~~~(w.v &&& ~~~(w.same &&& recentCauses s)) } }

/-- Write of a host queue register (Table 13.4). -/
def queueWriteReg (q off : Nat) (v : Word) (s : State) : State :=
  let h := s.queue q
  match off with
  | 0x00 => s.setQueue q { h with cmdBaseLo := keep v 31 12 }
  | 0x04 => s.setQueue q { h with cmdBaseHi := v }
  | 0x08 => s.setQueue q { h with cmdSize := keep v 12 0 }
  | 0x0C => s.setQueue q { h with headWbLo := keep v 31 6 }
  | 0x10 => s.setQueue q { h with headWbHi := v }
  | 0x14 => s.setQueue q { h with cplBaseLo := keep v 31 12 }
  | 0x18 => s.setQueue q { h with cplBaseHi := v }
  | 0x1C => s.setQueue q { h with cplSize := keep v 13 0 }
  | 0x20 => if bit v 0 then ringEnSet q s else ringEnClear q s
  | 0x24 => s.setQueue q { h with configErr := h.configErr && !bit v 2, badTail := h.badTail && !bit v 1 }
  | 0x40 => cmdRingTail q (fld v 15 0) s
  | 0x44 => cplRingHead q (fld v 15 0) s
  | _ => s

/-- Write of an output ring register (Table 13.5). -/
def outWriteReg (o off : Nat) (v : Word) (s : State) : State :=
  let r := s.oring o
  match off with
  | 0x00 => s.setOring o { r with baseLo := keep v 31 12 }
  | 0x04 => s.setOring o { r with baseHi := v }
  | 0x08 => s.setOring o { r with size := keep v 4 0 }
  | 0x0C => s.setOring o { r with tailWbLo := keep v 31 6 }
  | 0x10 => s.setOring o { r with tailWbHi := v }
  | 0x14 => outCoal o v s
  | 0x18 => outCoalBytes o v s
  | 0x1C =>
    let s := s.setOring o { r with irqEn := bit v 1 }
    if bit v 0 then outRingEnSet o s else outRingEnClear o s
  | 0x20 => s.setOring o { r with configErr := r.configErr && !bit v 2 }
  | 0x40 => outRingHead o (fld v 25 0) s
  | _ => s

/-- Write of a global register (Table 13.3); writes of read-only registers and of offsets without a register are ignored (R304). A write of
INTX_HOLDOFF with a reserved bit [31:10] set counts as a higher value (DESIGN CHOICE, log 111). -/
def globalWriteReg (off : Nat) (v : Word) (s : State) : State :=
  match off with
  | 0x20 => intxCause { v := v, same := 0 } s
  | 0x24 => inta { s with pcie := { s.pcie with mask := keep v 21 8 ||| keep v 3 0 } }
  | 0x28 => { s with pcie := { s.pcie with holdoff := w32 (min 1000 (fld v 9 0 + 1024 * b2n (decide (fld v 31 10 ≠ 0)))) } }
  | 0x38 => { s with pcie := { s.pcie with window := keep v 3 0 } }
  | _ => s

/-- Write of a whole DW at a BAR0 offset. -/
def regWrite (off : Nat) (v : Word) (s : State) : State :=
  if off < 0x1000 then globalWriteReg off v s
  else if off < 0x2000 then queueWriteReg 0 (off - 0x1000) v s
  else if off < 0x3000 then queueWriteReg 1 (off - 0x2000) v s
  else if off < 0x3800 then outWriteReg ((off - 0x3000) / 0x100) ((off - 0x3000) % 0x100) v s
  else s

/-- A BAR0 write: one that does not cover a whole DW is ignored and counted in ACCESS_ERRORS (R304). -/
def bar0Write (off : Nat) (v : Word) (be : Nat) (s : State) : State :=
  barAccess s (fun s =>
    if be = 15 then regWrite off v s
    else { s with pcie := { s.pcie with accessErrors := w32 (satAdd 32 s.pcie.accessErrors.toNat 1) } })

/-- TICK_LO: the read latches the high half (Table 13.3). -/
def doTickLo (s : State) : State := barAccess s (fun s => answer (bar0Read 0x10 4 s))

/-- OUT_FULL_TICKS_LO: the read latches the high half (Table 13.5). -/
def doOutFullTicksLo (o : Nat) (s : State) : State := barAccess s (fun s => answer (bar0Read (0x3024 + 0x100 * o) 4 s))

/-- ACCESS_ERRORS: the read returns and clears the count (Table 13.3). -/
def doAccessErrors (s : State) : State := barAccess s (fun s => answer (bar0Read 0x44 4 s))

/-! ### Configuration space (R297, R300, R301, R308-R310, log 141) -/

/-- Bits of the AER registers that Table 13.10 gives errors. -/
def uncorBits : Word := 0x5FF010
def corBits : Word := 0x31C1

/-- What a configuration read of a DW returns (R297, R300, R301). -/
def configRead (s : State) (r : ConfigReg) : Word :=
  let p := s.pcie
  match r with
  | .id => 0x96401F2B
  | .commandStatus => p.command ||| dw [(1, 20, 20), (b2n (causePending p), 19, 19)]
  | .classRevision => dw [(0x120000, 31, 8), (s.chip.stepping, 7, 0)]
  | .header => w32 p.cacheLine
  | .bar 0 => p.bar0Lo ||| 0x4
  | .bar 1 => p.bar0Hi
  | .bar 2 => p.bar2Lo ||| 0xC
  | .bar 3 => p.bar2Hi
  | .bar _ => 0
  | .subsystem => dw [(p.subsysId, 31, 16), (p.subsysVendor, 15, 0)]
  | .rom => 0
  | .interrupt => dw [(1, 15, 8), (p.intLine, 7, 0)]
  | .power => dw [(1, 3, 3), (if p.d3 then 3 else 0, 1, 0)]
  | .deviceControl => p.devControl
  | .deviceControl2 => p.devControl2
  | .uncorStatus => p.uncorStatus
  | .uncorMask => p.uncorMask
  | .uncorSeverity => p.uncorSeverity
  | .corStatus => p.corStatus
  | .corMask => p.corMask
  | .aerControl => dw [(b2n p.ecrcCheck, 8, 8), (1, 7, 7), (b2n p.ecrcGen, 6, 6), (1, 5, 5), (p.firstError, 4, 0)]
  | .headerLog n => p.headerLog.getD n 0
  | .serialLo => w32 Config.serialNumber.toNat
  | .serialHi => hi32 Config.serialNumber.toNat

/-- Bits a byte-enable mask covers. -/
def beMask (be : Nat) : Word := dw ((List.range 4).map (fun k => (if maskBit be k then 255 else 0, 8 * k + 7, 8 * k)))

/-- A register after a write: its writable bits in the enabled bytes take the written value. -/
def merged (old v : Word) (be : Nat) (writable : Word) : Word :=
  let m := beMask be &&& writable
  (old &&& ~~~m) ||| (v &&& m)

/-- A configuration write of a DW under byte enables; AER status bits are cleared by writing 1 (R301, R308-R310). Read-only items ignore it, PowerState and
Initiate Function Level Reset have rows of their own. -/
def configWrite (r : ConfigReg) (v : Word) (be : Nat) (s : State) : State :=
  let p := s.pcie
  let put (q : Pcie) : State := { s with pcie := q }
  match r with
  | .commandStatus => inta (put { p with command := merged p.command v be 0x546 })
  | .header => put { p with cacheLine := (merged (w32 p.cacheLine) v be 0xFF).toNat }
  | .bar 0 => put { p with bar0Lo := merged p.bar0Lo v be 0xFE000000 }
  | .bar 1 => put { p with bar0Hi := merged p.bar0Hi v be 0xFFFFFFFF }
  | .bar 3 => put { p with bar2Hi := merged p.bar2Hi v be (if s.chip.barSize then 0xFFFFFFFC else 0xFFFFFFFF) }
  | .interrupt => put { p with intLine := (merged (w32 p.intLine) v be 0xFF).toNat }
  | .deviceControl => put { p with devControl := merged p.devControl v be 0x79FF }
  | .deviceControl2 => put { p with devControl2 := merged p.devControl2 v be 0x101F }
  | .uncorStatus => put { p with uncorStatus := p.uncorStatus &&& ~~~(v &&& beMask be) }
  | .uncorMask => put { p with uncorMask := merged p.uncorMask v be uncorBits }
  | .uncorSeverity => put { p with uncorSeverity := merged p.uncorSeverity v be uncorBits }
  | .corStatus => put { p with corStatus := p.corStatus &&& ~~~(v &&& beMask be) }
  | .corMask => put { p with corMask := merged p.corMask v be corBits }
  | .aerControl =>
    let c := merged (configRead s .aerControl) v be 0x140
    put { p with ecrcCheck := bit c 8, ecrcGen := bit c 6 }
  | _ => s

/-- REGISTER_WRITE (R304, log 141). -/
def doRegisterWrite (r : RegAt) (v : Word) (be : Nat) (s : State) : State :=
  match r with
  | .bar0 off => bar0Write off v be s
  | .config c => if configOpen s then configWrite c v be s else s

/-! ### BAR2 (R254, R303, R371, R406) -/

/-- Device address of a BAR2 offset (R303). -/
def bar2Addr (s : State) (off : Nat) : Nat :=
  let w := if s.chip.barSize then s.pcie.window.toNat / 4 * 4 else s.pcie.window.toNat
  w * 4294967296 + off

/-- The offset lies in BAR2 (R301). -/
def bar2In (s : State) (off len : Nat) : Bool := decide (off + len ≤ if s.chip.barSize then 4 * 4294967296 else 4294967296)

/-- The picture tap is open on the slot whose picture region holds the address (R371). -/
def tapOpen (s : State) (a : Nat) : Bool := s.obs.trace.tapEn && inPictureOf s s.obs.trace.tapSlot a

/-- One byte as a BAR2 read sees it, after every write queued before it (R260). -/
def bar2Byte (s : State) (a : Nat) : Byte :=
  if checkSector s.dram a then 0
  else if inPicture s a && !tapOpen s a then 0
  else mget s.dram.cells a

/-- The access is masked: nothing of the stored bytes is consumed. -/
def bar2Masked (s : State) (a : Nat) : Bool := inPicture s a && !tapOpen s a

/-- Sectors a BAR2 access touches, each with what its read finds there: nothing where the sector is unprotected or masked (R266, R371, R406). -/
def bar2Sectors (s : State) (a len : Nat) (ecc : List EccCond) : List (Nat × EccCond) :=
  ((List.range ((a % 32 + len + 31) / 32)).map (fun i =>
    let k := a / 32 + i
    let first := max a (32 * k)
    (k, if bar2Masked s first || !(placeOf s.dram first).protected then EccCond.clean else sectorCond s k (ecc.getD i .clean))))

/-- BAR2_READ: every sector the access touches is judged; an uncorrectable one poisons the completion (R266, R303). -/
def doBar2Read (off len : Nat) (ecc : List EccCond) (s : State) : State :=
  barAccess s (fun s =>
    let a := bar2Addr s off
    if !bar2In s off len || decide (a + len > spaceBytes s.dram) then barRefused s
    else
      let l := bar2Sectors s a len ecc
      let bytes := (List.range len).map (fun i => bar2Byte s (a + i))
      let s := forAll l (fun x s => eccRead (32 * x.1) x.2 false s) s
      { s with pcie := { s.pcie with rdata := some bytes, rpoison := l.any (fun x => decide (x.2 = .double)) } })

/-- A host write of the byte is discarded (R254, R303, R406). -/
def bar2Discards (s : State) (a : Nat) : Bool :=
  (match placeOf s.dram a with
   | .firmware => true
   | .taeSpill => true
   | .impressions => true
   | .metadata => true
   | .safety => true
   | _ => false) || checkSector s.dram a || inModels s a || inPicture s a

/-- Store bytes one by one at the addresses that take them. -/
def storeWhere (takes : Nat → Bool) : Nat → List Byte → Mem → Mem
  | _, [], m => m
  | a, b :: bs, m => storeWhere takes (a + 1) bs (if takes a then mput m a b else m)

/-- Store host bytes where they are not discarded. -/
def bar2Store (s : State) (a : Nat) (bs : List Byte) (m : Mem) : Mem := storeWhere (fun x => !bar2Discards s x) a bs m

/-- Host bytes merge into a pending write of their line (R261). -/
def mergePending (s : State) (a : Nat) (bs : List Byte) (w : DramReq) : DramReq :=
  { w with bytes := ((List.range w.bytes.length).zip w.bytes).map (fun x =>
      let y := 64 * w.line + x.1
      if decide (a ≤ y) && decide (y < a + bs.length) && !bar2Discards s y then some (bs.getD (y - a) 0) else x.2) }

/-- Sectors with an uncorrectable error that a host write covers in part: they are read first (R261, R303). -/
def partlyBad (s : State) (a n : Nat) : List Nat :=
  s.dram.bad.filter (fun x => decide (a < 32 * x + 32) && decide (32 * x < a + n) && !(decide (a ≤ 32 * x) && decide (32 * x + 32 ≤ a + n)) &&
    !bar2Discards s (32 * x))

/-- BAR2_WRITE. -/
def doBar2Write (off : Nat) (bs : List Byte) (s : State) : State :=
  barAccess s (fun s =>
    let a := bar2Addr s off
    if !bar2In s off bs.length || decide (a + bs.length > spaceBytes s.dram) then barRefused s
    else
      let heal := s.dram.bad.filter (fun x => !(decide (a ≤ 32 * x) && decide (32 * x + 32 ≤ a + bs.length)) || bar2Discards s (32 * x))
      let queues := s.dram.queues.map (fun e => (e.1, { e.2 with writes := e.2.writes.map (mergePending s a bs) }))
      forAll (partlyBad s a bs.length) (fun x s => eccRead (32 * x) .double false s)
        { s with dram := { s.dram with cells := bar2Store s a bs s.dram.cells, bad := heal, queues := queues } })

/-! ### Interrupts, power state, errors -/

/-- INTX_HOLDOFF_EXPIRY (R306). -/
def doIntxHoldoffExpiry (s : State) : State :=
  match s.pcie.deassertAt with
  | none => inta s
  | some t => inta (advanceTo (t + s.pcie.holdoff.toNat) s)

/-- INTERRUPT_DISABLE (R306): a configuration write of bit 10 of the Command register. -/
def doInterruptDisable (v : Bool) (s : State) : State :=
  if configOpen s then configWrite .commandStatus ((s.pcie.command &&& ~~~0x400) ||| (if v then 0x400 else 0)) 3 s else s

/-- D3HOT_ENTRY (R302). -/
def doD3hotEntry (s : State) : State :=
  if s.chip.phase = .ready || s.chip.phase = .stopped then { s with pcie := { s.pcie with d3 := true } } else s

/-- D0_RETURN (R302): host traffic that waited goes on. -/
def doD0Return (s : State) : State :=
  if s.pcie.d3 then
    let s := inta (flush { s with pcie := { s.pcie with d3 := false } })
    forAll (List.range 8) (fun o s =>
      let r := s.oring o
      if r.active && !r.ringEn then (if r.uncovered.isEmpty then s.setOring o { r with active := false } else tailWriteBack o s) else s) s
  else s

/-- AER_ERROR (R308). -/
def doAerError (e : AerError) (header : List Word) (s : State) : State :=
  if s.chip.phase = .thermal then s else aerLog e header s

/-- A failed read of host memory of a ring (R312): counted, and the eighth in a row sets CONFIG_ERR. -/
def readFailed (q : Nat) (s : State) : State :=
  let h := s.queue q
  let s := count (ctrReadFail q) 1 (s.setQueue q { h with failRun := h.failRun + 1 })
  if h.failRun + 1 ≥ 8 then queueConfigErr q s else s

/-- What AER logs of a failed read (Table 13.10): poisoned data, an ECRC error or a completion timeout; a completion with Unsupported Request or
Completer Abort is no error of this endpoint. -/
def readLog (c : ReadCause) (header : List Word) (s : State) : State :=
  match c with
  | .poisoned => aerLog .poisoned header s
  | .ecrc => aerLog .ecrc header s
  | .timeout => aerLog .completionTimeout [] s
  | _ => s

/-- HOST_READ_FAIL (R299, R312). -/
def doHostReadFail (r : ReadFail) (s : State) : State :=
  let failed (q : Nat) (s : State) : State := readFailed q (readLog r.cause r.header s)
  match r.place with
  | .slot q =>
    let h := s.queue q
    if !(live s && h.ringEn && !s.pcie.d3 && decide (0 < slotsReady h) && decide (h.failRun < 8)) then s else failed q s
  | .source q words =>
    let op := fld (words.getD 0 0) 7 0
    if (op = 0x12 || op = 0x32) && canAccept s q words then
      let s := failed q (acceptHost q words [] false s)
      match s.entry? s.jpos with
      | some e => if e.st = .waiting then finish s.jpos stBadParam [] s else s
      | none => s
    else s
  | .command j =>
    match s.entry? j with
    | none => s
    | some e =>
      if e.opcode = 0x20 || e.opcode = 0x22 then
        withCmd j e.opcode s (fun e s => finish j stBadParam [] (failed e.queue s))
      else s

/-! ### Function-level reset (R310, R311, Table 13.11) -/

/-- A core after its contents are cleared; fencing counts stay (R347, Table 15.6). -/
def Core.clear (c : Core) : Core := { Core.reset with failed := c.failed, fNow := c.fNow }

/-- Every partition with every buffer free and its counters 0 (R279). -/
def partFresh (x : Part) : Part := Part.init x.total

/-- Channel counters at 0, training kept (R279). -/
def Chan.clearCounters (x : Chan) : Chan :=
  { x with ce := 0, ue := 0, neighbour := 0, rfm := 0, repairs := 0, drift := 0 }

/-- Every context, accepted command and internal state is removed (step 4 of Table 13.11, R73, R279, R317, R360); what the picture regions held is gone with
their streams (01_architecture.md R10, R406). -/
def removeAll (s : State) : State :=
  { s with
    journal := [], ringAsn := [], mntAsn := 0, mntCpl := none, streams := [], pool := [], sessions := [], maquettes := [], armatures := [],
    active := none, noSched := false, runs := [], marks := [], jobs := [], stages := [], stageNext := [], packs := [], tracks := [], embs := []
    sport := SafetyPort.reset
    cores := s.cores.map (fun e => (e.1, e.2.clear))
    dram := { s.dram with
      cells := regionClear (s.streams.flatMap (fun e => e.2.picRegion)) s.dram.cells
      parts := s.dram.parts.map (fun e => (e.1, partFresh e.2))
      refs := [], readers := [], refWaits := [], pagesLeft := [], safetyRuns := [], queues := []
      chans := s.dram.chans.map (fun e => (e.1, e.2.clearCounters)) }
    obs := { Obs.reset with trigOut := s.obs.trigOut }
    safety := { s.safety with state := 0, causes := 0, first := none, key := 0, mask := 0, hbOk := false, hbCount := 0, hbGap := 0,
                              safeN := false, seen := [] }
    recov := { s.recov with domainAt := none, captures := [], requests := [], incs := [], waiters := [], hung := [], xchgs := [], taeLog := none } }

/-- FLR_NOTICE on every port that is UP, then the ports are disabled and the link plane starts anew (Table 12.7, R283). -/
def linkFlr (s : State) : State :=
  let inc := s.link.incarnation + 1
  let s := forAll ([0, 1, 2, 3].filter (portUp s)) (fun p s =>
    { s with link := { s.link with tx := s.link.tx ++
        [(p, sealPkt { dest := (s.lport p).peer, src := s.link.chip, cls := 0, vc := 0, turned := false, type := 0x09, hops := 32,
                              context := 0xFFFF, gen := 0, seq := 0, aux := inc, aux2 := 0, crc := 0, data := [] })] } }) s
  { s with link := { s.link with
      ports := [], route := [], pairs := [], highest := [], taken := [], onAlt := 0, kept := [], peerInc := [], incarnation := inc } }

/-- BAR0 and configuration registers at their reset values, but for those kept and the sticky AER status (R309, R310, step 5 of Table 13.11). -/
def clearRegs (s : State) : State :=
  { s with
    hq := s.hq.map (fun e => (e.1, { HostQueue.reset with cmdLastAsn := e.2.cmdLastAsn, cplLastAsn := e.2.cplLastAsn }))
    outq := []
    pcie := { s.pcie with cause := 0, mask := 0, holdoff := 0, recent := (0, 0), asserted := false, deassertAt := none, window := 0,
                          command := 0, cacheLine := 0, intLine := 0, bar0Lo := 0, bar0Hi := 0, bar2Lo := 0, bar2Hi := 0, devControl := 0x2810, devControl2 := 0,
                          uncorMask := 0, uncorSeverity := 0x462010, corMask := 0x2000, ecrcGen := false, ecrcCheck := false,
                          tickHi := 0, accessErrors := 0, d3 := false, rdata := none, rpoison := false } }

/-- Function-level reset of a running part. `hung`: its compute-domain reset hangs (R346). -/
def flrRun (hung : Bool) (s : State) : State :=
  let s := clearRegs (removeAll (linkFlr s))
  if hung then { s with chip := { s.chip with phase := .hung, faultN := false } }
  else
    linkBoot { s with
      chip := { s.chip with phase := .ready, fatal := false, faultN := true, flrPending := false }
      pcie := { s.pcie with flrCount := s.pcie.flrCount + 1 } }

/-- FUNCTION_LEVEL_RESET: taken at once when start-up is done, at its end while it runs, and after a stop start-up runs again from
step 2 (R311, R390); a hung reset or a thermal trip leaves only power-on reset (R346, R401). -/
def flr (hung : Bool) (s : State) : State :=
  match s.chip.phase with
  | .ready => flrRun hung s
  | .starting => { s with chip := { s.chip with flrPending := true } }
  | .stopped =>
    let s := clearRegs (removeAll (linkFlr s))
    { s with chip := { s.chip with phase := .starting, fwVersion := 0, flrPending := false },
             pcie := { s.pcie with flrCount := s.pcie.flrCount + 1 } }
  | .hung => s
  | .thermal => s

/-! ### The commands -/

def execCmdRingTail (q : Nat) (v : Word) (s : State) : Host.Outcome State Fault Refusal :=
  .next (barAccess s (fun s => if q < 2 then cmdRingTail q (fld v 15 0) s else s))
def execCplRingHead (q : Nat) (v : Word) (s : State) : Host.Outcome State Fault Refusal :=
  .next (barAccess s (fun s => if q < 2 then cplRingHead q (fld v 15 0) s else s))
def execRingEnSet (q : Nat) (s : State) : Host.Outcome State Fault Refusal :=
  .next (barAccess s (fun s => if q < 2 then ringEnSet q s else s))
def execRingEnClear (q : Nat) (s : State) : Host.Outcome State Fault Refusal :=
  .next (barAccess s (fun s => if q < 2 then ringEnClear q s else s))
def execOutRingEnSet (o : Nat) (s : State) : Host.Outcome State Fault Refusal :=
  .next (barAccess s (fun s => if o < 8 then outRingEnSet o s else s))
def execOutRingEnClear (o : Nat) (s : State) : Host.Outcome State Fault Refusal :=
  .next (barAccess s (fun s => if o < 8 then outRingEnClear o s else s))
def execOutRingHead (o : Nat) (v : Word) (s : State) : Host.Outcome State Fault Refusal :=
  .next (barAccess s (fun s => if o < 8 then outRingHead o (fld v 25 0) s else s))
def execOutCoal (o : Nat) (v : Word) (s : State) : Host.Outcome State Fault Refusal :=
  .next (barAccess s (fun s => if o < 8 then outCoal o v s else s))
def execOutCoalBytes (o : Nat) (v : Word) (s : State) : Host.Outcome State Fault Refusal :=
  .next (barAccess s (fun s => if o < 8 then outCoalBytes o v s else s))
def execIntxCause (w : IntxWrite) (s : State) : Host.Outcome State Fault Refusal := .next (barAccess s (intxCause w))
def execTickLo (s : State) : Host.Outcome State Fault Refusal := .next (doTickLo s)
def execOutFullTicksLo (o : Nat) (s : State) : Host.Outcome State Fault Refusal := .next (doOutFullTicksLo o s)
def execAccessErrors (s : State) : Host.Outcome State Fault Refusal := .next (doAccessErrors s)
def execRegisterWrite (r : RegAt) (v : Word) (be : Nat) (s : State) : Host.Outcome State Fault Refusal := .next (doRegisterWrite r v be s)
def execBar2Read (off len : Nat) (ecc : List EccCond) (s : State) : Host.Outcome State Fault Refusal := .next (doBar2Read off len ecc s)
def execBar2Write (off : Nat) (bytes : List Byte) (s : State) : Host.Outcome State Fault Refusal := .next (doBar2Write off bytes s)
def execHostReadFail (r : ReadFail) (s : State) : Host.Outcome State Fault Refusal := .next (doHostReadFail r s)
def execIntxHoldoffExpiry (s : State) : Host.Outcome State Fault Refusal := .next (doIntxHoldoffExpiry s)
def execFunctionLevelReset (hung : Bool) (s : State) : Host.Outcome State Fault Refusal := .next (flr hung s)

/-- HOT_RESET: exactly as function-level reset (R346). -/
def execHotReset (hung : Bool) (s : State) : Host.Outcome State Fault Refusal := .next (flr hung s)
def execD3hotEntry (s : State) : Host.Outcome State Fault Refusal := .next (doD3hotEntry s)
def execD0Return (s : State) : Host.Outcome State Fault Refusal := .next (doD0Return s)
def execInterruptDisable (v : Bool) (s : State) : Host.Outcome State Fault Refusal := .next (doInterruptDisable v s)
def execAerError (e : AerError) (header : List Word) (s : State) : Host.Outcome State Fault Refusal := .next (doAerError e header s)

end Sys2Proof.Machine
end

