-- ==== Sys2Proof/Machine/Sched.lean ====
section
/-! DEFINITION. The schedule in force: Niches, units, bindings, latency figures (02_raster_time.md R27-R39, 07_mapping.md R169, R176,
R190), and what a core's reset or fencing needs to know of it. -/

namespace Sys2Proof.Machine

/-! ### Schedules -/

/-- The tables a schedule reference names (R190). -/
def schedOf (s : State) (r : SchedRef) : Option Schedule :=
  match tfind s.armatures r.arm with
  | none => none
  | some a =>
    match r.var with
    | none => some a.plan.main
    | some c => (a.plan.variants.find? (fun v => v.1 = c)).map (·.2)

/-- The active Armature. -/
def activeArm (s : State) : Option Armature := s.active.bind (fun r => tfind s.armatures r.arm)

/-- The schedule in force; none when no Armature is active or no precomputed schedule remains (R191). -/
def activeSched (s : State) : Option Schedule := if s.noSched then none else s.active.bind (schedOf s)

/-- Niche `ix` of a schedule. -/
def nicheAt (s : State) (r : SchedRef) (ix : Nat) : Option NicheEntry := (schedOf s r).bind (fun t => t.niches[ix]?)

/-- A VX descriptor with the fall-back flag runs on the matrix engine it names (06_tensor_cores.md R141, R164). -/
def onArrays (n : NicheEntry) : Bool := n.station = 3 && bit (n.desc.getD 1 0) 23

/-- The unit a Niche entry names (Tables 2.3, 2.4); a broadcast MX Niche is keyed by engine 0. -/
def unitOf (n : NicheEntry) : UnitId :=
  match n.station with
  | 0 => .dec
  | 1 => .shp n.unit
  | 2 => .mx n.unit (if n.indep then n.engine else 0)
  | 3 => if onArrays n then .mx n.unit (fld (n.desc.getD 1 0) 22 21) else .vx n.unit
  | 4 => .tae
  | 5 => .mx n.unit n.engine
  | 6 => .enc n.unit
  | _ => .out

/-- A Niche that occupies all four engines of its core (R140). -/
def broadcast (n : NicheEntry) : Bool := n.station = 2 && !n.indep

/-- A Niche of the schedule uses the unit. -/
def usesUnit (n : NicheEntry) (u : UnitId) : Bool :=
  decide (unitOf n = u) || (broadcast n && (match u with | .mx c _ => decide (c = n.unit) | _ => false))

/-- Core of a unit. -/
def coreOf : UnitId → Option Nat
  | .mx c _ => some c
  | .vx c => some c
  | _ => none

/-- Trace SOURCE of a unit (R367). -/
def sourceOf : UnitId → Nat
  | .mx c _ => c
  | .vx c => c
  | .shp u => 0x10 + u
  | .enc _ => 0x20
  | .tae => 0x21
  | .out => 0x23
  | .dec => 0x20

/-- A Niche of the schedule in force that serves a safety-class stream and runs on a core (R317). -/
def safetyOnCore (s : State) (c : Nat) : Bool :=
  match activeSched s with
  | none => false
  | some t => t.niches.any (fun n => n.safety && coreOf (unitOf n) = some c)

/-- As `safetyOnCore`, for one matrix engine; a broadcast Niche uses all four (R343). -/
def safetyOnEngine (s : State) (c e : Nat) : Bool :=
  match activeSched s with
  | none => false
  | some t => t.niches.any (fun n => n.safety && n.unit = c &&
      usesUnit n (.mx c e))

/-- A Niche of the schedule in force with SAFETY = 1 runs in the compute domain: every station but OUT (Table 15.1). -/
def safetyInDomain (s : State) : Bool :=
  match activeSched s with
  | none => false
  | some t => t.niches.any (fun n => n.safety && n.station ≠ 7)

/-- RESET of Table 14.2: an internal reset of a unit that executes a safety Niche trips safety while it is armed and counts while it is off (R315, R317). -/
def resetTrip (hit : Bool) (s : State) : State := if hit then detect 13 s else s

/-- Cores of the active Armature that are not fenced (R322). -/
def castCores (s : State) : List Nat :=
  match activeArm s with
  | none => []
  | some a => (maskList a.coreMask 16).filter (fun c => !s.isFenced c)

/-! ### Bindings (R168, R169) -/

/-- Fields of PROFILE and AUDIO at STREAM_OPEN's positions (Table 7.3). -/
def Binding.codec (b : Binding) : Nat := fld b.profile 3 0
def Binding.timing (b : Binding) : Nat := fld b.profile 14 14
def Binding.output (b : Binding) : Nat := fld b.profile 15 15
def Binding.hBand (b : Binding) : Nat := 16 * 2 ^ fld b.profile 17 16
def Binding.safety (b : Binding) : Bool := bit b.profile 19
def Binding.block (b : Binding) : Nat := 160 * 2 ^ fld b.audio 25 24
def Binding.mics (b : Binding) : Nat := fld b.audio 19 16

/-- A stream's values match a binding (R169). -/
def matchBinding (c : StreamCfg) (b : Binding) : Bool :=
  decide (c.codec = b.codec) && decide (c.timing = b.timing) && decide (c.output = b.output) && decide (c.safety = b.safety) &&
  decide (b.framePeriod ≤ c.framePeriod) && (c.timing = 1 || decide (c.hBand = b.hBand)) &&
  (if c.codec = 2 then decide (b.kind = 1) && decide (c.audioBlock = b.block) && decide (c.mics = b.mics)
   else decide (b.kind = 0) && decide (c.maxW ≤ b.maxW) && decide (c.maxH ≤ b.maxH) &&
        decide (c.bPix ≤ b.bPix))

/-- Index and binding of a stream slot in an Armature, as a video or an audio stream. -/
def slotBinding (a : Armature) (audio : Bool) (n : Nat) : Option (Nat × Binding) :=
  ((List.range a.bindings.length).zip a.bindings).find? (fun x => decide (x.2.kind = b2n audio) && decide (x.2.target = n))

/-- Binding and figures of a session model in an Armature. -/
def modelBinding (a : Armature) (m : Nat) : Option (Nat × Binding) :=
  ((List.range a.bindings.length).zip a.bindings).find? (fun x => decide (x.2.kind = 2) && decide (x.2.target = m))

/-- A stream with these values is served by Armature `arm` (R169). -/
def servedBy (s : State) (arm n : Nat) (c : StreamCfg) : Bool :=
  match tfind s.armatures arm with
  | none => false
  | some a => match slotBinding a (c.codec = 2) n with
    | some (_, b) => matchBinding c b
    | none => false

/-- The stream in slot `n` is served by the active Armature (R169, R191). -/
def bound (s : State) (n : Nat) : Bool :=
  match s.active with
  | none => false
  | some r => !s.noSched && (s.stream n).isOpen && servedBy s r.arm n (s.stream n).cfg

/-- Figures of a slot under an Armature (Table 7.4). -/
def slotFigures (s : State) (arm n : Nat) : Option BindFigures :=
  match tfind s.armatures arm with
  | none => none
  | some a => match slotBinding a ((s.stream n).cfg.codec = 2) n with
    | some (k, _) => a.figures[k]?
    | none => none

/-- P_arm of a slot under a schedule reference: the variant's figure under a variant (R37, R348). -/
def pArmOf (s : State) (r : SchedRef) (n : Nat) : Nat :=
  match slotFigures s r.arm n with
  | none => 0
  | some f => match r.var with
    | none => f.pArm
    | some c => ((f.pArmVar.find? (fun v => v.1 = c)).map (·.2)).getD f.pArm

/-- H_halo of a slot under an Armature. -/
def haloOf (s : State) (arm n : Nat) : Nat := ((slotFigures s arm n).map (·.hHalo)).getD 0

/-- Trigger entry of band `b`, or of the block, of slot `n` in a schedule. -/
def trigOf (t : Schedule) (audio : Bool) (n b : Nat) : Option TrigEntry :=
  t.trigs.find? (fun x => decide (x.audio = audio) && decide (x.slot = n) && decide (x.band = b))

/-! ### Times (R20, R23, R35, R40) -/

/-- The f in force: the lower of CAP_F and, while CAP_n is low, CAP_PIN_F (19_pins.md R402). -/
def fInForce (s : State) : Nat := if s.chip.capPin then s.chip.capF else min s.chip.capF s.chip.capPinF

/-- The lowest f in force at any tick since tick `t` (R39). -/
def fSince (s : State) (t : Nat) : Nat := (s.chip.fPast.filter (fun x => decide (t ≤ x.1))).foldl (fun m x => min m x.2) (fInForce s)

/-- P_arm,eff: P_arm / f in ticks, rounded up (R39). -/
def pArmEff (f p : Nat) : Nat := cdiv (p * 256) f

/-- Ticks of `lines` lines at r_L = B_pix / W, rounded up (R20). -/
def linesTicks (lines w bPix : Nat) : Nat := cdiv (lines * w * 1000000) bPix

/-- Band height of a stream's picture: H_pic in frame mode (R21, R33). -/
def bandHeight (c : StreamCfg) (h : Nat) : Nat := if c.timing = 1 then h else c.hBand

/-- First line of band `b`. -/
def bandTop (c : StreamCfg) (h b : Nat) : Nat := b * bandHeight c h

/-- Bands of a picture of height `h` (R21). -/
def bandCount (c : StreamCfg) (h : Nat) : Nat := cdiv h (bandHeight c h)

/-- Trigger line of band `b` (R23): the halo is cut off at H_pic. -/
def trigLine (c : StreamCfg) (halo h b : Nat) : Nat :=
  if c.timing = 1 then h else min (b * c.hBand + c.hBand + halo) h

/-- L_max of a band of a picture in ticks (R35), with P_arm,eff and t_coal of the picture's output ring. -/
def lMax (c : StreamCfg) (halo armEff w h tCoal : Nat) : Nat :=
  let lines := if c.timing = 1 then h else c.hBand + halo
  Config.tArr + linesTicks lines w c.bPix + armEff + tCoal

/-- t_coal of an output ring. -/
def tCoal (s : State) (o : Nat) : Nat := (s.oring o).coal.toNat

/-- T_frame of a stream in ticks. -/
def tFrame (c : StreamCfg) : Nat := c.framePeriod

/-- Picture `don` of a stream. -/
def picOf (x : Stream) (don : Nat) : Option Picture := x.pics.find? (fun p => p.don = don)

/-- Change picture `don` of a stream slot. -/
def modPic (n don : Nat) (f : Picture → Picture) (s : State) : State :=
  s.modStream n (fun x => { x with pics := x.pics.map (fun p => if p.don = don then f p else p) })

/-- A waiting instance of Niche `k` of a schedule. -/
def Run.fresh (ref : SchedRef) (k owner : Nat) (seq : Bool) (don band : Nat) : Run :=
  { ref := ref, niche := k, owner := owner, seq := seq, don := don, band := band, readyAt := 0, st := .waiting, startAt := 0, status := 0,
    reruns := 0, cast := none, progress := 0, wide := false, qp := 0, remaining := 0, rowsDone := 0, encDone := false, crop := none,
    idr := false, sliceRows := 0, entries := 0, pads := [] }

/-! ### Fencing (15_recovery.md R347, R348, 07_mapping.md R191) -/

/-- The schedule a fencing of core `c` leaves in force: the variant for it, none when a variant is already in force or none exists. -/
def swapToVariant (c : Nat) (s : State) : State :=
  match s.active, activeArm s with
  | some r, some a =>
    if !maskBit a.coreMask c then s
    else
      let s := { s with marks := [] }
      if r.var.isNone && (a.plan.variants.any (fun v => v.1 = c)) then
        let s := { s with active := some { r with var := some c } }
        detect 15 s
      else { s with noSched := true }
  | _, _ => s

/-- Fence a core at the end of a reset (R347): it leaves service, its weights record clears, its interval of R322 ends. -/
def fence (c : Nat) (s : State) : State :=
  let s := { s with chip := { s.chip with fenced := maskSet s.chip.fenced c } }
  let s := s.modCore c (fun x => { x with resetAt := none, engineReset := [], weights := none, castRunning := [], castDone := [] })
  swapToVariant c (setCause 18 s)

end Sys2Proof.Machine
end

