-- ==== Sys2Proof/Machine/Float.lean ====
section
/-! DEFINITION. Floating-point arithmetic, bit for bit (06_tensor_cores.md R144-R151): values as exact dyadic numbers, one rounding to
nearest-even into a format, canonical NaN. -/

namespace Sys2Proof.Machine

/-- A floating-point value: NaN, an infinity, or an exact dyadic number (sign, mantissa, power of two); a zero keeps its sign. -/
inductive Fp where
  | nan
  | inf (neg : Bool)
  | fin (neg : Bool) (m : Nat) (e : Int)
deriving DecidableEq, Repr, Inhabited

/-- A binary format: exponent bits, mantissa bits; `e4m3` has no infinities and only one NaN pattern (Table 6.2). -/
structure FpFmt where
  eb : Nat
  mb : Nat
  e4m3 : Bool
deriving DecidableEq, Repr, Inhabited

def fE4m3 : FpFmt := { eb := 4, mb := 3, e4m3 := true }
def fE5m2 : FpFmt := { eb := 5, mb := 2, e4m3 := false }
def fF16 : FpFmt := { eb := 5, mb := 10, e4m3 := false }
def fBf16 : FpFmt := { eb := 8, mb := 7, e4m3 := false }
def fF32 : FpFmt := { eb := 8, mb := 23, e4m3 := false }
/-- E2M1, the element of BS4 (R146); it has no infinity or NaN. -/
def fE2m1 : FpFmt := { eb := 2, mb := 1, e4m3 := true }

/-- Exponent bias. -/
def FpFmt.bias (f : FpFmt) : Nat := 2 ^ (f.eb - 1) - 1
/-- Exponent of the smallest subnormal's unit. -/
def FpFmt.qmin (f : FpFmt) : Int := 1 - (f.bias : Int) - (f.mb : Int)
/-- Canonical NaN (R151). -/
def FpFmt.nanBits (f : FpFmt) : Nat :=
  if f.e4m3 then 0x7F else if f = fE5m2 then 0x7E else (2 ^ f.eb - 1) * 2 ^ f.mb + 2 ^ (f.mb - 1)
/-- Largest finite magnitude. -/
def FpFmt.maxBits (f : FpFmt) : Nat :=
  if f = fE2m1 then 7 else if f.e4m3 then 0x7E else (2 ^ f.eb - 1) * 2 ^ f.mb - 1

/-- The value of a bit pattern. -/
def fpOf (f : FpFmt) (bits : Nat) : Fp :=
  let neg := bits.testBit (f.eb + f.mb)
  let e := bits / 2 ^ f.mb % 2 ^ f.eb
  let m := bits % 2 ^ f.mb
  if f ≠ fE2m1 && f.e4m3 && decide (e = 15) && decide (m = 7) then .nan
  else if !f.e4m3 && decide (e = 2 ^ f.eb - 1) then (if m = 0 then .inf neg else .nan)
  else if e = 0 then .fin neg m f.qmin
  else .fin neg (2 ^ f.mb + m) (f.qmin + (e : Int) - 1)

/-- Shift a mantissa right by `k`, rounding to nearest-even. -/
def shiftRne (m k : Nat) : Nat :=
  if k = 0 then m
  else
    let q := m / 2 ^ k
    let r := m % 2 ^ k
    let h := 2 ^ (k - 1)
    if r > h || (decide (r = h) && decide (q % 2 = 1)) then q + 1 else q

/-- Magnitude bits of a positive dyadic number in a format, rounded once to nearest-even; `none` on overflow. -/
def fpMag (f : FpFmt) (m : Nat) (e : Int) : Option Nat :=
  if m = 0 then some 0
  else
    let top : Int := (Nat.log2 m : Int) + e
    let q : Int := max (top - (f.mb : Int)) f.qmin
    let n := if q ≤ e then m * 2 ^ (e - q).toNat else shiftRne m (q - e).toNat
    let bits := (q - f.qmin).toNat * 2 ^ f.mb + n
    if bits > f.maxBits then none else some bits

/-- Bit pattern of a value: overflow gives the largest finite number with `sat`, else infinity; formats without infinity saturate. An infinite value
counts as overflow (DEDUCED, log 147). -/
def fpBits (f : FpFmt) (sat : Bool) (v : Fp) : Nat :=
  let s (neg : Bool) : Nat := if neg then 2 ^ (f.eb + f.mb) else 0
  let big (neg : Bool) : Nat := s neg + (if sat || f.e4m3 then f.maxBits else f.maxBits + 1)
  match v with
  | .nan => f.nanBits
  | .inf neg => big neg
  | .fin neg m e => match fpMag f m e with
    | some b => s neg + b
    | none => big neg

/-- Round a value into a format and read it back. -/
def fpRound (f : FpFmt) (v : Fp) : Fp := fpOf f (fpBits f false v)

/-- Rounding to FP32, the arithmetic of R149 and R161. -/
def r32 (v : Fp) : Fp := fpRound fF32 v

/-! ### Exact operations -/

def Fp.neg : Fp → Fp
  | .nan => .nan
  | .inf s => .inf (!s)
  | .fin s m e => .fin (!s) m e

def Fp.abs : Fp → Fp
  | .nan => .nan
  | .inf _ => .inf false
  | .fin _ m e => .fin false m e

/-- Signed mantissa at exponent `q` not above the number's own. -/
def Fp.scaled (s : Bool) (m : Nat) (e q : Int) : Int :=
  let n : Int := ((m * 2 ^ (e - q).toNat : Nat) : Int)
  if s then -n else n

/-- Exact sum; an exact zero is +0 unless both addends are −0 (R149). -/
def Fp.add : Fp → Fp → Fp
  | .nan, _ => .nan
  | _, .nan => .nan
  | .inf a, .inf b => if a = b then .inf a else .nan
  | .inf a, .fin _ _ _ => .inf a
  | .fin _ _ _, .inf b => .inf b
  | .fin a m e, .fin b n g =>
    let q := min e g
    let x := Fp.scaled a m e q + Fp.scaled b n g q
    if x = 0 then .fin (a && b && decide (m = 0) && decide (n = 0)) 0 0 else .fin (decide (x < 0)) x.natAbs q

def Fp.sub (a b : Fp) : Fp := a.add b.neg

/-- Exact product (R151). -/
def Fp.mul : Fp → Fp → Fp
  | .nan, _ => .nan
  | _, .nan => .nan
  | .inf a, .inf b => .inf (a != b)
  | .inf a, .fin b n _ => if n = 0 then .nan else .inf (a != b)
  | .fin a m _, .inf b => if m = 0 then .nan else .inf (a != b)
  | .fin a m e, .fin b n g => .fin (a != b) (m * n) (e + g)

/-- Quotient with enough bits, and a sticky bit, to round once into any format of Table 6.2. -/
def Fp.div : Fp → Fp → Fp
  | .nan, _ => .nan
  | _, .nan => .nan
  | .inf _, .inf _ => .nan
  | .inf a, .fin b _ _ => .inf (a != b)
  | .fin a _ _, .inf b => .fin (a != b) 0 0
  | .fin a m e, .fin b n g =>
    if n = 0 then (if m = 0 then .nan else .inf (a != b))
    else
      let k := 64 + Nat.log2 n
      let q := m * 2 ^ k / n
      let sticky := if m * 2 ^ k % n = 0 then 0 else 1
      .fin (a != b) (2 * q + sticky) (e - g - (k : Int) - 1)

/-- Square root with a sticky bit. -/
def Fp.sqrt : Fp → Fp
  | .nan => .nan
  | .inf s => if s then .nan else .inf false
  | .fin s m e =>
    if m = 0 then .fin s 0 0
    else if s then .nan
    else
      let odd : Nat := (e % 2).toNat
      let n := m * 2 ^ odd * 2 ^ 128
      let r := Nat.sqrt n
      let sticky := if r * r = n then 0 else 1
      .fin false (2 * r + sticky) ((e - (odd : Int)) / 2 - 64 - 1)

/-- The number is zero of either sign. -/
def Fp.isZero : Fp → Bool
  | .fin _ m _ => decide (m = 0)
  | _ => false

/-- Exact integer as a value. -/
def Fp.ofInt (x : Int) : Fp := .fin (decide (x < 0)) x.natAbs 0

def Fp.ofNat (n : Nat) : Fp := .fin false n 0

/-- Ratio of two naturals, for constants of the manual written in decimal. -/
def Fp.ratio (a b : Nat) : Fp := (Fp.ofNat a).div (Fp.ofNat b)

/-- `a < b`; false with NaN; the zeros are equal. -/
def Fp.lt : Fp → Fp → Bool
  | .nan, _ => false
  | _, .nan => false
  | .inf a, .inf b => a && !b
  | .inf a, .fin _ _ _ => a
  | .fin _ _ _, .inf b => !b
  | .fin a m e, .fin b n g =>
    let q := min e g
    decide (Fp.scaled a m e q < Fp.scaled b n g q)

def Fp.isNeg : Fp → Bool
  | .nan => false
  | .inf s => s
  | .fin s _ _ => s

/-- IEEE 754 maximum: NaN propagates, +0 > −0 (Table 6.8). -/
def Fp.max (a b : Fp) : Fp :=
  if a = .nan || b = .nan then .nan
  else if a.isZero && b.isZero then .fin (a.isNeg && b.isNeg) 0 0
  else if a.lt b then b else a

/-- IEEE 754 minimum: NaN propagates, −0 < +0 (Table 6.8). -/
def Fp.min (a b : Fp) : Fp :=
  if a = .nan || b = .nan then .nan
  else if a.isZero && b.isZero then .fin (a.isNeg || b.isNeg) 0 0
  else if b.lt a then b else a

/-- Nearest integer, ties to even; `none` for NaN and infinity. -/
def Fp.toInt : Fp → Option Int
  | .fin s m e =>
    let n := if 0 ≤ e then m * 2 ^ e.toNat else shiftRne m (-e).toNat
    some (if s then -(n : Int) else n)
  | _ => none

/-- Nearest integer, ties away from zero; for the clamp limits of Table 6.5. -/
def Fp.toIntAway : Fp → Int
  | .fin s m e =>
    let n := if 0 ≤ e then m * 2 ^ e.toNat else (m + 2 ^ ((-e).toNat - 1)) / 2 ^ (-e).toNat
    if s then -(n : Int) else n
  | _ => 0

/-! ### FP32 arithmetic: one rounding, nearest-even -/

def add32 (a b : Fp) : Fp := r32 (a.add b)
def sub32 (a b : Fp) : Fp := r32 (a.sub b)
def mul32 (a b : Fp) : Fp := r32 (a.mul b)
def div32 (a b : Fp) : Fp := r32 (a.div b)
def sqrt32 (a : Fp) : Fp := r32 a.sqrt

/-- FP32 of a word and back. -/
def fp32 (w : Word) : Fp := fpOf fF32 w.toNat
def bits32 (v : Fp) : Word := w32 (fpBits fF32 false v)
/-- FP16 of 16 bits and back. -/
def fp16 (n : Nat) : Fp := fpOf fF16 (n % 65536)
def bits16 (v : Fp) : Nat := fpBits fF16 false v

end Sys2Proof.Machine
end

