-- ==== Sys2Proof/Machine/Elementary.lean ====
section
/-! DEFINITION. The real functions of 06_tensor_cores.md Table 6.8, in fixed point with 320 fraction bits: what the accuracy of a transcendental
operation is measured against. -/

namespace Sys2Proof.Machine

/-- Fraction bits. -/
def fxBits : Nat := 320
/-- The number 1. -/
def fxOne : Int := 2 ^ fxBits
/-- Product. -/
def fxMul (a b : Int) : Int := a * b / fxOne
/-- Quotient. -/
def fxDiv (a b : Int) : Int := a * fxOne / b

/-- A finite number, its bits below the fraction cut off. -/
def fxOf : Fp → Int
  | .fin s m e => let n : Int := if (fxBits : Int) + e < 0 then (m / 2 ^ (-((fxBits : Int) + e)).toNat : Nat) else (m * 2 ^ ((fxBits : Int) + e).toNat : Nat)
                  if s then -n else n
  | _ => 0

/-- Back to a dyadic number, times 2^k. -/
def fxFp (x k : Int) : Fp := .fin (decide (x < 0)) x.natAbs (k - (fxBits : Int))

/-- Sum of `n` terms of the series whose term `i` + 1 is term `i` times `r`, divided by the next denominator. -/
def series (step : Int → Nat → Int) (val : Int → Nat → Int) : Nat → Nat → Int → Int → Int
  | 0, _, _, acc => acc
  | n + 1, i, t, acc => series step val n (i + 1) (step t i) (acc + val t i)

/-- Inverse hyperbolic tangent of a number within 1/3. -/
def fxAtanh (z : Int) : Int := series (fun t _ => fxMul t (fxMul z z)) (fun t i => t / (2 * (i : Int) + 1)) 110 0 z 0

/-- Inverse tangent of 1/n. -/
def fxAtanInv (n : Int) : Int := series (fun t _ => -t / (n * n)) (fun t i => t / (2 * (i : Int) + 1)) 160 0 (fxOne / n) 0

/-- ln 2 = 2 atanh(1/3). -/
def fxLn2 : Int := 2 * fxAtanh (fxOne / 3)
/-- π by Machin's formula. -/
def fxPi : Int := 16 * fxAtanInv 5 - 4 * fxAtanInv 239

/-- e^x of a number within 2^10, as fraction and power of two. -/
def fxExp (x : Int) : Int × Int :=
  let k := (2 * x + fxLn2) / (2 * fxLn2)
  let r := x - k * fxLn2
  (series (fun t i => fxMul t r / ((i : Int) + 1)) (fun t _ => t) 70 0 fxOne 0, k)

/-- e^x of a finite number: outside ±1,000 the result lies beyond every FP32 number. -/
def expFp (x : Fp) : Fp :=
  if (Fp.ofNat 1000).lt x then .fin false 1 1400
  else if x.lt (.ofInt (-1000)) then .fin false 1 (-1400)
  else let e := fxExp (fxOf x); fxFp e.1 e.2

/-- ln x of a positive number. -/
def lnFp : Fp → Fp
  | .fin _ m e =>
    let top := Nat.log2 m
    let y : Int := (m * 2 ^ fxBits / 2 ^ top : Nat)
    fxFp (2 * fxAtanh (fxDiv (y - fxOne) (y + fxOne)) + ((top : Int) + e) * fxLn2) 0
  | v => v

/-- A number held within ±64, where the bounded functions are constant beyond the accuracy asked for. -/
def fxHeld (x : Fp) : Int := max (-64 * fxOne) (min (64 * fxOne) (fxOf x))

/-- 1 / (1 + e^−x). -/
def sigmoidFp (x : Fp) : Fp :=
  let e := fxExp (-(fxHeld x))
  let d := fxOne + (if 0 ≤ e.2 then e.1 * 2 ^ e.2.toNat else e.1 / 2 ^ (-e.2).toNat)
  fxFp (fxDiv fxOne d) 0

/-- tanh x = 2 / (1 + e^−2x) − 1. -/
def tanhFp (x : Fp) : Fp :=
  let e := fxExp (-2 * fxHeld x)
  let d := fxOne + (if 0 ≤ e.2 then e.1 * 2 ^ e.2.toNat else e.1 / 2 ^ (-e.2).toNat)
  fxFp (fxDiv (2 * fxOne) d - fxOne) 0

/-- Φ of a number within ±14, by the series of its density around 0. -/
def fxPhi (a : Int) : Int :=
  let root : Int := (Nat.sqrt ((2 * fxPi).toNat * 2 ^ fxBits) : Nat)
  let s := series (fun t i => -(fxMul t (fxMul a a)) / (2 * ((i : Int) + 1))) (fun t i => t / (2 * (i : Int) + 1)) 420 0 a 0
  fxOne / 2 + fxDiv s root

/-- x × Φ(x): beyond ±14 the function is x and 0 within 2^−100. -/
def geluFp (x : Fp) : Fp :=
  if (Fp.ofNat 14).lt x then x
  else if x.lt (.ofInt (-14)) then .fin true 0 0
  else fxFp (fxMul (fxOf x) (fxPhi (fxOf x))) 0

/-- One unit in the last place of FP32 at a number. -/
def ulpAt : Fp → Fp
  | .fin _ m e => if m = 0 then .fin false 1 (-149) else .fin false 1 (max ((Nat.log2 m : Int) + e - 23) (-149))
  | _ => .fin false 0 0

/-- `c` lies within `n` units in the last place of the number `v`, or, where the table allows it, within 2^−24. -/
def nearTo (n : Nat) (absTol : Bool) (v c : Fp) : Bool :=
  match c with
  | .fin _ _ _ => let d := (c.sub v).abs; !((ulpAt v).mul (.ofNat n)).lt d || (absTol && !(Fp.fin false 1 (-24)).lt d)
  | _ => false

/-- A result of stated accuracy: the free value where it is accurate enough, else the number rounded. -/
def accurate (n : Nat) (absTol : Bool) (v free : Fp) : Fp := if nearTo n absTol v free then free else r32 v

end Sys2Proof.Machine
end

