-- ==== Sys2Proof/Machine/Formats.lean ====
section
/-! DEFINITION. The number formats of 06_tensor_cores.md in scratchpad: codes, elements, output conversion (R144-R151, Tables 6.2, 6.6),
BS4 blocks (R146, R158) and scratchpad writes. -/

namespace Sys2Proof.Machine

/-- An operand element: an integer or a floating-point value. -/
inductive Elem where
  | int (x : Int)
  | fp (v : Fp)
deriving DecidableEq, Repr, Inhabited

/-- Bits of an element (Table 6.2); code 10 is ACC32. -/
def fmtBits (c : Nat) : Nat :=
  match c with
  | 0 => 4 | 1 => 4 | 2 => 8 | 3 => 8 | 4 => 8 | 5 => 8 | 6 => 16 | 7 => 16 | 8 => 16 | _ => 32

/-- The format is an integer one. -/
def fmtInt (c : Nat) : Bool := c = 0 || c = 2 || c = 3 || c = 8

/-- Binary format of a floating-point code. -/
def fmtFp (c : Nat) : FpFmt :=
  match c with
  | 1 => fE2m1 | 4 => fE4m3 | 5 => fE5m2 | 6 => fF16 | 7 => fBf16 | _ => fF32

/-- Element of a bit pattern. -/
def elemOf (c bits : Nat) : Elem :=
  match c with
  | 0 => .int (signed 4 bits)
  | 2 => .int (signed 8 bits)
  | 3 => .int (bits : Nat)
  | 8 => .int (signed 16 bits)
  | c => .fp (fpOf (fmtFp c) bits)

/-- A zero of a format. -/
def elemZero (c : Nat) : Elem := if fmtInt c then .int 0 else .fp (.fin false 0 0)

/-- Bytes of `n` elements of a format, packed (R145). -/
def fmtBytes (c n : Nat) : Nat := cdiv (n * fmtBits c) 8

/-- Bit pattern of element `k` of a row at byte address `row` (R145). -/
def loadBits (sp : Mem) (c row k : Nat) : Nat :=
  if fmtBits c = 4 then (mget sp (row + k / 2)).toNat / 16 ^ (k % 2) % 16
  else leNat (fmtBits c / 8) (mread sp (row + k * (fmtBits c / 8)) (fmtBits c / 8))

/-- Element `k` of a row. -/
def loadElem (sp : Mem) (c row k : Nat) : Elem := elemOf c (loadBits sp c row k)

/-- Value of an element as a floating-point number, widened exactly (R160). -/
def Elem.toFp : Elem → Fp
  | .int x => .ofInt x
  | .fp v => v

/-- Integer of an element; 0 for a floating-point one. -/
def Elem.toInt : Elem → Int
  | .int x => x
  | .fp _ => 0

/-- Range of an integer format. -/
def intRange (c : Nat) : Int × Int :=
  match c with
  | 0 => (-8, 7)
  | 2 => (-128, 127)
  | 3 => (0, 255)
  | 8 => (-32768, 32767)
  | _ => (-2147483648, 2147483647)

/-- Hold an integer in a range. -/
def clampInt (r : Int × Int) (x : Int) : Int := max r.1 (min r.2 x)

/-- Saturation at the limits of INT32 (R148). -/
def sat32 (x : Int) : Int := clampInt (-2147483648, 2147483647) x

/-- Output conversion of Table 6.6: bits, and whether a NaN became an integer. FP32 is unchanged: it has no overflow to saturate. -/
def convOut (c : Nat) (sat : Bool) (e : Elem) : Nat × Bool :=
  if fmtInt c then
    match e with
    | .int x => (unsigned (fmtBits c) (clampInt (intRange c) x), false)
    | .fp .nan => (0, true)
    | .fp (.inf s) => (unsigned (fmtBits c) (if s then (intRange c).1 else (intRange c).2), false)
    | .fp v => (unsigned (fmtBits c) (clampInt (intRange c) (v.toInt.getD 0)), false)
  else (fpBits (fmtFp c) (sat && decide (c < 9)) e.toFp, false)

/-- Bits a write stores: (address in nibbles, nibbles, value). -/
structure BitsAt where
  nib : Nat
  count : Nat
  val : Nat
deriving DecidableEq, Repr, Inhabited

/-- Where element `k` of a row goes. -/
def elemAt (c row k val : Nat) : BitsAt := { nib := 2 * row + k * (fmtBits c / 4), count := fmtBits c / 4, val := val }

/-- Store one nibble. -/
def putNib (sp : Mem) (nib v : Nat) : Mem :=
  let old := (mget sp (nib / 2)).toNat
  let new := if nib % 2 = 0 then old / 16 * 16 + v % 16 else old % 16 + v % 16 * 16
  mput sp (nib / 2) (BitVec.ofNat 8 new)

/-- Store whole bytes of a number, low byte first. -/
def putBytes (sp : Mem) (a : Nat) : Nat → Nat → Mem
  | 0, _ => sp
  | n + 1, v => putBytes (mput sp a (BitVec.ofNat 8 v)) (a + 1) n (v / 256)

/-- Store an element. -/
def putBits (sp : Mem) (b : BitsAt) : Mem :=
  if b.count = 1 then putNib sp b.nib b.val else putBytes sp (b.nib / 2) (b.count / 2) b.val

/-- Store elements in order. -/
def putAll (sp : Mem) (l : List BitsAt) : Mem := l.foldl putBits sp

/-! ### BS4 (R146, R158) -/

/-- Scale of a block: 2^(e − 127), NaN for 0xFF. -/
def scaleOf (e : Nat) : Fp := if e = 255 then .nan else .fin false 1 ((e : Int) - 127)

/-- floor(log2 |x|) of a non-zero finite value. -/
def Fp.log2 : Fp → Int
  | .fin _ m e => (Nat.log2 m : Int) + e
  | _ => 1000

/-- Shared scale of a block of output values. -/
def bs4Scale (vs : List Fp) : Nat :=
  if vs.contains .nan then 255
  else
    let ls := (vs.filter (fun v => !v.isZero)).map Fp.log2
    match ls with
    | [] => 0
    | a :: r => (max 0 (min 254 (r.foldl max a - 2 + 127))).toNat

/-- Elements of a block under a scale: x / 2^(e − 127) in E2M1, saturated at ±6. -/
def bs4Elem (e : Nat) (v : Fp) : Nat :=
  if e = 255 then 0 else fpBits fE2m1 true (v.mul (.fin false 1 (127 - (e : Int))))

/-! ### Summation (R149, R162) -/

/-- One level of the pairing: element 2j with element 2j + 1. -/
def pairUp (add : Fp → Fp → Fp) : List Fp → List Fp
  | a :: b :: t => add a b :: pairUp add t
  | l => l

/-- Repeat the pairing `n` times. -/
def pairTree (add : Fp → Fp → Fp) : Nat → List Fp → List Fp
  | 0, l => l
  | n + 1, l => pairTree add n (pairUp add l)

/-- Sum of a group of 32 products. -/
def group32 (l : List Fp) : Fp := (pairTree add32 5 l).headD (.fin false 0 0)

/-- Left-to-right FP32 sum. -/
def sumLeft : List Fp → Fp
  | [] => .fin false 0 0
  | a :: r => r.foldl add32 a

/-- Indices `[a, a + n)`. -/
def span (a n : Nat) : List Nat := (List.range n).map (a + ·)

/-- Position inside 0 to w − 1 under a pad mode 2 or 3 (R181, Table 5.2): mirrored with period 2(w − 1), or clamped. -/
def reflect (mode : Nat) (x : Int) (w : Nat) : Nat :=
  if mode = 2 && decide (1 < w) then
    let p := 2 * ((w : Int) - 1)
    let y := x % p
    (if y ≤ (w : Int) - 1 then y else p - y).toNat
  else (max 0 (min ((w : Int) - 1) x)).toNat

end Sys2Proof.Machine
end

