-- ==== Sys2Proof/Machine/Matrix.lean ====
section
/-! DEFINITION. Products on the matrix engines: the MX descriptor, operands with their windows, pads and masks, accumulation, passes,
epilogue, exchange copies and the write footprint (06_tensor_cores.md R137-R159, 07_mapping.md R175-R193). -/

namespace Sys2Proof.Machine

/-- An MX or SEQ descriptor (Tables 6.7, 7.5), with the feed and engine of its Niche entry. -/
structure MxDesc where
  indep : Bool
  engine : Nat
  ver : Nat
  op : Nat
  aFmt : Nat
  bFmt : Nat
  outFmt : Nat
  accMode : Nat
  sat : Bool
  act : Nat
  m : Nat
  n : Nat
  k : Nat
  aBase : Nat
  aPitch : Nat
  bBase : Nat
  bPitch : Nat
  aScale : Nat
  bScale : Nat
  bias : Nat
  qscale : Nat
  outBase : Nat
  outPitch : Nat
  accRows : Nat
  accBase : Nat
  clampHi : Nat
  clampLo : Nat
  hIn : Nat
  wIn : Nat
  pixPitch : Nat
  cIn : Nat
  kh : Nat
  kw : Nat
  sy : Nat
  sx : Nat
  dy : Nat
  dx : Nat
  padMode : Nat
  padTop : Nat
  padLeft : Nat
  wOut : Nat
  padConst : Word
  linePitch : Nat
  validN : Nat
  validM : Nat
  xchg : Nat
  loop : Nat
  xCols : Nat
  xRows : Nat
  cores : List Nat
  dst : List Nat
  /-- row added in each accumulator bank and the row past the last allowed there: 0 and 1,536, or a region's (10_work_classes.md R234) -/
  bankBase : List Nat
  bankTop : List Nat
deriving DecidableEq, Repr, Inhabited

/-- All ones: a descriptor field that names nothing. -/
def noAddr : Nat := 0xFFFFFFFF

/-- Read a descriptor. -/
def MxDesc.ofWords (indep : Bool) (engine : Nat) (d : List Word) : MxDesc :=
  let w (n : Nat) : Word := d.getD n 0
  { indep := indep, engine := engine, ver := fld (w 0) 15 8, op := fld (w 0) 3 0, aFmt := fld (w 1) 31 28, bFmt := fld (w 1) 27 24,
    outFmt := fld (w 1) 23 20, accMode := fld (w 1) 19 18, sat := bit (w 1) 17, act := fld (w 1) 16 15,
    m := fld (w 2) 15 0, n := fld (w 2) 31 16, k := fld (w 3) 15 0, aBase := (w 4).toNat, aPitch := (w 5).toNat, bBase := (w 6).toNat,
    bPitch := (w 7).toNat, aScale := (w 8).toNat, bScale := (w 9).toNat, bias := (w 10).toNat, qscale := (w 11).toNat,
    outBase := (w 12).toNat, outPitch := (w 13).toNat, accRows := fld (w 14) 31 16, accBase := fld (w 14) 15 0,
    clampHi := fld (w 15) 31 16, clampLo := fld (w 15) 15 0, hIn := fld (w 16) 31 16, wIn := fld (w 16) 15 0,
    pixPitch := fld (w 17) 31 16, cIn := fld (w 17) 15 0, kh := fld (w 18) 31 28, kw := fld (w 18) 27 24, sy := fld (w 18) 23 20,
    sx := fld (w 18) 19 16, dy := fld (w 18) 15 12, dx := fld (w 18) 11 8, padMode := fld (w 18) 1 0, padTop := fld (w 19) 31 24,
    padLeft := fld (w 19) 23 16, wOut := fld (w 19) 15 0, padConst := w 20, linePitch := (w 21).toNat,
    validN := if fld (w 22) 31 16 = 0 then fld (w 2) 31 16 else fld (w 22) 31 16,
    validM := if fld (w 22) 15 0 = 0 then fld (w 2) 15 0 else fld (w 22) 15 0,
    xchg := fld (w 23) 31 28, loop := fld (w 23) 27 26, xCols := fld (w 23) 15 8, xRows := fld (w 23) 7 0,
    cores := [fld (w 24) 31 28, fld (w 24) 27 24, fld (w 24) 23 20, fld (w 24) 19 16],
    dst := [(w 25).toNat, (w 26).toNat, (w 27).toNat, (w 28).toNat], bankBase := [0, 0, 0, 0], bankTop := [1536, 1536, 1536, 1536] }

/-- A best-effort descriptor moved into a region (10_work_classes.md R234): scratchpad and exchange addresses shift by the region's first
byte, accumulator rows by the first row of each bank. -/
def MxDesc.relocate (d : MxDesc) (spad : Nat) (banks : List (Nat × Nat)) : MxDesc :=
  let mv (a : Nat) : Nat := if a = noAddr then a else a + spad
  { d with aBase := mv d.aBase, bBase := mv d.bBase, aScale := mv d.aScale, bScale := mv d.bScale, bias := mv d.bias,
           qscale := mv d.qscale, outBase := mv d.outBase, dst := d.dst.map mv, bankBase := banks.map (·.1),
           bankTop := banks.map (fun b => b.1 + b.2) }

/-- Columns of an N-slice (R140). -/
def MxDesc.cols (d : MxDesc) : Nat := if d.indep then 32 else 128
/-- N-slices (R139). -/
def MxDesc.slices (d : MxDesc) : Nat := cdiv d.n d.cols
/-- 2 for a complex product, 1 otherwise (R173). -/
def MxDesc.q (d : MxDesc) : Nat := if d.op = 1 then 2 else 1
/-- K_b of the format pair (Table 6.3). -/
def MxDesc.kb (d : MxDesc) : Nat := if (d.aFmt = 0 && d.bFmt = 0) || (d.aFmt = 1 && d.bFmt = 1) then 192 else 96
/-- The pair accumulates in INT32 (Table 6.3). -/
def MxDesc.isInt (d : MxDesc) : Bool := fmtInt d.aFmt
/-- Passes (Table 6.4, R154). -/
def MxDesc.passes (d : MxDesc) : Nat := if d.op = 1 then 4 else if d.aFmt = 8 then 4 else if d.aFmt = 9 then 3 else 1
/-- c_f of R138. -/
def MxDesc.cf (d : MxDesc) : Nat := if d.aFmt = 6 || d.aFmt = 7 || d.aFmt = 9 then 2 else 1

/-- Tensor clocks without scratchpad stalls (R139, R189). -/
def MxDesc.clocks (d : MxDesc) : Nat :=
  if d.k = 0 then 16 + d.m * d.slices
  else d.passes * cdiv d.k d.kb * d.slices * d.cf * max d.m 48 + (if d.cf = 2 then 240 else 192)

/-- The operand pair is one of Table 6.3 (R147). -/
def pairOk (a b : Nat) : Bool :=
  match a with
  | 0 => b = 0
  | 1 => b = 1
  | 2 => b = 2 || b = 0
  | 3 => b = 2 || b = 3
  | 4 => b = 4 || b = 5
  | 5 => b = 4 || b = 5
  | 6 => b = 6
  | 7 => b = 7
  | 8 => b = 8
  | 9 => b = 9
  | _ => false

/-! ### Operands -/

/-- Address and column of activation element (row r, index k) of plane `pl` for OP 0 and 1; rows from VALID_M on come from the pad
(R187). -/
def MxDesc.aPlain (d : MxDesc) (sp : Mem) (pl r k : Nat) : Elem :=
  let load (r : Nat) : Elem := loadElem sp d.aFmt (d.aBase + pl * (d.m * d.aPitch) + r * d.aPitch) k
  if r < d.validM then load r
  else match d.padMode with
    | 0 => elemZero d.aFmt
    | 1 => elemOf d.aFmt (d.padConst.toNat % 2 ^ fmtBits d.aFmt)
    | md => load (reflect md (r : Int) d.validM)

/-- Activation of output position `r`, tap index `k`, of a windowed product (R180, R181). -/
def MxDesc.aWindow (d : MxDesc) (sp : Mem) (r k : Nat) : Elem :=
  let c := k % d.cIn
  let kw := k / d.cIn % d.kw
  let kh := k / d.cIn / d.kw
  let iy : Int := (r / d.wOut * d.sy : Nat) - (d.padTop : Int) + (kh * d.dy : Nat)
  let ix : Int := (r % d.wOut * d.sx : Nat) - (d.padLeft : Int) + (kw * d.dx : Nat)
  let load (y x : Nat) : Elem := loadElem sp d.aFmt (d.aBase + y * d.aPitch + x * d.pixPitch) c
  let inside := decide (0 ≤ iy) && decide (iy < d.hIn) && decide (0 ≤ ix) && decide (ix < d.wIn)
  if inside then load iy.toNat ix.toNat
  else match d.padMode with
    | 0 => elemZero d.aFmt
    | 1 => elemOf d.aFmt (d.padConst.toNat % 2 ^ fmtBits d.aFmt)
    | md => load (reflect md iy d.hIn) (reflect md ix d.wIn)

/-- Activation element. -/
def MxDesc.a (d : MxDesc) (sp : Mem) (pl r k : Nat) : Elem := if d.op = 2 then d.aWindow sp r k else d.aPlain sp pl r k

/-- Weight element (row k, column n) of plane `pl`; columns from VALID_N on are 0 (R187). -/
def MxDesc.b (d : MxDesc) (sp : Mem) (pl k n : Nat) : Elem :=
  if n < d.validN then loadElem sp d.bFmt (d.bBase + pl * (d.k * d.bPitch) + k * d.bPitch) n else elemZero d.bFmt

/-- Pitch of a scale-plane row of `n` bytes (R146). -/
def scalePitch (n : Nat) : Nat := cdiv n 64 * 64

/-- E8M0 scale of the A block `kb` of row r, and of the B block `kb` of column n (Table 6.7). A pad row has the scale of the row it repeats, a zero
one and a column from VALID_N on that of 1; what scale PAD_CONST has is not stated (R187). -/
def MxDesc.aScaleAt (d : MxDesc) (sp : Mem) (r kb : Nat) : Nat :=
  let load (r : Nat) : Nat := (mget sp (d.aScale + r * scalePitch (cdiv d.k 32) + kb)).toNat
  if r < d.validM then load r
  else match d.padMode with
    | 0 => 127
    | 1 => Config.freePadScale % 256
    | md => load (reflect md (r : Int) d.validM)
def MxDesc.bScaleAt (d : MxDesc) (sp : Mem) (kb n : Nat) : Nat :=
  if n < d.validN then (mget sp (d.bScale + kb * scalePitch d.n + n)).toNat else 127

/-! ### Accumulation -/

/-- Saturating addition of shifted products in ascending k; the count is that of ACC_SAT (R148, R152). -/
def accInt (acc : Int) (sats : Nat) : List Int → Int × Nat
  | [] => (acc, sats)
  | p :: ps =>
    let s := sat32 (acc + p)
    accInt s (if s = acc + p then sats else sats + 1) ps

/-- Split of an INT16 operand: x = 256 × x_h + x_l (R152). -/
def hiByte (x : Int) : Int := Int.fdiv x 256
def loByte (x : Int) : Int := x - 256 * Int.fdiv x 256

/-- Split of an FP32 operand into BF16 parts (R153). -/
def hiPart (w : Nat) : Fp := fpOf fF32 (w / 65536 * 65536)
def loPart (w : Nat) : Fp := fpRound fBf16 ((fpOf fF32 w).sub (hiPart w))

/-- One K-block's products in groups of 32, each summed in pairs; the group sums left to right (R149). -/
def blockSum (ps : List Fp) (groups : Nat) : Fp :=
  let z : Fp := .fin false 0 0
  sumLeft ((List.range groups).map (fun g => group32 ((span (32 * g) 32).map (fun i => ps.getD i z))))

/-- A pass over K in floating point: products rounded to FP32, block by block into the accumulator (R149). -/
def fpPass (acc : Fp) (kcount kb : Nat) (prod : Nat → Fp) : Fp :=
  (List.range (cdiv kcount kb)).foldl (fun a b =>
    let ps := (span (b * kb) kb).map (fun k => if k < kcount then r32 (prod k) else .fin false 0 0)
    add32 a (blockSum ps (kb / 32))) acc

/-- Exact sum of a list; a sum of −0 only is −0 (DESIGN CHOICE, log 149). -/
def exactSum : List Fp → Fp
  | [] => .fin false 0 0
  | a :: r => r.foldl Fp.add a

/-- A BS4 pass: each 32-element block summed exactly, scaled, rounded once (R150); products beyond K are +0 (R187). -/
def bs4Pass (acc : Fp) (kcount kb : Nat) (prod : Nat → Fp) (scale : Nat → Fp) : Fp :=
  (List.range (cdiv kcount kb)).foldl (fun a b =>
    let blk (g : Nat) : Fp :=
      let k0 := b * kb + 32 * g
      if k0 < kcount then
        r32 ((exactSum ((span k0 32).map (fun k => if k < kcount then prod k else .fin false 0 0))).mul (scale (k0 / 32)))
      else .fin false 0 0
    add32 a (sumLeft ((List.range (kb / 32)).map blk))) acc

/-- An accumulator value as its 32 bits and back. -/
def accWord (isInt : Bool) (e : Elem) : Word :=
  match e with
  | .int x => w32 (unsigned 32 x)
  | .fp v => if isInt then 0 else bits32 v
def accElem (isInt : Bool) (w : Word) : Elem := if isInt then .int (signed 32 w.toNat) else .fp (fp32 w)

/-- The result of one accumulator entry, given its start: part 0 is C or C_re, part 1 is C_im (R148-R154). Weights, their scales, bias and column scales
come from `wt`: the scratchpad itself, or what the sequence unit has loaded (09_sequence.md R224). -/
def MxDesc.entry (d : MxDesc) (sp wt : Mem) (start : Elem) (part r n : Nat) : Elem × Nat :=
  let ks := List.range d.k
  if d.isInt then
    let a (pl k : Nat) : Int := (d.a sp pl r k).toInt
    let b (pl k : Nat) : Int := (d.b wt pl k n).toInt
    let products : List Int :=
      if d.op = 1 then
        (if part = 0 then ks.map (fun k => a 0 k * b 0 k) ++ ks.map (fun k => a 1 k * -(b 1 k))
         else ks.map (fun k => a 0 k * b 1 k) ++ ks.map (fun k => a 1 k * b 0 k))
      else if d.aFmt = 8 then
        ks.map (fun k => hiByte (a 0 k) * hiByte (b 0 k) * 65536) ++ ks.map (fun k => hiByte (a 0 k) * loByte (b 0 k) * 256) ++
        ks.map (fun k => loByte (a 0 k) * hiByte (b 0 k) * 256) ++ ks.map (fun k => loByte (a 0 k) * loByte (b 0 k))
      else ks.map (fun k => a 0 k * b 0 k)
    let x := accInt start.toInt 0 products
    (.int x.1, x.2)
  else
    let a (pl k : Nat) : Fp := (d.a sp pl r k).toFp
    let b (pl k : Nat) : Fp := (d.b wt pl k n).toFp
    let s := start.toFp
    let v : Fp :=
      if d.aFmt = 1 then
        bs4Pass s d.k d.kb (fun k => (a 0 k).mul (b 0 k)) (fun kb => (scaleOf (d.aScaleAt sp r kb)).mul (scaleOf (d.bScaleAt wt kb n)))
      else if d.op = 1 then
        (if part = 0 then fpPass (fpPass s d.k d.kb (fun k => (a 0 k).mul (b 0 k))) d.k d.kb (fun k => (a 1 k).mul (b 1 k).neg)
         else fpPass (fpPass s d.k d.kb (fun k => (a 0 k).mul (b 1 k))) d.k d.kb (fun k => (a 1 k).mul (b 0 k)))
      else if d.aFmt = 9 then
        let aw (k : Nat) : Nat := fpBits fF32 false (a 0 k)
        let bw (k : Nat) : Nat := fpBits fF32 false (b 0 k)
        let p1 := fpPass s d.k d.kb (fun k => (hiPart (aw k)).mul (hiPart (bw k)))
        let p2 := fpPass p1 d.k d.kb (fun k => (hiPart (aw k)).mul (loPart (bw k)))
        fpPass p2 d.k d.kb (fun k => (loPart (aw k)).mul (hiPart (bw k)))
      else fpPass s d.k d.kb (fun k => (a 0 k).mul (b 0 k))
    (.fp v, 0)

/-- Key of accumulator entry (part, row r, column n): slices follow each other by M rows, C_im follows C_re (log 56). -/
def MxDesc.accKey (d : MxDesc) (part r n : Nat) : Nat :=
  let sl := n / d.cols
  let bank := if d.indep then d.engine else n % 128 / 32
  let row := d.accBase + d.bankBase.getD bank 0 + part * d.slices * d.m + sl * d.m + r
  (bank * 1536 + row) * 32 + n % 32

/-! ### Epilogue (R157, R158) -/

/-- Steps 2-4 of Table 6.5 on an integer accumulator. A bias addition that saturates is no event of ACC_SAT, which R148 counts for accumulator
additions (DESIGN CHOICE, log 116). -/
def MxDesc.postInt (d : MxDesc) (sp : Mem) (part n : Nat) (x : Int) : Elem :=
  let bias : Int := if d.bias = noAddr || d.validN ≤ n then 0 else signed 32 (mreadW sp (d.bias + 4 * (part * d.n + n))).toNat
  let x := sat32 (x + bias)
  let lo := (fp16 d.clampLo).toIntAway
  let hi := (fp16 d.clampHi).toIntAway
  if d.qscale = noAddr || d.validN ≤ n then
    .int (match d.act with | 1 => max x 0 | 2 => clampInt (lo, hi) x | _ => x)
  else
    let v := mul32 (r32 (.ofInt x)) (fp32 (mreadW sp (d.qscale + 4 * n)))
    .fp (match d.act with | 1 => v.max (.fin false 0 0) | 2 => (v.max (.ofInt lo)).min (.ofInt hi) | _ => v)

/-- Steps 2-4 of Table 6.5 on an FP32 accumulator. -/
def MxDesc.postFp (d : MxDesc) (sp : Mem) (part n : Nat) (v : Fp) : Elem :=
  let v := if d.bias = noAddr || d.validN ≤ n then v else add32 v (fp32 (mreadW sp (d.bias + 4 * (part * d.n + n))))
  let v := if d.qscale = noAddr || d.validN ≤ n then v else mul32 v (fp32 (mreadW sp (d.qscale + 4 * n)))
  .fp (match d.act with
    | 1 => v.max (.fin false 0 0)
    | 2 => (v.max (fp16 d.clampLo)).min (fp16 d.clampHi)
    | _ => v)

/-- Value of a column after the epilogue's steps 2-4. -/
def MxDesc.post (d : MxDesc) (sp : Mem) (part n : Nat) : Elem → Elem
  | .int x => d.postInt sp part n x
  | .fp v => d.postFp sp part n v

/-- Byte address of an output row or position. -/
def MxDesc.outRow (d : MxDesc) (part r : Nat) : Nat :=
  if d.op = 2 then d.outBase + r / d.wOut * d.linePitch + r % d.wOut * d.outPitch
  else d.outBase + part * (d.m * d.outPitch) + r * d.outPitch

/-- Byte address of the scale plane of a BS4 output: it follows the data planes (log 57). -/
def MxDesc.outScaleRow (d : MxDesc) (part r : Nat) : Nat :=
  let data := if d.op = 2 then d.m / d.wOut * d.linePitch else d.q * (d.m * d.outPitch)
  d.outBase + data + (part * d.m + r) * scalePitch (cdiv d.n 32)

/-- Elements written of one row, with the NaNs that became integers over the whole computed row (R187). A masked score is −infinity (R228).
Of a BS4 row the scale plane gets one byte per block, and the bytes that pad it stay as they are (DESIGN CHOICE, log 148). -/
def MxDesc.rowOut (d : MxDesc) (sp : Mem) (masked : Nat → Bool) (part r : Nat) (accs : List Elem) : List BitsAt × Nat :=
  let cols := List.range d.n
  let acc (n : Nat) : Elem := accs.getD n (.int 0)
  if d.outFmt = 10 then
    ((cols.filter (· < d.validN)).map (fun n => elemAt 9 (d.outRow part r) n (accWord d.isInt (acc n)).toNat), 0)
  else
    let vals := cols.map (fun n => if masked n then .fp (.inf true) else d.post sp part n (acc n))
    if d.outFmt = 1 then
      let blk (b : Nat) : List Fp := (span (32 * b) 32).map (fun n => if n < d.n then (vals.getD n (.int 0)).toFp else .fin false 0 0)
      let blocks := List.range (cdiv d.n 32)
      let el := blocks.flatMap (fun b =>
        let e := bs4Scale (blk b)
        ((span (32 * b) 32).filter (· < d.validN)).map (fun n => elemAt 1 (d.outRow part r) n (bs4Elem e ((vals.getD n (.int 0)).toFp))))
      let sc := (blocks.filter (fun b => 32 * b < d.validN)).map (fun b => elemAt 2 (d.outScaleRow part r) b (bs4Scale (blk b)))
      (el ++ sc, 0)
    else
      let cv := vals.map (convOut d.outFmt d.sat)
      (((cols.zip cv).filter (fun x => x.1 < d.validN)).map (fun x => elemAt d.outFmt (d.outRow part r) x.1 x.2.1),
       (cv.filter (·.2)).length)

/-- A product Niche with weights from `wt` and masked scores: scratchpad and accumulator after it, ACC_SAT and NAN_TO_INT events. -/
def MxDesc.runOn (d : MxDesc) (masked : Nat → Nat → Bool) (sp wt : Mem) (acc : Tab Word) : Mem × Tab Word × Nat × Nat :=
  let start (part r n : Nat) : Elem :=
    if d.accMode = 1 then accElem d.isInt (tget acc (d.accKey part r n) 0) else elemZero (if d.isInt then 2 else 9)
  let rows := (List.range d.q).flatMap (fun part => (List.range d.m).map (fun r =>
    (part, r, (List.range d.n).map (fun n => d.entry sp wt (start part r n) part r n))))
  let sats := (rows.flatMap (fun x => x.2.2.map (·.2))).sum
  let acc' := rows.foldl (fun t x =>
    ((List.range d.n).zip x.2.2).foldl (fun t y => tput t (d.accKey x.1 x.2.1 y.1) (accWord d.isInt y.2.1)) t) acc
  let outs := rows.map (fun x => (x.2.1, d.rowOut wt (masked x.2.1) x.1 x.2.1 (x.2.2.map (·.1))))
  let sp' := putAll sp ((outs.filter (fun o => o.1 < d.validM)).flatMap (fun o => o.2.1))
  (sp', acc', sats, (outs.map (fun o => o.2.2)).sum)

/-- A product Niche: scratchpad and accumulator after it, ACC_SAT and NAN_TO_INT events. -/
def MxDesc.run (d : MxDesc) (sp : Mem) (acc : Tab Word) : Mem × Tab Word × Nat × Nat := d.runOn (fun _ _ => false) sp sp acc

/-- MACs issued: every pass over the whole computed tile (R156, R187). The zero rows of the last K-block beyond K and the empty columns of the last
N-slice are no part of M × N × K and are not counted (DESIGN CHOICE, log 106). -/
def MxDesc.macs (d : MxDesc) : Nat := d.passes * d.m * d.n * d.k

/-! ### Exchange (R183) -/

/-- Copies of a line list: (destination core, address, bytes). -/
def copyRow (sp : Mem) (core dst src len : Nat) : Nat × Nat × List Byte := (core, dst, mread sp src len)

/-- Bytes of one output row or position: the columns it writes (R187). -/
def MxDesc.rowBytes (d : MxDesc) : Nat := fmtBytes (if d.outFmt = 10 then 9 else d.outFmt) d.validN

/-- The transfers of a product's XCHG_MASK, read from its output: only rows and columns it has written (R187). A complex product's C_im follows its C_re
as in the output itself (log 56); of a BS4 output the elements go and the scale plane stays (DESIGN CHOICE, log 150). -/
def MxDesc.copies (d : MxDesc) (sp : Mem) : List (Nat × Nat × List Byte) :=
  let core (i : Nat) : Nat := d.cores.getD i 0
  let dst (i : Nat) : Nat := d.dst.getD i 0
  let lines := if d.op = 2 then cdiv d.validM d.wOut else d.validM
  let pitch := if d.op = 2 then d.linePitch else d.outPitch
  let perLine := if d.op = 2 then d.wOut else 1
  let side (i first : Nat) : List (Nat × Nat × List Byte) :=
    (List.range lines).flatMap (fun oy => ((List.range (min d.xCols d.wOut)).filter (fun x => oy * d.wOut + first + x < d.validM)).map (fun x =>
      copyRow sp (core i) (dst i + oy * d.linePitch + x * d.outPitch) (d.outRow 0 (oy * d.wOut + first + x)) d.rowBytes))
  let updown (i first : Nat) : List (Nat × Nat × List Byte) :=
    (List.range d.q).flatMap (fun pt => (List.range (min d.xRows lines)).flatMap (fun l =>
      ((List.range perLine).filter (fun x => (first + l) * perLine + x < d.validM)).map (fun x =>
        copyRow sp (core i) (dst i + pt * (d.m * d.outPitch) + l * pitch + (if d.op = 2 then x * d.outPitch else 0))
          (d.outRow pt ((first + l) * perLine + x)) d.rowBytes)))
  (if d.op = 2 && d.xchg.testBit 3 then side 0 0 else []) ++
  (if d.op = 2 && d.xchg.testBit 2 then side 1 (d.wOut - min d.xCols d.wOut) else []) ++
  (if d.xchg.testBit 1 then updown 2 0 else []) ++
  (if d.xchg.testBit 0 then updown 3 (lines - min d.xRows lines) else [])

/-! ### The write footprint (R193) -/

/-- Banks a slice writes. -/
def MxDesc.banksOf (d : MxDesc) (t : Nat) : List Nat := if d.indep then [d.engine] else List.range (min 4 (cdiv (d.n - t * 128) 32))

/-- First slice whose accumulator rows leave ACC_BASE to ACC_BASE + ACC_ROWS − 1, or the rows of a bank it may use. -/
def MxDesc.accFault (d : MxDesc) : Option Nat :=
  (List.range d.slices).find? (fun t =>
    let top := (if d.q = 2 then d.slices * d.m else 0) + (t + 1) * d.m
    decide (top > d.accRows) || (d.banksOf t).any (fun b => decide (d.bankTop.getD b 1536 < d.accBase + d.bankBase.getD b 0 + top)))

/-- Last byte of the output of a slice, exclusive, over every row it writes. -/
def MxDesc.outEnd (d : MxDesc) (t : Nat) : Nat :=
  let cols := min d.validN ((t + 1) * d.cols)
  maxNat ((List.range d.q).flatMap (fun pt => (List.range d.validM).flatMap (fun r =>
    [d.outRow pt r + fmtBytes (if d.outFmt = 10 then 9 else d.outFmt) cols] ++
    (if d.outFmt = 1 then [d.outScaleRow pt r + cdiv cols 32] else []))))

/-- First slice whose epilogue writes outside the scratchpad's `top` bytes. -/
def MxDesc.outFault (d : MxDesc) (top : Nat) : Option Nat :=
  (List.range d.slices).find? (fun t => decide (min d.validN (t * d.cols) < d.validN) && decide (d.outEnd t > top))

/-- An exchange would write outside a scratchpad. -/
def MxDesc.copyFault (d : MxDesc) : Bool :=
  (d.copies []).any (fun c => decide (c.2.1 + c.2.2.length > Config.spadBytes))

/-- LOOP = 1 runs more than one weight block of a slice: the first of every slice comes before any slice's last, and so before any epilogue (R175, log 131). -/
def MxDesc.blocksFirst (d : MxDesc) : Bool := decide (d.loop = 1) && decide (1 < d.passes * cdiv d.k d.kb)

/-- Status of the faulting write, the first in the Niche's order of writes that falls outside; none when all lie inside. -/
def MxDesc.footprint (d : MxDesc) (top : Nat) : Option Nat :=
  match d.accFault, d.outFault top with
  | some a, some o => if d.blocksFirst || decide (a ≤ o) then some stAccOverflow else some stSpadOverflow
  | some _, none => some stAccOverflow
  | none, some _ => some stSpadOverflow
  | none, none => if d.xchg ≠ 0 && d.copyFault then some stSpadOverflow else none

/-! ### Commit checks (R147, R159, R179, Table 7.5) -/

/-- An address is a 64-byte aligned scratchpad offset. -/
def aligned (a : Nat) : Bool := decide (a % 64 = 0) && decide (a < Config.spadBytes)

/-- A finite FP16 number. -/
def finite16 (n : Nat) : Bool := decide (n / 1024 % 32 ≠ 31)

/-- Every range of Tables 6.7 and 7.5, the pair rule and R179. -/
def MxDesc.ok (d : MxDesc) : Bool :=
  decide (d.ver = 1) && decide (d.op ≤ 2) && pairOk d.aFmt d.bFmt && decide (d.outFmt ≤ 10) && decide (d.accMode ≤ 1) &&
  decide (d.act ≤ 2) && decide (1 ≤ d.n) && decide (1 ≤ d.m) && aligned d.aBase && decide (d.aPitch % 64 = 0) && aligned d.bBase &&
  decide (d.bPitch % 64 = 0) && decide (d.aFmt = 1 ↔ d.aScale ≠ noAddr) && decide (d.bFmt = 1 ↔ d.bScale ≠ noAddr) &&
  aligned d.outBase && decide (d.outPitch % 64 = 0) && decide (1 ≤ d.accRows) && decide (d.accRows ≤ 1536) &&
  decide (d.accBase + d.accRows ≤ 1536) &&
  finite16 d.clampHi && finite16 d.clampLo && !(fp16 d.clampHi).lt (fp16 d.clampLo) &&
  (d.op ≠ 1 || (decide (d.aFmt = 2) && decide (d.bFmt = 2)) || (decide (d.aFmt = 6) && decide (d.bFmt = 6))) &&
  decide (d.loop ≤ 1) && decide (d.validN ≤ d.n) && decide (d.validM ≤ d.m) &&
  (d.op ≠ 2 || (decide (d.aFmt ≠ 0) && decide (d.aFmt ≠ 1) && decide (1 ≤ d.hIn) && decide (1 ≤ d.wIn) && decide (1 ≤ d.cIn) &&
    decide (d.cIn * (fmtBits d.aFmt / 8) ≤ d.pixPitch) && decide (1 ≤ d.kh) && decide (1 ≤ d.kw) && decide (d.k = d.kh * d.kw * d.cIn) &&
    [d.sy, d.sx, d.dy, d.dx].all (fun x => decide (1 ≤ x) && decide (x ≤ 4)) && decide (1 ≤ d.wOut) && decide (d.m % d.wOut = 0) &&
    decide (d.linePitch % 64 = 0) && decide (d.wOut * d.outPitch ≤ d.linePitch))) &&
  d.dst.all (fun a => decide (a % 64 = 0)) && (d.op ≠ 2 || decide (d.padConst.toNat < 2 ^ fmtBits d.aFmt))

end Sys2Proof.Machine
end

