-- ==== Sys2Proof/Machine/Vector.lean ====
section
/-! DEFINITION. The vector engine and the element-wise fall-back (06_tensor_cores.md R160-R164, 07_mapping.md R186). -/

namespace Sys2Proof.Machine

/-- A VX descriptor (Table 6.9) with its mask and exchange fields (R186). -/
structure VxDesc where
  ver : Nat
  op : Nat
  inFmt : Nat
  outFmt : Nat
  onArray : Bool
  arrayEngine : Nat
  srcAcc : Bool
  rows : Nat
  cols : Nat
  srcA : Nat
  pitchIn : Nat
  srcB : Nat
  srcC : Nat
  dst : Nat
  pitchOut : Nat
  immB : Word
  immC : Word
  eps : Word
  validN : Nat
  validM : Nat
  xchg : Nat
  xRows : Nat
  cores : List Nat
  dsts : List Nat
  /-- row added in each accumulator bank: 0, or the region's first row (10_work_classes.md R234) -/
  bankBase : List Nat
deriving DecidableEq, Repr, Inhabited

/-- Read a descriptor. -/
def VxDesc.ofWords (d : List Word) : VxDesc :=
  let w (n : Nat) : Word := d.getD n 0
  { ver := fld (w 0) 15 8, op := fld (w 0) 7 0, inFmt := fld (w 1) 31 28, outFmt := fld (w 1) 27 24, onArray := bit (w 1) 23,
    arrayEngine := fld (w 1) 22 21, srcAcc := bit (w 1) 20, rows := fld (w 2) 31 16, cols := fld (w 2) 15 0, srcA := (w 3).toNat,
    pitchIn := (w 4).toNat, srcB := (w 5).toNat, srcC := (w 6).toNat, dst := (w 7).toNat, pitchOut := (w 8).toNat, immB := w 9,
    immC := w 10, eps := w 11, validN := if fld (w 22) 31 16 = 0 then fld (w 2) 15 0 else fld (w 22) 31 16,
    validM := if fld (w 22) 15 0 = 0 then fld (w 2) 31 16 else fld (w 22) 15 0, xchg := fld (w 23) 31 28, xRows := fld (w 23) 7 0,
    cores := [fld (w 24) 31 28, fld (w 24) 27 24, fld (w 24) 23 20, fld (w 24) 19 16],
    dsts := [(w 25).toNat, (w 26).toNat, (w 27).toNat, (w 28).toNat], bankBase := [0, 0, 0, 0] }

/-- A best-effort descriptor moved into a region (R234): scratchpad addresses by its first byte, accumulator rows by the first row of each bank. -/
def VxDesc.relocate (d : VxDesc) (spad : Nat) (banks : List (Nat × Nat)) : VxDesc :=
  let mv (a : Nat) : Nat := if a = noAddr then a else a + spad
  { d with srcA := if d.srcAcc then d.srcA else mv d.srcA, srcB := mv d.srcB, srcC := mv d.srcC, dst := mv d.dst,
           dsts := d.dsts.map mv, bankBase := banks.map (·.1) }

/-- Class of an operation (Table 6.8): 0 element-wise, 1 reduction, 2 transcendental, 3 row; none: no such code. -/
def vxClass (op : Nat) : Option Nat :=
  if 1 ≤ op ∧ op ≤ 0x0A then some 0
  else if 0x10 ≤ op ∧ op ≤ 0x13 then some 1
  else if 0x20 ≤ op ∧ op ≤ 0x26 then some 2
  else if 0x30 ≤ op ∧ op ≤ 0x32 then some 3
  else none

/-- The operation computes in integers: an integer input and no transcendental or row step (R160). -/
def VxDesc.isInt (d : VxDesc) : Bool := fmtInt d.inFmt && decide (d.op < 0x20)

/-- Element of a source: scratchpad, accumulator, or immediate. An accumulator source reads entry c mod 32 of the row, the next 32
columns in the next bank (log 58); past the last row or bank there is no entry, and the value is free (log 132). A BS4 element takes the scale of its block, from the scale plane behind the operand's `n` data rows (R146,
log 57). -/
def VxDesc.src (d : VxDesc) (sp : Mem) (acc : Tab Word) (base : Nat) (imm : Word) (isA : Bool) (n r c : Nat) : Elem :=
  if isA && d.srcAcc then
    let bank := d.srcA / 65536 % 4 + c / 32
    let row := d.srcA % 65536 + r + d.bankBase.getD bank 0
    let key := (bank * 1536 + row) * 32 + c % 32
    let w := if row < 1536 ∧ bank < 4 then tget acc key 0 else Config.freeAcc key
    if fmtInt d.inFmt then .int (signed 32 w.toNat) else .fp (fp32 w)
  else if base = noAddr then (if d.isInt then .int (signed 32 imm.toNat) else .fp (fp32 imm))
  else
    let e := loadElem sp d.inFmt (base + r * d.pitchIn) c
    if d.inFmt = 1 then .fp (e.toFp.mul (scaleOf (mget sp (base + n * d.pitchIn + r * scalePitch (cdiv d.cols 32) + c / 32)).toNat)) else e

/-- Rows of the operands b and c: a row operation has one, of a value for each column. -/
def VxDesc.vecRows (d : VxDesc) : Nat := if vxClass d.op = some 3 then 1 else d.rows

def VxDesc.a (d : VxDesc) (sp : Mem) (acc : Tab Word) (r c : Nat) : Elem := d.src sp acc d.srcA 0 true d.rows r c
def VxDesc.b (d : VxDesc) (sp : Mem) (acc : Tab Word) (r c : Nat) : Elem := d.src sp acc d.srcB d.immB false d.vecRows r c
def VxDesc.c (d : VxDesc) (sp : Mem) (acc : Tab Word) (r c : Nat) : Elem := d.src sp acc d.srcC d.immC false d.vecRows r c

/-- SELECT's condition: a UINT8 of SRC_C, or the immediate, differs from 0. -/
def VxDesc.cond (d : VxDesc) (sp : Mem) (r c : Nat) : Bool :=
  if d.srcC = noAddr then decide (d.immC ≠ 0) else decide (mget sp (d.srcC + r * d.pitchIn + c) ≠ 0)

/-- RECIP and RSQRT: the free value where it lies within `n` units of the exact quotient `v`; a zero, an infinity and NaN are exact (Table 6.8). -/
def quotient (n : Nat) (v free : Fp) : Fp :=
  match v with
  | .fin _ 0 _ => v
  | .fin _ _ _ => accurate n false v free
  | _ => v

/-- Result of a transcendental operation at an infinity; GELU of −infinity is not stated. -/
def transcInf (op : Nat) (neg : Bool) (free : Fp) : Fp :=
  match op, neg with
  | 0x20, true => .fin false 0 0
  | 0x24, true => .fin false 0 0
  | 0x24, false => .ofNat 1
  | 0x25, _ => .fin neg 1 0
  | 0x26, true => free
  | _, _ => .inf false

/-- A transcendental operation in FP32: its bits are free within the accuracy Table 6.8 states; NaN gives NaN. -/
def transc (op : Nat) (x : Fp) : Fp :=
  let arg := bits32 x
  let free := fp32 (Config.freeTranscendental op arg)
  if x = .nan then .nan
  else if op = 0x22 then quotient 1 ((Fp.ofNat 1).div x) free
  else if op = 0x23 then quotient 2 ((Fp.ofNat 1).div x.sqrt) free
  else if op = 0x21 && x.isZero then .inf true
  else if op = 0x21 && x.isNeg then .nan
  else match x with
    | .inf neg => transcInf op neg free
    | _ => match op with
      | 0x20 => accurate 2 false (expFp x) free
      | 0x21 => accurate 2 false (lnFp x) free
      | 0x24 => accurate 4 true (sigmoidFp x) free
      | 0x25 => accurate 4 true (tanhFp x) free
      | _ => accurate 4 true (geluFp x) free

/-- Element-wise operation on integers, saturated to INT32 (R148, R162; log 59). -/
def ewInt (op : Nat) (a b c : Int) : Int :=
  match op with
  | 0x01 => sat32 (a + b)
  | 0x02 => sat32 (a - b)
  | 0x03 => sat32 (a * b)
  | 0x04 => sat32 (a * b + c)
  | 0x05 => max a b
  | 0x06 => min a b
  | 0x07 => sat32 a.natAbs
  | 0x08 => if a > b then 1 else 0
  | _ => a

/-- Element-wise operation in floating point, exact before its one rounding (R161). -/
def ewFp (op : Nat) (a b c : Fp) : Fp :=
  match op with
  | 0x01 => a.add b
  | 0x02 => a.sub b
  | 0x03 => a.mul b
  | 0x04 => (a.mul b).add c
  | 0x05 => a.max b
  | 0x06 => a.min b
  | 0x07 => a.abs
  | 0x08 => if b.lt a then .ofNat 1 else .ofNat 0
  | _ => a

/-- Result of an element-wise or transcendental operation at (r, c), before output conversion. -/
def VxDesc.elem (d : VxDesc) (sp wt : Mem) (acc : Tab Word) (r c : Nat) : Elem :=
  let a := d.a sp acc r c
  if d.op = 0x09 then (if d.cond sp r c then a else d.b wt acc r c)
  else if d.op = 0x0A then a
  else if d.op ≥ 0x20 then .fp (transc d.op (r32 a.toFp))
  else if d.isInt then .int (ewInt d.op a.toInt (d.b wt acc r c).toInt (d.c sp acc r c).toInt)
  else
    let v := ewFp d.op a.toFp (d.b wt acc r c).toFp (d.c sp acc r c).toFp
    .fp (if d.outFmt = 6 || d.outFmt = 7 then v else r32 v)

/-- Row reduction in two stages: 256 lanes in column order, then the binary tree (R162). -/
def laneReduce {α : Type} (ident : α) (f : α → α → α) (l : List α) : α :=
  let lanes := (List.range 256).map (fun i => ((List.range (cdiv l.length 256)).map (fun k => l.getD (256 * k + i) ident)).foldl f ident)
  (treeFold f 8 lanes).headD ident
where
  /-- one level after another of the tree -/
  treeFold (f : α → α → α) : Nat → List α → List α
    | 0, l => l
    | n + 1, l => treeFold f n (pairs f l)
  /-- lane 2j with lane 2j + 1 -/
  pairs (f : α → α → α) : List α → List α
    | a :: b :: t => f a b :: pairs f t
    | l => l

/-- RSUM in FP32; the identity −0 leaves the sign of a lone zero (R149, R162). -/
def rsum (l : List Fp) : Fp := laneReduce (.fin true 0 0) add32 l
/-- RMAX and RMIN in floating point. -/
def rmax (l : List Fp) : Fp := laneReduce (.inf true) Fp.max l
def rmin (l : List Fp) : Fp := laneReduce (.inf false) Fp.min l

/-- ARGMAX: first NaN if any, else the lowest column of the maximum (Table 6.8). -/
def argmax (l : List Fp) : Nat :=
  match l.findIdx? (· = .nan) with
  | some i => i
  | none => ((List.range l.length).foldl (fun (best : Nat) i => if (l.getD best .nan).lt (l.getD i .nan) then i else best) 0)

/-- Result of a reduction on a row. -/
def VxDesc.reduce (d : VxDesc) (row : List Elem) : Elem :=
  if d.isInt && d.op ≠ 0x13 then
    let xs := row.map Elem.toInt
    .int (match d.op with
      | 0x10 => laneReduce 0 (fun a b => sat32 (a + b)) xs
      | 0x11 => laneReduce (-2147483648) max xs
      | _ => laneReduce 2147483647 min xs)
  else
    let xs := row.map (fun e => if d.isInt then e.toFp else r32 e.toFp)
    match d.op with
    | 0x10 => .fp (rsum xs)
    | 0x11 => .fp (rmax xs)
    | 0x12 => .fp (rmin xs)
    | _ => .int (argmax xs : Nat)

/-- SOFTMAX of a row: RMAX, EXP of (a − max), RSUM, RECIP, MUL. -/
def softmax (xs : List Fp) : List Fp :=
  let m := rmax xs
  let es := xs.map (fun x => transc 0x20 (sub32 x m))
  let r := transc 0x22 (rsum es)
  es.map (fun e => mul32 e r)

/-- LAYERNORM and RMSNORM of a row; the mean divides the RSUM by COLS (log 60). -/
def layernorm (xs bs cs : List Fp) (eps : Fp) : List Fp :=
  let n := Fp.ofNat xs.length
  let mean := div32 (rsum xs) n
  let ds := xs.map (fun x => sub32 x mean)
  let var := div32 (rsum (ds.map (fun d => mul32 d d))) n
  let rs := transc 0x23 (add32 var eps)
  (ds.zip (bs.zip cs)).map (fun x => add32 (mul32 (mul32 x.1 rs) x.2.1) x.2.2)
def rmsnorm (xs bs : List Fp) (eps : Fp) : List Fp :=
  let n := Fp.ofNat xs.length
  let rs := transc 0x23 (add32 (div32 (rsum (xs.map (fun x => mul32 x x))) n) eps)
  (xs.zip bs).map (fun x => mul32 (mul32 x.1 rs) x.2)

/-- Results of one row before output conversion. Operand b comes from `wt`: the scratchpad itself, or what the sequence unit has loaded
(09_sequence.md R224); a SOFTMAX of a pad segment's row is +0 in every column (R228). -/
def VxDesc.rowResult (d : VxDesc) (pad : Bool) (sp wt : Mem) (acc : Tab Word) (r : Nat) : List Elem :=
  let cols := List.range d.cols
  let as := cols.map (d.a sp acc r)
  let xs := as.map (fun e => r32 e.toFp)
  let bs := cols.map (fun c => r32 (d.b wt acc 0 c).toFp)
  let cs := cols.map (fun c => r32 (d.c sp acc 0 c).toFp)
  match vxClass d.op with
  | some 1 => [d.reduce as]
  | some 3 => (match d.op with
      | 0x30 => if pad then xs.map (fun _ => Fp.fin false 0 0) else softmax xs
      | 0x31 => layernorm xs bs cs (fp32 d.eps)
      | _ => rmsnorm xs bs (fp32 d.eps)).map Elem.fp
  | _ => cols.map (d.elem sp wt acc r)

/-- Format results are written in: CMP writes UINT8 and ARGMAX UINT32 whatever OUT_FMT names (Table 6.8). -/
def VxDesc.dstFmt (d : VxDesc) : Nat := if d.op = 0x08 then 3 else d.outFmt

/-- Address of the scale plane of a BS4 output row: after the ROWS rows of data (log 57). -/
def VxDesc.scaleRow (d : VxDesc) (n r : Nat) : Nat := d.dst + d.rows * d.pitchOut + r * scalePitch (cdiv n 32)

/-- Elements written of a row, and NaNs turned into integers over the whole row. -/
def VxDesc.rowOut (d : VxDesc) (r : Nat) (res : List Elem) : List BitsAt × Nat :=
  let row := d.dst + r * d.pitchOut
  let n := res.length
  let valid := if vxClass d.op = some 1 then 1 else d.validN
  if d.op = 0x13 then ([elemAt 9 row 0 (unsigned 32 (res.headD (.int 0)).toInt)], 0)
  else if d.dstFmt = 1 then
    let blk (b : Nat) : List Fp := (span (32 * b) 32).map (fun i => if i < n then (res.getD i (.int 0)).toFp else .fin false 0 0)
    let blocks := List.range (cdiv n 32)
    (blocks.flatMap (fun b => ((span (32 * b) 32).filter (· < min valid n)).map (fun i =>
        elemAt 1 row i (bs4Elem (bs4Scale (blk b)) ((res.getD i (.int 0)).toFp)))) ++
      (blocks.filter (fun b => 32 * b < valid)).map (fun b => elemAt 2 (d.scaleRow n r) b (bs4Scale (blk b))), 0)
  else
    let cv := res.map (convOut d.dstFmt true)
    ((((List.range n).zip cv).filter (fun x => x.1 < valid)).map (fun x => elemAt d.dstFmt row x.1 x.2.1), (cv.filter (·.2)).length)

/-- A vector Niche with operand b from `wt` and pad rows: scratchpad after it and NAN_TO_INT events. Rows from VALID_M on are computed and not
written. -/
def VxDesc.runOn (d : VxDesc) (pad : Nat → Bool) (sp wt : Mem) (acc : Tab Word) : Mem × Nat :=
  let outs := (List.range d.rows).map (fun r => (r, d.rowOut r (d.rowResult (pad r) sp wt acc r)))
  (putAll sp ((outs.filter (fun o => o.1 < d.validM)).flatMap (fun o => o.2.1)), (outs.map (fun o => o.2.2)).sum)

/-- A vector Niche: scratchpad after it and NAN_TO_INT events. -/
def VxDesc.run (d : VxDesc) (sp : Mem) (acc : Tab Word) : Mem × Nat := d.runOn (fun _ => false) sp sp acc

/-- Counts of a vector Niche: element-wise results, reduction inputs, transcendental results (Tables 16.2, 6.8). In a row operation
each step counts in its own class, with 5 and 3 element-wise results for each element of LAYERNORM and RMSNORM (log 60). -/
def VxDesc.counts (d : VxDesc) : Nat × Nat × Nat :=
  let n := d.rows * d.cols
  match d.op with
  | 0x30 => (n, 2 * n, n + d.rows)
  | 0x31 => (5 * n, 2 * n, d.rows)
  | 0x32 => (3 * n, n, d.rows)
  | _ => match vxClass d.op with
    | some 0 => (n, 0, 0)
    | some 1 => (0, n, 0)
    | _ => (0, 0, n)

/-- Issue clocks of one row of a row operation (R160): its steps run in FP32, 256 elements a clock, a transcendental one 64. -/
def rowClocks (d : VxDesc) : Nat :=
  let n := cdiv d.cols 256
  match d.op with
  | 0x30 => 4 * n + cdiv d.cols 64 + 1
  | 0x31 => 7 * n + 1
  | 0x32 => 4 * n + 1
  | _ => 0

/-- Tensor clocks of a vector Niche without stalls (R160, R164). -/
def VxDesc.clocks (d : VxDesc) : Nat :=
  let n := d.rows * d.cols
  if d.onArray then cdiv n 96
  else match vxClass d.op with
    | some 3 => d.rows * rowClocks d
    | some 2 => cdiv n 64
    | _ => cdiv n (if d.inFmt = 6 || d.inFmt = 7 then 512 else 256)

/-- The transfers up and down of a vector Niche: lines of its output, which VALID_M and VALID_N bound (R183, R186, R187). -/
def VxDesc.copies (d : VxDesc) (sp : Mem) : List (Nat × Nat × List Byte) :=
  let bytes := fmtBytes (if d.op = 0x13 then 9 else d.dstFmt) (if vxClass d.op = some 1 then 1 else d.validN)
  let ud (i first : Nat) : List (Nat × Nat × List Byte) :=
    (List.range (min d.xRows d.validM)).map (fun l =>
      copyRow sp (d.cores.getD i 0) (d.dsts.getD i 0 + l * d.pitchOut) (d.dst + (first + l) * d.pitchOut) bytes)
  (if d.xchg.testBit 1 then ud 2 0 else []) ++ (if d.xchg.testBit 0 then ud 3 (d.validM - min d.xRows d.validM) else [])

/-- Byte past the last that a vector Niche writes in its own core, scale plane included. -/
def VxDesc.outEnd (d : VxDesc) : Nat :=
  let n := if vxClass d.op = some 1 then 1 else d.validN
  let size := if vxClass d.op = some 1 then 1 else d.cols
  maxNat ((List.range d.validM).flatMap (fun r =>
    [d.dst + r * d.pitchOut + (if d.op = 0x13 then 4 else fmtBytes d.dstFmt n)] ++
    (if d.dstFmt = 1 then [d.scaleRow size r + cdiv n 32] else [])))

/-- Footprint of a fall-back Niche, which a matrix engine checks (R193). -/
def VxDesc.footprint (d : VxDesc) (top : Nat) : Option Nat :=
  if decide (d.outEnd > top) || (d.xchg ≠ 0 && (d.copies []).any (fun c => decide (c.2.1 + c.2.2.length > Config.spadBytes))) then
    some stSpadOverflow else none

/-- SRC_A lies in the scratchpad, or its row below 1,536 of a bank 0-3 (Table 6.9); a bit above [17:16] is out of range (log 132). -/
def VxDesc.srcOk (d : VxDesc) : Bool :=
  (if d.srcAcc then decide (d.srcA < 262144) && decide (d.srcA % 65536 < 1536) else decide (d.srcA < Config.spadBytes)) &&
  (d.srcB = noAddr || decide (d.srcB < Config.spadBytes)) && (d.srcC = noAddr || decide (d.srcC < Config.spadBytes))

/-- Every range of Table 6.9 and R164, R186. -/
def VxDesc.ok (d : VxDesc) : Bool :=
  d.srcOk && d.dsts.all (fun a => decide (a % 64 = 0)) && decide (d.ver = 1) && (vxClass d.op).isSome && decide (d.inFmt ≤ 9) && decide (d.outFmt ≤ 9) && decide (1 ≤ d.rows) &&
  decide (1 ≤ d.cols) && (!d.onArray || [1, 2, 3, 4, 5, 6, 7, 10].contains d.op) && decide (d.pitchIn % 64 = 0) &&
  decide (d.dst % 64 = 0) && decide (d.dst < Config.spadBytes) && decide (d.pitchOut % 64 = 0) &&
  (match fp32 d.eps with | .fin s m _ => !s || decide (m = 0) | _ => false) && decide (d.xchg < 4) && decide (d.validM ≤ d.rows) &&
  decide (d.validN ≤ d.cols)

/-! ### Niches on a core -/

/-- Run a product on a core, with its weights from `wt` and masked scores, and count it (R148, R156, Table 6.6, 09_sequence.md R228). -/
def applyMxOn (c : Nat) (masked : Nat → Nat → Bool) (wt : Mem → Mem) (d : MxDesc) (s : State) : State :=
  let k := s.core c
  let o := d.runOn masked k.spad (wt k.spad) k.acc
  let s := s.modCore c (fun x => { x with spad := o.1, acc := o.2.1 })
  let s := count (ctrCore c (if d.op = 2 then 1 else 0)) d.macs s
  let s := count (ctrCore c (5 + d.aFmt)) d.macs s
  count (ctrCore c 16) o.2.2.2 (count (ctrCore c 15) o.2.2.1 s)

/-- Run a product on a core. -/
def applyMx (c : Nat) (d : MxDesc) (s : State) : State := applyMxOn c (fun _ _ => false) id d s

/-- Run a vector Niche on a core, with operand b from `wt` and pad rows, and count it (Table 6.8). -/
def applyVxOn (c : Nat) (pad : Nat → Bool) (wt : Mem → Mem) (d : VxDesc) (s : State) : State :=
  let k := s.core c
  let o := d.runOn pad k.spad (wt k.spad) k.acc
  let s := s.modCore c (fun x => { x with spad := o.1 })
  let n := d.counts
  let s := count (ctrCore c 2) n.1 s
  let s := count (ctrCore c 3) n.2.1 s
  count (ctrCore c 16) o.2 (count (ctrCore c 4) n.2.2 s)

/-- Run a vector Niche on a core. -/
def applyVx (c : Nat) (d : VxDesc) (s : State) : State := applyVxOn c (fun _ => false) id d s

end Sys2Proof.Machine
end

