-- ==== Sys2Proof/Machine/SafetyPort.lean ====
section
/-! DEFINITION. Functional safety (14_safety.md): arming, clearing, heartbeat, the SPI safety port, the monitors and the Proof cast
supervision. -/

namespace Sys2Proof.Machine

/-! ### Proof casts (R320-R322, R330) -/

/-- Indices of the Niches of an engine's Proof cast set in a schedule: three products, and for engine 0 the RSUM Niche (R321). -/
def castNiches (t : Schedule) (c e : Nat) : List Nat :=
  let of (st : Nat) : List Nat := (List.range t.niches.length).filter (fun k =>
    let n := t.niches.getD k default
    n.proof && decide (n.unit = c) && decide (n.station = st) && (st ≠ 2 || decide (n.engine = e)))
  (of 2).take 3 ++ (if e = 0 then (of 3).take 1 else [])

/-- CRC of `n` bytes of the Proof cast block of a core from an offset. -/
def castCrc (s : State) (c off n : Nat) : Word := crc32 (mread (s.core c).spad (Config.proofBase + off) n)

/-- Expected CRC number `k` of the block: the twelve product areas, then RSUM (R320). -/
def castExpected (s : State) (c k : Nat) : Word := mreadW (s.core c).spad (Config.proofBase + 0x1C080 + 4 * k)

/-- The result areas of an engine's set hold what the block expects (R320, R321). -/
def castMatch (s : State) (c e : Nat) : Bool :=
  [0, 1, 2].all (fun k => castCrc s c (0x10000 + 12288 * e + 4096 * k) 4096 = castExpected s c (3 * e + k)) &&
  (e ≠ 0 || castCrc s c 0x1C000 128 = castExpected s c 12)

/-- Run one Niche of a Proof cast set. -/
def runCastNiche (n : NicheEntry) (s : State) : State :=
  if n.station = 3 then applyVx n.unit (VxDesc.ofWords n.desc) s else applyMx n.unit (MxDesc.ofWords n.indep n.engine n.desc) s

/-- An engine's set runs at once: its Niches in turn, and the tick of its completion (R321, R322). -/
def runCast (t : Schedule) (c e : Nat) (s : State) : State :=
  let s := forAll (castNiches t c e) (fun k s => runCastNiche (t.niches.getD k default) s) s
  s.modCore c (fun x => { x with castAt := tput x.castAt e s.now })

/-- The set of an engine that just ran passes: it has its Niches, the engine was up, and its results are the expected ones. -/
def castPasses (s : State) (t : Schedule) (c e : Nat) : Bool :=
  decide ((castNiches t c e).length = if e = 0 then 4 else 3) && unitUp s (.mx c e) && castMatch s c e

/-- A Proof cast set run at once on every engine of every unfenced core in CORE_MASK, and whether all pass (R330 [4], R351 step 7). With no such core
there is nothing that fails (DEDUCED, log 154). -/
def runCasts (s : State) : State × Bool :=
  match activeSched s with
  | none => (s, (castCores s).isEmpty)
  | some t =>
    if !computeUp s then (s, false)
    else
      let sets := (castCores s).flatMap (fun c => (List.range 4).map (fun e => (c, e)))
      let s := forAll sets (fun x s => runCast t x.1 x.2 s) s
      (s, sets.all (fun x => castPasses s t x.1 x.2))

/-! ### Conditions (R330, R331) -/

/-- A cause of Table 14.2 is present at this moment: a condition that lasts, FATAL, or a cause that only a reset clears. -/
def causePresent (s : State) : Bool := decide (s.safety.present ≠ 0) || s.chip.fatal || s.safety.locked

/-- Condition [1] of R330: the active Armature binds a safety-class stream. -/
def bindsSafety (s : State) : Bool :=
  match activeArm s with
  | none => false
  | some a => !s.noSched && a.bindings.any (fun b => decide (b.kind < 2) && b.safety)

/-- Condition [2] of R330 for a mask. -/
def maskMatches (s : State) (mask : Nat) : Bool :=
  (maskList mask 128).all (fun n => (s.stream n).isOpen && (s.stream n).cfg.safety && bound s n) &&
  s.openSlots.all (fun n => !(s.stream n).cfg.safety || maskBit mask n)

/-- Number with bit `k` for each failed condition. -/
def reasons (l : List (Nat × Bool)) : Nat := (l.filter (fun x => !x.2)).foldl (fun m x => maskSet m x.1) 0

/-- SAFETY_ARM (0x70), R330. `proofPass` is false where a fault of the hardware made a set differ. -/
def doSafetyArm (j : Nat) (proofPass : Bool) (s : State) : State :=
  runCmd j 0x70 s (fun e s =>
    let mask := (e.param 1).toNat + (e.param 2).toNat * 2 ^ 32 + (e.param 3).toNat * 2 ^ 64 + (e.param 4).toNat * 2 ^ 96
    if mask = 0 then finish j stBadParam [] s
    else
      let cast := runCasts s
      let s := cast.1
      let r := reasons [(0, decide (s.chip.phase = .ready)), (1, bindsSafety s), (2, maskMatches s mask), (3, !causePresent s),
                        (4, proofPass && cast.2), (5, decide (s.safety.state = 0))]
      if r ≠ 0 then finish j stOk [s.safety.word, w32 r] s
      else
        let f := { s.safety with state := 1, causes := 0, first := none, key := e.param 0, mask := mask, hbAt := s.now, hbOk := false,
                                 hbCount := 0, hbGap := 0, safeN := true }
        let s := setSafety f s
        finish j stOk [s.safety.word, 0] s)

/-- Lowest cause of a set. -/
def lowestCause (causes : Nat) : Option Nat := (List.range 24).find? (fun k => maskBit causes k)

/-- The last correct heartbeat lies no more than 6,000 ticks back. -/
def heartbeatRecent (s : State) : Bool := s.safety.hbOk && decide (s.now - s.safety.hbAt ≤ Config.hbGap)

/-- SAFETY_CLEAR (0x71), R331: `during` holds the causes detected while the command runs, up to the tick it completes in. They leave the state tripped,
and RESULT1 says so (R319). -/
def doSafetyClear (j : Nat) (proofPass : Bool) (during : Nat) (s : State) : State :=
  runCmd j 0x71 s (fun e s =>
    let s := forAll (maskList during 18) detect s
    let f := s.safety
    if bit (e.param 0) 0 && decide (during ≠ 0) && decide (f.state = 2) then finish j stOk [f.word, w32 (maskSet 0 6)] s
    else if bit (e.param 0) 0 then
      let causes := f.causes &&& flrCauses
      let s := setSafety { f with state := 0, causes := causes, first := lowestCause causes, safeN := false, mask := 0 } s
      finish j stOk [s.safety.word, 0] s
    else
      let cast := runCasts s
      let s := cast.1
      let r := reasons [(2, maskMatches s f.mask), (3, !causePresent s), (4, proofPass && cast.2), (5, decide (f.state = 2)),
                        (6, decide (during = 0)), (7, heartbeatRecent s), (8, !f.locked)]
      if r ≠ 0 then finish j stOk [s.safety.word, w32 r] s
      else
        let s := setSafety { f with state := 1, causes := 0, first := none, safeN := true } s
        finish j stOk [s.safety.word, 0] s)

/-- Results of SAFETY_STATUS (R332). -/
def statusWords (f : Safety) : List Word :=
  [f.word, dw [(f.trips, 31, 16), (f.first.getD 0xFF, 7, 0)], w32 f.tripTick, w32 f.hbGap]

/-- SAFETY_STATUS (0x72), R332. -/
def doSafetyStatus (j : Nat) (s : State) : State := runCmd j 0x72 s (fun _ s => finish j stOk (statusWords s.safety) s)

/-- The answer a heartbeat must carry: CRC-32 over CHALLENGE, then HB_KEY (R328). -/
def hbAnswer (challenge key : Word) : Word := crcWords [challenge, key]

/-- A heartbeat is judged at its acceptance, by the challenge of the last response shifted out before its frame fell: a correct one draws the next
CHALLENGE and ends the gap, a wrong one is HB_WRONG (R328). -/
def judgeHeartbeat (e : JEntry) (ch : Word) (s : State) : State :=
  let f := s.safety
  if e.opcode ≠ 0x73 || (staticCheck s.link.chip e).isSome then s
  else if e.param 0 = hbAnswer ch f.key then
    let gap := e.tick - f.hbAt
    let s := { s with safety := { f with challenge := Config.freeChallenge f.draws, draws := f.draws + 1, hbAt := e.tick, hbOk := true,
                                         hbCount := if f.state = 0 then f.hbCount else f.hbCount + 1,
                                         hbGap := if f.state = 0 then f.hbGap else max f.hbGap gap } }
    if f.state ≠ 0 && decide (gap > Config.hbGap) then detect 11 s else s
  else detect 12 s

/-- SAFETY_HEARTBEAT (0x73), R328: the completion of a heartbeat judged at its acceptance. -/
def doSafetyHeartbeat (j : Nat) (s : State) : State :=
  runCmd j 0x73 s (fun e s =>
    finish j stOk [crcWords [e.param 1, ~~~s.safety.key], s.safety.word, w32 e.tick, w32 s.safety.hbCount] s)

/-- HB_MISSED (R328): the clock passes the end of the gap. -/
def doHbMissed (s : State) : State :=
  if s.safety.state = 0 then s
  else
    let s := advanceTo (s.safety.hbAt + Config.hbGap + 1) s
    let gap := s.now - s.safety.hbAt
    if gap > Config.hbGap then detect 11 { s with safety := { s.safety with hbGap := max s.safety.hbGap gap } } else s

/-! ### The safety port (R324-R326) -/

/-- Completions a response may carry: of the entry with the lowest ASN above CPL_ACK (R326). -/
def safetyCpl (s : State) : Option Cpl :=
  let mine := s.journal.filter (fun e => e.port = .safety && !seqLe e.asn.toNat s.sport.cplAck.toNat)
  match mine with
  | [] => none
  | e :: _ => e.cpls.head?

/-- A response frame (Table 14.4) with its CRC; `c` is the completion it carries. -/
def responseFrame (resp seq : Nat) (asn : Word) (c : Option Cpl) (s : State) : List Word :=
  let c := match c with
    | some c => (1 : Word) :: c.words false
    | none => List.replicate 9 0
  let ws := [dw [(0xA5, 31, 24), (resp, 23, 16), (seq, 15, 0)], asn, s.safety.word, s.safety.challenge, w32 s.now] ++ c ++ List.replicate 17 0
  ws ++ [crcWords ws]

/-- Completions that CPL_ACK covers are posted and free their entries (R326). -/
def ackSafety (ack : Word) (s : State) : State :=
  let gone := s.journal.filter (fun e => e.port = .safety && e.st = .done && seqLe e.asn.toNat ack.toNat)
  let s := { s with sport := { s.sport with cplAck := ack },
                    journal := s.journal.filter (fun e => !(e.port = .safety && e.st = .done && seqLe e.asn.toNat ack.toNat)) }
  forAll gone (fun e s => account e.client (fun a => { a with commands := satAdd 32 a.commands 1 }) s) s

/-- Accept the pending packet: ASN, journal entry, and of a heartbeat its verdict (R325, R328). -/
def acceptSafety (seq : Nat) (ws : List Word) (ch : Word) (s : State) : State :=
  let s := inOrder 0 s
  let asn := s.sport.asn + 1
  let e := newEntry s .safety 0 asn ws [] 255 none
  let s := { s with sport := { s.sport with asn := asn, lastAccepted := some (seq, asn), pend := none } }
  journalEntry e (judgeHeartbeat e ch s)

/-- Outcome of the previous request, and the acceptance its response completes: (RESP, FRAME_SEQ, ASN, state). A packet's entry counts as written
when the frame says so, and in any case 20 µs after its chip select rose (log 155). -/
def answerPrev (written : Bool) (s : State) : Nat × Nat × Word × State :=
  match s.sport.prev with
  | .idle q => (0, q, 0, s)
  | .error q => (4, q, 0, s)
  | .notReady q => (5, q, 0, s)
  | .again q asn => (2, q, asn, s)
  | .packet q =>
    match s.sport.pend with
    | none => (0, q, 0, s)
    | some (q', ws, ch) =>
      if portUsed s .safety ≥ Config.journalSafety || !(written || decide (s.now > s.sport.pendAt + Config.spiWrite)) then (3, q, 0, s)
      else let s := acceptSafety q' ws ch s; (1, q, s.sport.asn, s)

/-- A packet that is no repeat of the last accepted request: a resend of the pending one leaves it pending, any other takes its place (R325). -/
def pendPacket (seq : Nat) (ws : List Word) (shown : Word) (s : State) : State :=
  let p := { s.sport with prev := .packet seq }
  let resent := match s.sport.pend with
    | some (q, _, _) => decide (q = seq)
    | none => false
  { s with sport := if resent then p else { p with pend := some (seq, (ws.drop 2).take 16, shown), pendAt := s.now } }

/-- The request frame is taken (R325). -/
def takeRequest (ws : List Word) (shown : Word) (s : State) : State :=
  let w (n : Nat) : Word := ws.getD n 0
  let seq := fld (w 0) 15 0
  let kind := fld (w 0) 23 16
  if fld (w 0) 31 24 ≠ 0x5A || w 31 ≠ crcWords (ws.take 31) || decide (kind > 1) then { s with sport := { s.sport with prev := .error seq } }
  else
    let s := ackSafety (w 1) s
    if kind = 0 then { s with sport := { s.sport with prev := .idle seq } }
    else
      match s.sport.lastAccepted with
      | some (q, asn) => if q = seq then { s with sport := { s.sport with prev := .again seq asn, pend := none } } else pendPacket seq ws shown s
      | none => pendPacket seq ws shown s

/-- FRAME_SEQ of the previous request. -/
def prevSeq : SpiPrev → Nat
  | .idle q => q
  | .error q => q
  | .notReady q => q
  | .again q _ => q
  | .packet q => q

/-- SAFETY_FRAME: one SPI transaction. A transaction of another length is discarded and answered by RESP 4 (R324). The packet a response reports is
accepted once that response has been shifted out (R61), so its completion appears in a later one. -/
def doSafetyFrame (x : SpiFrame) (s : State) : State :=
  let ws := x.words
  if s.chip.phase = .thermal then s
  else if ws.length ≠ 32 then { s with sport := { s.sport with prev := .error (prevSeq s.sport.prev) } }
  else if !live s then
    let f := responseFrame 5 (prevSeq s.sport.prev) 0 (safetyCpl s) s
    { s with sport := { s.sport with prev := .notReady (fld (ws.getD 0 0) 15 0), frame := f, shownChallenge := s.safety.challenge } }
  else
    let shown := s.sport.shownChallenge
    let c := safetyCpl s
    let r := answerPrev x.written s
    let s := r.2.2.2
    let f := responseFrame r.1 r.2.1 r.2.2.1 c s
    let s := { s with sport := { s.sport with frame := f, shownChallenge := s.safety.challenge } }
    takeRequest ws shown s

/-! ### Monitors (R318, R395) -/

/-- Nominal millivolts and tolerance in per mille of a rail (19_pins.md Table 19.2). -/
def railLimits : Rail → Nat × Nat
  | .vddCore => (750000, 30)
  | .vddPll => (750000, 30)
  | .vddSram => (850000, 30)
  | .vddDdrphy => (1050000, 30)
  | .vddqDdr => (500000, 30)
  | .vddSerdes => (1200000, 30)
  | .vddIo => (1800000, 50)

/-- Position of a rail in Table 19.2. -/
def railIndex : Rail → Nat
  | .vddCore => 0
  | .vddPll => 1
  | .vddSram => 2
  | .vddDdrphy => 3
  | .vddqDdr => 4
  | .vddSerdes => 5
  | .vddIo => 6

/-- Set or clear a bit of a mask. -/
def maskPut (m k : Nat) (b : Bool) : Nat := if b then maskSet m k else if maskBit m k then m - 2 ^ k else m

/-- Note whether a lasting condition is present; its appearance is a detection of its cause. -/
def notePresent (k cause : Nat) (now : Bool) (s : State) : State :=
  let s := { s with safety := { s.safety with present := maskPut s.safety.present k now } }
  if now then detect cause s else s

/-- VOLTAGE: a rail has stood at this value for 10 µs (R395). -/
def doVoltage (r : Rail) (uv : Int) (s : State) : State :=
  let l := railLimits r
  notePresent (32 + railIndex r) 9 (decide ((uv - l.1).natAbs * 1000 > l.1 * l.2)) s

/-- CLOCK: a reference or PLL has deviated this much, in ppm, for 10 µs (R318, R398). -/
def doClock (k : Nat) (ppm : Int) (s : State) : State := notePresent (48 + k % 8) 8 (decide (ppm.natAbs > 50000)) s

/-- TEMPERATURE_SAMPLE (R318, R403): the junction limit, the warning threshold, and the latched status bits. -/
def doTemperatureSample (milliC : Int) (s : State) : State :=
  let limit : Int := if s.chip.industrial then 105000 else 100000
  let hot := decide (milliC > limit)
  let warn := decide (milliC > (s.chip.otWarn : Int) * 1000)
  let c := s.chip
  let s := { s with chip := { c with temp := milliC, otFault := c.otFault || hot, otWarned := c.otWarned || warn,
                                     alertN := c.alertN && !((hot && !c.otFault) || (warn && !c.otWarned)) } }
  notePresent 10 10 hot s

/-- SRAM_SCRUB (R318). -/
def doSramScrub (ue : Bool) (s : State) : State := if ue then detect 1 s else s

/-! ### Proof casts due and checked (R321, R322) -/

/-- Successor edges to Niche `k` from Niches of a set. -/
def setEdges (t : Schedule) (ks : List Nat) (k : Nat) : Nat :=
  (ks.map (fun p => ((t.succs.getD p []).filter (fun e => decide (e.target = k))).length)).sum

/-- PROOF_CAST_DUE (R322): 6 ms after the engine's last set the next is placed. -/
def doProofCastDue (c e : Nat) (s : State) : State :=
  match s.active, activeSched s, tfind (s.core c).castAt e with
  | some r, some t, some at_ =>
    if s.safety.state ≠ 1 || !(castCores s).contains c || (s.core c).castRunning.contains e then s
    else
      let s := advanceTo (at_ + Config.castDue) s
      let s := s.modCore c (fun x => { x with castRunning := e :: x.castRunning })
      let ks := castNiches t c e
      { s with runs := s.runs ++ ks.map (fun k =>
          { Run.fresh r k 128 false 0 0 with readyAt := s.now, st := if setEdges t ks k = 0 then .ready else .waiting, cast := some (c, e) }) }
  | _, _, _ => s

/-- PROOF_CAST_CHECK (R321): Glethes compares the CRCs of a completed set, once; a mismatch trips PROOF_CAST. `ok` is false where a fault of the
hardware made the results differ. -/
def doProofCastCheck (c e : Nat) (ok : Bool) (s : State) : State :=
  if s.isFenced c || !(s.core c).castDone.contains e then s
  else
    let s := s.modCore c (fun x => { x with castDone := x.castDone.filter (fun q => q ≠ e) })
    if ok && castMatch s c e then s else detect 3 s

/-- PROOF_CAST_INTERVAL (R322): more than 8 ms without a completed set. -/
def doProofCastInterval (c e : Nat) (s : State) : State :=
  match tfind (s.core c).castAt e with
  | none => s
  | some at_ =>
    if s.safety.state = 0 || !(castCores s).contains c then s
    else
      let s := advanceTo (at_ + Config.castMax + 1) s
      detect 3 s

def execSafetyArm (j : Nat) (proofPass : Bool) (s : State) : Host.Outcome State Fault Refusal := .next (doSafetyArm j proofPass s)
def execSafetyClear (j : Nat) (proofPass : Bool) (during : Nat) (s : State) : Host.Outcome State Fault Refusal :=
  .next (doSafetyClear j proofPass during s)
def execSafetyStatus (j : Nat) (s : State) : Host.Outcome State Fault Refusal := .next (doSafetyStatus j s)
def execSafetyHeartbeat (j : Nat) (s : State) : Host.Outcome State Fault Refusal := .next (doSafetyHeartbeat j s)
def execSafetyFrame (frame : SpiFrame) (s : State) : Host.Outcome State Fault Refusal := .next (doSafetyFrame frame s)

/-- LOCKSTEP (R316): the comparator drives SAFE_n low in the same cycle. -/
def execLockstep (_pair : Nat) (s : State) : Host.Outcome State Fault Refusal := .next (detect 0 s)
def execHbMissed (s : State) : Host.Outcome State Fault Refusal := .next (doHbMissed s)
def execProofCastDue (c e : Nat) (s : State) : Host.Outcome State Fault Refusal := .next (doProofCastDue c e s)
def execProofCastCheck (c e : Nat) (ok : Bool) (s : State) : Host.Outcome State Fault Refusal := .next (doProofCastCheck c e ok s)
def execProofCastInterval (c e : Nat) (s : State) : Host.Outcome State Fault Refusal := .next (doProofCastInterval c e s)
def execClock (ref : Nat) (devPpm : Int) (s : State) : Host.Outcome State Fault Refusal := .next (doClock ref devPpm s)
def execVoltage (r : Rail) (microvolts : Int) (s : State) : Host.Outcome State Fault Refusal := .next (doVoltage r microvolts s)
def execTemperatureSample (milliC : Int) (s : State) : Host.Outcome State Fault Refusal := .next (doTemperatureSample milliC s)
def execSramScrub (_p : ScrubPlace) (uncorrectable : Bool) (s : State) : Host.Outcome State Fault Refusal :=
  .next (doSramScrub uncorrectable s)

end Sys2Proof.Machine
end

