-- ==== Sys2Proof/Machine/Shape.lean ====
section
/-! DEFINITION. Shaping arithmetic (05_shaping.md R121-R132): the SHP descriptor, colour conversion, resize, flip and rotation,
normalisation, padding, tiles and batch buffers. -/

namespace Sys2Proof.Machine

/-- An SHP descriptor (Table 5.4). -/
structure ShpDesc where
  ver : Nat
  kind : Nat
  padMode : Nat
  filter : Nat
  rotate : Nat
  flipV : Bool
  flipH : Bool
  slot : Nat
  cropX : Int
  cropY : Int
  cropW : Nat
  cropH : Nat
  outW : Nat
  outH : Nat
  matrix : Nat
  full : Bool
  colour : Nat
  format : Nat
  layout : Nat
  scale : List Word
  offset : List Word
  consts : List Word
  tileW : Nat
  tileH : Nat
  stepX : Nat
  stepY : Nat
  tilesX : Nat
  tilesY : Nat
  mask : Nat
  stage : Nat
  batch : Nat
  spad : Nat
  src : Nat
  batches : Nat
deriving DecidableEq, Repr, Inhabited

/-- Read a descriptor. -/
def ShpDesc.ofWords (d : List Word) : ShpDesc :=
  let w (n : Nat) : Word := d.getD n 0
  { ver := fld (w 0) 15 8, kind := fld (w 0) 1 0, padMode := fld (w 1) 21 20, filter := fld (w 1) 19 18, rotate := fld (w 1) 17 16,
    flipV := bit (w 1) 15, flipH := bit (w 1) 14, slot := fld (w 1) 6 0, cropX := signed 16 (fld (w 2) 15 0),
    cropY := signed 16 (fld (w 2) 31 16), cropW := fld (w 3) 15 0, cropH := fld (w 3) 31 16, outW := fld (w 4) 15 0,
    outH := fld (w 4) 31 16, matrix := fld (w 5) 27 26, full := bit (w 5) 25, colour := fld (w 5) 24 22, format := fld (w 5) 21 20,
    layout := fld (w 5) 19 19, scale := [w 6, w 7, w 8], offset := [w 9, w 10, w 11], consts := [w 12, w 13, w 14],
    tileW := fld (w 15) 15 0, tileH := fld (w 15) 31 16, stepX := fld (w 16) 15 0, stepY := fld (w 16) 31 16,
    tilesX := fld (w 17) 15 0, tilesY := fld (w 17) 31 16, mask := fld (w 18) 31 16, stage := fld (w 18) 15 8, batch := fld (w 18) 7 0,
    spad := (w 19).toNat, src := join64 (w 20) (w 21), batches := fld (w 22) 15 0 }

/-- Format code of the output elements (Table 6.2). -/
def ShpDesc.fmt (d : ShpDesc) : Nat := match d.format with | 0 => 2 | 1 => 6 | _ => 7
/-- Channels, and elements of an interleaved pixel (R127). -/
def ShpDesc.chans (d : ShpDesc) : Nat := if d.colour = 3 then 1 else 3
def ShpDesc.pixel (d : ShpDesc) : Nat := if d.colour = 3 then 1 else 4
/-- Pitch of a tile row and bytes of a tile (R127). -/
def ShpDesc.rowPitch (d : ShpDesc) : Nat :=
  if d.layout = 0 then cdiv (fmtBytes d.fmt d.tileW) 64 * 64 else cdiv (fmtBytes d.fmt (d.tileW * d.pixel)) 64 * 64
def ShpDesc.tileBytes (d : ShpDesc) : Nat := (if d.layout = 0 then d.chans else 1) * d.tileH * d.rowPitch
/-- Bytes before the tiles of a batch buffer, and of the whole buffer (R132). -/
def ShpDesc.headBytes (d : ShpDesc) : Nat := cdiv (64 + 8 * d.batch) 64 * 64
def ShpDesc.bufBytes (d : ShpDesc) : Nat := d.headBytes + d.batch * d.tileBytes
/-- Resized size of a grid descriptor, and the final size after rotation (R124). -/
def ShpDesc.turned (d : ShpDesc) : Bool := d.rotate = 1 || d.rotate = 3
def ShpDesc.finalW (d : ShpDesc) : Nat := if d.kind = 2 then d.tileW else if d.turned then d.outH else d.outW
def ShpDesc.finalH (d : ShpDesc) : Nat := if d.kind = 2 then d.tileH else if d.turned then d.outW else d.outH

/-- A crop: source rectangle and resized size. -/
structure Crop where
  x : Int
  y : Int
  w : Nat
  h : Nat
  ow : Nat
  oh : Nat
deriving DecidableEq, Repr, Inhabited

/-- The crop of a grid descriptor, and of a crop-list entry, which is resized to the final tile size (R130). -/
def ShpDesc.gridCrop (d : ShpDesc) : Crop := { x := d.cropX, y := d.cropY, w := d.cropW, h := d.cropH, ow := d.outW, oh := d.outH }
def ShpDesc.listCrop (d : ShpDesc) (x y : Int) (w h : Nat) : Crop :=
  { x := x, y := y, w := w, h := h, ow := if d.turned then d.tileH else d.tileW, oh := if d.turned then d.tileW else d.tileH }

/-! ### Colour conversion (R122, Table 5.1) -/

/-- A stored sample; a sample that is not there is mid-grey. -/
def sampleAt (p : Tab (List Nat)) (depth x y : Nat) : Nat := (tget p y []).getD x (2 ^ (depth - 1))

/-- Chroma at a luma position, bilinear from location type 0, taps clamped to the plane. Exact, in eighths. -/
def chromaAt (p : Tab (List Nat)) (pic : Picture) (x y : Nat) : Nat :=
  let cw := max 1 (pic.w / 2)
  let ch := max 1 (pic.h / 2)
  let col (line : Nat) : Nat :=
    let a := sampleAt p pic.depth (min (x / 2) (cw - 1)) line
    if x % 2 = 0 then 2 * a else a + sampleAt p pic.depth (min (x / 2 + 1) (cw - 1)) line
  let m := y / 2
  let clampL (l : Nat) : Nat := min l (ch - 1)
  if y % 2 = 0 then col (clampL (m - 1)) + 3 * col (clampL m) else 3 * col (clampL m) + col (clampL (m + 1))

/-- K_r and K_b in ten-thousandths. -/
def krKb (m : Nat) : Nat × Nat := match m with | 0 => (2990, 1140) | 1 => (2126, 722) | _ => (2627, 593)

/-- Hold a value in [lo, hi]. -/
def Fp.hold (lo hi v : Fp) : Fp := (v.max lo).min hi

def fp0 : Fp := .fin false 0 0
def fp1 : Fp := .fin false 1 0
def fpHalf : Fp := .fin false 1 (-1)

/-- A number of ten-thousandths in FP32. -/
def tenk (n : Nat) : Fp := r32 (.ratio n 10000)

/-- The converted sample at a luma position: one value per channel, in output order. -/
def ShpDesc.colourAt (d : ShpDesc) (pic : Picture) (x y : Nat) : List Fp :=
  let n := pic.depth
  let yq : Int := sampleAt pic.luma n x y
  let y' := if d.full then div32 (.ofInt yq) (.ofNat (2 ^ n - 1))
            else div32 (.ofInt (yq - (16 * 2 ^ (n - 8) : Nat))) (.ofNat (219 * 2 ^ (n - 8)))
  if d.colour = 3 then [y'.hold fp0 fp1]
  else
    let c (p : Tab (List Nat)) : Fp :=
      let v : Int := chromaAt p pic x y
      if d.full then div32 (.ofInt (v - (8 * 2 ^ (n - 1) : Nat))) (.ofNat (8 * (2 ^ n - 1)))
      else div32 (.ofInt (v - (8 * 128 * 2 ^ (n - 8) : Nat))) (.ofNat (8 * 224 * 2 ^ (n - 8)))
    let cb := c pic.cb
    let cr := c pic.cr
    if d.colour = 2 then [y'.hold fp0 fp1, cb.hold fpHalf.neg fpHalf, cr.hold fpHalf.neg fpHalf]
    else
      let k := krKb d.matrix
      let r := add32 y' (mul32 (tenk (2 * (10000 - k.1))) cr)
      let b := add32 y' (mul32 (tenk (2 * (10000 - k.2))) cb)
      let g := div32 (sub32 (sub32 y' (mul32 (tenk k.1) r)) (mul32 (tenk k.2) b)) (tenk (10000 - k.1 - k.2))
      let h (v : Fp) : Fp := v.hold fp0 fp1
      if d.colour = 0 then [h r, h g, h b] else [h b, h g, h r]

/-! ### Resize (R123, R126) -/

/-- Source position of an output index: s = start + (u + 0.5) × (len / out) − 0.5, as a numerator over 2 × out. -/
def srcPos (start : Int) (len out u : Nat) : Int := 2 * start * out + ((2 * u + 1) * len : Nat) - (out : Int)

/-- Taps of an output index: source positions and FP32 weights. -/
def taps (filter : Nat) (start : Int) (len out u : Nat) : List (Int × Fp) :=
  let num := srcPos start len out u
  let den : Int := 2 * out
  let f := Int.fdiv num den
  let rem := (num - f * den).toNat
  let ph := (512 * rem + 2 * out) / (4 * out)
  let t (n : Int) (k : Int) : Fp := r32 (.fin (decide (n < 0)) n.natAbs k)
  match filter with
  | 0 => [(f, t (256 - (ph : Int)) (-8)), (f + 1, t ph (-8))]
  | 1 =>
    let p : Int := ph
    [(f - 1, t (-(p * p * p) + 2 * 256 * p * p - 65536 * p) (-25)),
     (f, t (3 * p * p * p - 5 * 256 * p * p + 2 * 16777216) (-25)),
     (f + 1, t (-(3 * p * p * p) + 4 * 256 * p * p + 65536 * p) (-25)),
     (f + 2, t (p * p * p - 256 * p * p) (-25))]
  | _ =>
    let lo : Int := start * out + (u * len : Nat)
    let hi : Int := start * out + ((u + 1) * len : Nat)
    let first := Int.fdiv lo out
    let last := Int.fdiv (hi - 1) out
    (List.range (last - first + 1).toNat).map (fun (i : Nat) =>
      let x := first + (i : Int)
      let a := max lo (x * out)
      let b := min hi ((x + 1) * out)
      (x, r32 (.ratio (b - a).toNat len)))

/-- The sample's centre lies off the picture (Table 5.2). -/
def offPicture (num : Int) (out w : Nat) : Bool := decide (num < -(out : Int)) || decide (num ≥ ((2 * w : Nat) : Int) * out - out)

/-- A tap position moved onto the picture (Table 5.2). -/
def tapOn (mode : Nat) (x : Int) (w : Nat) : Nat := reflect (if mode = 2 then 2 else 3) x w

/-- What padding puts in place of a sample: none where the sample is computed; else the channel's encoded constant. -/
def ShpDesc.padElem (d : ShpDesc) (ch : Nat) : Nat :=
  if d.padMode = 1 then (convOut d.fmt true (.fp (fp32 (d.consts.getD ch 0)))).1 else 0

/-- Encode a channel value (R125). -/
def ShpDesc.encode (d : ShpDesc) (ch : Nat) (x : Fp) : Nat :=
  (convOut d.fmt true (.fp (add32 (mul32 x (fp32 (d.scale.getD ch 0))) (fp32 (d.offset.getD ch 0))))).1

/-- One resized sample (u, v) of a crop: encoded elements, one per channel. -/
def ShpDesc.resized (d : ShpDesc) (pic : Picture) (c : Crop) (u v : Nat) : List Nat :=
  if d.padMode < 2 && (offPicture (srcPos c.x c.w c.ow u) c.ow pic.w || offPicture (srcPos c.y c.h c.oh v) c.oh pic.h) then
    (List.range d.chans).map d.padElem
  else
    let xs := taps d.filter c.x c.w c.ow u
    let ys := taps d.filter c.y c.h c.oh v
    let row (y : Int) : List Fp :=
      let cs := xs.map (fun t => (t.2, d.colourAt pic (tapOn d.padMode t.1 pic.w) (tapOn d.padMode y pic.h)))
      (List.range d.chans).map (fun ch => sumLeft (cs.map (fun e => mul32 e.1 (e.2.getD ch fp0))))
    let rows := ys.map (fun t => (t.2, row t.1))
    (List.range d.chans).map (fun ch => d.encode ch (sumLeft (rows.map (fun e => mul32 e.1 (e.2.getD ch fp0)))))

/-- Flip and clockwise rotation: the resized position behind a final position (R124). -/
def ShpDesc.unturn (d : ShpDesc) (c : Crop) (x y : Nat) : Nat × Nat :=
  let p : Nat × Nat := match d.rotate with
    | 0 => (x, y)
    | 1 => (y, c.oh - 1 - x)
    | 2 => (c.ow - 1 - x, c.oh - 1 - y)
    | _ => (c.ow - 1 - y, x)
  (if d.flipH then c.ow - 1 - p.1 else p.1, if d.flipV then c.oh - 1 - p.2 else p.2)

/-- A final output position, also one beyond the final size (Table 5.2). -/
def ShpDesc.pixelAt (d : ShpDesc) (pic : Picture) (c : Crop) (x y : Nat) : List Nat :=
  if x < d.finalW && decide (y < d.finalH) then let p := d.unturn c x y; d.resized pic c p.1 p.2
  else if d.padMode < 2 then (List.range d.chans).map d.padElem
  else
    let p := d.unturn c (tapOn d.padMode x d.finalW) (tapOn d.padMode y d.finalH)
    d.resized pic c p.1 p.2

/-! ### Tiles and batches (R127-R132) -/

/-- Elements of a tile at an address whose first pixel is final position (x0, y0). -/
def ShpDesc.tile (d : ShpDesc) (pic : Picture) (c : Crop) (base x0 y0 : Nat) : List BitsAt :=
  (List.range d.tileH).flatMap (fun y => (List.range d.tileW).flatMap (fun x =>
    let px := d.pixelAt pic c (x0 + x) (y0 + y)
    (List.range d.chans).map (fun ch =>
      if d.layout = 0 then elemAt d.fmt (base + (ch * d.tileH + y) * d.rowPitch) x (px.getD ch 0)
      else elemAt d.fmt (base + y * d.rowPitch) (x * d.pixel + ch) (px.getD ch 0))))

/-- Clear a buffer's bytes. -/
def zeroBytes (sp : Mem) (a n : Nat) : Mem := sp.filter (fun e => !(decide (a ≤ e.1) && decide (e.1 < a + n)))

/-- Address of slot `k`'s tile in the buffer at `buf`. -/
def ShpDesc.tileAddr (d : ShpDesc) (buf k : Nat) : Nat := buf + d.headBytes + k * d.tileBytes

/-- Batch header (Table 5.3). -/
def ShpDesc.header (d : ShpDesc) (valid don band slot overflow batch : Nat) : List Word :=
  [dw [(d.batch, 23, 16), (valid, 15, 8), (1, 7, 0)], w32 don, dw [(band, 31, 20), (slot, 6, 0)], dw [(overflow, 15, 0)], w32 batch] ++
  List.replicate 11 0

/-- Tag of a slot (R132). -/
def slotTag (row col : Nat) (pad : Bool) : List Word := [dw [(row, 31, 16), (col, 15, 0)], dw [(b2n pad, 31, 31)]]

/-- Cores of DEST_CORE_MASK, ascending. -/
def ShpDesc.dests (d : ShpDesc) : List Nat := maskList d.mask 16

/-- Tile columns the k-th core receives (R129). -/
def ShpDesc.colsOf (d : ShpDesc) (k : Nat) : List Nat :=
  let q := cdiv d.tilesX d.dests.length
  (span (k * q) q).filter (· < d.tilesX)

/-- Highest source line that tile row `j` needs (R128). -/
def ShpDesc.lastLine (d : ShpDesc) (hPic j : Nat) : Nat :=
  if d.flipV || d.rotate ≠ 0 then hPic - 1
  else
    let r := min (j * d.stepY + d.tileH - 1) (d.finalH - 1)
    let c := d.gridCrop
    let num := srcPos c.y c.h c.oh r
    let f := Int.fdiv num (2 * c.oh)
    let top : Int := match d.filter with
      | 0 => f + 1
      | 1 => f + 2
      | _ => Int.fdiv (c.y * c.oh + ((r + 1) * c.h : Nat) - 1) c.oh
    let top := if d.colour = 3 then top else top + 2
    (max 0 (min ((hPic : Int) - 1) top)).toNat

/-- Ranges of Table 5.4 and the constraints of R123 and R124 (R134). -/
def ShpDesc.ok (d : ShpDesc) (lineSync : Bool) : Bool :=
  let finite (w : Word) : Bool := decide (fld w 30 23 ≠ 255)
  let ratio (c o : Nat) : Bool := decide (o ≤ 8 * c) && decide (c ≤ 32 * o)
  decide (d.ver = 1) && decide (d.kind ≤ 2) && decide (d.filter ≤ 2) &&
  (d.kind = 2 || (decide (-4096 ≤ d.cropX) && decide (d.cropX ≤ 8191) && decide (-4096 ≤ d.cropY) && decide (d.cropY ≤ 8191))) &&
  [(d.cropW, 8192), (d.cropH, 8192), (d.outW, 4096), (d.outH, 4096), (d.tileW, 1024), (d.tileH, 1024), (d.stepX, d.tileW),
   (d.stepY, d.tileH), (d.tilesX, 4096), (d.stage, 16), (d.batch, 64)].all (fun x => decide (1 ≤ x.1) && decide (x.1 ≤ x.2)) &&
  (d.kind = 2 || (decide (1 ≤ d.tilesY) && decide (d.tilesY ≤ 4096))) && decide (d.matrix ≤ 2) && decide (d.colour ≤ 3) &&
  decide (d.format ≤ 2) && (d.scale ++ d.offset ++ d.consts).all finite && decide (d.mask ≠ 0) && decide (d.spad % 64 = 0) &&
  (d.kind ≠ 2 || (decide (1 ≤ d.batches) && decide (d.batches ≤ 1024))) && ratio d.cropW d.outW && ratio d.cropH d.outH &&
  (d.kind ≠ 0 || !lineSync || (!d.flipV && decide (d.rotate = 0)))

/-- Every batch buffer lies in the scratchpad (R134). -/
def ShpDesc.fits (d : ShpDesc) : Bool := decide (d.spad + d.stage * d.bufBytes ≤ Config.spadBytes)

end Sys2Proof.Machine
end

