-- ==== Sys2Proof/Machine/Runs.lean ====
section
/-! DEFINITION. Niche instances of fired triggers: release, readiness, skipping (02_raster_time.md R29, R30, 07_mapping.md R176, R194,
15_recovery.md R343, R348, R355). -/

namespace Sys2Proof.Machine

/-- Line Niches are bound to a stream, not to a trigger (R29). -/
def lineNiche (n : NicheEntry) : Bool := n.station = 0 || (n.station = 1 && (ShpDesc.ofWords n.desc).kind = 0)

/-- Two instances belong to one picture, block or pack group under one schedule. -/
def Run.same (a b : Run) : Bool :=
  decide (a.ref = b.ref) && decide (a.owner = b.owner) && decide (a.seq = b.seq) && decide (a.don = b.don) && decide (a.cast = b.cast)

/-- The instance is the one `x` describes. -/
def Run.isRun (r x : Run) : Bool := r.same x && decide (r.niche = x.niche)

/-- Nothing of the instance is left to run. -/
def Run.finished (r : Run) : Bool := r.st = .done || r.st = .skipped

/-- Band a tile row is tagged with (05_shaping.md R128): the lowest whose trigger line its last source line reaches. -/
def tagOf (c : StreamCfg) (halo h : Nat) (d : ShpDesc) (j : Nat) : Nat :=
  ((List.range (bandCount c h)).find? (fun b => decide (d.lastLine h j + 1 ≤ trigLine c halo h b))).getD (bandCount c h - 1)

/-- A Niche of the trigger of band `b` of slot `n` waits on Niche `k`. -/
def awaited (t : Schedule) (n k b : Nat) : Bool :=
  match trigOf t false n b with
  | none => false
  | some e => (t.succs.getD k []).any (fun x => decide (e.firstNiche ≤ x.target) && decide (x.target < e.firstNiche + e.nicheCount))

/-- The steps of a strip feed for a picture, in order: (band, its next tile row), and (band, none) where no tile row carries the tag of a band
whose Niches wait for a batch (R128, R131). -/
def tilePlan (c : StreamCfg) (halo h : Nat) (d : ShpDesc) (waited : Nat → Bool) : List (Nat × Option Nat) :=
  (List.range (bandCount c h)).flatMap (fun b =>
    let rows := (List.range d.tilesY).filter (fun j => tagOf c halo h d j = b)
    if rows.isEmpty then (if waited b then [(b, none)] else []) else rows.map (fun j => (b, some j)))

/-- Every step of a strip-feed Niche for band `b` or a lower one is written. -/
def stripDone (s : State) (t : Schedule) (x : Run) (p : Nat) (n : NicheEntry) : Bool :=
  let st := s.stream x.owner
  match picOf st x.don with
  | none => true
  | some pic =>
    let plan := tilePlan st.cfg (haloOf s x.ref.arm x.owner) pic.h (ShpDesc.ofWords n.desc) (awaited t x.owner p)
    decide ((plan.filter (fun e => decide (e.1 ≤ x.band))).length ≤ tget pic.tileRows p 0)

/-- The predecessor at index `p` has signalled its completion along an edge to `x` (R176). A Niche skipped in its own band holds back
no other band (R194). -/
def edgeDone (s : State) (t : Schedule) (x : Run) (p : Nat) (e : SuccEdge) : Bool :=
  let n := t.niches.getD p default
  if n.station = 0 then true
  else if lineNiche n then stripDone s t x p n
  else match s.runs.find? (fun r => r.same x && decide (r.niche = p)) with
    | none => false
    | some r => match r.st with
      | .done => true
      | .landing => !e.afterXchg
      | .skipped => decide (r.band ≠ x.band) && !r.wide
      | _ => false

/-- Predecessor completions signalled to `x`. -/
def predsDone (s : State) (t : Schedule) (x : Run) : Nat :=
  ((List.range t.niches.length).map (fun p => ((t.succs.getD p []).filter (fun e => decide (e.target = x.niche) && edgeDone s t x p e)).length)).sum

/-- A waiting instance whose last predecessor completion has come becomes ready in this tick (R30). -/
def readyRun (s : State) (x : Run) : Run :=
  if x.st ≠ .waiting then x
  else match schedOf s x.ref with
    | none => x
    | some t =>
      let dep := match x.cast with
        | some (c, e) => setEdges t (castNiches t c e) x.niche
        | none => (t.niches.getD x.niche default).depIn
      let need := dep - predsDone s t x
      if need = 0 then { x with st := .ready, readyAt := s.now } else x

/-- Signal every completion that is due. -/
def refresh (s : State) : State := { s with runs := s.runs.map (readyRun s) }

/-- Change one instance. -/
def modRun (x : Run) (f : Run → Run) (s : State) : State := { s with runs := s.runs.map (fun r => if r.isRun x then f r else r) }

/-- Niches reachable from the given ones along successor edges to instances in the same band, or in the same picture when `wide`. -/
def reachable (s : State) (t : Schedule) (x : Run) (wide : Bool) : Nat → List Nat → List Nat
  | 0, seen => seen
  | fuel + 1, seen =>
    let next := (seen.flatMap (fun p => (t.succs.getD p []).map (·.target))).filter (fun k => !seen.contains k &&
      s.runs.any (fun r => r.same x && decide (r.niche = k) && (wide || decide (r.band = x.band))))
    if next.isEmpty then seen else reachable s t x wide fuel (seen ++ next.eraseDups)

/-- Skip one instance not yet started. OUT and TRK Niches stay, to write their records with the fault (R194). -/
def skipOne (t : Schedule) (now status : Nat) (wide : Bool) (r : Run) : Run :=
  if r.st = .waiting || r.st = .ready then
    let st := (t.niches.getD r.niche default).station
    if st = 7 || st = 4 then { r with st := .ready, status := status, wide := wide, readyAt := now }
    else { r with st := .skipped, status := status, wide := wide }
  else r

/-- The outcome of a faulted trigger Niche (Table 7.7, Table 15.4): it ends with its status, and what is reachable from it is skipped. -/
def skipFrom (x : Run) (status : Nat) (wide : Bool) (s : State) : State :=
  match schedOf s x.ref with
  | none => s
  | some t =>
    let ks := reachable s t x wide t.niches.length [x.niche]
    let s := { s with runs := s.runs.map (fun r =>
      if r.isRun x then { r with st := .skipped, status := status, wide := wide }
      else if r.same x && ks.contains r.niche then skipOne t s.now status wide r else r) }
    refresh s

/-- A Niche bound to a fenced core is skipped with CORE_FENCED (R348); one behind a Niche aborted earlier in the picture shares its
outcome (R343). -/
def inheritSkip (x : Run) (s : State) : State :=
  match schedOf s x.ref with
  | none => s
  | some t =>
    let fencedCore := match coreOf (unitOf (t.niches.getD x.niche default)) with
      | some c => s.isFenced c
      | none => false
    if fencedCore then skipFrom x stFenced false s
    else
      let before := s.runs.find? (fun r => r.same x && r.wide && decide (r.st = .skipped) &&
        (t.succs.getD r.niche []).any (fun e => decide (e.target = x.niche)))
      match before with
      | some r =>
        let s := { s with runs := s.runs.map (fun q => if q.isRun x then skipOne t s.now r.status true q else q) }
        let ks := reachable s t x true t.niches.length [x.niche]
        { s with runs := s.runs.map (fun q => if q.same x && ks.contains q.niche then skipOne t s.now r.status true q else q) }
      | none => s

/-- A TRK Niche whose TRACK_UPDATE was already issued does not run in replay (R355): the TAE takes the TRK Niches of a band in ORDER, so
those are the first of them. -/
def replayDone (s : State) (t : Schedule) (ks : List Nat) (owner don band k : Nat) (seq : Bool) : Bool :=
  let n := t.niches.getD k default
  !seq && decide (n.station = 4) &&
  (match picOf (s.stream owner) don with
   | some p => decide ((ks.filter (fun q => decide ((t.niches.getD q default).station = 4) &&
      decide ((t.niches.getD q default).order < n.order))).length < tget p.trkDone band 0)
   | none => false)

/-- A fired trigger releases its Niches (R25, R30). -/
def releaseNiches (ref : SchedRef) (first cnt owner : Nat) (seq : Bool) (don band : Nat) (s : State) : State :=
  match schedOf s ref with
  | none => s
  | some t =>
    let ks := (span first cnt).filter (fun k => decide (k < t.niches.length) && !lineNiche (t.niches.getD k default))
    let new := ks.map (fun k =>
      { Run.fresh ref k owner seq don band with st := if replayDone s t ks owner don band k seq then .done else .waiting })
    refresh (forAll new inheritSkip { s with runs := s.runs ++ new })

/-- Instances of a picture or block of a slot. -/
def runsOf (s : State) (n don : Nat) : List Run := s.runs.filter (fun r => !r.seq && r.cast.isNone && decide (r.owner = n) && decide (r.don = don))

/-- Every instance of a band of a picture has finished: its trigger instance is released (R26). -/
def bandDone (s : State) (n don b : Nat) : Bool := (runsOf s n don).all (fun r => decide (r.band ≠ b) || r.finished)

/-- The trigger instance of band `b` for this parity is free (R26). -/
def parityFree (s : State) (n don b : Nat) : Bool :=
  s.runs.all (fun r => r.seq || r.cast.isSome || decide (r.owner ≠ n) || decide (r.band ≠ b) || decide (r.don = don) ||
    decide (r.don % 2 ≠ don % 2) || r.finished)

/-- Drop the finished instances of a picture or block. -/
def dropRuns (n don : Nat) (s : State) : State :=
  { s with runs := s.runs.filter (fun r => r.seq || r.cast.isSome || decide (r.owner ≠ n) || decide (r.don ≠ don) || !r.finished) }

end Sys2Proof.Machine
end

