-- ==== Sys2Proof/Machine/Pictures.lean ====
section
/-! DEFINITION. Times of a band, flags of its records, PICTURE_STATUS, the reference store, and the record writer's steps
(02_raster_time.md R36, R40; 04_stream_decode.md R89, R98, R103-R118; 03_commands.md R53, R54; 07_mapping.md R195, R196). -/

namespace Sys2Proof.Machine

/-! ### Pictures of access units -/

/-- An access unit complete at tick `t` was complete when decode last restarted (15_recovery.md R355). -/
def Stream.inReplay (x : Stream) (t : Nat) : Bool := match x.replayTick with | some r => decide (t ≤ r) | none => false

/-- The DON `d` pictures before `don`. -/
def donBack (don d : Nat) : Nat := (don + 2 ^ 32 - d) % 2 ^ 32

/-- A new picture of an access unit (R18, R103, R105), DECODE_LATE where a deadline has already fallen (R40). -/
def newPicture (x : Stream) (a : Au) (i : AuInfo) (don loss : Nat) : Picture :=
  let c := x.cfg
  { don := don, au := a.id, pts := a.pts, w := i.sps.width, h := i.sps.height, depth := i.sps.bitDepth, ctb := i.sps.ctb,
    mono := decide (i.sps.chroma = .c400), kind := i.kind, coded := [], segsDone := false, bins := 0, auTick := a.complete.getD 0, within := true,
    list0 := i.list0.map (donBack don), refs := i.refs.map (donBack don),
    concealed := false, concealedUnits := 0, line := 0, rows := 0, sched := a.late.map (·.2.1), bound := a.late.isSome, fired := [], reached := [], late := a.late.map (·.1),
    replayed := (match a.complete with | some t => x.inReplay t | none => false), retShort := a.retShort,
    place := 0, noRef := a.noRef, dropped := false, segSrc := [], rowBins := [], tileCols := [], chains := (x.concealChain, x.raslChain), trkCfg := none, statusDone := a.reported, stored := false, isRef := true, issued := [],
    discard := [], trkDone := [], judged := false, loss := loss, ckpt := none, lineAt := [], segTicks := [], outRing := c.outRing, bPix := c.bPix, deadline := c.deadline, tapped := false,
    tileRows := [], luma := [], cb := [], cr := [] }

/-- Acceptance tick of the feed that held the end of a segment (R89). -/
def segTick (a : Au) (g : SegInfo) : Nat := ((a.marks.find? (fun m => decide (g.endByte ≤ m.1))).map (·.2)).getD a.fed

/-- The segments of an access unit that `segs` names and that have been fed whole, besides those known (R89). -/
def fedSegs (a : Au) (segs : List SegInfo) (known : List (List Nat × Nat)) : List (List Nat × Nat) :=
  known ++ ((segs.filter (fun g => decide (g.endByte ≤ a.bytes.length) && known.all (fun k => decide (k.1 ≠ g.units)))).map (fun g => (g.units, segTick a g)))

/-- The picture an access unit will make: `head` is what its syntax says (log 21). -/
def comingPicture (x : Stream) (a : Au) (don : Nat) (head : AuInfo) : Picture :=
  { newPicture x a head don x.lossDon with segTicks := fedSegs a head.segs [] }

/-! ### Times (R36, R40, R89) -/

/-- CTUs or macroblocks in a row of the picture. -/
def Picture.perRow (p : Picture) : Nat := cdiv p.w p.ctb
/-- CTU or macroblock rows of the picture. -/
def Picture.rowCount (p : Picture) : Nat := cdiv p.h p.ctb
/-- Every row is reconstructed. -/
def Picture.whole (p : Picture) : Bool := decide (p.rowCount ≤ p.rows)

/-- The access unit of a picture is complete (R88). -/
def auComplete (x : Stream) (p : Picture) : Bool :=
  match x.aus.find? (fun a => a.id = p.au) with
  | some a => a.complete.isSome
  | none => true

/-- Segments that hold the units 0 to `n` − 1 have been fed: the acceptance tick of the last feed among theirs (R89). -/
def coverTick (segs : List (List Nat × Nat)) (n : Nat) : Option Nat :=
  if (List.range n).all (fun u => segs.any (fun g => g.1.contains u)) then
    some (maxNat ((segs.filter (fun g => g.1.any (fun u => decide (u < n)))).map (·.2)))
  else none

/-- Tick at which the coded data for lines up to `y` was complete (R89). -/
def dataTick (x : Stream) (p : Picture) (y : Nat) : Option Nat :=
  let whole := if auComplete x p then some p.auTick else none
  if x.cfg.output = 0 then whole
  else
    match coverTick p.segTicks (cdiv (min (y + 8) (p.h - 1) + 1) p.ctb * p.perRow) with
    | some t => some t
    | none => whole

/-- The schedule a picture runs under: the fixed one, else the active one while the stream is served by it (R32, R40). -/
def picSched (s : State) (n : Nat) (p : Picture) : Option SchedRef :=
  match p.sched with
  | some r => some r
  | none => if decide (p.line = 0) && bound s n then s.active else none

/-- Trigger line of a band of a picture. -/
def trigLineOf (s : State) (n : Nat) (p : Picture) (b : Nat) : Nat :=
  let halo := match picSched s n p with | some r => haloOf s r.arm n | none => 0
  trigLine (s.stream n).cfg halo p.h b

/-- t_d of a band (R40). -/
def tdOf (s : State) (n : Nat) (p : Picture) (b : Nat) : Option Nat := dataTick (s.stream n) p (trigLineOf s n p b)

/-- Tick in which LINE first reached the top of a band (R36). It reaches line 0 of a picture when the picture before it is whole, so that the start of a
picture does not lie behind the feed that brings it (log 108): the picture keeps that tick from its first row on. -/
def reachedAt (x : Stream) (p : Picture) (b : Nat) : Option Nat :=
  match tfind p.reached b with
  | some t => some t
  | none => if b = 0 && x.pics.all (fun q => !donLt q.don p.don || q.whole || q.dropped) then some x.wholeAt else none

/-- Values a picture runs under: its own once its first line is final, else those of the retune that waits (R84). -/
def cfgOf (x : Stream) (p : Picture) : StreamCfg :=
  if p.line = 0 && !p.replayed then x.retune.getD x.cfg else { x.cfg with bPix := p.bPix, deadline := p.deadline, outRing := p.outRing }

/-- A stream whose close has begun without FLUSH starts nothing new (Table 3.8). -/
def streamRuns (x : Stream) : Bool := x.isOpen && (match x.closing with | some c => c.flush | none => true)

/-- t_0 of a band (R36). -/
def t0Of (s : State) (n : Nat) (p : Picture) (b : Nat) : Option Nat :=
  match tdOf s n p b, reachedAt (s.stream n) p b with
  | some d, some r => some (max d r)
  | _, _ => none

/-- t_0 of a record about a picture's band or an audio block. -/
def recT0 (s : State) (n don b : Nat) : Nat :=
  let x := s.stream n
  if x.cfg.codec = 2 then tget x.blockTicks don 0
  else match picOf x don with
    | some p => (t0Of s n p b).getD 0
    | none => 0

/-! ### Record flags (R41, R103, R107, R111, R355) -/

/-- Record flags and times as the state gives them. R83 gives no budget for audio blocks: they count as within (log 33). -/
def fillFlags (s : State) (r : RecordReq) : RecordReq :=
  if r.session || r.type = 2 then r
  else
    let x := s.stream r.context
    let don := r.don.toNat
    let r := { r with catching := x.catchup, t0 := recT0 s r.context don r.band }
    if x.cfg.codec = 2 then
      { r with concealed := x.zeroBlocks.contains don, late := false, within := true,
               replayed := match x.replayFrom with | some d => donLt don d | none => false }
    else match picOf x don with
      | some p => { r with concealed := p.concealed, late := p.late.isSome, replayed := p.replayed, within := p.within }
      | none => r

/-- A record request about a band of a stream. -/
def bandRec (slot type don band flags status : Nat) (safe : Bool) (body : List Word) : RecordReq :=
  { session := false, context := slot, type := type, don := w32 don, band := band, typeFlags := flags, t0 := 0, safeNiches := safe,
    within := true, concealed := false, late := false, catching := false, replayed := false, status := status, body := body, slots := [] }

/-! ### PICTURE_STATUS (Table 4.10) -/

/-- The band has fired, is past the first that did not (R107), has no trigger in the picture's schedule, or fires no more since its stream closes
(Table 3.8). -/
def bandPast (s : State) (n : Nat) (p : Picture) (b : Nat) : Bool :=
  match p.sched.bind (schedOf s) with
  | none => true
  | some t => (tfind p.fired b).isSome || (trigOf t false n b).isNone || (match p.late with | some l => decide (l ≤ b) | none => false) ||
      !streamRuns (s.stream n)

/-- Every band of the picture is past. -/
def bandsFired (s : State) (n : Nat) (p : Picture) : Bool := (List.range (bandCount (s.stream n).cfg p.h)).all (bandPast s n p)

/-- The picture's PICTURE_STATUS may be written: its bands' records are, and the picture is complete, with all of its access unit decoded, or DECODE_LATE
(R103, R107, R118). -/
def statusDue (s : State) (n : Nat) (p : Picture) : Bool :=
  !p.statusDone && (p.late.isSome || (p.whole && p.segsDone)) && bandsFired s n p && (runsOf s n p.don).all (·.finished) &&
  (s.stream n).outbox.all (fun r => decide (r.req.don.toNat ≠ p.don))

/-- Code of PIC_KIND. -/
def kindCode : PicKind → Nat
  | .irap => 0
  | .p => 1
  | .b => 2
  | .rasl => 3

/-- STATUS of a PICTURE_STATUS (R107). -/
def picStatus (p : Picture) : Nat := if p.late.isSome then stDecodeLate else if p.concealed then stConcealed else stOk

/-- Units concealed: of the whole picture once its access unit is decoded, before that of the segments decoded (R104). -/
def concealedCount (p : Picture) : Nat :=
  if p.segsDone then p.concealedUnits else ((p.segSrc.flatMap (·.1)).filter (fun u => !p.coded.contains u)).length

/-- Body of a PICTURE_STATUS. -/
def statusBody (p : Picture) : List Word :=
  let pts := p.pts.getD 0
  [w32 pts, dw [(b2n p.retShort, 7, 7), (kindCode p.kind, 6, 4), (b2n p.pts.isSome, 1, 1), (pts / 2 ^ 32, 0, 0)],
   dw [(p.h, 31, 16), (p.w, 15, 0)], w32 (concealedCount p), w32 p.bins, w32 p.auTick, dw [(picStatus p, 15, 0)], 0]

/-- A stream that closes has nothing left to process but picture `don` (Table 3.8, R118). -/
def lastOfClose (s : State) (n don : Nat) : Bool :=
  let x := s.stream n
  match x.closing with
  | none => false
  | some c => x.pics.all (fun p => p.statusDone || p.dropped || decide (p.don = don)) &&
      (!c.flush || (x.aus.all (fun a => a.decoded) && x.feeds.isEmpty))

/-- Issue the PICTURE_STATUS of a picture. One that no feed has completed yet has no AU_TICK: a free value (log 136). -/
def statusRecord (n : Nat) (p : Picture) (s : State) : State :=
  let lastBand := maxNat (p.fired.map (·.1))
  let t0 := if p.fired.isEmpty then 0 else (t0Of s n p lastBand).getD 0
  let open_ := !auComplete (s.stream n) p
  let p' := if open_ then { p with auTick := (Config.freeResult s.free).toNat } else p
  let r := fillFlags s (bandRec n 1 p.don (match p.late with | some b => b | none => 0xFFF) 0 (picStatus p) false (statusBody p'))
  let r := { r with concealed := p.concealed, late := p.late.isSome, replayed := p.replayed }
  let s := if p.concealed then count (ctrSlot n 5) 1 s else s
  issueTo (cfgOf (s.stream n) p).outRing (lastOfClose s n p.don) { r with t0 := t0 } (if open_ then { s with free := s.free + 1 } else s)

/-- Write the PICTURE_STATUS of a picture. -/
def writeStatus (n : Nat) (p : Picture) (s : State) : State :=
  modPic n p.don (fun q => { q with statusDone := true }) (statusRecord n p s)

/-! ### Reference store (R98) -/

/-- The Niche reads its picture from DRAM: an SHP trigger Niche or an ENC Niche. -/
def readsStore (e : NicheEntry) : Bool := (decide (e.station = 1) && !lineNiche e) || decide (e.station = 6)

/-- A Niche that reads the picture from DRAM has not completed: one of a fired band, or of a band still to fire. -/
def readersLeft (s : State) (n : Nat) (p : Picture) : Bool :=
  (runsOf s n p.don).any (fun r => !r.finished && (match nicheAt s r.ref r.niche with | some e => readsStore e | none => false)) ||
  (match p.sched.bind (schedOf s) with
   | none => false
   | some t => (List.range (bandCount (s.stream n).cfg p.h)).any (fun b => !bandPast s n p b &&
      (match trigOf t false n b with
       | some e => (span e.firstNiche e.nicheCount).any (fun k => readsStore (t.niches.getD k default))
       | none => false)))

/-- Release pictures nobody needs from the reference store, and forget pictures whose work is over. The last picture decoded stays known: it
is a concealment source (R104). -/
def sweepPics (n : Nat) (s : State) : State :=
  let x := s.stream n
  let pics := x.pics.map (fun p => { p with stored := p.stored && (p.isRef || !p.whole || readersLeft s n p ||
      x.pics.any (fun q => !q.whole && q.refs.contains p.don)) })
  let gone := pics.filter (fun p => !p.stored && p.statusDone && p.whole && decide (x.lastDon ≠ some p.don) &&
    (uncoveredOf s false n).all (fun t => decide (t.don ≠ p.don)))
  let s := s.setStream n { x with pics := pics.filter (fun p => !(gone.any (fun g => g.don = p.don))) }
  forAll gone (fun p s => dropRuns n p.don s) s

/-! ### BAND_RESULT (R195, R196, 09_sequence.md R226) -/

/-- Entries of one record. -/
def perPart (entryBytes : Nat) : Nat := if entryBytes = 0 then 1 else 130976 / entryBytes

/-- Cut entries into parts. -/
def parts {α : Type} (k : Nat) : Nat → List α → List (List α)
  | 0, l => [l]
  | fuel + 1, l => if l.length ≤ k then [l] else l.take k :: parts k fuel (l.drop k)

/-- Body of one part (Table 7.8). -/
def resultBody (o : OutputData) (part status : Nat) (entries : List (List Byte)) : List Word :=
  [dw [(entries.length, 31, 16), (o.entryBytes, 15, 0)], dw [(o.output, 31, 16), (o.entry, 15, 0)], dw [(part, 31, 16)],
   dw [(status, 15, 0)], 0, 0, 0, 0] ++ bytesWords entries.flatten

/-- The session takes its input from this output. -/
def fedBy (slot output : Nat) (x : Session) : Bool :=
  x.isOpen && x.pendingOpen.isNone && x.shadow.isNone && x.feedEn && decide (x.feedSlot = slot) && decide (x.feedOutput = output)

/-- Sessions fed by an output take a fed append in the tick the record is issued; one whose close has begun counts it (R226). -/
def feedSessions (slot : Nat) (o : OutputData) (flags : Nat) (entries : List (List Byte)) (s : State) : State :=
  forAll (s.sessions.filter (fun e => fedBy slot o.output e.2)) (fun e s =>
    if e.2.closing.isSome then count (ctrFed e.1) 1 s
    else s.modSession e.1 (fun x => { x with fed := x.fed ++ [(entries, flags, s.now)] })) s

/-! ### Order of a stream's records (R118) -/

/-- Niches whose station writes records about a band. -/
def recorder (n : NicheEntry) : Bool := decide (n.station = 4) || decide (n.station = 6) || decide (n.station = 7)

/-- Records of earlier bands and pictures of the slot have all been placed, or can no longer come. -/
def recordTurn (s : State) (n don band : Nat) : Bool :=
  s.runs.all (fun r => r.seq || r.cast.isSome || decide (r.owner ≠ n) || r.finished ||
      !((nicheAt s r.ref r.niche).map recorder).getD false || !(donLt r.don don || (decide (r.don = don) && decide (r.band < band)))) &&
  (s.stream n).pics.all (fun p =>
      if donLt p.don don then p.statusDone || p.dropped else decide (p.don ≠ don) || (List.range band).all (bandPast s n p))

/-- Place a record of a stream whose turn has come; a BAND_RESULT feeds its sessions in the tick it is issued (09_sequence.md R226). -/
def placeLate (n : Nat) (r : LateRec) (s : State) : State :=
  let f := fillFlags s r.req
  let s := issueTo (ringOf s f) r.last f s
  match r.feed with
  | some o => feedSessions n o (b2n f.concealed + 2 * b2n f.catching) o.entries s
  | none => s

/-- The first record of the stream's outbox whose turn has come, lowest band of the earliest picture first. -/
def nextLate (s : State) (n : Nat) : Option LateRec :=
  ((s.stream n).outbox.filter (fun r => recordTurn s n r.req.don.toNat r.req.band)).foldl (fun (best : Option LateRec) r => match best with
    | none => some r
    | some b => if donLt r.req.don.toNat b.req.don.toNat || (decide (r.req.don = b.req.don) && decide (r.req.band < b.req.band)) then some r else some b) none

/-- The waiting access unit whose DECODE_LATE picture reports next: every picture before it has reported (R107), with its picture. -/
def lateAu (s : State) (n : Nat) : Option (Au × Picture) :=
  let x := s.stream n
  if x.pics.all (fun p => p.statusDone || p.dropped) then
    let ws := (x.aus.filter (fun a => !a.decoded && a.don.isNone))
    match ((List.range ws.length).zip ws).find? (fun e => !e.2.reported) with
    | some (k, a) => a.late.map (fun l => (a, comingPicture x a ((x.nextDon + k) % 2 ^ 32) l.2.2))
    | none => none
  else none

/-- Place what is due next of a stream, in the order of R118, `fuel` records at most: records whose turn has come, then the first PICTURE_STATUS not
written, of a picture begun or DECODE_LATE before it began. -/
def placeDue (n : Nat) : Nat → State → State
  | 0, s => s
  | fuel + 1, s =>
    match nextLate s n with
    | some r => placeDue n fuel (placeLate n r (s.modStream n (fun x => { x with outbox := x.outbox.erase r })))
    | none => match (s.stream n).pics.find? (fun p => !p.statusDone && !p.dropped) with
      | some p => if statusDue s n p then placeDue n fuel (writeStatus n p s) else s
      | none => match lateAu s n with
        | some (a, p) => placeDue n fuel ((statusRecord n p s).modStream n (fun x =>
            { x with aus := x.aus.map (fun b => if b.id = a.id then { b with reported := true } else b) }))
        | none => s

/-- What a change of a stream's pictures or instances brings about. -/
def settle (n : Nat) (s : State) : State :=
  let x := s.stream n
  sweepPics n (placeDue n (x.outbox.length + x.pics.length + x.aus.length) s)

/-! ### Handing records over (R118, R355) -/

/-- Replay discards the next record of a band, which was issued before (R355); another is counted as issued. -/
def countRecord (n don band : Nat) (s : State) : Bool × State :=
  let x := s.stream n
  match picOf x don with
  | some p =>
    if tget p.discard band 0 > 0 then (true, modPic n don (fun q => { q with discard := tput q.discard band (tget q.discard band 0 - 1) }) s)
    else (false, modPic n don (fun q => { q with issued := tput q.issued band (tget q.issued band 0 + 1) }) s)
  | none =>
    if x.cfg.codec ≠ 2 then (false, s)
    else if tget x.blockDiscard don 0 > 0 then (true, s.modStream n (fun x => { x with blockDiscard := tput x.blockDiscard don (tget x.blockDiscard don 0 - 1) }))
    else (false, s.modStream n (fun x => { x with blockIssued := tput x.blockIssued don (tget x.blockIssued don 0 + 1) }))

/-- Hand a record about a band of slot `n` to the record writer: discarded in replay when it was issued before (R355), placed when its turn has come, kept
until then otherwise (R118). -/
def bandRecord (n : Nat) (last : Bool) (r : RecordReq) (feed : Option OutputData) (s : State) : State :=
  let don := r.don.toNat
  let c := countRecord n don r.band s
  if c.1 then c.2
  else
    let l : LateRec := { req := r, last := last, feed := feed }
    if recordTurn c.2 n don r.band && (c.2.stream n).outbox.all (fun q => decide (q.req.don ≠ r.don) || decide (q.req.band ≠ r.band)) then placeLate n l c.2
    else c.2.modStream n (fun x => { x with outbox := x.outbox ++ [l] })

/-- Write one output of a band: its parts in order, LAST_PART on the last; `lastRec` marks the context's last record. -/
def writeOutput (slot don band status : Nat) (safe lastRec : Bool) (o : OutputData) (s : State) : State :=
  let o := if status = 0 then o else { o with entries := [] }
  let ps := parts (perPart o.entryBytes) o.entries.length o.entries
  let n := ps.length
  forAll ((List.range n).zip ps) (fun x s =>
    let last := decide (x.1 + 1 = n)
    bandRecord slot (last && lastRec) (bandRec slot 3 don band (b2n last) status safe (resultBody o x.1 status x.2))
      (if status = 0 then some { o with entries := x.2 } else none) s) s

/-! ### The record writer's steps -/

/-- OUT_COAL_EXPIRY (R53): OUT_COAL ticks after the oldest uncovered record, as OUT_COAL was when that record was written (R305). -/
def doOutCoalExpiry (o : Nat) (s : State) : State :=
  let r := s.oring o
  if r.uncovered.isEmpty || s.pcie.d3 then s
  else tailWriteBack o (advanceTo r.due s)

/-- HELD_RECORD_RELEASE (R54). -/
def doHeldRecordRelease (o : Nat) (s : State) : State := releaseHeld ((s.oring o).held.length + 1) o s

def execOutCoalExpiry (o : Nat) (s : State) : Host.Outcome State Fault Refusal := .next (doOutCoalExpiry o s)
def execHeldRecordRelease (o : Nat) (s : State) : Host.Outcome State Fault Refusal := .next (doHeldRecordRelease o s)

end Sys2Proof.Machine
end

