-- ==== Sys2Proof/Machine/Streams.lean ====
section
/-! DEFINITION. STREAM_OPEN, STREAM_CLOSE, STREAM_FEED, STREAM_RETUNE and retention (04_stream_decode.md R77-R92, R108, R109;
03_commands.md R69-R72). -/

namespace Sys2Proof.Machine

/-! ### Parameters (R77, Table 4.1) -/

/-- Stream values from the words of a STREAM_OPEN. -/
def StreamCfg.ofEntry (e : JEntry) : StreamCfg :=
  let p := e.param
  { codec := fld (p 0) 3 0, container := fld (p 0) 11 8, timing := fld (p 0) 14 14, output := fld (p 0) 15 15,
    hBand := 16 * 2 ^ fld (p 0) 17 16, safety := bit (p 0) 19, outRing := fld (p 0) 22 20, depth10 := bit (p 0) 23,
    maxDpb := fld (p 0) 27 24, maxW := fld (p 1) 15 0, maxH := fld (p 1) 31 16, bPix := (p 2).toNat, bitrate := (p 3).toNat,
    framePeriod := (p 4).toNat, retention := if fld (p 5) 31 16 = 0 then 200 else fld (p 5) 31 16, deadline := fld (p 5) 6 0,
    irapMax := (p 6).toNat, audioBlock := 160 * 2 ^ fld (p 7) 25 24, mics := fld (p 7) 19 16, tsPid := fld (p 7) 12 0,
    evMode := fld (p 8) 1 0, evRows := fld (p 8) 7 4, evQpMin := fld (p 8) 13 8, evQpMax := fld (p 8) 21 16, evTarget := (p 9).toNat }

/-- Number within bounds. -/
def inRange (n lo hi : Nat) : Bool := decide (lo ≤ n) && decide (n ≤ hi)

/-- Ranges of Table 4.1 in table order: (PARAM index, in range). MAX_DPB is read as it stands, so its four bits hold 1-15 (log 99). -/
def StreamCfg.ranges (c : StreamCfg) : List (Nat × Bool) :=
  let audio := decide (c.codec = 2)
  let ev := decide (c.evMode ≠ 0)
  [(0, audio || inRange c.maxDpb 1 16), (0, decide (c.container ≤ 1) && (!audio || decide (c.container = 1))), (0, decide (c.codec ≤ 2)),
   (1, audio || inRange c.maxH 64 4352), (1, audio || (inRange c.maxW 64 8192 && decide (c.maxW * c.maxH ≤ 8912896))),
   (2, audio || inRange c.bPix 1000000 534773760), (3, inRange c.bitrate 64000 160000000), (4, audio || inRange c.framePeriod 4000 1000000),
   (5, inRange c.retention 50 2000), (5, audio || inRange c.deadline 16 64), (6, audio || inRange c.irapMax 100 10000),
   (7, !audio || decide (c.audioBlock ≤ 640)), (7, !audio || inRange c.mics 1 8), (7, decide (c.container ≠ 0) || inRange c.tsPid 0x0010 0x1FFF),
   (8, !ev || (decide (c.evQpMax ≤ 51) && decide (c.evQpMin ≤ c.evQpMax))), (8, !ev || decide (c.evQpMin ≤ 51)), (8, !ev || inRange c.evRows 1 15),
   (8, decide (c.evMode ≤ 2)), (9, !ev || inRange c.evTarget 512 131072)]

/-- PARAM index of the first field out of range. -/
def StreamCfg.bad (c : StreamCfg) : Option Nat := (c.ranges.find? (fun x => !x.2)).map (·.1)

/-! ### Budgets (R80, R82) -/

/-- r_B: bins per second; audio streams have none. -/
def StreamCfg.bins (c : StreamCfg) : Nat := if c.codec = 2 then 0 else cdiv (4 * c.bitrate) 3
/-- b_pic. -/
def StreamCfg.bPicBins (c : StreamCfg) : Nat := cdiv (c.bins * c.framePeriod) 1000000
/-- Retention buffer; an audio stream has no IRAP_MAX. -/
def StreamCfg.retBytes (c : StreamCfg) : Nat := cdiv (c.bitrate * ((if c.codec = 2 then 0 else c.irapMax) + c.retention)) 8000 + 4194304
/-- Reference store. -/
def StreamCfg.refBytes (c : StreamCfg) : Nat := cdiv ((c.maxDpb + 2) * c.maxW * c.maxH * 3 * (if c.depth10 then 2 else 1)) 2
/-- Bin buffer of a video stream, or PCM ring of an audio stream. -/
def StreamCfg.binBytes (c : StreamCfg) : Nat := if c.codec = 2 then 4 * c.audioBlock * c.mics * 2 else 2 * (4 * c.bPicBins) * 2
/-- Buffers of Table 4.3, in order: reference store (video), retention, bin buffer or PCM ring. -/
def StreamCfg.buffers (c : StreamCfg) : List Nat :=
  if c.codec = 2 then [c.retBytes, c.binBytes] else [c.refBytes, c.retBytes, c.binBytes]

/-- Values in force for the budget sums: a raised B_pix counts from the retune that raised it (R84). -/
def Stream.budgetPix (x : Stream) : Nat :=
  if x.cfg.codec = 2 then 0 else max x.cfg.bPix (match x.retune with | some c => c.bPix | none => 0)

/-- Sum of B_PIX over open video streams but slot `n`. -/
def pixSum (s : State) (n : Nat) : Nat :=
  ((s.streams.filter (fun e => e.2.isOpen && decide (e.1 ≠ n))).map (fun e => e.2.budgetPix)).sum

/-- Open audio streams. -/
def audioCount (s : State) : Nat := (s.streams.filter (fun e => e.2.isOpen && decide (e.2.cfg.codec = 2))).length

/-- Reserved bins of an entropy engine. -/
def engineLoad (s : State) (k : Nat) : Nat :=
  ((s.streams.filter (fun e => e.2.isOpen && decide (e.2.engine = k) && decide (e.2.cfg.codec ≠ 2))).map (fun e => e.2.cfg.bins)).sum

/-- Engine with the most unreserved capacity, the lowest index on a tie (R80). -/
def pickEngine (s : State) : Nat :=
  (List.range 8).foldl (fun best k => if engineLoad s k < engineLoad s best then k else best) 0

/-- Set the order of the reconstruction pool, at every open, close and retune, and when retuned values come into force (R81, R84). -/
def setPool (s : State) : State :=
  { s with pool := (s.streams.filter (fun e => e.2.isOpen && decide (e.2.cfg.codec ≠ 2))).map (fun e => (e.1, e.2.cfg.bPix, 0)) }

/-! ### STREAM_OPEN (R77-R82) -/

/-- Lowest slot free for an open (R69). -/
def freeSlot (s : State) : Option Nat :=
  (List.range Config.slots).find? (fun n => let x := s.stream n; !x.isOpen && !x.opening && x.deferred.isNone)

/-- An opened stream. -/
def openedStream (c : StreamCfg) (g engine : Nat) (bufs : List (List Alloc)) : Stream :=
  let video := decide (c.codec ≠ 2)
  { Stream.closed g with
    isOpen := true, cfg := c, engine := engine, retCap := c.retBytes
    picRegion := if video then bufs.getD 0 [] else []
    retAllocs := bufs.getD (if video then 1 else 0) []
    allocs := bufs.getD (if video then 2 else 1) [] }

/-- Admission and allocation (Table 4.2), then the open slot. -/
def admitStream (j n : Nat) (c : StreamCfg) (s : State) : State :=
  let video := decide (c.codec ≠ 2)
  let k := pickEngine s
  if !video && decide (audioCount s ≥ 64) then finish j stDecodeBudget [] s
  else if video && decide (pixSum s n + c.bPix > Config.decodeBudget) then finish j stDecodeBudget [] s
  else if video && decide (engineLoad s k + c.bins > Config.engineBins) then finish j stDecodeBudget [] s
  else match allocAll c.safety false c.buffers [] s with
    | (none, s) => finish j stPoolEmpty [] s
    | (some bufs, s) =>
      let g := (s.stream n).gen
      let s := setPool (s.setStream n { openedStream c g (if video then k else 0) bufs with wholeAt := s.now, deferred := (s.stream n).deferred })
      let s := if c.safety then detect 15 s else s
      let total := c.buffers.sum
      finishCtx j stOpenOk g n [w32 total, hi32 total, w32 (if video then k else 0)] s

/-- The open of a slot that is not open, or of the lowest free slot: context state, GEN, parameters, resources (R57, R69). -/
def openStream (j : Nat) (e : JEntry) (s : State) : State :=
  if decide (e.ctx ≠ 0xFFFF) && (s.stream e.ctx).isOpen then finish j stCtxBusy [] s
  else if e.gen ≠ 0 then finish j stStaleGen [] s
  else
    let c := StreamCfg.ofEntry e
    match c.bad with
    | some i => finish j stBadParam [w32 i] s
    | none =>
      match (if e.ctx = 0xFFFF then freeSlot s else some e.ctx) with
      | none => finish j stNoFree [] s
      | some n => admitStream j n c s

/-- STREAM_OPEN (0x10). -/
def doStreamOpen (j : Nat) (s : State) : State := runCmd j 0x10 s (openStream j)

/-! ### Retention (R108, R109) -/

/-- Bytes in use: whole access units, the one not yet complete, and feeds not yet parsed. -/
def Stream.inUse (x : Stream) : Nat := (x.aus.map (·.size)).sum + (x.feeds.map (fun f => f.bytes.length)).sum

/-- How many access units at the front R108 no longer keeps at tick `t`: a later IRAP or IDR precedes the oldest one kept by age. -/
def releasable (x : Stream) (t : Nat) : Nat :=
  let keep (a : Au) : Bool := decide (t ≤ a.fed + x.cfg.retention * 1000) || a.complete.isNone
  let first := ((List.range x.aus.length).zip x.aus).find? (fun e => keep e.2)
  let bound_ := match first with | some (i, _) => i | none => x.aus.length
  if x.cfg.codec = 2 then bound_
  else
    let iraps := ((List.range x.aus.length).zip x.aus).filter (fun e => e.2.irap && decide (e.1 < bound_))
    match iraps.getLast? with
    | some (i, _) => i
    | none => 0

/-- Release what R108 no longer keeps. -/
def release108 (n t : Nat) (s : State) : State := s.modStream n (fun x => { x with aus := x.aus.drop (releasable x t) })

/-- More than IRAP_MAX has passed since the last complete IRAP or IDR, or the first feed (R109). -/
def overdue (x : Stream) (t : Nat) : Bool :=
  match x.irapFrom with
  | none => false
  | some a => decide (x.cfg.codec ≠ 2) && decide (t > a + x.cfg.irapMax * 1000)

/-- Drop the oldest complete access units until `len` bytes fit. -/
def dropOldest (cap len : Nat) : Nat → Stream → Stream
  | 0, x => x
  | fuel + 1, x =>
    if x.inUse + len ≤ cap then x
    else match x.aus with
      | a :: r => if a.complete.isSome then dropOldest cap len fuel { x with aus := r } else x
      | [] => x

/-- Room for a feed of `len` bytes accepted at `t`: releases under R108, and under R109 for an overdue stream, which begin the
RETENTION_SHORT condition. -/
def makeRoom (n len t : Nat) (s : State) : State :=
  let s := release108 n t s
  let x := s.stream n
  if x.inUse + len ≤ x.retCap || !overdue x t then s
  else
    let y := dropOldest x.retCap len x.aus.length x
    if y.aus.length = x.aus.length then s
    else
      let s := s.setStream n y
      if y.retShort then s
      else streamEvent n 9 0 0 (s.modStream n (fun x => { x with retShort := true, retShortAt := t }))

/-- RETENTION_RELEASE (R108). -/
def doRetentionRelease (n : Nat) (s : State) : State := if (s.stream n).isOpen then release108 n s.now s else s

/-- RETENTION_SHORT_END (R109): an IRAP or IDR fed after the release has been retained for RETENTION ms. One that the very feed of the first
release completed does not count (log 100). -/
def doRetentionShortEnd (n : Nat) (s : State) : State :=
  let x := s.stream n
  match x.aus.find? (fun a => a.irap && a.complete.isSome && decide (a.fed > x.retShortAt)) with
  | some a =>
    if x.isOpen && x.retShort then
      (advanceTo (a.fed + x.cfg.retention * 1000) s).modStream n (fun x => { x with retShort := false })
    else s
  | none => s

/-! ### STREAM_FEED (R85-R89) -/

/-- Bytes of the WAR record at the front: header, payload, padding to 4; none when PAYLOAD_LEN is out of range (R91). -/
def warLen (bs : List Byte) : Option Nat :=
  let n := leNat 4 (bs.drop 4)
  if bs.length ≥ 16 && inRange n 1 4194288 then some (16 + cdiv n 4 * 4) else none

/-- The bytes are a whole number of WAR records. -/
def warWhole : Nat → List Byte → Bool
  | _, [] => true
  | 0, _ => false
  | fuel + 1, bs => match warLen bs with
    | some k => decide (k ≤ bs.length) && warWhole fuel (bs.drop k)
    | none => false

/-- Length and framing of a feed (Table 3.5, R85). -/
def feedOk (c : StreamCfg) (len : Nat) (bs : List Byte) : Bool :=
  inRange len 1 4194304 && decide (bs.length = len) && (if c.container = 0 then decide (len % 188 = 0) else warWhole (len / 16) bs)

/-- The access unit being fed. -/
def Stream.openAu (x : Stream) : Option Au := x.aus.find? (fun a => !a.closed)

/-- A picture has been begun from this access unit. -/
def Au.begun (a : Au) : Bool := a.don.isSome

/-- Bytes that follow the start codes of an Annex B byte stream: the first byte of each NAL unit header. -/
def nalHeads : List Byte → List Byte
  | [] => []
  | a :: t => match t with
    | b :: c :: d :: _ => if a = 0 && b = 0 && c = 1 then d :: nalHeads t else nalHeads t
    | _ => nalHeads t

/-- The access unit holds an IDR (H.264/AVC) or IRAP (H.265/HEVC) picture; NAL unit types reserved by the codec standard are ignored (R94). -/
def hasIrap (codec : Nat) (bs : List Byte) : Bool :=
  (nalHeads bs).any (fun h => if codec = 1 then inRange (h.toNat / 2 % 64) 16 21 else decide (h.toNat % 32 = 5))

/-- Complete the access unit being fed at the acceptance tick of its last feed. -/
def completeAu (t : Nat) (x : Stream) : Stream :=
  match x.openAu with
  | none => x
  | some a =>
    let irap := hasIrap x.cfg.codec a.bytes
    { x with aus := x.aus.map (fun b => if b.id = a.id then { b with closed := true, complete := some t, irap := irap } else b),
             irapFrom := if irap then some t else x.irapFrom,
             pics := x.pics.map (fun p => if p.au = a.id then { p with auTick := t, replayed := p.replayed || x.inReplay t } else p) }

/-- Reconstruction of the access unit's picture has begun (R87). -/
def reconBegun (x : Stream) (a : Au) : Bool := x.pics.any (fun p => decide (p.au = a.id) && decide (0 < p.rows))

/-- Discard an access unit without a DON: a picture of it that reconstruction has not begun goes with it, and its number is free again. -/
def forgetAu (a : Au) (x : Stream) : Stream :=
  let x := { x with aus := x.aus.filter (fun b => b.id ≠ a.id), gapNext := x.gapNext || a.gap }
  match x.pics.find? (fun p => decide (p.au = a.id)) with
  | none => x
  | some p => { x with pics := x.pics.filter (fun q => q.don ≠ p.don), nextDon := p.don, concealChain := p.chains.1, raslChain := p.chains.2,
                       concealedDons := x.concealedDons.filter (fun d => d ≠ p.don) }

/-- Cut the incomplete access unit short at a discontinuity (R87): one whose picture is being reconstructed ends with the data fed so far,
another is discarded without a DON. -/
def cutAu (x : Stream) : Stream :=
  match x.openAu with
  | none => x
  | some a => if reconBegun x a then completeAu a.fed x else forgetAu a x

/-- The rest of the access unit being fed is discarded after an overflow (R86): what was fed of it is decoded and the rest concealed (R104), and
later pictures find it missing (R105). Its AU_TICK is the acceptance tick of its last accepted feed (DESIGN CHOICE, log 144). -/
def dropAu (x : Stream) : Stream :=
  match x.openAu with
  | none => x
  | some a =>
    if a.bytes.isEmpty then forgetAu a x
    else
      let x := completeAu a.fed x
      { x with aus := x.aus.map (fun b => if b.id = a.id then { b with noRef := true } else b),
               pics := x.pics.map (fun p => if p.au = a.id then { p with noRef := true } else p) }

/-- A mark without bytes: of a feed turned away with FEED_OVERFLOW AU_END counts and DISCONT does not (DESIGN CHOICE, log 145). -/
def FeedChunk.mark (tick : Nat) (asn : Word) (auEnd drop : Bool) : FeedChunk :=
  { bytes := [], tick := tick, asn := asn, auEnd := auEnd, discont := false, drop := drop, short := false }

/-- Append a feed, with the RETENTION_SHORT condition at its acceptance (R109); its bytes count for R83. -/
def takeFeed (e : JEntry) (x : Stream) : Stream :=
  let f : FeedChunk := { bytes := e.data, tick := e.tick, asn := e.asn, auEnd := bit (e.param 3) 0, discont := bit (e.param 3) 1, drop := false,
                         short := x.retShort }
  { x with feeds := x.feeds ++ [f], fedBytes := x.fedBytes ++ [(e.tick, e.data.length)] }

/-- STREAM_FEED (0x12). -/
def doStreamFeed (j : Nat) (s : State) : State :=
  runCmd j 0x12 s (fun e s =>
    let n := e.ctx
    match streamCheck s e with
    | some st => finish j st [] s
    | none =>
      let len := (e.param 2).toNat
      if !feedOk (s.stream n).cfg len e.data then
        finish j stBadParam [w32 (s.stream n).inUse, w32 ((s.stream n).retCap - (s.stream n).inUse)] s
      else
        let s := s.modStream n (fun x => { x with irapFrom := x.irapFrom.orElse (fun _ => some e.tick) })
        let s := makeRoom n len e.tick s
        let x := s.stream n
        if x.inUse + len > x.retCap then
          let s := s.modStream n (fun x => { x with feeds := x.feeds ++ [FeedChunk.mark e.tick e.asn (bit (e.param 3) 0) true] })
          let s := streamEvent n 4 stFeedOverflow e.asn.toNat s
          finish j stFeedOverflow [w32 x.inUse, w32 (x.retCap - x.inUse)] s
        else
          let s := s.modStream n (takeFeed e)
          let x := s.stream n
          finish j stOk [w32 x.inUse, w32 (x.retCap - x.inUse)] s)

/-! ### STREAM_RETUNE (R84) -/

/-- New values a retune selects, over the values in force or waiting. -/
def retuned (e : JEntry) (c : StreamCfg) : StreamCfg :=
  let m := e.param 0
  let audio := decide (c.codec = 2)
  let c := if bit m 0 && !audio then { c with bPix := (e.param 1).toNat } else c
  let c := if bit m 1 && !audio then { c with deadline := fld (e.param 2) 6 0 } else c
  let c := if bit m 2 then { c with retention := if fld (e.param 3) 31 16 = 0 then 200 else fld (e.param 3) 31 16 } else c
  if bit m 3 then { c with outRing := fld (e.param 4) 22 20 } else c

/-- PARAM index of the first selected value out of range. -/
def retuneBad (e : JEntry) (c : StreamCfg) : Option Nat :=
  let m := e.param 0
  let audio := decide (c.codec = 2)
  ([(1, !bit m 0 || audio || inRange c.bPix 1000000 534773760), (2, !bit m 1 || audio || inRange c.deadline 16 64),
    (3, !bit m 2 || inRange c.retention 50 2000)].find? (fun x => !x.2)).map (·.1)

/-- The first line of the picture became final after tick `t`, or is not final yet. -/
def Picture.freshAfter (t : Nat) (p : Picture) : Bool :=
  match p.lineAt.find? (fun e => decide (0 < e.1)) with
  | some e => decide (t < e.2)
  | none => true

/-- DON of the first picture whose first line becomes final after tick `t`; the block number of an audio stream. -/
def nextFresh (x : Stream) (t : Nat) : Nat :=
  if x.cfg.codec = 2 then x.block
  else match x.pics.find? (Picture.freshAfter t) with
    | some p => p.don
    | none => x.nextDon

/-- Store a retune accepted at tick `t`: pictures whose first line became final since then take its values at once, and an audio stream has no
picture to wait for. -/
def storeRetune (n t : Nat) (c : StreamCfg) (s : State) : State :=
  s.modStream n (fun x =>
    let begun (p : Picture) : Bool := p.freshAfter t && decide (0 < p.line)
    if x.cfg.codec = 2 then { x with cfg := c }
    else if x.pics.any begun then
      { x with cfg := c, retune := none,
               pics := x.pics.map (fun p => if begun p then { p with outRing := c.outRing, bPix := c.bPix, deadline := c.deadline } else p) }
    else { x with retune := some c })

/-- STREAM_RETUNE (0x13). -/
def doStreamRetune (j : Nat) (s : State) : State :=
  runCmd j 0x13 s (fun e s =>
    let n := e.ctx
    match streamCheck s e with
    | some st => finish j st [] s
    | none =>
      let x := s.stream n
      let old := x.retune.getD x.cfg
      let c := retuned e old
      match retuneBad e c with
      | some i => finish j stBadParam [w32 i] s
      | none =>
        if decide (c.bPix > old.bPix) && decide (c.codec ≠ 2) && decide (pixSum s n + c.bPix > Config.decodeBudget) then
          finish j stDecodeBudget [] s
        else
          let trip (s : State) : State := if maskBit s.safety.mask n && decide (s.safety.state ≠ 0) then detect 15 s else s
          let done (s : State) : State := finish j stOk [w32 (nextFresh x e.tick)] (setPool (storeRetune n e.tick c (trip s)))
          if c.retBytes > x.retCap then
            match allocAll x.cfg.safety false [c.retBytes] [] s with
            | (none, s) => finish j stPoolEmpty [] s
            | (some bufs, s) =>
              let s := forAll x.retAllocs release s
              done (s.modStream n (fun x => { x with retAllocs := bufs.getD 0 [], retCap := c.retBytes }))
          else done s)

/-! ### STREAM_CLOSE (R71, Table 3.8) -/

/-- The access unit goes on in a close without FLUSH: its picture is being reconstructed, and it was fed whole (R71). -/
def keptByClose (x : Stream) (a : Au) : Bool := a.closed && reconBegun x a

/-- What step 1 of a close does to the data not yet processed: with FLUSH the incomplete access unit is taken as complete; without it everything but the
pictures being reconstructed is discarded, an access unit fed in part with them (R71). -/
def closeFeeds (flush : Bool) (t : Nat) (x : Stream) : Stream :=
  if flush then (if x.feeds.isEmpty && x.openAu.isNone then x else { x with feeds := x.feeds ++ [FeedChunk.mark t 0 true false] })
  else
    { x with feeds := [], aus := x.aus.map (fun a => if keptByClose x a then a else { a with decoded := true, closed := true })
             pics := x.pics.map (fun p => if p.whole || p.segsDone && decide (0 < p.rows) || x.aus.any (fun a => decide (a.id = p.au) && keptByClose x a) then p else { p with dropped := true })
             pcm := x.pcm.take (x.pcm.length - x.pcmPart), pcmPart := 0 }

/-- Close a stream of this part: CLOSE_DRAINING, and new issue stops. -/
def beginClose (j n : Nat) (flush : Bool) (s : State) : State :=
  let x := s.stream n
  let s := if maskBit s.safety.mask n && decide (s.safety.state ≠ 0) then detect 15 s else s
  let s := s.modStream n (fun x =>
    closeFeeds flush s.now { x with closing := some { j := j, flush := flush, freed := false } })
  interim j stCloseDraining x.gen s

/-- STREAM_CLOSE (0x11). -/
def doStreamClose (j : Nat) (s : State) : State :=
  runCmd j 0x11 s (fun e s =>
    match streamCheck s e with
    | some st => rejectClose j st (false, e.ctx) s
    | none => beginClose j e.ctx (bit (e.param 0) 0) s)

def execStreamOpen (j : Nat) (s : State) : Host.Outcome State Fault Refusal := .next (doStreamOpen j s)
def execStreamClose (j : Nat) (s : State) : Host.Outcome State Fault Refusal := .next (doStreamClose j s)
def execStreamFeed (j : Nat) (s : State) : Host.Outcome State Fault Refusal := .next (doStreamFeed j s)
def execStreamRetune (j : Nat) (s : State) : Host.Outcome State Fault Refusal := .next (doStreamRetune j s)
def execRetentionRelease (slot : Nat) (s : State) : Host.Outcome State Fault Refusal := .next (doRetentionRelease slot s)
def execRetentionShortEnd (slot : Nat) (s : State) : Host.Outcome State Fault Refusal := .next (doRetentionShortEnd slot s)

end Sys2Proof.Machine
end

