-- ==== Sys2Proof/Machine/Parse.lean ====
section
/-! DEFINITION. The container parser: transport packets and WAR records (04_stream_decode.md R87-R92, R110, R111). The layouts of transport
packets, PAT, PMT and PES headers, and the NAL unit types of IDR and IRAP pictures, are those of the standards the manual names
(PRESUMED, log 26). -/

namespace Sys2Proof.Machine

/-! ### Access units (R86-R88) -/

/-- Begin an access unit. -/
def beginAu (pts : Option Nat) (f : FeedChunk) (x : Stream) : Stream :=
  let a : Au := { id := x.nextAu, bytes := [], size := 0, complete := none, fed := f.tick, pts := pts, irap := false, decoded := false,
                  retShort := f.short, closed := false, gap := x.gapNext, don := none, started := false, marks := [], taken := 0,
                  noRef := false, late := none, reported := false }
  { x with aus := x.aus ++ [a], nextAu := x.nextAu + 1, gapNext := false, dropRest := false }

/-- Append coded bytes to the access unit being fed; `size` bytes of the feed count with it. -/
def growAu (bs : List Byte) (size : Nat) (f : FeedChunk) (x : Stream) : Stream :=
  match x.openAu with
  | none => x
  | some a => { x with aus := x.aus.map (fun b => if b.id = a.id then
      { b with bytes := b.bytes ++ bs, size := b.size + size, fed := f.tick, retShort := b.retShort || f.short,
               marks := b.marks ++ [(b.bytes.length + bs.length, f.tick)] } else b) }

/-- A discontinuity (R87). -/
def discontinuity (x : Stream) : Stream := { cutAu x with gapNext := true, lastCc := none }

/-! ### Feeds -/

/-- What the end of a feed brings: a discard (R86) and AU_END (R88). -/
def endChunk (f : FeedChunk) (x : Stream) : Stream :=
  let x := if f.drop then { dropAu x with dropRest := !f.auEnd } else x
  if f.auEnd then { completeAu f.tick x with dropRest := false } else x

/-- Pass the feeds at the front that hold no more bytes. -/
def passMarks : Nat → Stream → Stream
  | 0, x => x
  | fuel + 1, x => match x.feeds with
    | f :: r => if f.bytes.isEmpty then passMarks fuel (endChunk f { x with feeds := r }) else x
    | [] => x

/-- The next `k` bytes of the feed at the front, after its DISCONT has been applied. -/
def takeBytes (k : Nat) (x : Stream) : List Byte × FeedChunk × Stream :=
  match x.feeds with
  | [] => ([], FeedChunk.mark 0 0 false false, x)
  | f :: r =>
    let x := if f.discont then discontinuity x else x
    (f.bytes.take k, f, { x with feeds := { f with bytes := f.bytes.drop k, discont := false } :: r })

/-- The parser works: the slot is open and the compute domain takes work. -/
def parserUp (s : State) (n : Nat) : Bool := (s.stream n).isOpen && computeUp s && decide (s.chip.phase = .ready)

/-- Pass the marks at the front, and those behind the bytes just taken. -/
def passFeeds (n : Nat) (s : State) : State := s.modStream n (fun x => passMarks x.feeds.length x)

/-! ### MPEG-2 Transport Stream (Table 4.4) -/

/-- Fields of a packet. -/
structure TsPacket where
  sync : Bool
  tei : Bool
  pusi : Bool
  pid : Nat
  scrambled : Bool
  cc : Nat
  payload : Option (List Byte)
deriving DecidableEq, Repr, Inhabited

/-- Read a packet. -/
def TsPacket.ofBytes (bs : List Byte) : TsPacket :=
  let b (i : Nat) : Nat := (bs.getD i 0).toNat
  let afc := b 3 / 16 % 4
  { sync := decide (b 0 = 0x47), tei := decide (b 1 / 128 = 1), pusi := decide (b 1 / 64 % 2 = 1), pid := b 1 % 32 * 256 + b 2,
    scrambled := decide (b 3 / 64 ≠ 0), cc := b 3 % 16,
    payload := if afc = 1 then some (bs.drop 4) else if afc = 3 then some (bs.drop (5 + b 4)) else none }

/-- The section is whole. -/
def sectionWhole (sec : List Byte) : Bool := decide (3 ≤ sec.length) && decide (3 + beNat 2 (sec.drop 1) % 4096 ≤ sec.length)

/-- Sections a packet of a PAT or PMT PID brings bytes of: the one under way, and the one it starts. -/
def sectionParts (old : List Byte) (pusi : Bool) (pl : List Byte) : List (List Byte) :=
  if pusi then
    let k := (pl.getD 0 0).toNat
    (if old.isEmpty then [] else [old ++ (pl.drop 1).take k]) ++ [pl.drop (1 + k)]
  else if old.isEmpty then [] else [old ++ pl]

/-- PMT PID of the first program of a PAT. -/
def patPmt (sec : List Byte) : Option Nat :=
  let n := (beNat 2 (sec.drop 1) % 4096 - 9) / 4
  (((List.range n).map (fun i => sec.drop (8 + 4 * i))).find? (fun e => decide (beNat 2 e ≠ 0))).map (fun e => beNat 2 (e.drop 2) % 8192)

/-- Streams of a PMT: (stream_type, PID). -/
def pmtStreams : Nat → List Byte → List (Nat × Nat)
  | 0, _ => []
  | fuel + 1, bs =>
    if bs.length < 5 then []
    else ((bs.getD 0 0).toNat, beNat 2 (bs.drop 1) % 8192) :: pmtStreams fuel (bs.drop (5 + beNat 2 (bs.drop 3) % 4096))

/-- First video stream of a PMT. -/
def pmtVideo (sec : List Byte) : Option (Nat × Nat) :=
  let len := beNat 2 (sec.drop 1) % 4096
  let skip := 12 + beNat 2 (sec.drop 10) % 4096
  (pmtStreams 64 ((sec.take (3 + len - 4)).drop skip)).find? (fun e => [0x01, 0x02, 0x10, 0x1B, 0x24].contains e.1)

/-- PTS and elementary bytes of a PES start. -/
def pesStart (pl : List Byte) : Option Nat × List Byte :=
  let b (i : Nat) : Nat := (pl.getD i 0).toNat
  if beNat 3 pl ≠ 1 then (none, pl)
  else
    let pts := if b 7 / 128 = 1 then
      some (b 9 / 2 % 8 * 2 ^ 30 + b 10 * 2 ^ 22 + b 11 / 2 * 2 ^ 15 + b 12 * 2 ^ 7 + b 13 / 2) else none
    (pts, pl.drop (9 + b 8))

/-- Video PID of the stream. -/
def videoPidOf (x : Stream) : Option Nat := if x.cfg.tsPid = 0x1FFF then x.videoPid else some x.cfg.tsPid

/-- Count a discarded transport packet. -/
def tsDiscard (n : Nat) (s : State) : State := count (ctrSlot n 7) 1 s

/-- Put the stream into rejection with one event (R99). -/
def enterReject (n status : Nat) (s : State) : State :=
  if (s.stream n).reject.isSome || (s.stream n).dim then s
  else streamEvent n 3 status 0 (s.modStream n (fun x => { x with reject := some status }))

/-- The packet is of the PAT or PMT PID, and the video PID is still to be taken. -/
def wantsPsi (x : Stream) (pid : Nat) : Bool :=
  decide (x.cfg.tsPid = 0x1FFF) && x.videoPid.isNone && (decide (pid = 0) || decide (x.pmtPid = some pid))

/-- A whole section of a PAT or PMT. A PMT without a video stream is passed over for the next one (log 26). -/
def takeSection (n pid : Nat) (sec : List Byte) (s : State) : State :=
  if pid = 0 then s.modStream n (fun x => { x with pmtPid := patPmt sec })
  else if (s.stream n).videoPid.isSome then s
  else match pmtVideo sec with
    | none => s
    | some (ty, v) =>
      let s := s.modStream n (fun x => { x with videoPid := some v })
      if ty = (if (s.stream n).cfg.codec = 1 then 0x24 else 0x1B) then s else enterReject n stUnsupProfile s

/-- A packet of the PAT or PMT PID (Table 4.4): sections are put together from its payloads. -/
def takePsi (n : Nat) (p : TsPacket) (pl : List Byte) (s : State) : State :=
  let secs := sectionParts (tget (s.stream n).psi p.pid []) p.pusi pl
  let left := match secs.getLast? with
    | some l => if sectionWhole l then [] else l
    | none => []
  let s := s.modStream n (fun x => { x with psi := if left.isEmpty then tdel x.psi p.pid else tput x.psi p.pid left })
  forAll (secs.filter sectionWhole) (takeSection n p.pid) s

/-- Continuity of the video PID: packets missing, when a gap shows. -/
def ccGap (x : Stream) (cc : Nat) : Option Nat :=
  match x.lastCc with
  | none => none
  | some l => let d := (cc + 15 - l) % 16; if d = 0 then none else some d

/-- Payload of the video PID. -/
def takeVideo (n : Nat) (f : FeedChunk) (p : TsPacket) (pl : List Byte) (s : State) : State :=
  if p.pusi then
    let e := pesStart pl
    s.modStream n (fun x => growAu e.2 188 f (beginAu e.1 f (completeAu f.tick x)))
  else s.modStream n (fun x => if x.dropRest then x else growAu pl 188 f x)

/-- A continuity gap on the video PID, or an error packet before this one: a discontinuity with one event (R87, R90). -/
def tsGap (n : Nat) (p : TsPacket) (s : State) : State :=
  let x := s.stream n
  let gap := ccGap x p.cc
  if gap.isSome || x.errGap then
    let s := s.modStream n (fun x => { discontinuity x with errGap := false })
    streamEvent n 7 0 (match gap with | some d => if x.lastCc = some p.cc then 1 else d | none => 1) s
  else s

/-- A scrambled packet is discarded, with one event for a run of them (R90). -/
def tsScrambled (n : Nat) (s : State) : State :=
  let run := (s.stream n).scrambled
  let s := tsDiscard n (s.modStream n (fun x => { x with scrambled := true }))
  if run then s else streamEvent n 8 0 0 s

/-- A packet of the video PID that carries payload: continuity, scrambling, data. A repeated continuity_counter marks the duplicate packet
that the transport standard permits (log 26). -/
def takeVideoPacket (n : Nat) (f : FeedChunk) (p : TsPacket) (pl : List Byte) (s : State) : State :=
  let x := s.stream n
  if x.lastCc = some p.cc && !x.errGap then (if p.scrambled then tsScrambled n s else s)
  else
    let s := (tsGap n p s).modStream n (fun x => { x with lastCc := some p.cc })
    if p.scrambled then tsScrambled n s
    else takeVideo n f p pl (s.modStream n (fun x => { x with scrambled := false }))

/-- One transport packet (R90). -/
def takePacket (n : Nat) (f : FeedChunk) (p : TsPacket) (s : State) : State :=
  if !p.sync then tsDiscard n s
  else if p.tei then
    tsDiscard n (s.modStream n (fun x => { cutAu x with gapNext := true, errGap := true }))
  else match p.payload with
    | none => s
    | some pl =>
      if videoPidOf (s.stream n) = some p.pid then takeVideoPacket n f p pl s
      else if wantsPsi (s.stream n) p.pid then
        if p.scrambled then tsScrambled n s else takePsi n p pl (s.modStream n (fun x => { x with scrambled := false }))
      else s

/-- TS_PACKET. -/
def doTsPacket (n : Nat) (s : State) : State :=
  if !parserUp s n || decide ((s.stream n).cfg.container ≠ 0) then s
  else
    let s := passFeeds n s
    if (s.stream n).feeds.isEmpty then s
    else
      let r := takeBytes 188 (s.stream n)
      passFeeds n (takePacket n r.2.1 (TsPacket.ofBytes r.1) (s.setStream n r.2.2))

/-! ### WAR records (R91, R92) -/

/-- A video record (R88, R92). -/
def warVideo (n : Nat) (f : FeedChunk) (h : Nat → Word) (payload : List Byte) (size : Nat) (s : State) : State :=
  let first := bit (h 3) 1
  let last := bit (h 3) 2
  let s := if bit (h 3) 3 then s.modStream n discontinuity else s
  let pts := (h 2).toNat + b2n (bit (h 3) 0) * 2 ^ 32
  let s := if first then s.modStream n (fun x => beginAu (some pts) f (completeAu f.tick x)) else s
  let s := s.modStream n (fun x => if x.dropRest then x else growAu payload size f x)
  if last then s.modStream n (fun x => { (if x.dropRest then x else completeAu f.tick x) with dropRest := false }) else s

/-- Bytes of an audio block. -/
def blockBytes (c : StreamCfg) : Nat := c.audioBlock * c.mics * 2

/-- Write sample frames into the PCM ring: whole blocks take numbers in order; blocks that hold inserted zeros are noted. -/
def writePcm (n t : Nat) (zeros : Bool) (bs : List Byte) (s : State) : State :=
  let x := s.stream n
  let bb := blockBytes x.cfg
  let total := x.pcmPart + bs.length
  let made := total / bb
  let touched := span x.block (if bs.isEmpty then 0 else (total - 1) / bb + 1)
  let ring := x.pcm ++ bs
  let s := s.setStream n { x with
    pcm := ring.drop (ring.length - 4 * bb), pcmPart := total % bb, block := (x.block + made) % 2 ^ 32
    blockTicks := (span x.block made).foldl (fun m k => tput m (k % 2 ^ 32) t) x.blockTicks
    zeroBlocks := if zeros then (x.zeroBlocks ++ touched.map (fun k => k % 2 ^ 32)).eraseDups else x.zeroBlocks }
  if made = 0 then s else count (ctrSlot n 0) made s

/-- Discard the partial block with its samples, inserted ones among them; its number goes to the next block. -/
def dropPartial (x : Stream) : Stream :=
  { x with pcm := x.pcm.take (x.pcm.length - x.pcmPart), pcmPart := 0, zeroBlocks := x.zeroBlocks.filter (fun k => k ≠ x.block) }

/-- An audio record's samples against the PTS that continuity predicts, in eighths of a PTS unit: 45 per sample frame (R111).
After any record continuity predicts from that record's own end, also where it overlaps samples already written (log 31). -/
def warAudio (n t : Nat) (h : Nat → Word) (payload : List Byte) (s : State) : State :=
  let x := s.stream n
  let fb := 2 * x.cfg.mics
  let frames := payload.length / fb
  let valid := bit (h 3) 1
  let pts8 := 8 * ((h 2).toNat + b2n (bit (h 3) 0) * 2 ^ 32)
  let disc := bit (h 3) 3 || x.gapNext
  let want := x.nextPts.getD pts8
  let d : Int := if valid then signed 36 ((pts8 + 2 ^ 36 - want) % 2 ^ 36) else 0
  let near := ((d.natAbs + 22) / 45 : Nat)
  let next := ((if valid then pts8 else want) + 45 * frames) % 2 ^ 36
  let s := s.modStream n (fun x => { x with nextPts := some next, gapNext := false })
  if disc || decide (d > 72000) then
    let s := streamEvent n 10 0 (if d > 0 then near else 0) (s.modStream n dropPartial)
    writePcm n t false payload s
  else if d > 90 then writePcm n t false payload (writePcm n t true (List.replicate (near * fb) 0) s)
  else if d < -90 then writePcm n t false (payload.drop (near * fb)) s
  else writePcm n t false payload s

/-- Keep an audio record in retention for a later replay (R354). -/
def keepRecord (bs : List Byte) (t : Nat) (x : Stream) : Stream :=
  { x with aus := x.aus ++ [{ id := x.nextAu, bytes := bs, size := bs.length, complete := some t, fed := t, pts := none, irap := false,
                              decoded := true, retShort := false, closed := true, gap := false, don := none,
                              started := false, marks := [], taken := 0, noRef := false, late := none, reported := false }], nextAu := x.nextAu + 1 }

/-- One WAR record. -/
def takeRecord (n : Nat) (f : FeedChunk) (rec : List Byte) (s : State) : State :=
  let x := s.stream n
  let ws := bytesWords (rec.take 16)
  let h (i : Nat) : Word := ws.getD i 0
  let payload := (rec.drop 16).take (h 1).toNat
  let audio := decide (x.cfg.codec = 2)
  if fld (h 0) 31 16 ≠ 0x5752 || fld (h 0) 15 8 ≠ 1 then
    if audio then s.modStream n (fun x => { x with gapNext := true })
    else streamEvent n 7 0 1 (s.modStream n discontinuity)
  else if fld (h 0) 7 0 ≠ (if audio then 2 else 1) then streamEvent n 11 0 0 s
  else if audio then
    if fld (h 3) 19 16 ≠ x.cfg.mics || decide (payload.length % (2 * x.cfg.mics) ≠ 0) then streamEvent n 11 0 0 s
    else warAudio n f.tick h payload (s.modStream n (keepRecord rec f.tick))
  else warVideo n f h payload rec.length s

/-- WAR_RECORD. -/
def doWarRecord (n : Nat) (s : State) : State :=
  if !parserUp s n || decide ((s.stream n).cfg.container ≠ 1) then s
  else
    let s := passFeeds n s
    match (s.stream n).feeds with
    | [] => s
    | f :: _ =>
      let r := takeBytes ((warLen f.bytes).getD f.bytes.length) (s.stream n)
      passFeeds n (takeRecord n r.2.1 r.1 (s.setStream n r.2.2))

def execTsPacket (slot : Nat) (s : State) : Host.Outcome State Fault Refusal := .next (doTsPacket slot s)
def execWarRecord (slot : Nat) (s : State) : Host.Outcome State Fault Refusal := .next (doWarRecord slot s)

end Sys2Proof.Machine
end

