-- ==== Sys2Proof/Machine/Strips.lean ====
section
/-! DEFINITION. Shaping units at work: staging buffers, tile rows of the strip feed, reference bands and crop lists (05_shaping.md R120,
R128-R132; 04_stream_decode.md R97). -/

namespace Sys2Proof.Machine

/-! ### Staging buffers (R129) -/

/-- Key of a Niche of a schedule: each schedule's Niches have rings of their own. -/
def ringKey (r : SchedRef) (k : Nat) : Nat := (r.arm * 32 + (match r.var with | some c => c + 1 | none => 0)) * 2 ^ 24 + k

/-- Key of a Niche's ring on a core, and of one of its buffers. -/
def stageCore (k c : Nat) : Nat := k * 16 + c
def stageKey (k c i : Nat) : Nat := stageCore k c * 16 + i

/-- Buffer the next batch of ring `k` takes on core `c`. -/
def nextBuf (s : State) (d : ShpDesc) (k c : Nat) : Nat := tget s.stageNext (stageCore k c) 0 % d.stage

/-- A buffer filled for a band is held until all the band's Niches are finished, whatever they read (DESIGN CHOICE, log 146); a band that never fires
holds none. -/
def stageHeld (s : State) (n : Nat) (owner : Nat × Nat) : Bool :=
  match picOf (s.stream n) owner.1 with
  | none => false
  | some p =>
    let fires := match p.late with | some l => decide (owner.2 < l) | none => true
    if (tfind p.fired owner.2).isSome then !bandDone s n owner.1 owner.2 else fires

/-- The buffer that the next batch of ring `k` takes on core `c` is not held by unfinished Niches. -/
def bufFree (s : State) (n : Nat) (d : ShpDesc) (k c : Nat) : Bool :=
  match tfind s.stages (stageKey k c (nextBuf s d k c)) with
  | none => true
  | some o => !stageHeld s n o.2

/-- Begin a batch on a core: its buffer is taken and zeroed, so that slots not filled are pad tiles (R131). -/
def beginBatch (d : ShpDesc) (k c owner don band : Nat) (s : State) : State :=
  let i := nextBuf s d k c
  let s := { s with stages := tput s.stages (stageKey k c i) (owner, don, band),
                    stageNext := tput s.stageNext (stageCore k c) (tget s.stageNext (stageCore k c) 0 + 1) }
  s.modCore c (fun x => { x with spad := zeroBytes x.spad (d.spad + i * d.bufBytes) d.bufBytes })

/-- Address of the batch buffer a core fills now. -/
def curBuf (s : State) (d : ShpDesc) (k c : Nat) : Nat :=
  d.spad + ((tget s.stageNext (stageCore k c) 0 + d.stage - 1) % d.stage) * d.bufBytes

/-! ### Slots in the order a unit writes them (R128-R132) -/

/-- One slot of a batch, or a batch without tiles. -/
structure TileJob where
  core : Nat
  /-- the slot begins a batch, which takes the next buffer of the core's ring -/
  fresh : Bool
  slot : Option Nat
  /-- VALID_COUNT once it is written -/
  valid : Nat
  row : Nat
  col : Nat
  overflow : Nat
  batch : Nat
  /-- crop and first output position; none for a slot that holds a pad tile (R130) -/
  crop : Option (Crop × Nat × Nat)
deriving DecidableEq, Repr, Inhabited

/-- The unit can write the slot now: a batch it begins finds the next buffer free (R129). -/
def TileJob.room (s : State) (n : Nat) (d : ShpDesc) (k : Nat) (b : TileJob) : Bool := !b.fresh || bufFree s n d k b.core

/-- Write one slot: batch header, tag and tile. -/
def writeJob (d : ShpDesc) (pic : Picture) (k don band owner : Nat) (b : TileJob) (s : State) : State :=
  let s := if b.fresh then beginBatch d k b.core owner don band s else s
  let buf := curBuf s d k b.core
  s.modCore b.core (fun x =>
    let sp := mwrite x.spad buf (wordsBytes (d.header b.valid don band owner b.overflow b.batch))
    match b.slot with
    | none => { x with spad := sp }
    | some i =>
      let sp := mwrite sp (buf + 64 + 8 * i) (wordsBytes (slotTag b.row b.col b.crop.isNone))
      match b.crop with
      | none => { x with spad := sp }
      | some (cr, x0, y0) => { x with spad := putAll sp (d.tile pic cr (d.tileAddr buf i) x0 y0) })

/-- Write slots in order while their batches find buffers; the second result is how many were written. -/
def writeJobs (d : ShpDesc) (pic : Picture) (k don band owner : Nat) : List TileJob → State → State × Nat
  | [], s => (s, 0)
  | b :: bs, s =>
    if b.room s owner d k then
      let r := writeJobs d pic k don band owner bs (writeJob d pic k don band owner b s)
      (r.1, r.2 + 1)
    else (s, 0)

/-! ### Grids (R127-R129) -/

/-- Rows of the grid before `j` that carry the same band tag. -/
def rowsBefore (c : StreamCfg) (halo h : Nat) (d : ShpDesc) (j : Nat) : Nat :=
  ((List.range j).filter (fun i => tagOf c halo h d i = tagOf c halo h d j)).length

/-- The destination cores with their tile columns. -/
def ShpDesc.spread (d : ShpDesc) : List (Nat × List Nat) :=
  ((List.range d.dests.length).zip d.dests).map (fun x => (x.2, d.colsOf x.1))

/-- A batch without tiles (R131). -/
def emptyJob (c : Nat) : TileJob :=
  { core := c, fresh := true, slot := none, valid := 0, row := 0, col := 0, overflow := 0, batch := 0, crop := none }

/-- Slots of tile row `j`, which follows `before` rows of its band. Batches count per destination core (log 101); where a Niche waits on the batch
of a core that gets no tile, it comes with the band's first row. -/
def rowJobs (d : ShpDesc) (waited : Bool) (j before : Nat) : List TileJob :=
  d.spread.flatMap (fun x =>
    if x.2.isEmpty then (if waited && decide (before = 0) then [emptyJob x.1] else [])
    else ((List.range x.2.length).zip x.2).map (fun y =>
      let t := before * x.2.length + y.1
      { core := x.1, fresh := decide (t % d.batch = 0), slot := some (t % d.batch), valid := t % d.batch + 1, row := j, col := y.2, overflow := 0,
        batch := t / d.batch, crop := some (d.gridCrop, y.2 * d.stepX, j * d.stepY) }))

/-! ### Strip feed (R128, R97) -/

/-- The line Niches of a shaping unit that serve slot `n` in a schedule. -/
def stripNiches (t : Schedule) (n : Nat) : List (Nat × NicheEntry) :=
  ((List.range t.niches.length).zip t.niches).filter (fun x =>
    decide (x.2.station = 1) && decide ((ShpDesc.ofWords x.2.desc).kind = 0) && decide ((ShpDesc.ofWords x.2.desc).slot = n))

/-- The next step of a line Niche for a picture: its band, and its slots that are not written. -/
def stripStep (s : State) (n : Nat) (p : Picture) (r : SchedRef) (t : Schedule) (k : Nat) (d : ShpDesc) : Option (Nat × Option Nat × List TileJob) :=
  let c := (s.stream n).cfg
  let halo := haloOf s r.arm n
  ((tilePlan c halo p.h d (awaited t n k))[tget p.tileRows k 0]?).map (fun e =>
    (e.1, e.2, (match e.2 with
      | some j => rowJobs d (awaited t n k e.1) j (rowsBefore c halo p.h d j)
      | none => d.dests.map emptyJob).drop (tget p.tileCols k 0)))

/-- The lines a step needs are final: its last source line, or the trigger line of a band without tile rows. -/
def stepDue (s : State) (n : Nat) (p : Picture) (r : SchedRef) (d : ShpDesc) (e : Nat × Option Nat × List TileJob) : Bool :=
  match e.2.1 with
  | some j => decide (d.lastLine p.h j < p.line)
  | none => decide (trigLine (s.stream n).cfg (haloOf s r.arm n) p.h e.1 ≤ p.line)

/-- The step belongs to a band that DECODE_LATE skipped: it is passed over (R131). -/
def stepLate (p : Picture) (e : Nat × Option Nat × List TileJob) : Bool := match p.late with | some l => decide (l ≤ e.1) | none => false

/-- The next slot of the step finds a buffer. -/
def stepRoom (s : State) (n : Nat) (r : SchedRef) (k : Nat) (d : ShpDesc) (p : Picture) (e : Nat × Option Nat × List TileJob) : Bool :=
  stepLate p e || (match e.2.2 with | b :: _ => b.room s n d (ringKey r k) | [] => true)

/-- Line Niches of a stream whose next step for picture `p` is due: (Niche, entry, schedule, step). -/
def dueSteps (s : State) (n : Nat) (p : Picture) : List (Nat × NicheEntry × SchedRef × (Nat × Option Nat × List TileJob)) :=
  match p.sched with
  | none => []
  | some r => match schedOf s r with
    | none => []
    | some t => (stripNiches t n).filterMap (fun x =>
        let d := ShpDesc.ofWords x.2.desc
        match stripStep s n p r t x.1 d with
        | some e => if stepDue s n p r d e then some (x.1, x.2, r, e) else none
        | none => none)

/-- A due step of any picture of the stream finds no free batch buffer: staging has no room for the next CTU row. -/
def stageFull (s : State) (n : Nat) : Bool :=
  (s.stream n).pics.any (fun p => (dueSteps s n p).any (fun x => !stepRoom s n x.2.2.1 x.1 (ShpDesc.ofWords x.2.1.desc) p x.2.2.2))

/-- A line Niche of shaping unit `u` has a final source row pending (R133): where its batch buffer is still held, the unit waits (R129). -/
def linePending (s : State) (u : Nat) : Bool :=
  s.openSlots.any (fun n => streamRuns (s.stream n) && (s.stream n).pics.any (fun p => (dueSteps s n p).any (fun x => decide (x.2.1.unit = u))))

/-- Another line Niche of shaping unit `u` stands inside a tile row: the unit switches at output rows only (R133). -/
def lineInRow (s : State) (u n k : Nat) : Bool :=
  s.openSlots.any (fun m => streamRuns (s.stream m) && (s.stream m).pics.any (fun p => (dueSteps s m p).any (fun x =>
    decide (x.2.1.unit = u) && !(decide (m = n) && decide (x.1 = k)) && decide (0 < tget p.tileCols x.1 0))))

/-- Picture of slot `n` whose next step of line Niche `k` is due, with its step. -/
def stripPicture (s : State) (n k : Nat) : Option (Picture × ShpDesc × SchedRef × (Nat × Option Nat × List TileJob)) :=
  (s.stream n).pics.findSome? (fun p =>
    ((dueSteps s n p).find? (fun x => decide (x.1 = k))).map (fun x => (p, ShpDesc.ofWords x.2.1.desc, x.2.2.1, x.2.2.2)))

/-! ### Trigger Niches of a shaping unit (R120, R130) -/

/-- Entries of a crop list at an address of the interleaved space: (x, y, w, h, EVID), those that lie in the space, which ends at `stop` (11_memory.md
R253). -/
def cropList (stop : Nat) (m : Mem) (a : Nat) : List (Int × Int × Nat × Nat × Word) :=
  (List.range (if a + 4 ≤ stop then min (mreadW m a).toNat ((stop - a - 16) / 16) else 0)).map (fun i =>
    let w (k : Nat) : Word := mreadW m (a + 16 + 16 * i + 4 * k)
    (signed 16 (fld (w 0) 15 0), signed 16 (fld (w 0) 31 16), fld (w 1) 15 0, fld (w 1) 31 16, w 2))

/-- Batches a crop list makes: a batch without entries is issued only when a Niche of the trigger waits on it (R131). -/
def cropBatches (d : ShpDesc) (entries : Nat) (waited : Bool) : Nat :=
  if waited then d.batches else min d.batches (cdiv entries d.batch)

/-- Core of a crop batch. -/
def cropCore (d : ShpDesc) (m : Nat) : Nat := d.dests.getD (m % d.dests.length) 0

/-- Entries of a crop list that are not shaped: W or H is 0 (R130). -/
def skippedEntries (entries : List (Int × Int × Nat × Nat × Word)) : List Nat :=
  (List.range entries.length).filter (fun i => match entries[i]? with | some e => decide (e.2.2.1 = 0) || decide (e.2.2.2.1 = 0) | none => false)

/-- Slots of a crop list, batch after batch. An entry is shaped as it stands, whatever its scale (log 102). -/
def cropJobs (d : ShpDesc) (entries : List (Int × Int × Nat × Nat × Word)) (batches : Nat) : List TileJob :=
  let extra := entries.length - d.batches * d.batch
  (List.range batches).flatMap (fun m =>
    let mine := (entries.drop (m * d.batch)).take d.batch
    if mine.isEmpty then [{ emptyJob (cropCore d m) with overflow := extra, batch := m }]
    else ((List.range mine.length).zip mine).map (fun y =>
      let e := y.2
      { core := cropCore d m, fresh := decide (y.1 = 0), slot := some y.1, valid := mine.length, row := 0xFFFF, col := m * d.batch + y.1,
        overflow := extra, batch := m,
        crop := if e.2.2.1 = 0 || e.2.2.2.1 = 0 then none else some (d.listCrop e.1 e.2.1 e.2.2.1 e.2.2.2.1, 0, 0) }))

/-- Every slot an SHP trigger Niche writes. -/
def shpJobs (s : State) (d : ShpDesc) (waited : Bool) : List TileJob :=
  if d.kind = 2 then
    let l := cropList (spaceBytes s.dram) s.dram.cells d.src
    cropJobs d l (cropBatches d l.length waited)
  else (List.range d.tilesY).flatMap (fun j => rowJobs d waited j j)

/-- Slot `i` of a trigger Niche begins an output row of its own: a crop, or the first tile of a tile row. -/
def rowStart (l : List TileJob) (i : Nat) : Bool :=
  decide (i = 0) || (match l[i]?, l[i - 1]? with | some a, some b => decide (a.row = 0xFFFF) || decide (a.row ≠ b.row) | _, _ => true)

/-- The trigger Niche that runs on shaping unit `u` stands inside a tile row: the unit waits there for a buffer (R129, R133). -/
def trigInRow (s : State) (u : Nat) : Bool :=
  s.runs.any (fun x => decide (x.st = .running) && (match nicheAt s x.ref x.niche with
    | some e => decide (e.station = 1) && decide (e.unit = u) &&
        !rowStart (shpJobs s (ShpDesc.ofWords e.desc) (awaited ((schedOf s x.ref).getD default) x.owner x.niche x.band)) x.progress
    | none => false))

/-- SHP_TILE_ROW: one tile row of a strip feed, as far as its batches find buffers; the row is done with its last slot (R129). The unit comes to it from
another Niche at an output row only (R133). -/
def doShpTileRow (n k : Nat) (s : State) : State :=
  if !streamRuns (s.stream n) || !computeUp s then s
  else match stripPicture s n k with
  | none => s
  | some (p, d, r, e) =>
    let u := ((nicheAt s r k).map (·.unit)).getD 0
    if trigInRow s u || lineInRow s u n k then s
    else
    let o := if stepLate p e then (s, e.2.2.length) else writeJobs d p (ringKey r k) p.don e.1 n e.2.2 s
    let left := decide (o.2 < e.2.2.length)
    refresh (modPic n p.don (fun q =>
      if left then { q with tileCols := tput q.tileCols k (tget q.tileCols k 0 + o.2) }
      else { q with tileRows := tput q.tileRows k (tget q.tileRows k 0 + 1), tileCols := tput q.tileCols k 0 }) o.1)

/-- Run an SHP trigger Niche on from where it stands: at the start of an output row a line Niche of the unit goes first (R133); with true when it has written
all its batches. -/
def runShp (x : Run) (e : NicheEntry) (waited : Bool) (s : State) : State × Bool :=
  let d := ShpDesc.ofWords e.desc
  match picOf (s.stream x.owner) x.don with
  | none => (s, true)
  | some p =>
    let jobs := shpJobs s d waited
    if rowStart jobs x.progress && linePending s e.unit then (s, false)
    else
      let o := writeJobs d p (ringKey x.ref x.niche) x.don x.band x.owner (jobs.drop x.progress) s
      let l := cropList (spaceBytes s.dram) s.dram.cells d.src
      let note (r : Run) : Run :=
        let r := { r with progress := x.progress + o.2 }
        if d.kind = 2 then { r with entries := min l.length (d.batches * d.batch), pads := skippedEntries l } else r
      (modRun x note o.1, decide (jobs.length ≤ x.progress + o.2))

def execShpTileRow (slot nicheIx : Nat) (s : State) : Host.Outcome State Fault Refusal := .next (doShpTileRow slot nicheIx s)

end Sys2Proof.Machine
end

