-- ==== Sys2Proof/Machine/Recon.lean ====
section
/-! DEFINITION. Entropy decoding and reconstruction (04_stream_decode.md R81-R83, R89, R93-R105; 02_raster_time.md R18-R20, R25, R32). What
the codec standards give (syntax, samples) comes with the command; what the manual says is done with it is here. -/

namespace Sys2Proof.Machine

/-! ### Sequence parameter sets (R93, R99, R100) -/

/-- Status of a feature outside Table 4.6. -/
def spsUnsupported (codec : Nat) (i : SpsInfo) : Option Nat :=
  let prof := match i.profile with
    | .avcConstrainedBaseline => !i.hevc && decide (i.bitDepth = 8)
    | .avcMain => !i.hevc && decide (i.bitDepth = 8)
    | .avcHigh => !i.hevc && decide (i.bitDepth = 8)
    | .hevcMain => i.hevc && decide (i.bitDepth = 8)
    | .hevcMain10 => i.hevc && (i.bitDepth = 8 || decide (i.bitDepth = 10))
    | .other => false
  let chroma := match i.chroma with
    | .c420 => true
    | .c400 => decide (i.profile = .avcHigh)
    | .other => false
  if i.hevc ≠ decide (codec = 1) || !prof || !chroma || i.otherTool then some stUnsupProfile
  else if i.level > 51 then some stUnsupLevel
  else if i.interlaced then some stInterlaced
  else none

/-- Beyond the open (R100). -/
def spsExceeds (c : StreamCfg) (i : SpsInfo) : Bool :=
  decide (i.width > c.maxW) || decide (i.height > c.maxH) || (decide (i.bitDepth > 8) && !c.depth10) || decide (i.dpb > c.maxDpb)

/-- Entry of Table 16.3 that counts a condition. -/
def condEntry (status : Nat) : Nat :=
  match status with
  | 0x0403 => 1
  | 0x0404 => 2
  | 0x0405 => 3
  | _ => 4

/-- Discard an access unit under a condition. -/
def discardAu (n id status : Nat) (s : State) : State :=
  count (ctrSlot n (condEntry status)) 1
    (s.modStream n (fun x => { x with aus := x.aus.map (fun a => if a.id = id then { a with decoded := true } else a) }))

/-! ### Entropy decoding (R95, R96) -/

/-- The next access unit an engine may take of a stream: complete in normal output, begun in slice-early output. -/
def nextAu (x : Stream) : Option Au :=
  match x.aus.find? (fun a => !a.decoded) with
  | none => none
  | some a => if x.cfg.output = 1 || a.complete.isSome then some a else none

/-- Reconstruction of every earlier access unit has begun (R96). -/
def runAhead (x : Stream) (a : Au) : Bool := x.pics.all (fun p => decide (p.au = a.id) || decide (0 < p.rows))

/-- Bins in the stream's bin buffer: those of rows not yet reconstructed. -/
def binsHeld (x : Stream) : Nat :=
  (x.pics.map (fun p => ((p.rowBins.filter (fun e => decide (p.rows ≤ e.1))).map (·.2)).sum)).sum

/-- The bin buffer has no room for more (R96, Table 4.3): two bytes for each bin. -/
def binFull (x : Stream) : Bool := decide (x.cfg.binBytes ≤ 2 * binsHeld x)

/-- Where the first slice segment that ends past byte `after` ends: segments are the NAL units that hold coded slices, and one ends where the next start
code begins, or with the access unit (log 26). -/
def sliceEnd (codec after : Nat) (whole : Bool) (bs : List Byte) : Option Nat :=
  let rec go : List Byte → Nat → Option Nat → Option Nat
    | [], i, run => if whole && run.isSome && decide (after < i) then some i else none
    | a :: t, i, run => match t with
      | b :: c :: h :: _ =>
        if a = 0 && b = 0 && c = 1 then
          if run.isSome && decide (after < i) then some i
          else go t (i + 1) (if (if codec = 1 then decide (h.toNat / 2 % 64 < 32) else inRange (h.toNat % 32) 1 5) then some i else none)
        else go t (i + 1) run
      | _ => go t (i + 1) run
  go bs 0 none

/-- Tick by which the engine orders an access unit: its completion, or in slice-early output the feed that completed its next segment (R95). -/
def workTick (x : Stream) (a : Au) : Option Nat :=
  if x.cfg.output = 0 then a.complete
  else match sliceEnd x.cfg.codec a.taken a.closed a.bytes with
    | some e => some (((a.marks.find? (fun m => decide (e ≤ m.1))).map (·.2)).getD a.fed)
    | none => a.complete

/-- Tick by which the engine orders the stream's next work; none when there is none it may take. -/
def pendingTick (s : State) (n : Nat) : Option Nat :=
  let x := s.stream n
  match nextAu x with
  | none => none
  | some a => if x.isOpen && decide (x.cfg.codec ≠ 2) && runAhead x a && !binFull x then workTick x a else none

/-- A picture of the stream under decoding has passed 4 × b_pic: it is served at segment boundaries only (R95). -/
def pastLimit (x : Stream) : Bool := x.pics.any (fun p => !p.segsDone && decide (p.bins > 4 * x.cfg.bPicBins))

/-- The stream has not to wait for others after its last segment (R95). -/
def mayReturn (s : State) (n : Nat) : Bool := !pastLimit (s.stream n) || (s.stream n).yields.all (fun m => (pendingTick s m).isNone)

/-- Other streams of the engine that have pending data. -/
def rivals (s : State) (n : Nat) : List Nat :=
  (s.streams.filter (fun e => decide (e.1 ≠ n) && decide (e.2.engine = (s.stream n).engine) && (pendingTick s e.1).isSome)).map (·.1)

/-- No stream of the same engine has to be served first (R95). -/
def engineTurn (s : State) (n : Nat) : Bool :=
  match pendingTick s n with
  | none => false
  | some t => mayReturn s n && (rivals s n).all (fun m => !mayReturn s m ||
      (match pendingTick s m with | some u => decide (t ≤ u) | none => true))

/-- After a turn of the engine: the others need not serve this stream first any more, and a picture that was past the limit yields to every other
stream with pending data. -/
def endTurn (n : Nat) (past : Bool) (s : State) : State :=
  let s := { s with streams := s.streams.map (fun e => (e.1, { e.2 with yields := e.2.yields.filter (fun m => m ≠ n) })) }
  if past then s.modStream n (fun x => { x with yields := rivals s n }) else s

/-- Units of a segment decoded before an error or the cut-off at 4 × b_pic, and the bins decoded. -/
def segUnits (cap : Nat) (g : SegInfo) : Nat × Nat :=
  let rec go : Nat → Nat → Nat → Nat × Nat
    | 0, i, acc => (i, acc)
    | fuel + 1, i, acc =>
      if g.errAt = some i then (i, acc)
      else
        let b := g.bins.getD i 0
        if acc + b > cap then (i, cap) else go fuel (i + 1) (acc + b)
  go g.units.length 0 0

/-- The segments one turn of the engine takes: those that find room in the bin buffer, and none after the picture's bins have passed the limit but one
(R95, R96). -/
def turnSegs (lim : Nat) : Nat → Nat → List SegInfo → List SegInfo
  | _, _, [] => []
  | bins, room, g :: gs =>
    if room = 0 then []
    else
      let u := (segUnits lim g).2
      g :: (if lim < bins + u then [] else turnSegs lim (bins + u) (room - u) gs)

/-- The picture `d` pictures before `don` can serve as a reference: received, decoded, and not before the last discontinuity (R87, R102, R105). -/
def refAvailable (x : Stream) (lossDon don d : Nat) : Bool :=
  let r := donBack don d
  decide (d ≠ 0) && !donLt r lossDon && x.pics.any (fun p => decide (p.don = r) && p.stored && !p.noRef)

/-- A stream with a further concealed picture (R113). -/
def Stream.noteConcealed (x : Stream) (don : Nat) : Stream :=
  if x.concealedDons.contains don then x else { x with concealedDons := don :: x.concealedDons }

/-- Begin the picture of an access unit: DON, references, concealment chain, and DECODE_LATE where a deadline has already fallen. An IRAP or IDR
picture is decoded from its own data, whatever its reference picture set names (R103). -/
def beginPicture (n : Nat) (a : Au) (i : AuInfo) (s : State) : State :=
  let x := s.stream n
  let loss := if a.gap then x.nextDon else x.lossDon
  let irap := decide (i.kind = .irap)
  let missing := !irap && i.refs.any (fun d => !refAvailable x loss x.nextDon d)
  let rasl := decide (i.kind = .rasl) && x.raslChain
  let chain := !irap && x.concealChain
  let p := newPicture x a i x.nextDon loss
  let conc := missing || chain || rasl
  let x := if conc then x.noteConcealed p.don else x
  s.setStream n { x with
    nextDon := (x.nextDon + 1) % 2 ^ 32, lossDon := loss
    raslChain := if irap then x.concealChain else x.raslChain
    concealChain := missing || chain
    aus := x.aus.map (fun b => if b.id = a.id then { b with don := some p.don, started := true } else b)
    pics := x.pics.map (fun q => { q with isRef := p.refs.contains q.don }) ++ [{ p with concealed := conc }] }

/-- Put a picture at its place in decode order. -/
def insertPic (p : Picture) (l : List Picture) : List Picture :=
  l.filter (fun q => donLt q.don p.don) ++ p :: l.filter (fun q => donLt p.don q.don)

/-- Begin a picture again in replay: it keeps its DON, its judgement, its records' counts and what was found of its concealment; one that has
left the reference store is reconstructed without firing a trigger (R354, R355). -/
def replayPicture (n d : Nat) (a : Au) (i : AuInfo) (s : State) : State :=
  let x := s.stream n
  let old := picOf x d
  let loss := (old.map (·.loss)).getD (if a.gap then d else ((picOf x (donBack d 1)).map (·.loss)).getD d)
  let irap := decide (i.kind = .irap)
  let missing := !irap && i.refs.any (fun k => !refAvailable x loss d k)
  let chain := !irap && x.concealChain
  let conc := missing || chain || (decide (i.kind = .rasl) && x.raslChain)
  let p := match old with
    | some p => { p with concealed := p.concealed || conc }
    | none => { newPicture x a i d loss with statusDone := true, judged := true, replayed := true, concealed := conc }
  let x := if conc then x.noteConcealed d else x
  s.setStream n { x with
    raslChain := if irap then x.concealChain else x.raslChain
    concealChain := missing || chain
    aus := x.aus.map (fun b => if b.id = a.id then { b with started := true } else b)
    pics := insertPic p (x.pics.map (fun q => if donLt q.don d then { q with isRef := p.refs.contains q.don } else q)) }

/-- The picture is concealed from here on (R103). -/
def markConcealed (n don : Nat) (s : State) : State :=
  modPic n don (fun p => { p with concealed := true })
    (s.modStream n (fun x => { x.noteConcealed don with concealChain := true }))

/-- Bins of a segment's units by row of the picture. -/
def addRowBins (perRow : Nat) : List (Nat × Nat) → Tab Nat → Tab Nat
  | [], t => t
  | (u, b) :: l, t => addRowBins perRow l (tput t (u / perRow) (tget t (u / perRow) 0 + b))

/-- Decode one segment of an access unit into its picture. -/
def decodeSeg (n don : Nat) (a : Au) (g : SegInfo) (s : State) : State :=
  let u := segUnits (4 * (s.stream n).cfg.bPicBins) g
  let s := modPic n don (fun p => { p with coded := p.coded ++ g.units.take u.1, bins := p.bins + u.2,
                                           rowBins := addRowBins p.perRow ((g.units.zip g.bins).take u.1) p.rowBins,
                                           segSrc := p.segSrc ++ [(g.units, g.list0.map (donBack don))] }) s
  let s := s.modStream n (fun x => { x with aus := x.aus.map (fun b => if b.id = a.id then { b with taken := max b.taken g.endByte } else b) })
  if u.1 < g.units.length then markConcealed n don s else s

/-- BUDGET_JUDGEMENT (R83): the intervals end at the picture's completion tick. -/
def judge (n don t : Nat) (s : State) : State :=
  let x := s.stream n
  match picOf x don with
  | none => s
  | some p =>
    let c := cfgOf x p
    let win := x.window.filter (fun e => decide (e.1 + 8 * c.framePeriod > t)) ++ [(t, p.w * p.h, p.bins)]
    let samples := (win.map (fun e => e.2.1)).sum
    let bins := (win.map (fun e => e.2.2)).sum
    let bytes := ((x.fedBytes.filter (fun e => decide (e.1 + 1000000 > t) && decide (e.1 ≤ t))).map (·.2)).sum
    let ok := decide (samples * 1000000 ≤ 8 * c.bPix * c.framePeriod + c.maxW * c.maxH * 1000000) &&
              decide (bins ≤ 8 * c.bPicBins) && decide (8 * bytes ≤ c.bitrate + 8 * 4194304)
    modPic n don (fun p => { p with within := ok, judged := true }) 
      (s.modStream n (fun x => { x with window := win, fedBytes := x.fedBytes.filter (fun e => decide (e.1 + 1000000 > t)) }))

/-- The access unit of a picture is decoded whole: absent units are concealed (R104), and the picture is judged. -/
def finishAu (n don id : Nat) (s : State) : State :=
  let s := s.modStream n (fun x => { x with aus := x.aus.map (fun a => if a.id = id then { a with decoded := true } else a) })
  match picOf (s.stream n) don with
  | none => s
  | some p =>
    let total := p.perRow * p.rowCount
    let got := (p.coded.filter (fun u => decide (u < total))).eraseDups.length
    let s := modPic n don (fun p => { p with segsDone := true, concealedUnits := total - got }) s
    let s := if got < total then markConcealed n don s else s
    if p.judged then s else judge n don p.auTick s

/-- Leave rejection or DIM_EXCEEDS_OPEN (R99, R100, R102). -/
def leaveReject (n : Nat) (s : State) : State :=
  let x := s.stream n
  let s := if x.dim then streamEvent n 2 0 0 s else s
  s.modStream n (fun x => { x with reject := none, dim := false, lossDon := x.nextDon })

/-- What the parameter sets of an access unit lead to: none when it is decoded, else the status it is discarded under. -/
def auVerdict (x : Stream) (i : AuInfo) : Option Nat :=
  match spsUnsupported x.cfg.codec i.sps with
  | some st => some st
  | none =>
    if spsExceeds x.cfg i.sps then some stDimExceeds
    else if (x.reject.isSome || x.dim) && decide (i.kind ≠ .irap) then some (x.reject.getD stDimExceeds)
    else none

/-- Entry into rejection or DIM_EXCEEDS_OPEN, with its one event. -/
def enterState (n status : Nat) (s : State) : State :=
  if status = stDimExceeds then
    let x := s.stream n
    if x.reject.isSome || x.dim then s
    else streamEvent n 1 status 0 (s.modStream n (fun x => { x with dim := true }))
  else enterReject n status s

/-- Decode the next segments of an access unit, as many as this turn of the engine takes. -/
def decodeAu (n : Nat) (a : Au) (i : AuInfo) (s : State) : State :=
  let x := s.stream n
  let s := if (x.reject.isSome || x.dim) && !a.begun then leaveReject n s else s
  let s := if a.started then s else match a.don with
    | some d => replayPicture n d a i s
    | none => beginPicture n a i s
  match (s.stream n).pics.find? (fun p => p.au = a.id) with
  | none => s
  | some p =>
    let x := s.stream n
    let lim := 4 * x.cfg.bPicBins
    let segs := turnSegs lim p.bins (cdiv (x.cfg.binBytes - 2 * binsHeld x) 2) i.segs
    let s := modPic n p.don (fun q => { q with segTicks := fedSegs a i.segs q.segTicks }) s
    let s := endTurn n (decide (p.bins > lim)) (forAll segs (decodeSeg n p.don a) s)
    let s := if segs.isEmpty then s else s.modStream n (fun x => { x with binAt := s.now })
    if i.last && decide (segs.length = i.segs.length) && a.complete.isSome then finishAu n p.don a.id s else s

/-- The segments have been fed whole. -/
def segsFed (a : Au) (i : AuInfo) : Bool := i.segs.all (fun g => decide (g.endByte ≤ a.bytes.length))

/-! ### Reconstruction (R81, R97, R98, R104) -/

/-- Samples of a plane line: decoded units' samples, those of each unit's concealment source elsewhere. -/
def lineSamples (coded : List Nat) (first ctb w mid : Nat) (dec : Nat → Nat) (src : Nat → Nat → Nat) : List Nat :=
  (List.range w).map (fun x => if coded.contains (first + x / ctb) then dec x else src (first + x / ctb) x) |>.map (fun v => v % (2 * mid))

/-- Concealment source of a unit: index 0 of list 0 of its slice, or of the picture, else the previous picture in decode order; none means mid-grey
(R104, R105). -/
def concealSource (x : Stream) (p : Picture) (u : Nat) : Option Picture :=
  let l0 := match p.segSrc.find? (fun e => e.1.contains u) with
    | some e => e.2.orElse (fun _ => p.list0)
    | none => p.list0
  match l0 with
  | some d => if donLt d p.loss then none else (picOf x d).filter (fun q => !q.noRef)
  | none => picOf x ((p.don + 2 ^ 32 - 1) % 2 ^ 32)

/-- A plane's lines of one row written into the plane; `src` gives the plane of a unit's concealment source. -/
def writePlane (plane : Tab (List Nat)) (src : Nat → Option (Tab (List Nat))) (coded : List Nat) (row perRow unit w h mid : Nat) (data : List Nat) :
    Tab (List Nat) :=
  (span (row * unit) (min unit (h - row * unit))).foldl (fun t y =>
    tput t y (lineSamples coded (row * perRow) unit w mid (fun x => data.getD ((y - row * unit) * w + x) mid)
      (fun u x => match src u with | some pl => (tget pl y []).getD x mid | none => mid))) plane

/-- The CTU or macroblock row `r` of a picture with its samples. -/
def writeRecon (x : Stream) (r : RowData) (p : Picture) : Picture :=
  let src := concealSource x p
  let mid := 2 ^ (p.depth - 1)
  let lum := writePlane p.luma (fun u => (src u).map (·.luma)) p.coded p.rows p.perRow p.ctb p.w p.h mid r.luma
  if p.mono then { p with luma := lum }
  else
    let chroma (pl : Tab (List Nat)) (sp : Picture → Tab (List Nat)) (d : List Nat) : Tab (List Nat) :=
      writePlane pl (fun u => (src u).map sp) p.coded p.rows p.perRow (p.ctb / 2) (p.w / 2) (p.h / 2) mid d
    { p with luma := lum, cb := chroma p.cb (·.cb) r.cb, cr := chroma p.cr (·.cr) r.cr }

/-! ### The reference picture in DRAM (R11, R406) -/

/-- Bytes of stored samples: NV12 holds one byte, P010 the sample in the upper ten bits of two (05_shaping.md R122). -/
def sampleBytes (depth : Nat) (l : List Nat) : List Byte :=
  if depth = 8 then l.map (fun v => BitVec.ofNat 8 v) else l.flatMap (fun v => [BitVec.ofNat 8 (v * 64), BitVec.ofNat 8 (v / 4)])

/-- A line of interleaved chroma. -/
def chromaLine (p : Picture) (y : Nat) : List Nat :=
  let a := tget p.cb y []
  let b := tget p.cr y []
  let mid := 2 ^ (p.depth - 1)
  (List.range (p.w / 2)).flatMap (fun x => [a.getD x mid, b.getD x mid])

/-- Lines of a row as they stand in the reference store: offsets in the stream's picture region and bytes. Pictures lie behind each other, each with
lines of MAX_WIDTH samples, luma before chroma (DESIGN CHOICE, log 103). -/
def storeLines (c : StreamCfg) (p : Picture) (row : Nat) : List (Nat × List Byte) :=
  let sz := if p.depth = 8 then 1 else 2
  let base := p.place * cdiv (c.maxW * c.maxH * 3 * (if c.depth10 then 2 else 1)) 2
  let ys := span (row * p.ctb) (min p.ctb (p.h - row * p.ctb))
  let cs := span (row * (p.ctb / 2)) (min (p.ctb / 2) (p.h / 2 - row * (p.ctb / 2)))
  ys.map (fun y => (base + y * c.maxW * sz, sampleBytes p.depth (tget p.luma y []))) ++
  cs.map (fun y => (base + (c.maxH + y) * c.maxW * sz, sampleBytes p.depth (chromaLine p y)))

/-- Write bytes at an offset of a region: in an ECC region, whose sectors hold 480 data bytes in each 512 (11_memory.md R264), at the place of the data. -/
def storeWrite (l : List Alloc) (off : Nat) (bs : List Byte) (m : Mem) : Mem :=
  if (l.map (·.ecc)).any id then
    (splitAt480 off bs bs.length).foldl (fun m e => regionWrite l (e.1 / 480 * 512 + e.1 % 480) e.2 m) m
  else regionWrite l off bs m
where
  /-- pieces that each lie in the data of one group of sectors -/
  splitAt480 (off : Nat) (bs : List Byte) : Nat → List (Nat × List Byte)
    | 0 => []
    | fuel + 1 =>
      if bs.isEmpty then []
      else
        let k := 480 - off % 480
        (off, bs.take k) :: splitAt480 (off + k) (bs.drop k) fuel

/-- Write the row just reconstructed to the reference picture in DRAM. -/
def storeRow (n don row : Nat) (s : State) : State :=
  let x := s.stream n
  match picOf x don with
  | none => s
  | some p => forAll (storeLines x.cfg p row) (fun l s => { s with dram := { s.dram with cells := storeWrite x.picRegion l.1 l.2 s.dram.cells } }) s

/-- LINE after a row (R19): the whole picture after the last row, else the lines filtering can no longer change. -/
def newLine (p : Picture) (r : RowData) : Nat :=
  if p.rows + 1 ≥ p.rowCount then p.h else max p.line (min r.finalLines (min ((p.rows + 1) * p.ctb) p.h))

/-- The picture precedes the resume picture of a replay (R354). -/
def preResume (x : Stream) (don : Nat) : Bool := match x.replayFrom with | some d => donLt don d | none => false

/-- The first line of a picture becomes final: a waiting retune applies, the schedule is fixed, the picture is counted (R32, R84, R169). -/
def fixPicture (n don : Nat) (s : State) : State :=
  if preResume (s.stream n) don then s else
  let s := s.modStream n (fun x => match picOf x don with
    | some p => if p.replayed then x else { x with replayFrom := none }
    | none => x)
  let s := s.modStream n (fun x => match x.retune with
    | some c => { x with cfg := c, retune := none }
    | none => x)
  let c := (s.stream n).cfg
  let b := bound s n
  let act := s.active
  let s := modPic n don (fun p =>
    let p := if p.replayed then p else { p with outRing := c.outRing, bPix := c.bPix, deadline := c.deadline }
    if p.sched.isSome || !b then p else { p with sched := act, bound := true }) s
  match picOf (s.stream n) don with
  | some p => if p.replayed then s else
    let s := count (ctrSlot n 0) 1 s
    if p.bound then s else count (ctrSlot n 8) 1 s
  | none => s

/-- Bands other than the first whose first line LINE has reached (R36). -/
def noteReached (c : StreamCfg) (t : Nat) (p : Picture) : Picture :=
  { p with reached := (List.range (bandCount c p.h)).foldl (fun m b =>
      if decide (0 < b) && decide (bandTop c p.h b ≤ p.line) && (tfind m b).isNone then tput m b t else m) p.reached }

/-- Pictures in the reference store. -/
def storedDons (x : Stream) : List Nat := (x.pics.filter (fun q => q.stored)).map (·.don)

/-- Lowest free place of the reference store. -/
def freePlace (x : Stream) : Nat :=
  (lowestFree (x.cfg.maxDpb + 2) ((x.pics.filter (fun q => q.stored)).map (·.place))).getD 0

/-- Start of a picture: its checkpoint, its place in the reference store, the tick in which LINE reached its line 0 (R354, R98, R36). -/
def startPicture (n don : Nat) (s : State) : State :=
  let x := s.stream n
  modPic n don (fun p => { p with stored := true, place := freePlace x, ckpt := some (storedDons x),
                                  reached := if (tfind p.reached 0).isSome then p.reached else tput p.reached 0 x.wholeAt })
    (s.modStream n (fun x => { x with rowStart := s.now }))

/-- The coded data of the next row is decoded (R89). In normal output reconstruction waits for the whole access unit, unless the bin buffer is full and
entropy decoding waits for it (log 104). -/
def rowDecoded (x : Stream) (p : Picture) : Bool :=
  p.segsDone || ((decide (x.cfg.output = 1) || binFull x) && (List.range ((p.rows + 1) * p.perRow)).all (fun u => p.segSrc.any (fun e => e.1.contains u)))

/-- The reference store has no place for another picture (R98). -/
def storeFull (x : Stream) : Bool := decide ((x.pics.filter (fun p => p.stored)).length ≥ x.cfg.maxDpb + 2)

/-- Reconstruction of the picture cannot go on now. -/
def reconBlocked (s : State) (n : Nat) (p : Picture) : Bool := (decide (p.rows = 0) && storeFull (s.stream n)) || stageFull s n

/-- The picture whose next row is reconstructed. A close without FLUSH stops at the next picture boundary (R71). -/
def reconPicture (x : Stream) : Option Picture :=
  match x.pics.find? (fun p => !p.whole && !p.dropped) with
  | none => none
  | some p => if decide (p.rows = 0) && !streamRuns x then none else some p

/-- One row is reconstructed. -/
def reconRow (n : Nat) (p : Picture) (r : RowData) (s : State) : State :=
  let s := if p.rows = 0 then startPicture n p.don s else s
  let x := s.stream n
  let t := s.now
  let first := decide (p.line = 0) && decide (newLine p r > 0)
  let s := modPic n p.don (fun q => { writeRecon x r q with rows := q.rows + 1, line := newLine q r, lineAt := q.lineAt ++ [(newLine q r, t)] }) s
  let s := storeRow n p.don p.rows s
  let s := if first then (if x.retune.isSome then setPool (fixPicture n p.don s) else fixPicture n p.don s) else s
  let c := (s.stream n).cfg
  let s := modPic n p.don (noteReached c t) (s.modStream n (fun y => { y with rowStart := t, roomAt := if binFull x then t else y.roomAt }))
  if p.rows + 1 ≥ p.rowCount then settle n (s.modStream n (fun x => { x with lastDon := some p.don, wholeAt := t })) else s

/-- The stream's next row can be reconstructed now. -/
def rowReady (s : State) (n : Nat) : Bool :=
  let x := s.stream n
  parserUp s n && !x.paused && (match reconPicture x with
    | some p => rowDecoded x p && !reconBlocked s n p
    | none => false)

/-- The stream's next row can be reconstructed from now on, when it could not before (R340). -/
def noteRow (n : Nat) (before : Bool) (s : State) : State :=
  if !before && rowReady s n then s.modStream n (fun x => { x with rowStart := s.now }) else s

/-- ENTROPY_DECODE. -/
def doEntropyDecode (n : Nat) (i : AuInfo) (s : State) : State :=
  let x := s.stream n
  match nextAu x with
  | none => s
  | some a =>
    if !parserUp s n || decide (x.cfg.codec = 2) || !runAhead x a || !engineTurn s n || !segsFed a i then s
    else match (if a.begun then none else auVerdict x i) with
      | some st => discardAu n a.id st (enterState n st s)
      | none => noteRow n (rowReady s n) (settle n (decodeAu n a i s))

/-- The pool serves the stream next: of the streams with a row to reconstruct, the one whose rows have taken least time at its weight, the lowest slot among
equals (R81, R97, log 105). -/
def poolTurn (s : State) (n : Nat) : Bool :=
  match s.pool.find? (fun e => decide (e.1 = n)) with
  | none => false
  | some e => s.pool.all (fun m => decide (m.1 = n) || decide (e.2.2 < m.2.2) || (decide (e.2.2 = m.2.2) && decide (n < m.1)) || !rowReady s m.1)

/-- Time of a row at the stream's weight, in ns. -/
def rowTime (w samples : Nat) : Nat := cdiv (samples * 1000000000) (max 1 w)

/-- After a row of the stream: its time counts, and a stream that had no row ready has let its place in the order pass. -/
def servePool (n samples : Nat) (s : State) : State :=
  let at_ := ((s.pool.find? (fun e => decide (e.1 = n))).map (·.2.2)).getD 0
  { s with pool := s.pool.map (fun e => if e.1 = n then (e.1, e.2.1, e.2.2 + rowTime e.2.1 samples)
      else if rowReady s e.1 then e else (e.1, e.2.1, max e.2.2 at_)) }

/-- ROW_RECONSTRUCTED: a stream without room for the row pauses at the row boundary instead (R97, R98); another waits for its place in the order. -/
def doRowReconstructed (n : Nat) (r : RowData) (s : State) : State :=
  let x := s.stream n
  if !parserUp s n || x.paused || !(s.pool.any (fun e => decide (e.1 = n))) then s
  else match reconPicture x with
  | none => s
  | some p =>
    if !rowDecoded x p then s
    else if reconBlocked s n p then s.modStream n (fun x => { x with paused := true })
    else if poolTurn s n then reconRow n p r (servePool n (p.w * p.ctb) s) else s

/-- STRIP_FEED_RESUME (R97). -/
def doStripFeedResume (n : Nat) (s : State) : State :=
  let x := s.stream n
  if !parserUp s n || !x.paused then s
  else match reconPicture x with
  | none => s.modStream n (fun x => { x with paused := false })
  | some p => if reconBlocked s n p then s else s.modStream n (fun x => { x with paused := false, rowStart := s.now })

def execEntropyDecode (slot : Nat) (info : AuInfo) (s : State) : Host.Outcome State Fault Refusal := .next (doEntropyDecode slot info s)
def execRowReconstructed (slot : Nat) (row : RowData) (s : State) : Host.Outcome State Fault Refusal := .next (doRowReconstructed slot row s)
def execStripFeedResume (slot : Nat) (s : State) : Host.Outcome State Fault Refusal := .next (doStripFeedResume slot s)

end Sys2Proof.Machine
end

