-- ==== Sys2Proof/Machine/Bands.lean ====
section
/-! DEFINITION. Band and block triggers, deadlines and the watchdogs over bands (02_raster_time.md R25, R26, R40, R41;
04_stream_decode.md R107, R110; 14_safety.md R323). -/

namespace Sys2Proof.Machine

/-! ### Triggers (R25, R26, R110) -/

/-- Band `b` of the picture may still fire: not after the first band DECODE_LATE skipped (R40). -/
def notSkipped (p : Picture) (b : Nat) : Bool := match p.late with | some l => decide (b < l) | none => true

/-- The trigger of band `b` fires now: LINE has reached T_b, it has not fired, and its parity instance is free. -/
def fires (s : State) (n : Nat) (p : Picture) (t : Schedule) (b : Nat) : Bool :=
  (trigOf t false n b).isSome && (tfind p.fired b).isNone && notSkipped p b && decide (trigLineOf s n p b ≤ p.line) && parityFree s n p.don b

/-- First trigger of the stream that fires now, in decode order and ascending band order. -/
def nextFire (s : State) (n : Nat) : Option (Picture × SchedRef × TrigEntry × Nat) :=
  (s.stream n).pics.findSome? (fun p =>
    match p.sched with
    | none => none
    | some r => match schedOf s r with
      | none => none
      | some t =>
        if !p.bound then none
        else ((List.range (bandCount (s.stream n).cfg p.h)).find? (fires s n p t)).bind (fun b =>
          (trigOf t false n b).map (fun e => (p, r, e, b))))

/-- The stream leaves catch-up at a band of a picture later than those that became DECODE_LATE, when its lag is T_frame or less (R41). -/
def leavesCatchup (s : State) (n : Nat) (p : Picture) (b : Nat) : Bool :=
  let x := s.stream n
  x.catchup && x.pics.all (fun q => q.late.isNone || donLt q.don p.don) &&
  (match tdOf s n p b with
   | some d => decide (s.now - d ≤ tFrame x.cfg)
   | none => false)

/-- Fire the trigger of band `b`. -/
def fireBand (n : Nat) (p : Picture) (r : SchedRef) (e : TrigEntry) (b : Nat) (s : State) : State :=
  let line := trigLineOf s n p b
  let leave := leavesCatchup s n p b
  let s := modPic n p.don (fun q => { q with fired := tput q.fired b s.now }) s
  let s := emit 0x01 0x20 n 0xFFFFFF p.don b line 0 s
  let s := if leave then (streamEvent n 6 0 0 s).modStream n (fun x => { x with catchup := false }) else s
  settle n (releaseNiches r e.firstNiche e.nicheCount n false p.don b s)

/-- BAND_TRIGGER. -/
def doBandTrigger (n : Nat) (s : State) : State :=
  if !streamRuns (s.stream n) || !live s || !computeUp s || s.noSched then s
  else match nextFire s n with
    | none => s
    | some (p, r, e, b) => fireBand n p r e b s

/-- Blocks whose Niches have finished and whose records are visible. -/
def doneBlocks (s : State) (n : Nat) : List Nat :=
  let x := s.stream n
  (x.blockTicks.map (·.1)).filter (fun k => donLt k x.firedBlocks && (runsOf s n k).all (·.finished) &&
    x.outbox.all (fun r => decide (r.req.don.toNat ≠ k)) && (uncoveredOf s false n).all (fun t => decide (t.don ≠ k)))

/-- Place the records whose turn has come, and forget the blocks that are done. -/
def sweepBlocks (n : Nat) (s : State) : State :=
  let s := placeDue n (s.stream n).outbox.length s
  let done := doneBlocks s n
  let left {α : Type} (t : Tab α) : Tab α := t.filter (fun e => !done.contains e.1)
  forAll done (dropRuns n) (s.modStream n (fun x =>
    { x with blockTicks := left x.blockTicks, zeroBlocks := x.zeroBlocks.filter (fun k => !done.contains k), blockIssued := left x.blockIssued,
             blockDiscard := left x.blockDiscard }))

/-- AUDIO_BLOCK_TRIGGER: the next whole block fires; one of an unbound stream is counted (R110, R169). -/
def doAudioBlockTrigger (n : Nat) (s : State) : State :=
  let x := s.stream n
  let k := x.firedBlocks
  if !streamRuns x || !live s || !computeUp s || decide (x.cfg.codec ≠ 2) || decide (x.block = k) || !parityFree s n k 0 then s
  else
    let s1 := s.modStream n (fun x => { x with firedBlocks := (k + 1) % 2 ^ 32, lastBlock := some k })
    match (if bound s n then s.active else none) with
    | none => sweepBlocks n (count (ctrSlot n 8) 1 s1)
    | some r => match (schedOf s r).bind (fun t => trigOf t true n 0) with
      | none => sweepBlocks n s1
      | some e =>
        let s1 := emit 0x01 0x20 n 0xFFFFFF k 0 0 0 s1
        sweepBlocks n (releaseNiches r e.firstNiche e.nicheCount n false k 0 s1)

/-! ### Pictures whose decoding has not begun -/

/-- The access unit that waits to become picture `don`: the DONs still to be given count on over the access units in order. -/
def awaitedAu (x : Stream) (don : Nat) : Option Au :=
  (x.aus.filter (fun a => !a.decoded && a.don.isNone))[(don + 2 ^ 32 - x.nextDon) % 2 ^ 32]?

/-- Picture `don` with the segments of it that `head` says are fed, also while its access unit waits for the entropy engine (R89). -/
def pictureFor (x : Stream) (don : Nat) (head : AuInfo) : Option Picture :=
  match picOf x don with
  | some p => match x.aus.find? (fun a => decide (a.id = p.au)) with
    | some a => some { p with segTicks := fedSegs a head.segs p.segTicks }
    | none => some p
  | none => match awaitedAu x don with
    | some a => if (auVerdict x head).isNone then some (comingPicture x a don head) else none
    | none => none

/-! ### DECODE_LATE (R40, R107) -/

/-- First band LINE has not reached the trigger line of, for a picture that runs under a schedule. -/
def firstUnreached (s : State) (n : Nat) (p : Picture) : Option Nat :=
  match picSched s n p with
  | none => none
  | some _ => (List.range (bandCount (s.stream n).cfg p.h)).find? (fun b => decide (p.line < trigLineOf s n p b))

/-- Deadline of a band: t_d + D x T_frame, D in sixteenths. -/
def bandDeadline (s : State) (n : Nat) (p : Picture) (b : Nat) : Option Nat :=
  (tdOf s n p b).map (fun d => d + cdiv ((cfgOf (s.stream n) p).deadline * tFrame (s.stream n).cfg) 16)

/-- Note the first band that does not fire, in the picture or in the access unit it will come from. -/
def markLate (n : Nat) (p : Picture) (head : AuInfo) (b : Nat) (s : State) : State :=
  let r := picSched s n p
  let s := modPic n p.don (fun q => { q with late := some b, sched := r, bound := true }) s
  match picOf (s.stream n) p.don, r with
  | none, some r => s.modStream n (fun x => { x with aus := x.aus.map (fun a => if a.id = p.au then { a with late := some (b, r, head) } else a) })
  | _, _ => s

/-- The picture becomes DECODE_LATE from band `b` on; its schedule is fixed in this tick if it was not, and the stream enters catch-up. -/
def makeLate (n : Nat) (p : Picture) (head : AuInfo) (b : Nat) (s : State) : State :=
  let s := count (ctrSlot n 6) 1 (markLate n p head b s)
  let s := if (s.stream n).catchup then s
           else streamEvent n 5 stDecodeLate 0 (s.modStream n (fun x => { x with catchup := true }))
  settle n s

/-- DECODE_LATE. -/
def doDecodeLate (n : Nat) (don : Word) (head : AuInfo) (s : State) : State :=
  let x := s.stream n
  match pictureFor x don.toNat head with
  | none => s
  | some p =>
    if !streamRuns x || !live s || !domainUp s || p.late.isSome || p.replayed || p.whole then s
    else match firstUnreached s n p with
      | none => s
      | some b => match bandDeadline s n p b with
        | none => s
        | some t => makeLate n p head b (advanceTo t s)

/-! ### Watchdogs (R323) -/

/-- Glethes watches the picture: its slot is in the armed mask, it is within its budgets, and its records carry no excluded flag. -/
def watched (s : State) (n : Nat) (p : Picture) : Bool :=
  decide (s.safety.state ≠ 0) && maskBit s.safety.mask n && (s.stream n).isOpen && p.within && p.late.isNone && !p.replayed &&
  !(s.stream n).catchup && (picSched s n p).isSome

/-- Tick by which LINE reaches the trigger line of a band. -/
def lineDue (s : State) (n : Nat) (p : Picture) (b : Nat) : Option Nat :=
  match picSched s n p, t0Of s n p b with
  | some r, some t =>
    let c := cfgOf (s.stream n) p
    some (t + Config.tArr + linesTicks (if c.timing = 1 then p.h else c.hBand + haloOf s r.arm n) p.w c.bPix)
  | _, _ => none

/-- LPOS_STALL. -/
def doLposStall (n : Nat) (don : Word) (band : Nat) (head : AuInfo) (s : State) : State :=
  match pictureFor (s.stream n) don.toNat head with
  | none => s
  | some p =>
    if !watched s n p || decide (bandCount (s.stream n).cfg p.h ≤ band) || decide (trigLineOf s n p band ≤ p.line) then s
    else match lineDue s n p band with
      | none => s
      | some t => detect 4 (advanceTo t s)

/-- A record of the band is missing or not covered by a tail write-back. -/
def bandOpen (s : State) (n don b : Nat) : Bool :=
  (runsOf s n don).any (fun r => decide (r.band = b) && !r.finished) ||
  (uncoveredOf s false n).any (fun t => decide (t.don = don) && decide (t.band = b))

/-- Tick by which a band's records are visible. -/
def recordDue (s : State) (n : Nat) (p : Picture) (b : Nat) : Option Nat :=
  match picSched s n p, t0Of s n p b with
  | some r, some t =>
    let f := fSince s ((tfind p.fired b).getD s.now)
    some (t + lMax (cfgOf (s.stream n) p) (haloOf s r.arm n) (pArmEff f (pArmOf s r n)) p.w p.h (tCoal s p.outRing))
  | _, _ => none

/-- L_audio of a slot (R110). -/
def lAudio (s : State) (r : SchedRef) (n from_ : Nat) : Nat :=
  Config.tArr + pArmEff (fSince s from_) (pArmOf s r n) + tCoal s (s.stream n).cfg.outRing

/-- RECORD_LATE of an audio block. -/
def audioLate (n k : Nat) (s : State) : State :=
  let x := s.stream n
  match tfind x.blockTicks k, s.active with
  | some t, some r =>
    if decide (s.safety.state ≠ 0) && maskBit s.safety.mask n && bound s n && !x.catchup &&
       !(match x.replayFrom with | some d => donLt k d | none => false) &&
       (bandOpen s n k 0 || !donLt k x.firedBlocks) then detect 5 (advanceTo (t + lAudio s r n t) s) else s
  | _, _ => s

/-- RECORD_LATE. -/
def doRecordLate (n : Nat) (don : Word) (band : Nat) (head : AuInfo) (s : State) : State :=
  if (s.stream n).cfg.codec = 2 then audioLate n don.toNat s
  else match pictureFor (s.stream n) don.toNat head with
  | none => s
  | some p =>
    let missing := bandOpen s n p.don band || ((tfind p.fired band).isNone &&
      (((picSched s n p).bind (schedOf s)).bind (fun t => trigOf t false n band)).isSome)
    if !watched s n p || decide (bandCount (s.stream n).cfg p.h ≤ band) || !missing then s
    else match recordDue s n p band with
      | none => s
      | some t => detect 5 (advanceTo t s)

def execBandTrigger (slot : Nat) (s : State) : Host.Outcome State Fault Refusal := .next (doBandTrigger slot s)
def execAudioBlockTrigger (slot : Nat) (s : State) : Host.Outcome State Fault Refusal := .next (doAudioBlockTrigger slot s)
def execDecodeLate (slot : Nat) (pic : PicRef) (s : State) : Host.Outcome State Fault Refusal := .next (doDecodeLate slot pic.don pic.head s)
def execLposStall (slot : Nat) (pic : PicRef) (band : Nat) (s : State) : Host.Outcome State Fault Refusal :=
  .next (doLposStall slot pic.don band pic.head s)
def execRecordLate (slot : Nat) (pic : PicRef) (band : Nat) (s : State) : Host.Outcome State Fault Refusal :=
  .next (doRecordLate slot pic.don band pic.head s)

end Sys2Proof.Machine
end

