-- ==== Sys2Proof/Machine/Units.lean ====
section
/-! DEFINITION. What the units that execute Niches share: readiness, occupation, the effect of a product and of a vector Niche with its
counters, trace events (06_tensor_cores.md R140, R141, R156; 07_mapping.md R193; 16_observation.md Tables 16.2, 16.6). -/

namespace Sys2Proof.Machine

/-! ### Occupation -/

/-- Niche entry of an instance. -/
def runNiche (s : State) (r : Run) : NicheEntry := (nicheAt s r.ref r.niche).getD default

/-- The LC instance running on a unit. -/
def running (s : State) (u : UnitId) : Option Run := s.runs.find? (fun r => decide (r.st = .running) && usesUnit (runNiche s r) u)

/-- LC instances ready for a unit. -/
def readyFor (s : State) (u : UnitId) : List Run := s.runs.filter (fun r => decide (r.st = .ready) && usesUnit (runNiche s r) u)

/-- The four engines of a core. -/
def enginesOf (c : Nat) : List UnitId := [.mx c 0, .mx c 1, .mx c 2, .mx c 3]

/-- A broadcast Niche of the core is ready (R141, R237). -/
def broadcastReady (s : State) (c : Nat) : Bool :=
  s.runs.any (fun r => decide (r.st = .ready) && broadcast (runNiche s r) && decide ((runNiche s r).unit = c))

/-- Best-effort entry of a Maquette. -/
def beEntry (s : State) (maq entry : Nat) : Option MaqEntry := (tfind s.maquettes maq).bind (fun m => m.pkg.entries[entry]?)

/-- The Niche a best-effort job runs or runs next. -/
def jobNiche (s : State) (b : BeJob) : Option OpNiche := (beEntry s b.maq b.entry).bind (fun e => e.niches[b.next]?)

/-- A best-effort VX Niche with the fall-back flag (06_tensor_cores.md R164). -/
def beOnArray (n : OpNiche) : Bool := n.station = 3 && bit (n.desc.getD 1 0) 23

/-- The Niche of a job may run on this unit of core `c` (R141, R237): a SEQ Niche of a session on the engine that took the step (R238), any other on
the unit it was resolved for. -/
def beFits (c : Nat) (b : BeJob) (n : OpNiche) (u : UnitId) : Bool :=
  match n.station with
  | 3 => if beOnArray n then decide (u = .mx c (fld (n.desc.getD 1 0) 22 21)) else decide (u = .vx c)
  | 2 => decide (u = .mx c (if n.indep then n.engine else 0))
  | _ => match u with
    | .mx d e => decide (d = c) && (if b.sess.isNone then decide (e = n.engine) else (match b.engine with | some k => decide (e = k) | none => true))
    | _ => false

/-- A best-effort Niche resolved for broadcast feed. -/
def beWide (n : OpNiche) : Bool := n.station = 2 && !n.indep

/-- The job holds the unit: it runs there, or is paused there. -/
def BeJob.holds (s : State) (b : BeJob) (u : UnitId) : Bool :=
  match b.running with
  | none => false
  | some v => decide (v = u) || (match jobNiche s b, v, u with
      | some n, .mx c _, .mx d _ => beWide n && decide (c = d)
      | _, _, _ => false)

/-- The best-effort job that runs on a unit and is not paused. -/
def beOn (s : State) (u : UnitId) : Option BeJob := s.jobs.find? (fun b => !b.paused && b.holds s u)

/-- A best-effort job is paused on a unit. -/
def pausedOn (s : State) (u : UnitId) : Bool := s.jobs.any (fun b => b.paused && b.holds s u)

/-- The unit is at a Niche boundary. -/
def idle (s : State) (u : UnitId) : Bool := (running s u).isNone && (beOn s u).isNone

/-! ### Work, traces -/

/-- Change the work of a session. -/
def modWork (n : Nat) (f : SeqWork → SeqWork) (s : State) : State := s.modSession n (fun x => { x with work := x.work.map f })

/-- The Niches of a session's unit have ended, with the status that abandons it or 0. -/
def endUnit (n status : Nat) (s : State) : State :=
  modWork n (fun w => { w with phase := .done, fault := if w.fault = 0 then status else w.fault }) s

/-- CONTEXT of an instance's trace events: its stream slot; none for a pack group or a placed Proof cast set. -/
def Run.ctx (r : Run) : Nat := if r.seq || r.cast.isSome then 0xFFFF else r.owner

/-- NICHE_START. -/
def traceStart (u : UnitId) (r : Run) (order : Nat) (s : State) : State :=
  emit 0x02 (sourceOf u) r.ctx r.niche (if r.seq then 0 else r.don) r.band order 0 s

/-- NICHE_END; the clocks a Niche takes depend on scratchpad stalls the manual gives no rule for, so ARG1 is a free value. -/
def traceEnd (u : UnitId) (ctx niche don band status : Nat) (s : State) : State :=
  emit 0x03 (sourceOf u) ctx niche don band status (Config.freeResult s.free).toNat { s with free := s.free + 1 }

/-- A Niche begins on a core: the f in force takes effect there (R39). -/
def takeF (u : UnitId) (s : State) : State :=
  match coreOf u with
  | some c => s.modCore c (fun x => { x with fNow := fInForce s })
  | none => s

end Sys2Proof.Machine
end

