-- ==== Sys2Proof/Machine/BestEffort.lean ====
section
/-! DEFINITION. Best-effort work: TENSOR_RUN, gaps, pauses, completion and restart of best-effort Niches (10_work_classes.md R233-R246). -/

namespace Sys2Proof.Machine

/-! ### Regions (R234, R235) -/

/-- The region of a core while no LC Niche runs there. -/
def wholeRegion : Region := { spadBase := 0, spadBytes := Config.spadBytes, banks := List.replicate 4 (0, Config.accUsable) }

/-- The empty region. -/
def emptyRegion : Region := { spadBase := 0, spadBytes := 0, banks := List.replicate 4 (0, 0) }

/-- Best-effort region of a core. -/
def regionOf (s : State) (c : Nat) : Region :=
  if s.isFenced c then emptyRegion
  else match activeArm s with
    | none => wholeRegion
    | some a => if maskBit a.coreMask c then a.regions.getD c emptyRegion else wholeRegion

/-- An entry's demand lies inside a region. -/
def fitsRegion (e : MaqEntry) (r : Region) : Bool :=
  decide (e.spad ≤ r.spadBytes) && r.banks.all (fun b => decide (e.accRows ≤ b.2))

/-! ### TENSOR_RUN (R166, R235, R353) -/

/-- A command from a host ring that this part forwards (03_commands.md R74). -/
def forwards (s : State) (e : JEntry) : Bool := e.remoteTo s.link.chip && e.port = .host

/-- Forward the command, or execute it here. A forwarded command's wait is counted on the executing part (R245). -/
def runForwardable (j op : Nat) (s : State) (body : JEntry → State → State) : State :=
  match s.entry? j with
  | none => s
  | some e => if mayBegin s j op && (staticCheck s.link.chip e).isNone && forwards s e then forwardCmd e s else runCmd j op s body

/-- Two byte ranges share a byte. -/
def rangesMeet (a n b m : Nat) : Bool := decide (a < b + m) && decide (b < a + n) && decide (0 < n) && decide (0 < m)

/-- Status with which a TENSOR_RUN ends when its execution would begin; none when it runs. Its input and output lie in the interleaved space
(11_memory.md R253). -/
def tensorCheck (s : State) (e : JEntry) : Option Nat :=
  match tfind s.maquettes e.ctx with
  | none => some stBadContext
  | some m =>
    match m.pkg.entries[(e.param 5).toNat]? with
    | none => some stBadParam
    | some x =>
      let batch := (e.param 4).toNat
      if decide (x.kind ≠ .bestEffort) || decide (batch > x.maxBatch) then some stBadParam
      else if decide (spaceBytes s.dram < e.param64 0 + batch * x.inBytes) || decide (spaceBytes s.dram < e.param64 2 + batch * x.outBytes) then
        some stBadParam
      else if rangesMeet (e.param64 0) (batch * x.inBytes) (e.param64 2) (batch * x.outBytes) then some stBadParam
      else if (List.range Config.cores).all (fun c => s.isFenced c || !fitsRegion x (regionOf s c)) then some stArmResource
      else none

/-- TENSOR_RUN (0x30). -/
def doTensorRun (j : Nat) (s : State) : State :=
  runForwardable j 0x30 s (fun e s =>
    match tensorCheck s e with
    | some st => finish j st [] s
    | none =>
      if ((beEntry s e.ctx (e.param 5).toNat).map (·.niches)).getD [] = [] then finish j stOk [0, 0] s
      else { s with jobs := s.jobs ++ [
        { j := j, sess := none, maq := e.ctx, entry := (e.param 5).toNat, next := 0, core := none, engine := none, again := false, running := none,
          paused := false, tiles := 0, startAt := 0, runAt := 0, pausedAt := 0, pausedTicks := 0, readyAt := s.now, preempt := 0, aborts := 0,
          base := 0, rowBase := 0 }] })

/-! ### Jobs -/

/-- Two descriptions of one job. -/
def BeJob.is (a b : BeJob) : Bool := decide (a.j = b.j) && decide (a.sess = b.sess)

/-- Change a job. -/
def modJob (b : BeJob) (f : BeJob → BeJob) (s : State) : State := { s with jobs := s.jobs.map (fun x => if x.is b then f x else x) }

/-- End a job. A TENSOR_RUN's final completion carries the ticks from start to end and the pre-emptions suffered; a session's unit is done. -/
def endJob (b : BeJob) (status : Nat) (s : State) : State :=
  let s := { s with jobs := s.jobs.filter (fun x => !x.is b) }
  match b.sess with
  | some n => endUnit n status s
  | none => finish b.j status (if status = stOk then [w32 (s.now - b.startAt), w32 b.preempt] else []) s

/-- Client a job is counted under: its command's, or, of a fed append, that of the SEQ_OPEN (R245). -/
def jobClient (s : State) (b : BeJob) : Option Nat :=
  match b.sess with
  | none => (s.entry? b.j).map (·.client)
  | some n => match (s.session n).work.bind (·.j) with
    | some j => (s.entry? j).map (·.client)
    | none => some (s.session n).client

/-- Change the accounts of a job's client. -/
def accountJob (b : BeJob) (f : Account → Account) (s : State) : State :=
  match jobClient s b with
  | some cl => account cl f s
  | none => s

/-- One pre-emption suffered (R241, R245, Table 16.2). -/
def countPreempt (b : BeJob) (s : State) : State :=
  let s := modJob b (fun x => { x with preempt := x.preempt + 1 }) s
  let s := match b.core with | some c => count (ctrCore c 20) 1 s | none => s
  accountJob b (fun a => { a with preempt := satAdd 32 a.preempt 1 }) s

/-- A Niche in progress is placed again from its first tile (R236). -/
def restartNiche (b : BeJob) (s : State) : State :=
  if b.running.isNone then s
  else countPreempt b (modJob b (fun x => { x with running := none, paused := false, tiles := 0, readyAt := s.now }) s)

/-- The job runs again from its first Niche, on any core (R348, R353). -/
def restartJob (b : BeJob) (s : State) : State :=
  modJob b (fun x => { x with next := 0, core := none, engine := none, again := decide (x.startAt ≠ 0), running := none, paused := false, tiles := 0,
                              readyAt := s.now }) s

/-- A session's unit is stopped on a unit of the part: what its peers still answer is discarded while that unit is under reset (12_links.md Table 12.7). -/
def stopWork (u : UnitId) (n : Nat) (s : State) : State := s.modSession n (fun x => { x with work := x.work.map (fun w => { w with stopped := some u }) })

/-- A session's unit runs again from its first Niche, on the engine that has it. -/
def restartUnit (b : BeJob) (s : State) : State :=
  let s := match b.running, b.sess with | some u, some n => stopWork u n s | _, _ => s
  modJob b (fun x => { x with next := 0, running := none, paused := false, tiles := 0, readyAt := s.now, aborts := 1 }) s

/-- The abort of a best-effort Niche (Table 15.4): of a TENSOR_RUN it runs again once, of a session the whole unit does; a second abort of that Niche or
unit ends the job. -/
def abortJob (b : BeJob) (status : Nat) (s : State) : State :=
  if b.aborts ≠ 0 then endJob b status s
  else if b.sess.isSome then restartUnit b s
  else modJob b (fun x => { x with aborts := 1 }) (restartNiche b s)

/-! ### Parts of a region (log 135) -/

/-- The lowest place for `size` of `n` beside the ranges held. -/
def placeBeside (n size : Nat) (held : List (Nat × Nat)) : Option Nat :=
  ((0 :: held.map (fun x => x.1 + x.2)).filter (fun o => decide (o + size ≤ n) && held.all (fun x => !rangesMeet o size x.1 x.2))).min?

/-- Scratchpad bytes and accumulator rows a job needs. -/
def jobNeeds (s : State) (b : BeJob) : Nat × Nat := ((beEntry s b.maq b.entry).map (fun e => (e.spad, e.accRows))).getD (0, 0)

/-- Rows every bank of a region has. -/
def Region.rows (r : Region) : Nat := ((r.banks.map (·.2)).min?).getD 0

/-- Where a job of these needs fits in a region beside the jobs `others` that hold parts of it. -/
def partFor (s : State) (r : Region) (needs : Nat × Nat) (others : List BeJob) : Option (Nat × Nat) :=
  match placeBeside r.spadBytes needs.1 (others.map (fun b => (b.base, (jobNeeds s b).1))),
        placeBeside r.rows needs.2 (others.map (fun b => (b.rowBase, (jobNeeds s b).2))) with
  | some a, some k => some (a, k)
  | _, _ => none

/-- Jobs that hold parts of a core's region, without `b`. -/
def othersOn (s : State) (c : Nat) (b : BeJob) : List BeJob := s.jobs.filter (fun x => decide (x.core = some c) && !x.is b)

/-- The job with a part of core `c`: its own where it has started, else the lowest that is free; none where nothing fits. -/
def placedAt (s : State) (c : Nat) (b : BeJob) : Option BeJob :=
  if b.core.isSome then
    (if decide (b.base + (jobNeeds s b).1 ≤ (regionOf s c).spadBytes) && decide (b.rowBase + (jobNeeds s b).2 ≤ (regionOf s c).rows) then some b else none)
  else (partFor s (regionOf s c) (jobNeeds s b) (othersOn s c b)).map (fun x => { b with base := x.1, rowBase := x.2 })

/-- A length up to the next place another job holds. -/
def upTo (o n : Nat) (held : List Nat) : Nat := ((held.filter (o < ·)).map (· - o)).foldl min (n - o)

/-- What a job may use of a core's region: from its place up to that of the next job. -/
def jobRegion (s : State) (c : Nat) (b : BeJob) : Region :=
  let r := regionOf s c
  let l := othersOn s c b
  { spadBase := r.spadBase + b.base, spadBytes := upTo b.base r.spadBytes (l.map (·.base)),
    banks := r.banks.map (fun k => (k.1 + b.rowBase, upTo b.rowBase k.2 (l.map (·.rowBase)))) }

/-- Scratchpad bytes and accumulator rows that move with jobs of one core: each from its old place to its new one, all at once (R236). -/
def moveParts (spads : List (Nat × Nat × Nat)) (rows : List (Nat → Nat × Nat × Nat)) (k : Core) : Core :=
  let inside (a base n : Nat) : Bool := decide (base ≤ a) && decide (a < base + n)
  let row (x : Nat × Word) : Nat := x.1 / 32 % 1536
  let bank (x : Nat × Word) : Nat := x.1 / 49152
  { k with
    spad := spads.foldl (fun m v => (k.spad.filter (fun x => inside x.1 v.1 v.2.2)).foldl (fun m x => mput m (x.1 - v.1 + v.2.1) x.2) m)
      (k.spad.filter (fun x => !spads.any (fun v => inside x.1 v.2.1 v.2.2)))
    acc := rows.foldl (fun t f => (k.acc.filter (fun x => let v := f (bank x); inside (row x) v.1 v.2.2)).foldl
        (fun t x => let v := f (bank x); tput t ((bank x * 1536 + (row x - v.1 + v.2.1)) * 32 + x.1 % 32) x.2) t)
      (k.acc.filter (fun x => !rows.any (fun f => let v := f (bank x); inside (row x) v.2.1 v.2.2))) }

/-- New parts for the jobs of a core in their order; a job that finds none is left out. -/
def assignParts (s : State) (r : Region) (l : List BeJob) : List (BeJob × BeJob) :=
  l.foldl (fun out b => match partFor s r (jobNeeds s b) (out.map (·.2)) with
    | some x => out ++ [(b, { b with base := x.1, rowBase := x.2 })]
    | none => out) []

/-- The regions `old` have been replaced: on core `c` what each job has left moves to its new part, and the Niche in progress starts again there; a job that
finds no room in the new region starts again from its first Niche (R236, log 135). -/
def swapCore (old : Nat → Region) (c : Nat) (s : State) : State :=
  let r := regionOf s c
  let mine := s.jobs.filter (fun b => decide (b.core = some c))
  let new := assignParts s r mine
  let o := old c
  let spads := new.map (fun x => (o.spadBase + x.1.base, r.spadBase + x.2.base, (jobNeeds s x.1).1))
  let rows := new.map (fun x => fun (k : Nat) => ((o.banks.getD k (0, 0)).1 + x.1.rowBase, (r.banks.getD k (0, 0)).1 + x.2.rowBase, (jobNeeds s x.1).2))
  let s := s.modCore c (moveParts spads rows)
  forAll mine (fun b s => match new.find? (fun x => x.1.is b) with
    | some x => modJob b (fun y => { y with base := x.2.base, rowBase := x.2.rowBase }) (restartNiche b s)
    | none => restartJob b (restartNiche b s)) s

/-! ### Gaps (R237, R238) -/

/-- Key of the weights record of a job: its Maquette entry, or its session's model. -/
def jobWeights (s : State) (b : BeJob) : Nat × Nat :=
  match b.sess with
  | some n => (64 + (s.session n).model, 0)
  | none => (b.maq, b.entry)

/-- Core whose best-effort region last held the weights. -/
def resident (s : State) (w : Nat × Nat) : Option Nat :=
  (List.range Config.cores).find? (fun c => decide ((s.core c).weights = some w))

/-- Record that core `c` holds the weights, and no other core. -/
def setResident (c : Nat) (w : Nat × Nat) (s : State) : State :=
  let s := forAll (List.range Config.cores) (fun k s =>
    if decide (k ≠ c) && decide ((s.core k).weights = some w) then s.modCore k (fun x => { x with weights := none }) else s) s
  s.modCore c (fun x => { x with weights := some w })

/-- The gap of R237 that a best-effort Niche needs is open on unit `u` of core `c`. -/
def gapOpen (s : State) (c : Nat) (u : UnitId) (wide : Bool) : Bool :=
  if wide then (enginesOf c).all (fun v => unitUp s v && idle s v && (readyFor s v).isEmpty)
  else unitUp s u && idle s u && (readyFor s u).isEmpty && !(broadcastReady s c)

/-- No other best-effort Niche stands paused where a Niche would start (R240). -/
def freeOfPaused (s : State) (c : Nat) (u : UnitId) (wide : Bool) : Bool := if wide then (enginesOf c).all (fun v => !pausedOn s v) else !pausedOn s u

/-- The job's next Niche may start on unit `u` of core `c`. -/
def jobReady (s : State) (c : Nat) (u : UnitId) (b : BeJob) : Bool :=
  b.running.isNone && (match b.core with | some k => decide (k = c) | none => true) &&
  (match jobNiche s b with
   | some n => beFits c b n u && gapOpen s c u (beWide n) && freeOfPaused s c u (beWide n) && (placedAt s c b).isSome
   | none => false)

/-- Plinth's choice (R238): jobs stand in journal order. -/
def pickJob (s : State) (c : Nat) (ready : List BeJob) : Option BeJob :=
  match ready.find? (fun b => decide (resident s (jobWeights s b) = some c)) with
  | some b => some b
  | none => ready.find? (fun b => (resident s (jobWeights s b)).isNone || decide (resident s (jobWeights s b) = some c) ||
      decide (s.now - b.readyAt ≥ 2000))

/-- Jobs by journal position. -/
def byJournal (l : List BeJob) : List BeJob := l.foldl (fun r b => r.filter (fun x => x.j ≤ b.j) ++ b :: r.filter (fun x => b.j < x.j)) []

/-- Product descriptor of a job's Niche that runs on unit `u`, in its part of the region. -/
def beMx (s : State) (c : Nat) (b : BeJob) (u : UnitId) (n : OpNiche) : MxDesc :=
  let r := jobRegion s c b
  let e := match u with | .mx _ e => e | _ => n.engine
  (MxDesc.ofWords (n.indep || decide (n.station = 5)) (if n.station = 5 then e else n.engine) n.desc).relocate r.spadBase r.banks

/-- Vector descriptor of a job's Niche in its part of the region. -/
def beVx (s : State) (c : Nat) (b : BeJob) (n : OpNiche) : VxDesc :=
  let r := jobRegion s c b
  (VxDesc.ofWords n.desc).relocate r.spadBase r.banks

/-- The overflow check of a matrix engine at dispatch, on the relocated addresses (R193, R234). -/
def beFootprint (s : State) (c : Nat) (b : BeJob) (u : UnitId) (n : OpNiche) : Option Nat :=
  let r := jobRegion s c b
  let top := r.spadBase + r.spadBytes
  if n.station = 3 then (if beOnArray n then (beVx s c b n).footprint top else none) else (beMx s c b u n).footprint top

/-- The wait a first placement ends: of a TENSOR_RUN what is left since its command began or, after a replay, since its earlier start (R245, R246); of a
session's unit the ticks it was ready and unplaced. -/
def placeWait (s : State) (b : BeJob) : Nat :=
  if b.again then s.now - b.startAt
  else if b.sess.isSome then s.now - b.readyAt
  else s.now - ((s.entry? b.j).bind (·.began)).getD s.now

/-- Note the wait of a session's unit with its work. -/
def noteWait (b : BeJob) (k : Nat) (s : State) : State :=
  match b.sess with
  | some n => s.modSession n (fun x => { x with work := x.work.map (fun w => { w with waited := w.waited + k }) })
  | none => s

/-- The job, with its part of the region, changes hands to core `c`: its record of weights, the wait of a first placement, its place. -/
def takeJob (c : Nat) (u : UnitId) (b : BeJob) (s : State) : State :=
  let s := setResident c (jobWeights s b) s
  let first := b.core.isNone
  let s := if first then noteWait b (placeWait s b) (accountJob b (fun a => { a with wait := (a.wait + placeWait s b) % 2 ^ 64 }) s) else s
  let eng := match u with | .mx _ e => if b.sess.isSome && b.engine.isNone then some e else b.engine | _ => b.engine
  modJob b (fun x => { x with core := some c, base := b.base, rowBase := b.rowBase, engine := eng, again := false, running := some u, paused := false, tiles := 0, runAt := s.now, pausedTicks := 0,
                              startAt := if first then s.now else x.startAt }) (takeF u s)

/-- Place the next Niche of a job. -/
def placeJob (c : Nat) (u : UnitId) (b : BeJob) (n : OpNiche) (s : State) : State :=
  let s := emit 0x02 (sourceOf u) 0xFFFF 0xFFFFFF 0 0xFFF 0 1 (takeJob c u b s)
  match beFootprint s c b u n with
  | none => s
  | some st =>
    let s := traceEnd u 0xFFFF 0xFFFFFF 0 0xFFF st (count (ctrCore c 17) 1 s)
    match s.jobs.find? (fun x => x.is b) with
    | some x => endJob x st s
    | none => s

/-- Resume a paused job (R240). -/
def resumeJob (u : UnitId) (b : BeJob) (s : State) : State :=
  let s := modJob b (fun x => { x with paused := false, pausedTicks := x.pausedTicks + (s.now - x.pausedAt) }) (takeF u s)
  emit 0x05 (sourceOf u) 0xFFFF 0xFFFFFF 0 0xFFF b.tiles 0 s

/-- A job that has not started and fits no region that is left ends with ARMATURE_RESOURCE: its execution would begin now (R235). -/
def nowhere (s : State) (b : BeJob) : Bool :=
  b.core.isNone && (match beEntry s b.maq b.entry with
    | some e => (List.range Config.cores).all (fun c => s.isFenced c || !fitsRegion e (regionOf s c))
    | none => true)

/-- BE_GAP: a paused Niche resumes at the next gap of its unit; otherwise Plinth places a unit. -/
def doBeGap (u : UnitId) (s : State) : State :=
  match coreOf u with
  | none => s
  | some c =>
    if !live s || !computeUp s then s
    else match s.jobs.find? (fun b => b.paused && b.holds s u) with
      | some b => if gapOpen s c u ((jobNiche s b).map beWide |>.getD false) then resumeJob u b s else s
      | none =>
        let s := forAll (s.jobs.filter (nowhere s)) (fun b => endJob b stArmResource) s
        match pickJob s c (byJournal (s.jobs.filter (jobReady s c u))) with
        | none => s
        | some b => match jobNiche s b, placedAt s c b with
          | some n, some x => placeJob c u x n s
          | _, _ => s

/-! ### Pauses (R240, R241) -/

/-- Lowest ORDER among instances. -/
def minOrder (s : State) (l : List Run) : Nat := (l.map (fun r => (runNiche s r).order)).foldl min (2 ^ 24)

/-- Tiles of a best-effort Niche (Table 10.2). -/
def beTiles (n : OpNiche) : Nat :=
  if n.station = 3 then
    let d := VxDesc.ofWords n.desc
    if vxClass d.op = some 3 then d.rows else cdiv (d.rows * d.cols) 16384
  else
    let d := MxDesc.ofWords (n.indep || decide (n.station = 5)) n.engine n.desc
    d.passes * max 1 (cdiv d.k d.kb) * d.slices * cdiv d.m 256

/-- BE_PAUSE: the tiles completed lie between those of the last pause and the Niche's own. -/
def doBePause (u : UnitId) (tilesDone : Nat) (s : State) : State :=
  match beOn s u with
  | none => s
  | some b =>
    let ready := match b.running, jobNiche s b with
      | some (.mx c e), some n => (if (beWide n) then enginesOf c else [.mx c e]).flatMap (readyFor s)
      | some v, _ => readyFor s v
      | _, _ => []
    match jobNiche s b with
    | none => s
    | some n =>
      if ready.isEmpty || s.recov.hung.any (fun v => decide (b.running = some v)) || decide (tilesDone < b.tiles) || decide (beTiles n < tilesDone) then s
      else
        let s := countPreempt b s
        let s := modJob b (fun x => { x with paused := true, tiles := tilesDone, pausedAt := s.now }) s
        emit 0x04 (sourceOf u) 0xFFFF 0xFFFFFF 0 0xFFF (minOrder s ready) tilesDone s

def execTensorRun (j : Nat) (s : State) : Host.Outcome State Fault Refusal := .next (doTensorRun j s)
def execBeGap (u : UnitId) (s : State) : Host.Outcome State Fault Refusal := .next (doBeGap u s)
def execBePause (u : UnitId) (tilesDone : Nat) (s : State) : Host.Outcome State Fault Refusal := .next (doBePause u tilesDone s)

end Sys2Proof.Machine
end

