-- ==== Sys2Proof/Machine/Sequence.lean ====
section
/-! DEFINITION. Sequence sessions: SEQ_OPEN, SEQ_APPEND, SEQ_STEP, SEQ_CLOSE, fed appends, SEQ triggers, COLLECTIVE, key-value pages
(09_sequence.md R217-R232, 12_links.md R293). What a run of a model's entries yields comes with the command. -/

namespace Sys2Proof.Machine

/-! ### Models and parameters (R217, R218) -/

/-- Maquette entry of a session model bound in the active Armature. -/
def modelEntry (s : State) (model : Nat) : Option MaqEntry :=
  (activeArm s).bind (fun a => (modelBinding a model).bind (fun b => beEntry s b.2.maq b.2.entry))

/-- Fields of SEQ_OPEN (Table 9.1). -/
structure SeqArgs where
  model : Nat
  outRing : Nat
  be : Bool
  slide : Bool
  tMax : Nat
  feedEn : Bool
  feedSlot : Nat
  feedOutput : Nat
  autoSteps : Nat
  spread : Nat
deriving DecidableEq, Repr, Inhabited

/-- Read the parameters. -/
def SeqArgs.ofEntry (e : JEntry) : SeqArgs :=
  let p := e.param
  { model := fld (p 0) 23 16, outRing := fld (p 0) 14 12, be := bit (p 0) 11, slide := bit (p 0) 10, tMax := (p 1).toNat, feedEn := bit (p 2) 31,
    feedSlot := fld (p 2) 22 16, feedOutput := fld (p 2) 15 0, autoSteps := fld (p 3) 15 0, spread := join64 (p 4) (p 5) }

/-- T_max is 256-65,536, a multiple of 256 (09_sequence.md Table 9.1). -/
def tMaxOk (t : Nat) : Bool := inRange t 256 65536 && decide (t % 256 = 0)

/-- PARAM index of the first field out of range. -/
def SeqArgs.bad (s : State) (a : SeqArgs) : Option Nat :=
  ([(0, (modelEntry s a.model).isSome), (1, tMaxOk a.tMax), (3, decide (a.autoSteps ≤ 1024))].find?
    (fun x => !x.2)).map (·.1)
where
  /-- bounds -/
  inRange (n lo hi : Nat) : Bool := decide (lo ≤ n) && decide (n ≤ hi)

/-! ### Heads over parts (R229) -/

/-- Heads that live on a chip. -/
def headsOn (spread chip heads : Nat) : List Nat :=
  let l := spreadChips spread
  if l.isEmpty then List.range heads else (List.range heads).filter (fun h => decide (l.getD (h % l.length) 64 = chip))

/-- Send a COLLECTIVE to a peer, under a journal position of its own and the session's client; its COMPLETION is awaited (R245, Table 12.6). -/
def sendCollective (n kind : Nat) (ps : List Word) (peer : Nat) (s : State) : State :=
  let x := s.session n
  let s := { s with jpos := s.jpos + 1 }
  let hdr : List Word := [dw [(1, 25, 24), (x.client, 23, 16), (0x62, 7, 0)], 0, dw [(x.gen, 23, 16), (n, 15, 0)], 0]
  let pkt := hdr ++ [dw [(kind, 3, 0)]] ++ ps ++ List.replicate (27 - ps.length) 0
  let s := s.modSession n (fun x => { x with colls := x.colls ++ [(peer, s.jpos, false)] })
  sendSeq peer (if x.be then 2 else 1) 0x01 n x.gen (w32 s.jpos) 0 pkt s

/-- The collective of a step or append chunk to every peer, then the SCATTER of the first layer; with no peers every layer counts as gathered
(R293). -/
def sendUnit (n kind positions : Nat) (s : State) : State :=
  let x := s.session n
  let peers := peersOf s x.spread
  let layers := (x.work.map (·.layers)).getD 0
  if peers.isEmpty then s.modSession n (fun x => { x with work := x.work.map (fun w => { w with layer := w.layers }) })
  else
    let id := x.stepId + 1
    let s := s.modSession n (fun x => { x with stepId := id, colls := [], gathers := [], headRows := [] })
    let s := forAll peers (sendCollective n kind [0, w32 x.tCtx, w32 id, w32 positions, 0]) s
    if layers = 0 then s else scatterLayer n 0 s

/-! ### Pages (R221-R225) -/

/-- Buffers of a session on this part: page table, then data and scale block of each page. -/
def pageSizes (pages : Nat) : List Nat := (32 * pages) :: (List.range pages).flatMap (fun _ => [65536, 1024])

/-- Pages of the given layers and heads; `bufs` are their data buffers and scale blocks in turn. -/
def makePages (layers tMax : Nat) (heads : List Nat) (bufs : List (List Alloc)) : List Page :=
  let slots := (List.range layers).flatMap (fun l => heads.flatMap (fun h => (List.range (tMax / 256)).map (fun k => (l, h, k))))
  ((List.range slots.length).zip slots).map (fun x =>
    let addr (i : Nat) : Nat := ((bufs.getD i []).headD default).addr
    { valid := true, tokens := 0, layer := x.2.1, head := x.2.2.1, firstPos := 256 * x.2.2.2, data := addr (2 * x.1), scale := addr (2 * x.1 + 1) })

/-- Quantise one row of 128 FP32 numbers (R223): FP16 scale and INT8 elements. -/
def quantRow (ws : List Word) : Nat × List Byte :=
  let xs := ws.map fp32
  if xs.any (fun v => v = .nan) then (fpBits fF16 false .nan, xs.map (fun _ => 0))
  else
    let m : Fp := xs.foldl (fun (m : Fp) v => m.max v.abs) (.fin false 0 0)
    let sc := fpBits fF16 false (m.div (.ofNat 127))
    let s := fp16 sc
    if m.isZero || s.isZero then (0, xs.map (fun _ => 0))
    else (sc, xs.map (fun v => BitVec.ofInt 8 (clampInt (-127, 127) (((div32 v s).toInt).getD 0))))

/-- Two bytes of a 16-bit value. -/
def halfBytes (n : Nat) : List Byte := [BitVec.ofNat 8 n, BitVec.ofNat 8 (n / 256)]

/-- Page that holds a position of a layer and head. -/
def Page.holds (p : Page) (layer head pos : Nat) : Bool :=
  p.valid && decide (p.layer = layer) && decide (p.head = head) && decide (p.firstPos ≤ pos) && decide (pos < p.firstPos + 256)

/-- Write the key and value of one layer and head at a position. -/
def writeKv (n pos : Nat) (r : KvRow) (s : State) : State :=
  match (s.session n).pages.find? (fun p => p.holds r.layer r.head pos) with
  | none => s
  | some p =>
    let t := pos - p.firstPos
    let k := quantRow r.key
    let v := quantRow r.value
    let s := dramWrite (p.data + 128 * t) k.2 (dramWrite (p.data + 32768 + 128 * t) v.2 s)
    dramWrite (p.scale + 2 * t) (halfBytes k.1) (dramWrite (p.scale + 512 + 2 * t) (halfBytes v.1) s)

/-- Write the rows of positions POS and on: they lie above TOKENS until they are committed. -/
def writeRows (n : Nat) (l : List (List KvRow)) (s : State) : State :=
  forAll ((List.range l.length).zip l) (fun x s => forAll x.2 (writeKv n ((s.session n).pos + x.1)) s) s

/-- Committed rows of a page once the positions before `pos` are committed. -/
def Page.commit (pos : Nat) (p : Page) : Page := if p.firstPos < pos then { p with tokens := min 256 (pos - p.firstPos) } else p

/-- Commit `k` written positions: TOKENS, T_ctx and POS (R225). -/
def commitRows (n k : Nat) (s : State) : State :=
  writeHeaders n (s.modSession n (fun x => { x with pages := x.pages.map (Page.commit (x.pos + k)), tCtx := x.tCtx + k, pos := x.pos + k }))

/-- Take the page with the lowest FIRST_POS of every layer and head for the positions after the newest page (R225). -/
def slidePages (l : List Page) : List Page :=
  let mine (p : Page) : List Page := l.filter (fun q => decide (q.layer = p.layer) && decide (q.head = p.head))
  l.map (fun p => if (mine p).all (fun q => decide (p.firstPos ≤ q.firstPos)) then
    { p with tokens := 0, firstPos := maxNat ((mine p).map (·.firstPos)) + 256 } else p)

/-- Slides that `k` positions need from T_ctx on: one each time an append finds the context full. -/
def slidesFor (tMax : Nat) : Nat → Nat → Nat
  | 0, _ => 0
  | k + 1, t => if t = tMax then 1 + slidesFor tMax k (t - 256 + 1) else slidesFor tMax k (t + 1)

/-- Slide the context `m` times. -/
def slideTimes (n : Nat) : Nat → State → State
  | 0, s => s
  | m + 1, s => slideTimes n m (s.modSession n (fun x => { x with pages := slidePages x.pages, tCtx := x.tCtx - 256 }))

/-- Make room for `k` positions of a context that slides, before their rows are written; true when it slid. -/
def slideIf (n k : Nat) (s : State) : Bool × State :=
  let x := s.session n
  let m := if x.slide then slidesFor x.tMax k x.tCtx else 0
  if m = 0 then (false, s) else (true, writeHeaders n (slideTimes n m s))

/-- The rows hold one key and one value of 128 numbers for each layer and head the session has pages for (R225). -/
def rowsOk (x : Session) (rows : List KvRow) : Bool :=
  decide (rows.map (fun r => (r.layer, r.head)) = (x.pages.map (fun p => (p.layer, p.head))).eraseDups) &&
  rows.all (fun r => decide (r.key.length = 128) && decide (r.value.length = 128))

/-! ### SEQ_OPEN (R218-R220, R380) -/

/-- Lowest session free for an open (03_commands.md R69). -/
def freeSession (s : State) : Option Nat :=
  (List.range Config.sessions).find? (fun n => let x := s.session n; !x.isOpen && !x.opening && x.deferred.isNone)

/-- Pack groups of a model in the schedule in force. -/
def packOf (s : State) (model : Nat) : Option Pack := (activeSched s).bind (fun t => t.packs.find? (fun p => p.model = model))

/-- Lowest free lane of the lowest group (R220). -/
def freeLane (s : State) (model : Nat) : Option (Nat × Nat) :=
  match packOf s model with
  | none => none
  | some p => ((List.range p.groups).flatMap (fun g => (List.range p.lanes).map (fun l => (g, l)))).find? (fun gl =>
      s.sessions.all (fun e => !(e.2.isOpen && decide (e.2.model = model) && decide (e.2.lane = some gl))))

/-- An LC open with a spread takes no lane under an Armature committed for another role or other dimensions (R380). -/
def roleDiffers (s : State) : Bool :=
  match activeArm s with
  | some a => decide (a.role ≠ s.link.role) || decide (a.torusX ≠ s.link.torusX) || decide (a.torusY ≠ s.link.torusY)
  | none => false

/-- Every chip of a spread but this part can be reached, and the spread holds this part. -/
def spreadOk (s : State) (spread : Nat) : Bool :=
  decide (spread = 0) || (maskBit spread s.link.chip && (peersOf s spread).all (fun c => decide (s.link.role ≠ 0) && (routeOut s c).isSome))

/-- What a session is from its open on. -/
def openedSession (g client : Nat) (a : SeqArgs) (m : MaqEntry) (be : Bool) (lane : Option (Nat × Nat)) (heads : List Nat)
    (bufs : List (List Alloc)) : Session :=
  { Session.closed g with
    isOpen := true, model := a.model, be := be, outRing := a.outRing, slide := a.slide, tMax := a.tMax, feedEn := a.feedEn,
    feedSlot := a.feedSlot, feedOutput := a.feedOutput, autoSteps := a.autoSteps, spread := a.spread, lane := lane, client := client
    pages := makePages m.layers a.tMax heads bufs.tail, allocs := bufs.tail.flatten, table := bufs.headD [] }

/-- The open once a lane is chosen: this part's share, then those of the peers, whose answers it waits for (R219, R293). -/
def admitSession (j n client : Nat) (a : SeqArgs) (m : MaqEntry) (be : Bool) (lane : Option (Nat × Nat)) (s : State) : State :=
  let heads := headsOn a.spread s.link.chip m.heads
  match allocAll false false (pageSizes (m.layers * heads.length * (a.tMax / 256))) [] s with
  | (none, s) => finish j stPoolEmpty [] s
  | (some bufs, s) =>
    let g := (s.session n).gen
    let s := writeHeaders n (s.setSession n (openedSession g client a m be lane heads bufs))
    let peers := peersOf s a.spread
    if peers.isEmpty then finishCtx j stOpenOk g n [w32 (s.session n).pages.length] s
    else
      let lo := dw [(a.model, 23, 16), (b2n a.be, 11, 11)]
      forAll peers (sendCollective n 0 [lo, w32 a.tMax, 0, w32 a.spread, hi32 a.spread]) (s.modSession n (fun x => { x with pendingOpen := some j }))

/-- An open that fails: the peers that accepted close their shares, and everything is released (R219). -/
def cancelOpen (j n : Nat) (s : State) : State :=
  let x := s.session n
  let s := forAll (x.accepted.map (·.1)) (sendCollective n 3 [0, 0, 0, 0, 0]) s
  let s := dropPages n s
  finish j (if x.peerLost then stPeerFlr else stPeerRejected) [0, 0, 0, if x.peerLost then 0 else w32 x.collFail] (s.setSession n (Session.closed x.gen))

/-- The answers of all peers have come: the open ends (R219, R293). -/
def finishOpen (j n : Nat) (s : State) : State :=
  let x := s.session n
  if !x.colls.isEmpty then s
  else if x.collFail ≠ 0 then cancelOpen j n s
  else
    let pages := x.pages.length + (x.accepted.map (·.2)).sum
    finishCtx j stOpenOk x.gen n [w32 pages] (s.modSession n (fun x => { x with pendingOpen := none, accepted := [], opening := false }))

/-- The checks of an open on session `n` and what follows them (R57, R218, R219). -/
def openChecks (j n : Nat) (e : JEntry) (s : State) : State :=
  let a := SeqArgs.ofEntry e
  match SeqArgs.bad s a, modelEntry s a.model with
  | some i, _ => finish j stBadParam [w32 i] s
  | none, none => finish j stBadParam [0] s
  | none, some m =>
    if decide (e.ctx = 0xFFFF) && (freeSession s).isNone then finish j stNoFree [] s
    else if !spreadOk s a.spread then finish j stNoRoute [] s
    else
      let be := a.be || (decide (a.spread ≠ 0) && roleDiffers s)
      let lane := if be then none else freeLane s a.model
      if !be && lane.isNone then finish j stNoFree [] s
      else admitSession j n e.client a m be lane s

/-- The open of a session that is not open, or of the lowest free one. -/
def openSession (j : Nat) (e : JEntry) (s : State) : State :=
  let n := if e.ctx = 0xFFFF then (freeSession s).getD 0 else e.ctx
  if decide (e.ctx ≠ 0xFFFF) && (s.session n).isOpen then finish j stCtxBusy [] s
  else if e.gen ≠ 0 then finish j stStaleGen [] s
  else openChecks j n e s

/-- Session whose open at `j` waits for its peers. -/
def openingAt (s : State) (j : Nat) : Option Nat := (s.sessions.find? (fun e => decide (e.2.pendingOpen = some j))).map (·.1)

/-- SEQ_OPEN (0x31): begins; met again, ends once its peers have answered (log 114). -/
def doSeqOpen (j : Nat) (s : State) : State :=
  match openingAt s j with
  | some n => if live s then finishOpen j n s else s
  | none => runCmd j 0x31 s (openSession j)

/-! ### Order with fed appends (R225, R226) -/

/-- A fed append issued in an earlier tick, or under way, goes first. -/
def fedFirst (s : State) (j : Nat) : Bool :=
  match s.entry? j with
  | none => false
  | some e => !e.remoteTo s.link.chip && ((s.session e.ctx).fed.any (fun f => decide (f.2.2 < e.tick)) || (s.session e.ctx).work.isSome)

/-- Status with which an append or step ends at once: its model is not bound (R220), or a peer underwent function-level reset (R230). -/
def workCheck (s : State) (n : Nat) : Option Nat :=
  if (modelEntry s (s.session n).model).isNone then some stBadParam
  else if (s.session n).peerLost then some stPeerFlr
  else none

/-- No unfenced core's region holds the session's units (R235). -/
def noFit (s : State) (n : Nat) : Bool :=
  let x := s.session n
  match modelEntry s x.model with
  | none => false
  | some m => x.be && (List.range Config.cores).all (fun c => s.isFenced c || !fitsRegion m (regionOf s c))

/-! ### Units: append chunks and steps (R225, R228, R232) -/

/-- A SEQ_RESULT (Table 9.3). -/
def seqResult (w : SeqWork) (n flags : Nat) (token score : Word) (pos step status tCtx : Nat) : RecordReq :=
  { session := true, context := n, type := 6, don := 0, band := 0xFFF, typeFlags := flags, t0 := 0, safeNiches := false, within := true,
    concealed := w.concealed, late := false, catching := w.catching, replayed := false, status := status,
    body := [token, score, w32 pos, dw [(step, 31, 16), (status, 15, 0)], w32 tCtx, w.asn, 0, 0], slots := [] }

/-- The session's next command is a SEQ_CLOSE and nothing else waits for it: the last record of what is under way carries LAST (R231). -/
def closesNext (s : State) (n : Nat) : Bool :=
  let mine := s.journal.filter (fun e => decide (e.named s.link.chip = some (true, n)) && decide (e.st = .waiting))
  (s.session n).fed.isEmpty && (match mine with | e :: _ => decide (e.opcode = 0x34) && decide (e.gen = (s.session n).gen) | [] => false)

/-- The session's work ends: the command's final completion carries T_ctx and, of SEQ_STEP, the steps run. -/
def endWork (n status : Nat) (s : State) : State :=
  let x := s.session n
  let s := { s with jobs := s.jobs.filter (fun b => decide (b.sess ≠ some n)) }
  let s := s.modSession n (fun x => { x with work := none, gathers := [], headRows := [] })
  match x.work with
  | none => s
  | some w => match w.j with
    | some j => finish j status [w32 x.tCtx, w32 w.i] s
    | none => s

/-- Best-effort job of a session's unit: it stands at its command's journal position, a fed append behind every command journalled when it begins
(R238). -/
def unitJob (s : State) (n : Nat) (w : SeqWork) (maq entry : Nat) : BeJob :=
  { j := w.j.getD s.jpos, sess := some n, maq := maq, entry := entry, next := 0, core := none, engine := none, again := false, running := none, paused := false,
    tiles := 0, startAt := 0, runAt := 0, pausedAt := 0, pausedTicks := 0, readyAt := s.now, preempt := 0, aborts := 0, base := 0, rowBase := 0 }

/-- Maquette and entry of a session's model in the active Armature. -/
def modelPlace (s : State) (model : Nat) : Option (Nat × Nat) :=
  (activeArm s).bind (fun a => (modelBinding a model).map (fun b => (b.2.maq, b.2.entry)))

/-- The Niches of a unit wait: for the pack group's trigger, or, of a BE session, for gaps (R220, R228). A unit whose model is not bound ends with
BAD_PARAMETER (R220), one that fits no region is abandoned with ARMATURE_RESOURCE (R235). -/
def queueUnit (n : Nat) (s : State) : State :=
  let x := s.session n
  match x.work with
  | none => s
  | some w =>
    if (modelEntry s x.model).isNone then modWork n (fun w => { w with phase := .done, fault := stBadParam }) s
    else if !x.be then modWork n (fun w => { w with phase := .ready, fault := 0 }) s
    else if noFit s n then modWork n (fun w => { w with phase := .done, fault := stArmResource }) s
    else match modelPlace s x.model, modelEntry s x.model with
      | some (maq, entry), some m =>
        if m.niches.isEmpty then modWork n (fun w => { w with phase := .done, fault := 0 }) s
        else modWork n (fun w => { w with phase := .ready, fault := 0 }) { s with jobs := s.jobs ++ [unitJob s n w maq entry] }
      | _, _ => modWork n (fun w => { w with phase := .done, fault := stBadParam }) s

/-- Begin a unit of `k` positions: the collective with what is committed so far, then the slide that makes room for the rows (R225, R230). -/
def beginUnit (n kind k : Nat) (s : State) : State :=
  let r := slideIf n k (sendUnit n kind k s)
  queueUnit n (modWork n (fun w => { w with slid := w.slid || r.1, kv := none, stopped := none }) r.2)

/-- Begin the next unit of a session's work, or end the work when none is left: a chunk of at most one lane, then steps, until the context is full
(R225). -/
def nextUnit (n : Nat) (s : State) : State :=
  let x := s.session n
  match x.work with
  | none => s
  | some w =>
    if !w.items.isEmpty then
      let k := min w.items.length w.laneRows
      beginUnit n 2 k (modWork n (fun w => { w with chunk := k }) s)
    else if decide (w.i < w.steps) && (x.slide || decide (x.tCtx ≠ x.tMax)) then beginUnit n 1 1 s
    else endWork n 0 s

/-- The unit's Niches have finished and the GATHERs of every layer have come. -/
def unitDone (w : SeqWork) : Bool := decide (w.phase = .done) && decide (w.layers ≤ w.layer)

/-- The keys and values of a unit under way are written to their pages as it computes them, above TOKENS (R225). -/
def takeRows (n : Nat) (rows : List (List KvRow)) (s : State) : State := modWork n (fun w => { w with kv := some rows }) (writeRows n rows s)

/-- The unit's rows are those written, or none are written yet. -/
def rowsAgree (w : SeqWork) (rows : List (List KvRow)) : Bool := match w.kv with | some l => decide (l = rows) | none => true

/-- Its Niches wait for a trigger or a gap, or run. -/
def underWay (w : SeqWork) : Bool := (decide (w.phase = .ready) || decide (w.phase = .running)) && w.kv.isNone && decide (w.fault = 0)

/-- A unit abandoned by a fault leaves T_ctx as it was once its slide had made room (R194, R225, R230, log 138). A step writes the fault in its record; the record has a place for LINK_DOWN
and for family 0x05 (Table 9.3). -/
def abandonUnit (n : Nat) (w : SeqWork) (s : State) : State :=
  let x := s.session n
  let s := if w.items.isEmpty && (w.fault = stLinkDown || w.fault / 256 = 5) then
      issueTo x.outRing (closesNext s n) (seqResult w n (2 * b2n w.auto + 16) 0xFFFFFFFF (Config.freeResult s.free) x.pos w.i w.fault x.tCtx)
        { s with free := s.free + 1 }
    else s
  endWork n w.fault s

/-- The append entry ran on this chunk's items and yields a row set for each. -/
def chunkOk (x : Session) (w : SeqWork) (r : AppendRun) : Bool :=
  decide (r.frames = w.frames) && decide (r.items = w.items.take w.chunk) && decide (r.rows.length = w.chunk) && r.rows.all (rowsOk x)

/-- Commit a chunk (R225). -/
def commitChunk (n : Nat) (r : AppendRun) (s : State) : State :=
  let s := (commitRows n r.rows.length (writeRows n r.rows s)).modSession n (fun x => { x with lastTok := none })
  nextUnit n (modWork n (fun w => { w with items := w.items.drop w.chunk, chunk := 0, phase := .idle, slid := false }) s)

/-- The step entry ran on the token the previous step produced, or START_TOKEN after an append (R225). -/
def stepOk (x : Session) (w : SeqWork) (r : StepRun) : Bool :=
  decide (r.input = x.lastTok.getD w.start) && !r.logits.isEmpty && rowsOk x r.rows

/-- Commit a step: its position, its token by ARGMAX, its SEQ_RESULT (R225, R232). -/
def commitStep (n : Nat) (w : SeqWork) (r : StepRun) (s : State) : State :=
  let x := s.session n
  let s := commitRows n 1 (writeRows n [r.rows] s)
  let k := argmax (r.logits.map fp32)
  let tok := w32 k
  let s := s.modSession n (fun x => { x with lastTok := some tok })
  let y := s.session n
  let isEos := decide (tok = w.eos)
  let stop := w.endOnEos && isEos
  let full := !y.slide && decide (y.tCtx = y.tMax) && decide (w.i + 1 < w.steps) && !stop
  let last := stop || full || decide (w.i + 1 = w.steps)
  let flags := b2n isEos + 2 * b2n w.auto + 4 * b2n w.slid + 8 * b2n full + 16 * b2n last
  let s := issueTo y.outRing (last && closesNext s n) (seqResult w n flags tok (r.logits.getD k 0) x.pos w.i 0 y.tCtx) s
  nextUnit n (modWork n (fun w => { w with i := w.i + 1, steps := if stop then w.i + 1 else w.steps, phase := .idle, slid := false }) s)

/-- Go on with a chunk: abandoned, committed, or still under way, its rows being written. -/
def runChunk (n : Nat) (r : AppendRun) (s : State) : State :=
  let x := s.session n
  match x.work with
  | none => s
  | some w =>
    if w.items.isEmpty then s
    else if w.fault ≠ 0 then abandonUnit n w s
    else if !chunkOk x w r || !rowsAgree w r.rows then s
    else if unitDone w then commitChunk n r s
    else if underWay w then takeRows n r.rows s
    else s

/-- Go on with steps, one for each run supplied; of one still under way the rows are written. -/
def runSteps (n : Nat) : List StepRun → State → State
  | [], s =>
    match (s.session n).work with
    | some w => if w.items.isEmpty && decide (w.fault ≠ 0) then abandonUnit n w s else s
    | none => s
  | r :: rest, s =>
    let x := s.session n
    match x.work with
    | none => s
    | some w =>
      if !w.items.isEmpty then s
      else if w.fault ≠ 0 then abandonUnit n w s
      else if !stepOk x w r || !rowsAgree w [r.rows] then s
      else if unitDone w then runSteps n rest (commitStep n w r s)
      else if underWay w then takeRows n [r.rows] s
      else s

/-- Work on a session that has not begun a unit. -/
def SeqWork.of (m : MaqEntry) (j : Option Nat) (asn : Word) (tick steps : Nat) (items : List (List Byte)) : SeqWork :=
  { j := j, asn := asn, auto := false, endOnEos := false, concealed := false, catching := false, tick := tick, waited := 0, items := items, frames := false,
    steps := steps, i := 0, phase := .idle, fault := 0, chunk := 0, layer := 0, stopped := none, slid := false, kv := none, layers := m.layers, start := m.startTok, eos := m.eosTok,
    laneRows := max 1 m.laneRows }

/-- The session takes up work. -/
def beginWork (n : Nat) (w : SeqWork) (s : State) : State := nextUnit n (s.modSession n (fun x => { x with work := some { w with tick := s.now } }))

/-- Session of this part on which the command at `j` is under way. -/
def workingAt (s : State) (j : Nat) : Option Nat :=
  (s.sessions.find? (fun e => decide (e.2.work.bind (·.j) = some j))).map (·.1)

/-- Go on with work of this part's compute domain, else leave the state. -/
def whenUp (s : State) (t : State) : State := if live s && computeUp s then t else s

/-! ### SEQ_APPEND (R225) -/

/-- Items of a command's data. -/
def itemsOf (e : JEntry) (count size : Nat) : List (List Byte) :=
  (List.range count).map (fun i => (List.range size).map (fun k => e.data.getD (i * size + k) 0))

/-- Begin a SEQ_APPEND. -/
def beginAppend (j : Nat) (e : JEntry) (s : State) : State :=
  let n := e.ctx
  let x := s.session n
  let count := (e.param 2).toNat
  match sessionCheck s e with
  | some st => finish j st [] s
  | none =>
    if decide (count = 0) || (!x.slide && decide (x.tCtx + count > x.tMax)) then finish j stBadParam [] s
    else match workCheck s n, modelEntry s x.model with
      | some st, _ => finish j st [] s
      | none, none => finish j stBadParam [] s
      | none, some m => beginWork n { SeqWork.of m (some j) e.asn e.tick 0 (itemsOf e count m.itemBytes) with frames := bit (e.param 3) 0 } s

/-- SEQ_APPEND (0x32): begins; met again, goes on with the chunk under way (log 114). -/
def doSeqAppend (j : Nat) (r : AppendRun) (s : State) : State :=
  match workingAt s j with
  | some n => whenUp s (runChunk n r s)
  | none => if fedFirst s j then s else runCmd j 0x32 s (beginAppend j)

/-! ### SEQ_STEP (R225, R232) -/

/-- Begin a SEQ_STEP on a session of this part. -/
def beginStep (j : Nat) (e : JEntry) (s : State) : State :=
  let n := e.ctx
  let steps := fld (e.param 0) 15 0
  match sessionCheck s e with
  | some st => finish j st [] s
  | none =>
    if steps = 0 || decide (steps > 1024) then finish j stBadParam [] s
    else match workCheck s n, modelEntry s (s.session n).model with
      | some st, _ => finish j st [] s
      | none, none => finish j stBadParam [] s
      | none, some m => beginWork n { SeqWork.of m (some j) e.asn e.tick steps [] with endOnEos := bit (e.param 0) 16 } s

/-- SEQ_STEP (0x33): begins; met again, goes on with the step under way (log 114). -/
def doSeqStep (j : Nat) (runs : List StepRun) (s : State) : State :=
  match workingAt s j with
  | some n => whenUp s (runSteps n runs s)
  | none => if fedFirst s j then s else runForwardable j 0x33 s (beginStep j)

/-! ### Fed appends (R226) -/

/-- The session's journalled work of the fed append's tick and before has finished. -/
def fedTurn (s : State) (n tick : Nat) : Bool :=
  s.journal.all (fun e => !(decide (e.named s.link.chip = some (true, n)) && decide (e.tick ≤ tick) && decide (e.st ≠ .done)))

/-- Begin the oldest fed append of a session, its wait counted under the client of the open (R245); it is discarded and counted when the context is full, the model is not bound or a peer is lost. -/
def beginFed (n : Nat) (s : State) : State :=
  let x := s.session n
  match x.fed with
  | [] => s
  | (items, flags, tick) :: rest =>
    if !x.isOpen || x.work.isSome || !fedTurn s n tick then s
    else
      let s1 := s.modSession n (fun x => { x with fed := rest })
      match workCheck s n, modelEntry s x.model with
      | none, some m =>
        if !x.slide && (decide (x.tCtx = x.tMax) || decide (x.tCtx + items.length > x.tMax)) then count (ctrFed n) 1 s1
        else
          let w := SeqWork.of m none 0 tick x.autoSteps items
          beginWork n { w with auto := true, endOnEos := true, concealed := decide (flags % 2 = 1), catching := decide (flags / 2 % 2 = 1) }
            (account x.client (fun a => { a with wait := (a.wait + (s.now - tick)) % 2 ^ 64 }) s1)
      | _, _ => count (ctrFed n) 1 s1

/-- Go on with a fed append and its auto steps. -/
def goOnFed (n : Nat) (r : AppendRun) (runs : List StepRun) (s : State) : State :=
  match (s.session n).work with
  | some w =>
    if !w.auto then s
    else
      let w := { w with frames := r.frames }
      runSteps n runs (runChunk n r (s.modSession n (fun x => { x with work := some w })))
  | none => s

/-- FED_APPEND: the oldest fed append of a session begins; met again, it goes on, then its auto steps (log 114). -/
def doFedAppend (n : Nat) (r : AppendRun) (runs : List StepRun) (s : State) : State :=
  if !live s || !computeUp s then s
  else if ((s.session n).work.map (·.auto)).getD false then goOnFed n r runs s
  else beginFed n s

/-! ### SEQ_CLOSE (R231) -/

/-- SEQ_CLOSE (0x34). -/
def doSeqClose (j : Nat) (s : State) : State :=
  if fedFirst s j then s
  else runCmd j 0x34 s (fun e s =>
    match sessionCheck s e with
    | some st => rejectClose j st (true, e.ctx) s
    | none =>
      let x := s.session e.ctx
      let late := x.fed.length
      let s := count (ctrFed e.ctx) late (s.modSession e.ctx (fun x => { x with fed := [], closing := some { j := j, flush := false, freed := false } }))
      interim j stCloseDraining x.gen s)

/-! ### SEQ triggers (R228) -/

/-- A step or append chunk of the session is ready. -/
def seqReady (x : Session) : Bool := x.isOpen && x.closing.isNone && ((x.work.map (fun w => decide (w.phase = .ready) && decide (w.fault = 0))).getD false)

/-- Session in a lane of a pack group. -/
def inLane (s : State) (model group l : Nat) : Option Nat :=
  (s.sessions.find? (fun e => e.2.isOpen && !e.2.be && decide (e.2.model = model) && decide (e.2.lane = some (group, l)))).map (·.1)

/-- Segment numbers of a group's lanes: 1 + the session number of a lane that is ready, 0 for a pad segment. -/
def segments (s : State) (model group lanes : Nat) : List Nat :=
  (List.range lanes).map (fun l => match inLane s model group l with
    | some n => if seqReady (s.session n) then n + 1 else 0
    | none => 0)

/-- Segment numbers of the last trigger of a pack group. -/
def packSegs (s : State) (model group : Nat) : List Nat := ((tfind s.packs (model * 256 + group)).map (·.segs)).getD []

/-- The pack group has an instance that has not finished. -/
def groupBusy (s : State) (model group : Nat) : Bool :=
  s.runs.any (fun x => x.seq && decide (x.owner = model) && decide (x.don = group) && !x.finished)

/-- SEQ_TRIGGER: a pack group's trigger releases its Niches for the lanes that are ready; the group waits for those of its last trigger. -/
def doSeqTrigger (model group : Nat) (s : State) : State :=
  if !live s || !computeUp s then s
  else match s.active, packOf s model with
    | some r, some p =>
      let segs := segments s model group p.lanes
      if s.noSched || decide (p.groups ≤ group) || segs.all (· = 0) || groupBusy s model group then s
      else
        let phase : SeqPhase := if p.nicheCount = 0 then .done else .running
        let s := forAll (segs.filter (· ≠ 0)) (fun g => modWork (g - 1) (fun w => { w with phase := phase })) s
        let s := { s with packs := tput s.packs (model * 256 + group) { ref := r, segs := segs } }
        let s := emit 0x01 0x22 0xFFFF 0xFFFFFF 0 0xFFF 0 0 s
        releaseNiches r (p.firstNiche + group * p.nicheCount) p.nicheCount model true group 0xFFF s
    | _, _ => s

/-! ### COLLECTIVE (0x62, R229, R230, R293) -/

/-- Shadow session of a home session. -/
def shadowOf (s : State) (chip ctx : Nat) : Option (Nat × Session) :=
  s.sessions.find? (fun e => e.2.isOpen && (match e.2.shadow with | some (c, n, _) => decide (c = chip) && decide (n = ctx) | none => false))

/-- The shadow session a SHADOW_OPEN of `chip` opens with generation `g`. -/
def shadowSession (chip g : Nat) (e : JEntry) (pages : List Page) (bufs : List (List Alloc)) : Session :=
  { Session.closed g with
    isOpen := true, model := fld (e.param 1) 23 16, be := bit (e.param 1) 11, slide := true, tMax := (e.param 2).toNat
    spread := join64 (e.param 4) (e.param 5), client := e.client, shadow := some (chip, e.ctx, e.gen), pages := pages
    allocs := bufs.tail.flatten, table := bufs.headD [] }

/-- Heads whose pages a SHADOW_OPEN gives part `chip`. -/
def shadowHeads (chip : Nat) (e : JEntry) (m : MaqEntry) : List Nat := headsOn (join64 (e.param 4) (e.param 5)) chip m.heads

/-- Pages of a shadow session. -/
def shadowPages (chip : Nat) (e : JEntry) (m : MaqEntry) : Nat := m.layers * (shadowHeads chip e m).length * ((e.param 2).toNat / 256)

/-- Open a shadow session in the free session `n` with the buffers `r` gives, if it gives any. -/
def shadowPlace (j chip n : Nat) (e : JEntry) (m : MaqEntry) (r : Option (List (List Alloc)) × State) : State :=
  match r with
  | (none, s) => finish j stPoolEmpty [] s
  | (some bufs, s) =>
    finish j stOk [w32 (shadowPages s.link.chip e m)] (writeHeaders n (s.setSession n
      (shadowSession chip (s.session n).gen e (makePages m.layers (e.param 2).toNat (shadowHeads s.link.chip e m) bufs.tail) bufs)))

/-- SHADOW_OPEN: this part's share of the pages. -/
def shadowOpen (j chip : Nat) (e : JEntry) (s : State) : State :=
  match modelEntry s (fld (e.param 1) 23 16) with
  | none => finish j stBadParam [] s
  | some m =>
    if !tMaxOk (e.param 2).toNat then finish j stBadParam [] s
    else match freeSession s with
      | none => finish j stNoFree [] s
      | some n => shadowPlace j chip n e m (allocAll false false (pageSizes (shadowPages s.link.chip e m)) [] s)

/-- The home part's T_ctx commits the rows of the last collective, or shows that its step failed: both parts slide before the rows of a collective are
written, so that T_ctx rises by their number, or not at all (R230). -/
def commitShadow (n tCtx : Nat) (s : State) : State :=
  let x := s.session n
  let s := if decide (tCtx = x.tCtx + x.pendRows.length) then commitRows n x.pendRows.length s else s
  s.modSession n (fun x => { x with pendRows := [], tCtx := tCtx })

/-- COLLECTIVE. -/
def doCollective (j : Nat) (rows : List (List KvRow)) (s : State) : State :=
  runCmd j 0x62 s (fun e s =>
    let chip := (e.origin.map (·.1)).getD 0
    let kind := fld (e.param 0) 3 0
    if kind > 3 then finish j stBadParam [] s
    else if kind = 0 then
      (if (shadowOf s chip e.ctx).isSome then finish j stCtxBusy [] s else shadowOpen j chip e s)
    else match shadowOf s chip e.ctx with
      | none => finish j stBadContext [] s
      | some (n, x) =>
        if decide ((x.shadow.map (·.2.2)) ≠ some e.gen) then finish j stStaleGen [] s
        else
          let s := commitShadow n (e.param 2).toNat s
          let t := w32 (s.session n).tCtx
          if kind = 3 then finish j stOk [t] (dropShadow n s)
          else
            let rows := (rows.filter (rowsOk (s.session n))).take (e.param 4).toNat
            let s := writeRows n rows (slideIf n (e.param 4).toNat s).2
            finish j stOk [t] (s.modSession n (fun x => { x with stepId := (e.param 3).toNat, pendRows := rows })))

/-- The open begins (`answered` false), or ends with its peers' answers in (true): the row that names the other is no event (logs 2, 114). -/
def execSeqOpen (j : Nat) (answered : Bool) (s : State) : Host.Outcome State Fault Refusal :=
  .next (if answered = (openingAt s j).isSome then doSeqOpen j s else s)
def execSeqAppend (j : Nat) (run : AppendRun) (s : State) : Host.Outcome State Fault Refusal := .next (doSeqAppend j run s)
def execSeqStep (j : Nat) (runs : List StepRun) (s : State) : Host.Outcome State Fault Refusal := .next (doSeqStep j runs s)
def execSeqClose (j : Nat) (s : State) : Host.Outcome State Fault Refusal := .next (doSeqClose j s)
def execFedAppend (sess : Nat) (run : AppendRun) (steps : List StepRun) (s : State) : Host.Outcome State Fault Refusal :=
  .next (doFedAppend sess run steps s)
/-- The trigger with the segment numbers `segs` of its lanes: a row that names others is no event (log 2). -/
def execSeqTrigger (model group : Nat) (segs : List Nat) (s : State) : Host.Outcome State Fault Refusal :=
  .next (if (packOf s model).any (fun p => decide (segments s model group p.lanes = segs)) then doSeqTrigger model group s else s)
def execCollective (j : Nat) (rows : List (List KvRow)) (s : State) : Host.Outcome State Fault Refusal := .next (doCollective j rows s)

end Sys2Proof.Machine
end

