-- ==== Sys2Proof/Machine/Assoc.lean ====
section
/-! DEFINITION. Track association (08_tracking.md R197-R215): detections, candidates, prediction, cost, assignment, update, birth,
misses and retirement, as one function of the contexts, the configuration and the inputs of one TRK Niche. -/

namespace Sys2Proof.Machine

/-- A TRK descriptor (Table 8.3). -/
structure TrkDesc where
  ver : Nat
  pictureEnd : Bool
  slot : Nat
  yLo : Nat
  yHi : Nat
  candMax : Nat
  detMax : Nat
  detCore : Nat
  detBase : Nat
  embCore : Nat
  embRows : Nat
  embBase : Nat
deriving DecidableEq, Repr, Inhabited

/-- Read a descriptor. -/
def TrkDesc.ofWords (d : List Word) : TrkDesc :=
  let w (n : Nat) : Word := d.getD n 0
  { ver := fld (w 0) 15 8, pictureEnd := bit (w 0) 0, slot := fld (w 1) 6 0, yLo := fld (w 2) 15 0, yHi := fld (w 2) 31 16,
    candMax := fld (w 3) 31 16, detMax := fld (w 3) 15 0, detCore := fld (w 4) 3 0, detBase := (w 5).toNat, embCore := fld (w 6) 19 16,
    embRows := fld (w 6) 15 0, embBase := (w 7).toNat }

/-- The ranges of Table 8.3 (R200). -/
def TrkDesc.ok (d : TrkDesc) : Bool :=
  decide (d.ver = 1) && decide (1 ≤ d.yHi) && decide (d.yHi ≤ 16384) && decide (d.yLo < d.yHi) && decide (1 ≤ d.candMax) &&
  decide (d.candMax ≤ 4096) && decide (1 ≤ d.detMax) && decide (d.detMax ≤ 2048) && decide (d.detBase % 64 = 0) &&
  decide (d.detBase < Config.spadBytes) && (decide (d.embBase = 0xFFFFFFFF) || decide (d.embBase < Config.spadBytes))

/-- A detection (R201). -/
structure Det where
  ix : Nat
  x0 : Nat
  y0 : Nat
  x1 : Nat
  y1 : Nat
  conf : Nat
  cls : Nat
  evid : Word
  emb : Option (List Int)
deriving DecidableEq, Repr, Inhabited

/-- The detection entry at an index of the list in scratchpad. -/
def detAt (sp : Mem) (base i : Nat) (emb : Option (List Int)) : Det :=
  let w (n : Nat) : Word := mreadW sp (base + 16 + 16 * i + 4 * n)
  { ix := i, x0 := fld (w 0) 15 0, y0 := fld (w 0) 31 16, x1 := fld (w 1) 15 0, y1 := fld (w 1) 31 16, conf := fld (w 2) 31 16,
    cls := fld (w 2) 15 8, evid := w 3, emb := emb }

/-- The detection is associated (R201). -/
def Det.valid (d : Det) : Bool :=
  decide (d.x0 < d.x1) && decide (d.y0 < d.y1) && decide (fp16 d.conf ≠ .nan) && !(fp16 d.conf).lt fp0
where
  /-- zero -/
  fp0 : Fp := .fin false 0 0

/-- A UQ14.2 coordinate as a value, and a value rounded into one with saturation (R209). -/
def ofUq (n : Nat) : Fp := .fin false n (-2)
def toUq (v : Fp) : Nat :=
  match v.mul (.fin false 4 0) with
  | .fin s m e => (max 0 (min 65535 ((Fp.fin s m e).toInt.getD 0))).toNat
  | .inf s => if s then 0 else 65535
  | .nan => 0

/-- A box by centre and size. -/
structure CBox where
  cx : Fp
  cy : Fp
  w : Fp
  h : Fp
deriving DecidableEq, Repr, Inhabited

/-- Half of a value. -/
def half (v : Fp) : Fp := mul32 v (.fin false 1 (-1))

/-- Corners as centre and size, in FP32. -/
def cbox (x0 y0 x1 y1 : Fp) : CBox := { cx := half (add32 x0 x1), cy := half (add32 y0 y1), w := sub32 x1 x0, h := sub32 y1 y0 }

def CBox.x0 (b : CBox) : Fp := sub32 b.cx (half b.w)
def CBox.x1 (b : CBox) : Fp := add32 b.cx (half b.w)
def CBox.y0 (b : CBox) : Fp := sub32 b.cy (half b.h)
def CBox.y1 (b : CBox) : Fp := add32 b.cy (half b.h)

def Det.box (d : Det) : CBox := cbox (ofUq d.x0) (ofUq d.y0) (ofUq d.x1) (ofUq d.y1)
def Track.box (t : Track) : CBox := cbox (ofUq t.x0) (ofUq t.y0) (ofUq t.x1) (ofUq t.y1)

/-- Pictures since a track's last match. -/
def pictures (don last : Nat) : Nat := (don + 2 ^ 32 - last) % 2 ^ 32

/-- The predicted box of a track (R204). -/
def Track.predicted (t : Track) (don : Nat) : CBox :=
  let n := r32 (.ofNat (pictures don t.lastDon))
  let mv (p : Fp) (v : Nat) : Fp := add32 p (mul32 n (fp16 v))
  let least : Fp := .fin false 1 (-2)
  let b := t.box
  { cx := mv b.cx t.vx, cy := mv b.cy t.vy, w := (mv b.w t.vw).max least, h := (mv b.h t.vh).max least }

/-- Overlap length of two intervals, at least 0. -/
def overlap (a0 a1 b0 b1 : Fp) : Fp := (sub32 (a1.min b1) (a0.max b0)).max (.fin false 0 0)

/-- IoU in FP32 (R205): the areas, their sum, less the intersection, each result rounded (PRESUMED, log 151). -/
def iou (d p : CBox) : Fp :=
  let inter := mul32 (overlap d.x0 d.x1 p.x0 p.x1) (overlap d.y0 d.y1 p.y0 p.y1)
  div32 inter (sub32 (add32 (mul32 d.w d.h) (mul32 p.w p.h)) inter)

/-- Sum of products of two embeddings. -/
def dot (a b : List Int) : Int := ((a.zip b).map (fun x => x.1 * x.2)).sum

/-- Cosine distance in FP32; 1 when either vector is all-zero (R205). -/
def cosDist (a b : List Int) : Fp :=
  if dot a a = 0 || dot b b = 0 then .ofNat 1
  else
    let norm (v : List Int) : Fp := sqrt32 (r32 (.ofInt (dot v v)))
    sub32 (.ofNat 1) (div32 (r32 (.ofInt (dot a b))) (mul32 (norm a) (norm b)))

/-- Candidate: context index and context. -/
abbrev Cand := Nat × Track

/-- Candidates of a Niche, in order, before the cap (R203). -/
def candidates (c : TrkDesc) (don : Nat) (tracks : Tab Track) : List Cand :=
  let inRegion (t : Track) : Bool :=
    let p := t.predicted don
    let mid := half (add32 p.y0 p.y1)
    !mid.lt (.ofNat c.yLo) && mid.lt (.ofNat c.yHi)
  let l := tracks.filter (fun e => e.2.live && decide (e.2.slot = c.slot) && decide (e.2.lastDon ≠ don) && inRegion e.2)
  l.mergeSort (fun a b => decide (a.2.misses < b.2.misses) || (decide (a.2.misses = b.2.misses) && decide (a.1 ≤ b.1)))

/-- Cost of a pair; none when it is gated out (R205). -/
def pairCost (cfg : TrackCfg) (embs : Tab (List Int)) (don : Nat) (d : Det) (k : Cand) : Option Nat :=
  let i := iou d.box (k.2.predicted don)
  let dist : Option Fp := match d.emb with
    | some e => if k.2.embValid then some (cosDist e (tget embs k.1 [])) else none
    | none => none
  let n256 (n : Nat) : Fp := .fin false n (-8)
  if cfg.classGate && decide (d.cls ≠ k.2.cls) then none
  else if 0 < cfg.gateIou && i.lt (n256 cfg.gateIou) then none
  else if cfg.gateEmb < 255 && (match dist with | some x => (Fp.fin false cfg.gateEmb (-7)).lt x | none => false) then none
  else
    let a := mul32 (n256 cfg.wIou) (sub32 (.ofNat 1) i)
    let b := match dist with | some x => mul32 (n256 cfg.wEmb) x | none => .fin false 0 0
    some (max 0 (min 3060 ((mul32 (.ofNat 1024) (add32 a b)).toInt.getD 0))).toNat

/-- The exact assignment (R206): of least total cost, and among equals the first in the order of R206. An option that is not strictly
better never replaces an earlier one. `costs` holds one row per detection, one entry per candidate. -/
def assignExact (cNew : Nat) : List (List (Option Nat)) → List Nat → Nat × List (Option Nat)
  | [], _ => (0, [])
  | row :: rest, used =>
    let skip := assignExact cNew rest used
    let none' := (skip.1 + cNew, none :: skip.2)
    let opts := ((List.range row.length).zip row).filterMap (fun x => match x.2 with
      | some c => if used.contains x.1 then none else
          let r := assignExact cNew rest (x.1 :: used)
          some (r.1 + c, some x.1 :: r.2)
      | none => none)
    (opts ++ [none']).tail.foldl (fun best o => if o.1 < best.1 then o else best) ((opts ++ [none']).headD none')

/-- Gated greedy assignment (R207): pairs below C_NEW by cost, detection, candidate. -/
def assignGreedy (cNew : Nat) (costs : List (List (Option Nat))) : List (Option Nat) :=
  let pairs := ((List.range costs.length).zip costs).flatMap (fun r => ((List.range r.2.length).zip r.2).filterMap (fun c =>
    match c.2 with | some k => if k < cNew then some (k, r.1, c.1) else none | none => none))
  let sorted := pairs.mergeSort (fun a b => decide (a.1 < b.1) ||
    (decide (a.1 = b.1) && (decide (a.2.1 < b.2.1) || (decide (a.2.1 = b.2.1) && decide (a.2.2 ≤ b.2.2)))))
  let taken := sorted.foldl (fun (t : List (Nat × Nat)) p =>
    if t.any (fun x => x.1 = p.2.1 || x.2 = p.2.2) then t else (p.2.1, p.2.2) :: t) []
  (List.range costs.length).map (fun i => (taken.find? (fun x => x.1 = i)).map (·.2))

/-- Embedding update (R209). -/
def blendEmb (alpha : Nat) (old new : List Int) : List Int :=
  (old.zip new).map (fun x =>
    clampInt (-128, 127) ((Fp.fin (decide ((256 - (alpha : Int)) * x.1 + alpha * x.2 < 0))
      ((256 - (alpha : Int)) * x.1 + alpha * x.2).natAbs (-8)).toInt.getD 0))

/-- Contexts and embeddings. -/
structure TrkMem where
  tracks : Tab Track
  embs : Tab (List Int)
deriving DecidableEq, Repr, Inhabited

/-- A matched track's new context and embedding (R209). -/
def updateTrack (cfg : TrackCfg) (don tick : Nat) (m : TrkMem) (d : Det) (k : Cand) : TrkMem :=
  let t := k.2
  let p := t.predicted don
  let b := d.box
  let n := r32 (.ofNat (pictures don t.lastDon))
  let gain (a : Nat) (r : Fp) : Fp := mul32 (.fin false a (-8)) r
  let pos (p b : Fp) : Fp := add32 p (gain cfg.alpha (sub32 b p))
  let vel (v : Nat) (p b : Fp) : Nat := bits16 (add32 (fp16 v) (div32 (gain cfg.beta (sub32 b p)) n))
  let nb : CBox := { cx := pos p.cx b.cx, cy := pos p.cy b.cy, w := pos p.w b.w, h := pos p.h b.h }
  let hits := min (t.hits + 1) 65535
  let emb := match d.emb with
    | some e => some (if t.embValid then blendEmb cfg.embAlpha (tget m.embs k.1 []) e else e)
    | none => none
  let t' : Track := { t with
    hits := hits, misses := 0, state := if hits ≥ cfg.confirmHits then 1 else t.state, cls := d.cls, conf := d.conf, lastDon := don,
    lastTick := tick, x0 := toUq nb.x0, y0 := toUq nb.y0, x1 := toUq nb.x1, y1 := toUq nb.y1, vx := vel t.vx p.cx b.cx,
    vy := vel t.vy p.cy b.cy, vw := vel t.vw p.w b.w, vh := vel t.vh p.h b.h, embValid := t.embValid || emb.isSome,
    embCount := if emb.isSome then min (t.embCount + 1) 32767 else t.embCount }
  { tracks := tput m.tracks k.1 t', embs := match emb with | some e => tput m.embs k.1 e | none => m.embs }

/-- A new context (R210). -/
def birthTrack (cfg : TrackCfg) (slot gen don tick : Nat) (m : TrkMem) (d : Det) (ix : Nat) : TrkMem :=
  let t : Track := { tget m.tracks ix Track.reset with
    live := true, state := if cfg.confirmHits = 1 then 1 else 0, slot := slot, cls := d.cls, misses := 0, hits := 1, age := 0,
    conf := d.conf, lastDon := don, x0 := d.x0, y0 := d.y0, x1 := d.x1, y1 := d.y1, vx := 0, vy := 0, vw := 0, vh := 0,
    embValid := d.emb.isSome, embCount := b2n d.emb.isSome, birthDon := don, streamGen := gen, lastTick := tick }
  { tracks := tput m.tracks ix t, embs := match d.emb with | some e => tput m.embs ix e | none => m.embs }

/-- Retire a context: INCARN rises, 65,535 is never taken (Table 8.1, R212). -/
def Track.retire (t : Track) : Track := { t with live := false, embValid := false, incarn := if t.incarn ≥ 65534 then 0 else t.incarn + 1 }

/-- TRACK_ID (R197). -/
def trackId (incarn ix : Nat) : Word := w32 (incarn * 65536 + ix)

/-- A TRACK_UPDATE entry before the contexts it shows are final: context (none: untracked), event, box, detection, cost. -/
structure TrkEv where
  ctx : Option Nat
  incarn : Nat
  event : Nat
  cls : Nat
  conf : Nat
  x0 : Nat
  y0 : Nat
  x1 : Nat
  y1 : Nat
  det : Nat
  age : Nat
  cost : Nat
  misses : Nat
  confirmed : Bool
  noEmb : Bool
  evid : Word
deriving DecidableEq, Repr, Inhabited

/-- Words of an entry (Table 8.5). -/
def TrkEv.words (e : TrkEv) : List Word :=
  [match e.ctx with | some i => trackId e.incarn i | none => 0xFFFFFFFF,
   dw [(e.event, 31, 24), (e.cls, 23, 16), (e.conf, 15, 0)], dw [(e.y0, 31, 16), (e.x0, 15, 0)], dw [(e.y1, 31, 16), (e.x1, 15, 0)],
   dw [(e.det, 31, 16), (e.age, 15, 0)], dw [(e.cost, 31, 16), (e.misses, 15, 8), (b2n e.confirmed, 1, 1), (b2n e.noEmb, 0, 0)], e.evid, 0]

/-- Entry of a tracked detection, from its context after the Niche. -/
def trackedEv (m : TrkMem) (event ix cost : Nat) (d : Det) : TrkEv :=
  let t := tget m.tracks ix Track.reset
  { ctx := some ix, incarn := t.incarn, event := event, cls := t.cls, conf := t.conf, x0 := t.x0, y0 := t.y0, x1 := t.x1, y1 := t.y1,
    det := d.ix, age := t.age, cost := cost, misses := t.misses, confirmed := decide (t.state = 1), noEmb := d.emb.isNone, evid := d.evid }

/-- Entry of an untracked detection. -/
def untrackedEv (event : Nat) (d : Det) : TrkEv :=
  { ctx := none, incarn := 0, event := event, cls := d.cls, conf := d.conf, x0 := d.x0, y0 := d.y0, x1 := d.x1, y1 := d.y1, det := d.ix,
    age := 0, cost := 0xFFFF, misses := 0, confirmed := false, noEmb := d.emb.isNone, evid := d.evid }

/-- What happened to one detection. -/
inductive Fate where
  | matched (ix cost : Nat) | born (ix : Nat) | full | low
deriving DecidableEq, Repr, Inhabited

/-- Births of the unmatched detections, in detection order, into the lowest free contexts (R210, R211). -/
def births (cfg : TrackCfg) (slot gen don tick : Nat) : List (Det × Option Fate) → TrkMem → List (Det × Fate) → TrkMem × List (Det × Fate)
  | [], m, acc => (m, acc.reverse)
  | (d, some f) :: r, m, acc => births cfg slot gen don tick r m ((d, f) :: acc)
  | (d, none) :: r, m, acc =>
    if (fp16 d.conf).lt (fp16 cfg.birthConf) then births cfg slot gen don tick r m ((d, .low) :: acc)
    else
      let liveAll := (m.tracks.filter (fun e => e.2.live)).map (·.1)
      let liveSlot := (m.tracks.filter (fun e => e.2.live && decide (e.2.slot = slot))).length
      match (if cfg.trackMax ≠ 0 && decide (liveSlot ≥ cfg.trackMax) then none else lowestFree Config.tracks liveAll) with
      | some ix => births cfg slot gen don tick r (birthTrack cfg slot gen don tick m d ix) ((d, .born ix) :: acc)
      | none => births cfg slot gen don tick r m ((d, .full) :: acc)

/-- Miss, retirement and age at a picture's end (R212): contexts, and MISSED and RETIRED entries in context order. -/
def endPicture (cfg : TrackCfg) (slot don : Nat) (m : TrkMem) : TrkMem × List TrkEv :=
  let hit := m.tracks.filter (fun e => e.2.live && decide (e.2.slot = slot) && decide (e.2.lastDon ≠ don))
  let miss (t : Track) : Track :=
    let k := min (t.misses + 1) 255
    { t with misses := k, state := if t.state = 1 then 2 else t.state }
  let gone (t : Track) : Bool := decide (t.misses > (if t.state = 0 then cfg.maxMissesTent else cfg.maxMisses))
  let age (t : Track) : Track := if t.live && decide (t.slot = slot) then { t with age := min (pictures don t.birthDon) 65535 } else t
  let step (t : Track) : Track :=
    if t.live && decide (t.slot = slot) && decide (t.lastDon ≠ don) then
      let t := miss t
      if gone t then t.retire else t
    else t
  let tracks := m.tracks.map (fun e => (e.1, age (step e.2)))
  let ev (e : Nat × Track) : TrkEv :=
    let p := e.2.predicted don
    let t := miss e.2
    let r := gone t
    { ctx := some e.1, incarn := e.2.incarn, event := if r then 5 else 4, cls := t.cls, conf := t.conf, x0 := toUq p.x0, y0 := toUq p.y0,
      x1 := toUq p.x1, y1 := toUq p.y1, det := 0xFFFF, age := if r then t.age else (age t).age, cost := 0xFFFF, misses := t.misses,
      confirmed := false, noEmb := false, evid := 0 }
  ({ m with tracks := tracks }, hit.map ev)

/-- What one TRK Niche does. -/
structure TrkOut where
  mem : TrkMem
  body : List Word
  flags : Nat
  status : Nat
  dropped : Nat
  full : Nat
  omitted : Nat
deriving DecidableEq, Repr, Inhabited

/-- Live tracks of a slot. -/
def liveTracks (tracks : Tab Track) (slot : Nat) : Nat := (tracks.filter (fun e => e.2.live && decide (e.2.slot = slot))).length

/-- TRACK_UPDATE body (Table 8.4) and entries. -/
def trkBody (entries : List TrkEv) (dets cands dropped live status cost : Nat) : List Word :=
  [dw [(entries.length, 31, 16), (dets, 15, 0)], dw [(cands, 31, 16), (dropped, 15, 0)], w32 live, dw [(status, 15, 0)], w32 cost, 0, 0, 0] ++
  entries.flatMap TrkEv.words

/-- A TRK Niche (R202-R215): `det` and `emb` are the scratchpads of DET_CORE and EMB_CORE, `tick` is T0_TICK of its band, and `pad` says which embedding
rows come from pad tiles (05_shaping.md R131). -/
def trkRun (c : TrkDesc) (cfg : TrackCfg) (gen don tick : Nat) (det emb : Mem) (pad : Nat → Bool) (m : TrkMem) : TrkOut :=
  let count := (mreadW det c.detBase).toNat
  let embOf (i : Nat) : Option (List Int) :=
    if c.embBase ≠ noEmb && decide (i < c.embRows) && !pad i then
      some ((mread emb (c.embBase + 256 * i) 256).map (fun b => signed 8 b.toNat)) else none
  let dets := ((List.range (min count c.detMax)).map (fun i => detAt det c.detBase i (embOf i))).filter Det.valid
  let dropped := count - dets.length
  let all := candidates c don m.tracks
  let cands := all.take c.candMax
  let costs := dets.map (fun d => cands.map (pairCost cfg m.embs don d))
  let greedy := decide (dets.length > 512) || decide (cands.length > 512)
  let pick := if greedy then assignGreedy cfg.cNew costs else (assignExact cfg.cNew costs []).2
  let fates : List (Det × Option Fate) := (dets.zip (costs.zip pick)).map (fun x =>
    (x.1, match x.2.2 with
      | some j => some (.matched (cands.getD j (0, Track.reset)).1 ((x.2.1.getD j none).getD 0))
      | none => none))
  let m1 := (dets.zip pick).foldl (fun m x => match x.2 with
    | some j => updateTrack cfg don tick m x.1 (cands.getD j (0, Track.reset))
    | none => m) m
  let b := births cfg c.slot gen don tick fates m1 []
  let fin := if c.pictureEnd then endPicture cfg c.slot don b.1 else (b.1, [])
  let detEv := b.2.map (fun x => match x.2 with
    | .matched ix k => trackedEv fin.1 0 ix k x.1
    | .born ix => trackedEv fin.1 1 ix 0xFFFF x.1
    | .full => untrackedEv 2 x.1
    | .low => untrackedEv 3 x.1)
  let room := 4093 - detEv.length
  let entries := detEv ++ fin.2.take room
  let full := (b.2.filter (fun x => x.2 = .full)).length
  let status := if full > 0 then stTrackFull else stOk
  let total := (b.2.map (fun x => match x.2 with | .matched _ k => k | _ => 0)).sum
  { mem := fin.1, status := status, dropped := dropped, full := full, omitted := fin.2.length - room
    flags := b2n greedy + 2 * b2n c.pictureEnd + 4 * b2n (decide (all.length > c.candMax))
    body := trkBody entries count cands.length dropped (liveTracks fin.1.tracks c.slot) status total }
where
  /-- no embeddings (Table 8.3) -/
  noEmb : Nat := 0xFFFFFFFF

/-- Image of a context (Table 8.1). -/
def Track.image (t : Track) (ix : Nat) : List Word :=
  [dw [(t.incarn, 31, 16), (b2n t.live, 15, 15), (t.state, 14, 13), (t.slot, 6, 0)], dw [(t.cls, 31, 24), (t.misses, 23, 16), (t.hits, 15, 0)],
   dw [(t.age, 31, 16), (t.conf, 15, 0)], w32 t.lastDon, dw [(t.y0, 31, 16), (t.x0, 15, 0)], dw [(t.y1, 31, 16), (t.x1, 15, 0)],
   dw [(t.vy, 31, 16), (t.vx, 15, 0)], dw [(t.vh, 31, 16), (t.vw, 15, 0)],
   dw [(b2n t.embValid, 31, 31), (t.embCount, 30, 16), (ix, 15, 0)], w32 t.birthDon, dw [(t.streamGen, 7, 0)], w32 t.lastTick, 0, 0,
   dw [(ix, 15, 0)], 0]

end Sys2Proof.Machine
end

