-- ==== Sys2Proof/Machine/Extents.lean ====
section
/-! DEFINITION. What the Niches of a schedule read and write in scratchpad and which accumulator rows they hold: the bounds check of the
commit and the best-effort regions (07_mapping.md Table 7.6, 10_work_classes.md R234). -/

namespace Sys2Proof.Machine

/-- A byte range of a core's scratchpad: core, first byte, length. -/
abbrev Extent := Nat × Nat × Nat

/-- Ranges a product reads (R180, R187, Table 6.7). -/
def MxDesc.reads (d : MxDesc) : List (Nat × Nat) :=
  let a := if d.op = 2 then (List.range d.hIn).map (fun y => (d.aBase + y * d.aPitch, (d.wIn - 1) * d.pixPitch + fmtBytes d.aFmt d.cIn))
    else (List.range d.q).flatMap (fun pl => (List.range d.validM).map (fun r => (d.aBase + (pl * d.m + r) * d.aPitch, fmtBytes d.aFmt d.k)))
  let asc := if d.aFmt = 1 then (List.range d.validM).map (fun r => (d.aScale + r * scalePitch (cdiv d.k 32), cdiv d.k 32)) else []
  let b := (List.range d.q).flatMap (fun pl => (List.range d.k).map (fun k => (d.bBase + (pl * d.k + k) * d.bPitch, fmtBytes d.bFmt d.validN)))
  let bsc := if d.bFmt = 1 then (List.range (cdiv d.k 32)).map (fun k => (d.bScale + k * scalePitch d.n, d.validN)) else []
  let bias := if d.bias = noAddr then [] else (List.range d.q).map (fun pt => (d.bias + 4 * pt * d.n, 4 * d.validN))
  let qs := if d.qscale = noAddr then [] else [(d.qscale, 4 * d.validN)]
  (if d.k = 0 then [] else a ++ asc ++ b ++ bsc) ++ bias ++ qs

/-- Ranges a product writes in its own core. -/
def MxDesc.writes (d : MxDesc) : List (Nat × Nat) :=
  (List.range d.q).flatMap (fun pt => (List.range d.validM).flatMap (fun r =>
    (d.outRow pt r, fmtBytes (if d.outFmt = 10 then 9 else d.outFmt) d.validN) ::
    (if d.outFmt = 1 then [(d.outScaleRow pt r, cdiv d.validN 32)] else [])))

/-- Ranges a vector Niche reads, with the scale plane behind a BS4 operand (log 57). -/
def VxDesc.reads (d : VxDesc) : List (Nat × Nat) :=
  let rows (base n : Nat) : List (Nat × Nat) := (List.range n).flatMap (fun r =>
    (base + r * d.pitchIn, fmtBytes d.inFmt d.cols) ::
    (if d.inFmt = 1 then [(base + n * d.pitchIn + r * scalePitch (cdiv d.cols 32), cdiv d.cols 32)] else []))
  let perRow := if vxClass d.op = some 3 then 1 else d.rows
  (if d.srcAcc then [] else rows d.srcA d.rows) ++ (if d.srcB = noAddr then [] else rows d.srcB perRow) ++
  (if d.srcC = noAddr then [] else rows d.srcC perRow)

/-- Ranges a vector Niche writes in its own core. -/
def VxDesc.writes (d : VxDesc) : List (Nat × Nat) :=
  let n := if vxClass d.op = some 1 then 1 else d.validN
  (List.range d.validM).flatMap (fun r =>
    (d.dst + r * d.pitchOut, if d.op = 0x13 then 4 else fmtBytes d.dstFmt n) ::
    (if d.dstFmt = 1 then [(d.scaleRow (if vxClass d.op = some 1 then 1 else d.cols) r, cdiv n 32)] else []))

/-- Product descriptor of an MX or SEQ Niche. -/
def nicheMx (n : NicheEntry) : MxDesc := MxDesc.ofWords (n.indep || decide (n.station = 5)) n.engine n.desc

/-- Ranges of one core. -/
def onCore (c : Nat) (l : List (Nat × Nat)) : List Extent := l.map (fun x => (c, x.1, x.2))

/-- Ranges of exchange destinations. -/
def copyExtents (l : List (Nat × Nat × List Byte)) : List Extent := l.map (fun x => (x.1, x.2.1, x.2.2.length))

/-- What a Niche reads in scratchpads. -/
def nicheReads (n : NicheEntry) : List Extent :=
  match n.station with
  | 2 => onCore n.unit (nicheMx n).reads
  | 5 => onCore n.unit (nicheMx n).reads
  | 3 => onCore n.unit (VxDesc.ofWords n.desc).reads
  | 4 =>
    let d := TrkDesc.ofWords n.desc
    (d.detCore, d.detBase, 16 + 16 * d.detMax) :: (if d.embBase = noAddr then [] else [(d.embCore, d.embBase, 256 * d.embRows)])
  | _ => []

/-- What a Niche writes in scratchpads: its own core, staging buffers, exchange destinations. -/
def nicheWrites (n : NicheEntry) : List Extent :=
  match n.station with
  | 1 => let d := ShpDesc.ofWords n.desc; d.dests.map (fun c => (c, d.spad, d.stage * d.bufBytes))
  | 2 => let d := nicheMx n; onCore n.unit d.writes ++ copyExtents (d.copies [])
  | 5 => let d := nicheMx n; onCore n.unit d.writes ++ copyExtents (d.copies [])
  | 3 => let d := VxDesc.ofWords n.desc; onCore n.unit d.writes ++ copyExtents (d.copies [])
  | _ => []

/-- Everything a Niche reads or writes in scratchpads. -/
def nicheExtents (n : NicheEntry) : List Extent := nicheReads n ++ nicheWrites n

/-- Accumulator rows a Niche holds: (core, bank, first row, rows) (Table 6.7). -/
def nicheRows (n : NicheEntry) : List (Nat × Nat × Nat × Nat) :=
  if n.station = 2 || n.station = 5 then
    let d := nicheMx n
    let banks := if d.indep then [d.engine] else List.range (min 4 (cdiv d.n 32))
    banks.map (fun b => (n.unit, b, d.accBase, d.accRows))
  else []

/-- Remove one range from a list of free ranges. -/
def cutRange (free : List (Nat × Nat)) (a n : Nat) : List (Nat × Nat) :=
  if n = 0 then free
  else free.flatMap (fun f =>
    let stop := f.1 + f.2
    if a + n ≤ f.1 || stop ≤ a then [f]
    else (if f.1 < a then [(f.1, a - f.1)] else []) ++ (if a + n < stop then [(a + n, stop - (a + n))] else []))

/-- The largest free range, the lowest among equals; empty at 0 when none is left. -/
def largest (free : List (Nat × Nat)) : Nat × Nat := free.foldl (fun b f => if b.2 < f.2 then f else b) (0, 0)

/-- Best-effort region of a core beside the LC Niches of a list (R234); the Proof cast block counts as LC work (14_safety.md R320). -/
def beRegion (l : List NicheEntry) (proofBlock : Bool) (c : Nat) : Region :=
  let bytes := ((l.flatMap nicheExtents).filter (fun x => x.1 = c)).foldl (fun f x => cutRange f x.2.1 x.2.2)
    (if proofBlock then [(0, Config.proofBase)] else [(0, Config.spadBytes)])
  let sp := largest bytes
  let bank (b : Nat) : Nat × Nat :=
    largest (((l.flatMap nicheRows).filter (fun x => decide (x.1 = c) && decide (x.2.1 = b))).foldl (fun f x => cutRange f x.2.2.1 x.2.2.2)
      [(0, Config.accUsable)])
  { spadBase := sp.1, spadBytes := sp.2, banks := (List.range 4).map bank }

/-- Every range of a Niche lies inside the scratchpad. -/
def insideSpad (n : NicheEntry) : Bool := (nicheExtents n).all (fun x => decide (x.2.1 + x.2.2 ≤ Config.spadBytes))

end Sys2Proof.Machine
end

