-- ==== Sys2Proof/Machine/Tiling.lean ====
section
/-! DEFINITION. What a resolved schedule must be: the tile function, fused chains, trigger entries, units and variants, and which Niches collide
(07_mapping.md R165, R171-R177, R190, R192; 02_raster_time.md R22, R27, R30, R33; 05_shaping.md R119). -/

namespace Sys2Proof.Machine

/-- No two elements of a list are equal. -/
def distinct {α : Type} [BEq α] : List α → Bool
  | [] => true
  | a :: l => !l.contains a && distinct l

/-! ### The tile function (R172, R173) -/

/-- One product Niche as the tile function gives it: core, descriptor shape, valid rows and columns, K, OP, W_OUT of a windowed product, formats, feed. -/
structure Tile where
  core : Nat
  m : Nat
  n : Nat
  validM : Nat
  validN : Nat
  k : Nat
  op : Nat
  wOut : Nat
  fmts : Nat × Nat × Nat
  indep : Bool
deriving DecidableEq, Repr, Inhabited

/-- Parts a length is cut into: (first, length) of each. -/
def cuts (n step : Nat) : List (Nat × Nat) :=
  if step = 0 then [] else (List.range (cdiv n step)).map (fun i => (i * step, min step (n - i * step)))

/-- Columns of a slice, slices, and q of a product. -/
def colsOf (p : Product) : Nat := if p.indep then 32 else 128
def slicesOf (p : Product) : Nat := cdiv p.n (colsOf p)
def qOf (p : Product) : Nat := if p.complex then 2 else 1

/-- Accumulator rows of one Niche. -/
def capOf (p : Product) : Nat := Config.accUsable / qOf p

/-- Slices of one Niche, for `mc` rows and `sc` slices of a core. -/
def sliceTile (p : Product) (mc sc : Nat) : Nat :=
  let st := min sc (max 1 (capOf p / min mc (capOf p)))
  cdiv sc (cdiv sc st)

/-- Rows of one Niche of `st` slices. -/
def rowTile (p : Product) (mc st : Nat) : Nat := cdiv mc (cdiv mc (capOf p / st))

/-- How a product is split over `n` cores: along N or not, parts, rows and slices of a core. A chain is never split along N (R177, log 121). -/
def splitOf (p : Product) (n : Nat) (chain : Bool) : Bool × Nat × Nat × Nat :=
  let s := slicesOf p
  let byM := decide (cdiv p.m n ≥ 48)
  let byN := !chain && !byM && decide (s ≥ n)
  let parts := if byM || byN then n else max 1 (min n (p.m / 48))
  if byN then (true, parts, p.m, cdiv s parts) else (false, parts, cdiv p.m parts, s)

/-- A Niche of a product: `rows` valid rows of `mt`, `sl` slices of `st` from slice `s0` on. -/
def tileOf (p : Product) (op wOut core mt st rows s0 sl : Nat) : Tile :=
  { core := core, m := mt, n := min (st * colsOf p) p.n, validM := rows, validN := min (sl * colsOf p) (p.n - s0 * colsOf p), k := p.k,
    op := op, wOut := wOut, fmts := (p.aFmt, p.bFmt, p.outFmt), indep := p.indep }

/-- The Niches of a non-windowed product, ascending core, row tile, slice group (R173, R174). -/
def plainTiles (p : Product) (cores : List Nat) : List Tile :=
  let (byN, parts, mc, sc) := splitOf p cores.length false
  let st := sliceTile p mc sc
  let mt := rowTile p mc st
  ((List.range parts).zip cores).flatMap (fun x =>
    let rows := if byN then p.m else min mc (p.m - x.1 * mc)
    let s0 := if byN then x.1 * sc else 0
    let sls := if byN then min sc (slicesOf p - x.1 * sc) else slicesOf p
    (cuts rows mt).flatMap (fun r => (cuts sls st).map (fun g => tileOf p (b2n p.complex) 0 x.2 mt st r.2 (s0 + g.1) g.2)))

/-- The Niches of a windowed product: each core has the positions of its share, and row tiles are whole lines (R172). -/
def windowTiles (p : Product) (ws : List (Nat × Nat × Nat)) : List Tile :=
  ws.flatMap (fun w =>
    let st := sliceTile p w.2.1 (slicesOf p)
    let mt := max w.2.2 (rowTile p w.2.1 st / w.2.2 * w.2.2)
    (cuts w.2.1 mt).flatMap (fun r => (cuts (slicesOf p) st).map (fun g => tileOf p 2 w.2.2 w.1 mt st r.2 g.1 g.2)))

/-- The Niches of a fused chain, none for its VX Niche: on each core, for each row tile, the first product whole, the VX Niche, the second product's
slice groups (R173, R177, log 121). -/
def chainTiles (p q : Product) (cores : List Nat) : List (Option Tile) :=
  let (_, parts, mc, _) := splitOf p cores.length true
  let sq := sliceTile q mc (slicesOf q)
  let mt := min (rowTile p mc (slicesOf p)) (rowTile q mc sq)
  ((List.range parts).zip cores).flatMap (fun x =>
    (cuts (min mc (p.m - x.1 * mc)) mt).flatMap (fun r =>
      some (tileOf p (b2n p.complex) 0 x.2 mt (slicesOf p) r.2 0 (slicesOf p)) :: none ::
        (cuts (slicesOf q) sq).map (fun g => some (tileOf q (b2n q.complex) 0 x.2 mt sq r.2 g.1 g.2))))

/-- The product Niches of an operation, none for the VX Niche of a chain. -/
def tilesOf (o : Operation) (p : Product) : List (Option Tile) :=
  match o.second with
  | some q => chainTiles p q o.cores
  | none => (if o.windows.isEmpty then plainTiles p o.cores else windowTiles p o.windows).map some

/-- Slice groups of the second product of a chain. -/
def chainGroups (p q : Product) (cores : List Nat) : Nat := (cuts (slicesOf q) (sliceTile q (splitOf p cores.length true).2.2.1 (slicesOf q))).length

/-! ### Operations (R165, R174, R177) -/

/-- The Niche entry a layout's Niche becomes; ORDER, PROOF, SAFETY and DEP_IN are set by Plinth. -/
def opEntry (n : OpNiche) : NicheEntry :=
  { order := 0, proof := false, safety := false, engine := n.engine, unit := n.unit, indep := n.indep, station := n.station, wdog := n.wdog, depIn := 0,
    desc := n.desc, kv := n.kv }

/-- The tile an MX or SEQ Niche computes. -/
def shapeOf (n : NicheEntry) : Tile :=
  let d := nicheMx n
  { core := n.unit, m := d.m, n := d.n, validM := d.validM, validN := d.validN, k := d.k, op := d.op, wOut := if d.op = 2 then d.wOut else 0,
    fmts := (d.aFmt, d.bFmt, d.outFmt), indep := d.indep }

/-- Cores stand in rising order. -/
def ascending : List Nat → Bool
  | a :: b :: l => decide (a < b) && ascending (b :: l)
  | _ => true

/-- Cores stand in an order that never falls. -/
def neverFalling : List Nat → Bool
  | a :: b :: l => decide (a ≤ b) && neverFalling (b :: l)
  | _ => true

/-- The VX Niche `k` of a chain: a row or element-wise operation on the core of the first product, on its output, whose result the `g` Niches of the
second take as A (R177). -/
def chainLink (l : List OpNiche) (k g : Nat) : Bool :=
  let n := l.getD k default
  let p := l.getD (k - 1) default
  let d := VxDesc.ofWords n.desc
  decide (n.station = 3) && decide (n.unit = p.unit) && (vxClass d.op = some 0 || vxClass d.op = some 3) && !d.srcAcc &&
  decide (d.srcA = (nicheMx (opEntry p)).outBase) && (span (k + 1) g).all (fun m => decide ((nicheMx (opEntry (l.getD m default))).aBase = d.dst))

/-- The Niches of an operation are those of the tile function, core by core (R172-R174); an operation that is no product has none on the arrays. -/
def opShape (o : Operation) : Bool :=
  match o.prod with
  | none => o.second.isNone && o.windows.isEmpty && o.niches.all (fun n => decide (n.station ≠ 2) && decide (n.station ≠ 5)) &&
      neverFalling ((o.niches.filter (fun n => n.station = 3)).map (·.unit))
  | some p =>
    let want := tilesOf o p
    let g := match o.second with | some q => chainGroups p q o.cores | none => 0
    ascending o.cores && (o.windows.isEmpty || decide (o.windows.map (·.1) = o.cores)) && decide (want.length = o.niches.length) &&
    ((List.range want.length).zip (want.zip o.niches)).all (fun y => match y.2.1 with
      | some w => (decide (y.2.2.station = 2) || decide (y.2.2.station = 5)) && decide (shapeOf (opEntry y.2.2) = w)
      | none => chainLink o.niches y.1 g)

/-! ### Descriptors as Plinth writes them (R4, R165) -/

/-- Bits of word `i` of a descriptor that its station's table does not reserve: Tables 5.4, 6.7 with 7.5, 6.9 with R186, and 8.3. -/
def descMask (station i : Nat) : Nat :=
  let pick (l : List (Nat × Nat)) (other : Nat) : Nat := ((l.find? (fun x => x.1 = i)).map (·.2)).getD other
  match station with
  | 1 => if 23 ≤ i then 0 else pick [(0, 0xFF03), (1, 0x3FC07F), (5, 0xFF80000), (22, 0xFFFF)] 0xFFFFFFFF
  | 3 => if (12 ≤ i && decide (i ≤ 21)) || decide (29 ≤ i) then 0
         else pick [(0, 0xFFFF), (1, 0xFFF00000), (23, 0xF000FFFF), (24, 0xFFFF0000)] 0xFFFFFFFF
  | 4 => if 8 ≤ i then 0 else pick [(0, 0xFF01), (1, 0x7F), (4, 0xF), (6, 0xFFFFF)] 0xFFFFFFFF
  | _ => if 29 ≤ i then 0 else pick [(0, 0xFF0F), (1, 0xFFFF8000), (3, 0xFFFF), (18, 0xFFFFFF03), (23, 0xFC00FFFF), (24, 0xFFFF0000)] 0xFFFFFFFF

/-- The station has a descriptor of its own table. -/
def described (station : Nat) : Bool := 1 ≤ station && decide (station ≤ 5)

/-- Replace bits [hi:lo] of a word. -/
def putFld (w : Word) (hi lo v : Nat) : Word := (w &&& ~~~(w32 ((2 ^ (hi + 1 - lo) - 1) * 2 ^ lo))) ||| w32 (v % 2 ^ (hi + 1 - lo) * 2 ^ lo)

/-- A descriptor for the cores of a mask and a stream slot: core numbers of the candidate give way to those of the mask, SLOT to the binding's, and
reserved fields are 0 (R4, R165, R190). -/
def placeDesc (cores : List Nat) (slot station : Nat) (desc : List Word) : List Word :=
  let core (c : Nat) : Nat := cores.getD c 0
  let near (w : Word) : Word := [(31, 28), (27, 24), (23, 20), (19, 16)].foldl (fun w x => putFld w x.1 x.2 (core (fld w x.1 x.2))) w
  let set (i : Nat) (w : Word) : Word :=
    match station, i with
    | 1, 1 => putFld w 6 0 slot
    | 1, 18 => putFld w 31 16 (((maskList (fld w 31 16) 16).map (fun c => 2 ^ core c)).sum)
    | 4, 1 => putFld w 6 0 slot
    | 4, 4 => putFld w 3 0 (core (fld w 3 0))
    | 4, 6 => putFld w 19 16 (core (fld w 19 16))
    | 2, 24 => near w
    | 3, 24 => near w
    | 5, 24 => near w
    | _, _ => w
  if described station then (List.range 32).map (fun i => set i (desc.getD i 0) &&& w32 (descMask station i)) else desc

/-- A Niche of a layout on the cores of a mask. -/
def placeNiche (cores : List Nat) (slot : Nat) (n : OpNiche) : OpNiche :=
  { n with unit := if n.station = 2 || n.station = 3 || n.station = 5 then cores.getD n.unit 0 else n.unit, desc := placeDesc cores slot n.station n.desc }

/-- An operation of a candidate schedule on the cores of a mask: core `k` of the candidate is the mask's k-th, ascending. -/
def placeOp (cores : List Nat) (slot : Nat) (o : Operation) : Operation :=
  { o with cores := o.cores.map (fun k => cores.getD k 0), windows := o.windows.map (fun w => (cores.getD w.1 0, w.2)),
           niches := o.niches.map (placeNiche cores slot) }

/-! ### Operations of a schedule (R174) -/

/-- Niche `k` has an edge to Niche `m`. -/
def edgeTo (t : Schedule) (k m : Nat) : Bool := (t.succs.getD k []).any (fun e => decide (e.target = m))

/-- Edges join the three Niches of a chain (R177). -/
def chainEdges (t : Schedule) (x : PlacedOp) : Bool :=
  match x.op.prod, x.op.second with
  | some p, some q =>
    let want := tilesOf x.op p
    let g := chainGroups p q x.op.cores
    ((List.range want.length).zip want).all (fun y => y.2.isSome ||
      (edgeTo t (x.first + y.1 - 1) (x.first + y.1) && (span (x.first + y.1 + 1) g).all (edgeTo t (x.first + y.1))))
  | _, _ => true

/-- The Niches of an operation stand where the schedule says, as its layout gives them, with consecutive ORDER values. -/
def opOk (t : Schedule) (x : PlacedOp) : Bool :=
  let have_ := (t.niches.drop x.first).take x.op.niches.length
  let first := (have_.headD default).order
  decide (have_.length = x.op.niches.length) && decide (have_.map (·.order) = (List.range have_.length).map (first + ·)) &&
  (have_.zip x.op.niches).all (fun y => decide (y.1 = { (opEntry y.2) with order := y.1.order, safety := y.1.safety, depIn := y.1.depIn })) &&
  opShape x.op && chainEdges t x

/-- Operations of one band or pack group follow each other in the order of their candidate schedule (R174). -/
def opsOrdered (t : Schedule) : Bool :=
  let ends (x : PlacedOp) : Nat × Nat :=
    let a := (t.niches.getD x.first default).order
    (a, a + x.op.niches.length)
  t.ops.all (fun x => t.ops.all (fun y => decide (x.binding ≠ y.binding) || decide (x.inst ≠ y.inst) || decide (x = y) ||
    (let i := t.ops.idxOf x; let j := t.ops.idxOf y
     if i < j then decide ((ends x).2 ≤ (ends y).1) else decide ((ends y).2 ≤ (ends x).1))))

/-- Niches of the operations that pass a test. -/
def opNiches (t : Schedule) (f : PlacedOp → Bool) : List Nat := (t.ops.filter f).flatMap (fun x => span x.first x.op.niches.length)

/-- Every Niche but those of Proof casts belongs to one operation. -/
def opsCover (t : Schedule) : Bool :=
  let mine := opNiches t (fun _ => true)
  distinct mine && (List.range t.niches.length).all (fun k => (t.niches.getD k default).proof || mine.contains k)

/-! ### Niche entries (Table 2.3) -/

/-- UNIT, ENGINE, FEED and the other fields of an entry are what Table 2.3 gives its station. -/
def entryOk (mask : Nat) (n : NicheEntry) : Bool :=
  let array := n.station = 2 || n.station = 5
  decide (n.station < 8) && decide (n.order < 2 ^ 24) && decide (n.wdog < 2 ^ 32) && decide (n.desc.length ≤ 32) &&
  (match n.station with
   | 1 => decide (n.unit < 4)
   | 2 => maskBit mask n.unit && decide (n.unit < 16)
   | 3 => maskBit mask n.unit && decide (n.unit < 16)
   | 5 => maskBit mask n.unit && decide (n.unit < 16)
   | 6 => decide (n.unit < 2)
   | _ => decide (n.unit = 0)) &&
  (if (n.station = 2 && n.indep) || n.station = 5 then decide (n.engine < 4) else decide (n.engine = 0)) && (array || !n.indep) &&
  (n.kv.isNone || n.station = 5 || n.station = 3)

/-- Exchange neighbours and destination cores lie in the cores of the schedule (R190). -/
def coresOk (mask : Nat) (n : NicheEntry) : Bool :=
  let near (x : Nat) (cs : List Nat) : Bool := (List.range 4).all (fun i => !x.testBit (3 - i) || maskBit mask (cs.getD i 0))
  match n.station with
  | 1 => (ShpDesc.ofWords n.desc).dests.all (maskBit mask)
  | 2 => let d := nicheMx n; near d.xchg d.cores
  | 5 => let d := nicheMx n; near d.xchg d.cores
  | 3 => let d := VxDesc.ofWords n.desc; near d.xchg d.cores
  | _ => true

/-- Every range lies in bytes `a` to `a + n` of a core's Proof cast block. -/
def inBlock (a n : Nat) (l : List (Nat × Nat)) : Bool :=
  l.all (fun x => decide (Config.proofBase + a ≤ x.1) && decide (x.1 + x.2 ≤ Config.proofBase + a + n))

/-- A Proof cast Niche is one of the products of 32 x 32 x K_b in INT8, FP16 and BS4, of the operands of the block and the rows and areas of its engine, or
RSUM of engine 0's FP16 result (14_safety.md R320, R321). -/
def proofOk (n : NicheEntry) : Bool :=
  if !n.proof then true
  else if n.station = 3 then
    let d := VxDesc.ofWords n.desc
    decide (d.op = 0x10) && decide (d.srcA = Config.proofBase + 0x11000) && decide (d.dst = Config.proofBase + 0x1C000) && inBlock 0x11000 0x1000 d.reads
  else
    let d := nicheMx n
    let area := match d.aFmt with | 2 => 0 | 6 => 1 | _ => 2
    decide (n.station = 2) && n.indep && decide (d.m = 32) && decide (d.n = 32) && decide (d.k = d.kb) && decide (d.outFmt = 10) &&
    decide ((d.aFmt, d.bFmt) ∈ [(2, 2), (6, 6), (1, 1)]) && decide (d.op = 0) && decide (d.outPitch = 128) &&
    decide (d.outBase = Config.proofBase + 0x10000 + 12288 * n.engine + 4096 * area) && inBlock 0 0x10000 d.reads

/-- A trigger holds whole Proof cast sets: for each engine of a core one product of each format or none, and an RSUM where the set of engine 0 stands
(14_safety.md R321). -/
def setsOk (t : Schedule) (e : TrigEntry) : Bool :=
  let l := ((t.niches.drop e.firstNiche).take e.nicheCount).filter (·.proof)
  let fmts (c g : Nat) : List Nat := (l.filter (fun n => decide (n.station = 2) && decide (n.unit = c) && decide (n.engine = g))).map (fun n => (nicheMx n).aFmt)
  l.all (fun n => n.safety) && (List.range 16).all (fun c =>
    (List.range 4).all (fun g => (fmts c g).isEmpty || (decide ((fmts c g).length = 3) && [1, 2, 6].all (fmts c g).contains)) &&
    decide ((l.filter (fun n => decide (n.station = 3) && decide (n.unit = c))).length = if (fmts c 0).isEmpty then 0 else 1))

/-! ### Trigger entries (02_raster_time.md R22, R27, R30, R33) -/

/-- Bands of a binding up to its maximum height; an audio binding has its block. -/
def bindingBands (b : Binding) : Nat := if b.kind = 1 || b.timing = 1 then 1 else cdiv b.maxH b.hBand

/-- The trigger entry of band `x.band` of binding `b`, whose stream has halo `halo` (Table 2.2). -/
def trigOk (t : Schedule) (b : Binding) (halo : Nat) (x : TrigEntry) : Bool :=
  let frame := decide (b.kind = 0) && decide (b.timing = 1)
  decide (x.audio = decide (b.kind = 1)) && decide (x.slot = b.target) && decide (x.band < bindingBands b) && decide (x.halo = halo) &&
  decide (x.frame = frame) && (b.kind = 1 || decide (x.trigLpos = if frame then 16383 else x.band * b.hBand + b.hBand + halo)) &&
  decide (x.trigLpos < 2 ^ 14) && decide (1 ≤ x.nicheCount) && decide (x.nicheCount ≤ 65535) && decide (x.firstNiche + x.nicheCount ≤ t.niches.length) &&
  ((t.niches.drop x.firstNiche).take x.nicheCount).all (fun n => n.proof || decide (n.safety = b.safety))

/-- ORDER values of the Niches a trigger releases. -/
def trigOrders (t : Schedule) (e : TrigEntry) : List Nat := ((t.niches.drop e.firstNiche).take e.nicheCount).map (·.order)

/-- Within one stream every Niche of a band precedes every Niche of a later band (R30). -/
def bandsOrdered (t : Schedule) : Bool :=
  t.trigs.all (fun e => t.trigs.all (fun f => decide (e.audio ≠ f.audio) || decide (e.slot ≠ f.slot) || decide (f.band ≤ e.band) ||
    (trigOrders t e).all (fun a => (trigOrders t f).all (fun b => decide (a < b)))))

/-- The trigger table has one entry for each band of each bound stream, and no other; H_halo is 0-32. -/
def trigsOk (t : Schedule) (l : List Binding) (halos : List Nat) : Bool :=
  let want := (l.zip halos).filter (fun x => x.1.kind < 2)
  let keys := want.flatMap (fun x => (List.range (bindingBands x.1)).map (fun b => (decide (x.1.kind = 1), x.1.target, b)))
  let have_ := t.trigs.map (fun e => (e.audio, e.slot, e.band))
  want.all (fun x => decide (x.2 ≤ 32)) && distinct have_ && have_.all keys.contains && keys.all have_.contains &&
  t.trigs.all (fun e => want.any (fun x => trigOk t x.1 x.2 e) && setsOk t e) && bandsOrdered t

/-! ### Which Niches collide (Table 7.6) -/

/-- Niches reached from `k` along edges. -/
def below (t : Schedule) : Nat → List Nat → List Nat
  | 0, seen => seen
  | fuel + 1, seen =>
    let next := ((seen.flatMap (fun p => (t.succs.getD p []).map (·.target))).filter (fun k => !seen.contains k)).eraseDups
    if next.isEmpty then seen else below t fuel (seen ++ next)

/-- Two byte ranges of cores share a byte. -/
def extentsMeet (a b : Extent) : Bool := decide (a.1 = b.1) && decide (a.2.1 < b.2.1 + b.2.2) && decide (b.2.1 < a.2.1 + a.2.2)

/-- One Niche writes what the other reads or writes. -/
def collide (a b : NicheEntry) : Bool :=
  (nicheWrites a).any (fun x => (nicheExtents b).any (extentsMeet x)) || (nicheWrites b).any (fun x => (nicheExtents a).any (extentsMeet x))

/-- Two Niches that one trigger releases can run at the same time: they share no unit, and no chain of edges orders them. -/
def together (t : Schedule) (i j : Nat) : Bool :=
  let a := t.niches.getD i default
  let b := t.niches.getD j default
  !(usesUnit a (unitOf b) || usesUnit b (unitOf a)) && !(below t t.niches.length [i]).contains j && !(below t t.niches.length [j]).contains i

/-- No two Niches of one trigger that can run at the same time collide; for those of different triggers and instances it is the timing model that tells,
and the schedule carries its answer (log 50). -/
def noCollision (t : Schedule) : Bool :=
  t.collisionFree && t.trigs.all (fun e =>
    let ks := span e.firstNiche e.nicheCount
    ks.all (fun i => ks.all (fun j => decide (j ≤ i) || !(together t i j && collide (t.niches.getD i default) (t.niches.getD j default)))))

/-! ### Shaping rates (05_shaping.md R119) -/

/-- Source positions and output pixels of one execution of an SHP Niche; a crop-list tile reads one position for each pixel it writes, its crop being known
only at run time (log 120). -/
def shpWork (d : ShpDesc) : Nat × Nat :=
  if d.kind = 2 then let n := d.batches * d.batch * d.tileW * d.tileH; (n, n)
  else (d.cropW * d.cropH, d.tilesX * d.tilesY * d.tileW * d.tileH)

/-- Demand on shaping unit `u` in source positions and output pixels per second: an SHP Niche runs once in each picture of its stream, at the declared
FRAME_PERIOD of the slot's binding. -/
def shpDemand (l : List Binding) (t : Schedule) (u : Nat) : Nat × Nat :=
  let per := (t.niches.filter (fun n => decide (n.station = 1) && decide (n.unit = u))).map (fun n =>
    let d := ShpDesc.ofWords n.desc
    match l.find? (fun b => decide (b.kind = 0) && decide (b.target = d.slot)) with
    | some b => (cdiv ((shpWork d).1 * 1000000) b.framePeriod, cdiv ((shpWork d).2 * 1000000) b.framePeriod)
    | none => (0, 0))
  ((per.map (·.1)).sum, (per.map (·.2)).sum)

/-- Every shaping unit stays within 2.0 Gpixel/s read and 1.0 Gpixel/s written. -/
def shapingOk (l : List Binding) (t : Schedule) : Bool :=
  (List.range 4).all (fun u => decide ((shpDemand l t u).1 ≤ 2000000000) && decide ((shpDemand l t u).2 ≤ 1000000000))

/-! ### Schedules (R165, R190) -/

/-- The candidate of an entry for a core count. -/
def candidate (e : MaqEntry) (n : Nat) : Option Candidate := e.cands.find? (fun c => c.cores = n)

/-- The candidate of a binding for the cores of a mask. -/
def boundCand (mask : Nat) (e : Option MaqEntry) : Option Candidate := e.bind (fun e => candidate e (maskList mask 16).length)

/-- H_halo of a binding: its candidate's; 0 in frame mode (02_raster_time.md R33). -/
def bindHalo (mask : Nat) (b : Binding) (e : Option MaqEntry) : Nat :=
  if b.kind = 0 && b.timing = 1 then 0 else ((boundCand mask e).map (·.halo)).getD 0

/-- Pack groups of a session model in a schedule. -/
def packFor (t : Schedule) (model : Nat) : Option Pack := t.packs.find? (fun p => p.model = model)

/-- The Niches that run together for a binding: those of each band's trigger, or of each pack group. -/
def instances (t : Schedule) (b : Binding) : List (List Nat) :=
  if b.kind = 2 then match packFor t b.target with
    | some p => (List.range p.groups).map (fun g => span (p.firstNiche + g * p.nicheCount) p.nicheCount)
    | none => []
  else (List.range (bindingBands b)).map (fun k => match trigOf t (b.kind = 1) b.target k with
    | some e => span e.firstNiche e.nicheCount
    | none => [])

/-- The operations of binding `i`: line operations, and for each band or pack group those of its candidate schedule for the cores of the mask, in its
order; the Niches that run for it are theirs and Proof casts (R165, R174). -/
def opsOf (t : Schedule) (mask i : Nat) (b : Binding) (e : Option MaqEntry) : Bool :=
  match boundCand mask e with
  | none => true
  | some c =>
    let cores := maskList mask 16
    let mine (k : Option Nat) (x : PlacedOp) : Bool := decide (x.binding = i) && decide (x.inst = k)
    let placed (l : List Operation) : List Operation := l.map (placeOp cores b.target)
    let ks := instances t b
    decide ((t.ops.filter (mine none)).map (·.op) = placed c.lines) &&
    ((List.range ks.length).zip ks).all (fun y =>
      let own := opNiches t (mine (some y.1))
      decide ((t.ops.filter (mine (some y.1))).map (·.op) = placed (c.bands.getD (min y.1 (c.bands.length - 1)) [])) &&
      own.all y.2.contains && y.2.all (fun k => own.contains k || (t.niches.getD k default).proof)) &&
    (t.ops.filter (fun x => x.binding = i)).all (fun x => match x.inst with | none => true | some k => decide (k < ks.length))

/-- Fields of a pack group in their ranges, and as its model's entry gives them (09_sequence.md R217). -/
def packOk (t : Schedule) (l : List (Binding × Option MaqEntry)) (p : Pack) : Bool :=
  decide (1 ≤ p.lanes) && decide (p.lanes ≤ 16) && decide (p.groups ≤ 256) && decide (1 ≤ p.rows) &&
  decide (p.firstNiche + p.groups * p.nicheCount ≤ t.niches.length) &&
  l.any (fun x => decide (x.1.kind = 2) && decide (x.1.target = p.model) &&
    (match x.2 with | some e => decide (p.groups = e.lcGroups) && decide (p.lanes = e.lanes) && decide (p.rows = e.laneRows) | none => true))

/-- A schedule is one Plinth can have resolved for the cores of a mask, the bindings `l` with their entries and halos. -/
def schedOk (mask : Nat) (l : List (Binding × Option MaqEntry × Nat)) (t : Schedule) : Bool :=
  t.niches.all (fun n => entryOk mask n && coresOk mask n && proofOk n) && distinct (t.niches.map (·.order)) && t.ops.all (opOk t) && opsOrdered t &&
  opsCover t && t.ops.all (fun x => decide (x.binding < l.length)) && distinct (t.packs.map (·.model)) &&
  t.packs.all (packOk t (l.map (fun x => (x.1, x.2.1)))) && l.all (fun x => x.1.kind ≠ 2 || (packFor t x.1.target).isSome) &&
  trigsOk t (l.map (·.1)) (l.map (·.2.2)) && ((List.range l.length).zip l).all (fun x => opsOf t mask x.1 x.2.1 x.2.2.1)

/-- Scratchpad contents of a candidate on the cores of a mask. -/
def placeContent (cores : List Nat) (l : List (Nat × Nat × List Byte)) : List (Nat × Nat × List Byte) := l.map (fun x => (cores.getD x.1 0, x.2))

/-- The 13 expected CRCs of a core's Proof cast block are those of the results its Niches give on the block's operands (14_safety.md R320, R321). -/
def crcsTrue (t : Schedule) (c : Nat) (operands crcs : List Byte) : Bool :=
  let sp : Mem := mwrite [] Config.proofBase operands
  let crcAt (k : Nat) : Word := mreadW (mwrite [] 0 crcs) (4 * k)
  (List.range 4).all (fun e =>
    let ms := ((castNiches t c e).map (fun k => t.niches.getD k default)).filter (fun n => n.station = 2)
    let out := ms.foldl (fun sp n => ((nicheMx n).run sp []).1) sp
    let area (k : Nat) : Nat := Config.proofBase + 0x10000 + 12288 * e + 4096 * k
    [0, 1, 2].all (fun k => crc32 (mread out (area k) 4096) = crcAt (3 * e + k)) &&
    (e ≠ 0 || (((castNiches t c e).map (fun k => t.niches.getD k default)).filter (fun n => n.station = 3)).all (fun n =>
      crc32 (mread ((VxDesc.ofWords n.desc).run out []).1 (Config.proofBase + 0x1C000) 128) = crcAt 12)))

/-- The contents a commit places: those of the bindings' candidates and, where a safety-class stream is bound, the operands and expected CRCs of every
core's Proof cast block (14_safety.md R320). -/
def contentsOk (mask : Nat) (l : List (Binding × Option MaqEntry)) (safe : Bool) (p : CommitPlan) : Bool :=
  let cores := maskList mask 16
  let want := l.flatMap (fun x => placeContent cores (((boundCand mask x.2).map (·.contents)).getD []))
  let rest := p.contents.drop want.length
  decide (p.contents.take want.length = want) &&
  (if safe then decide (rest.map (fun x => (x.1, x.2.1, x.2.2.length)) =
      cores.flatMap (fun c => [(c, Config.proofBase, 65536), (c, Config.proofBase + 0x1C080, 52)])) &&
    ((List.range cores.length).zip cores).all (fun y =>
      crcsTrue p.main y.2 (rest.getD (2 * y.1) default).2.2 (rest.getD (2 * y.1 + 1) default).2.2)
   else rest.isEmpty)

/-- The block binds a safety-class stream. -/
def bindsSafe (l : List Binding) : Bool := l.any (fun b => decide (b.kind < 2) && b.safety)

/-- The resolved plan is one of these bindings and mask: a variant for each core of the mask, none for a single core (R190), with H_halo and bindings as in
the main schedule. -/
def planFits (mask : Nat) (l : List (Binding × Option MaqEntry)) (p : CommitPlan) : Bool :=
  let cores := maskList mask 16
  let full := l.map (fun x => (x.1, x.2, bindHalo mask x.1 x.2))
  schedOk mask full p.main && decide (p.variants.map (·.1) = if cores.length ≤ 1 then [] else cores) &&
  p.variants.all (fun v => schedOk (mask - 2 ^ v.1) full v.2) && contentsOk mask l (bindsSafe (l.map (·.1))) p

/-! ### Figures (R171) -/

/-- The values of a binding that Ronas's figures depend on. -/
def Binding.values (b : Binding) : List Nat := [b.kind, b.target, b.maxH, b.maxW, b.bPix, b.framePeriod, b.profile.toNat, b.audio.toNat]

/-- The figures of each binding: H_halo, and those that only Ronas's timing model gives, which the same bindings, entries and mask make the same. -/
def commitFigures (mask : Nat) (l : List (Binding × Option MaqEntry)) : List BindFigures :=
  let cores := maskList mask 16
  let fig (i k : Nat) : Nat := Config.armFigure mask (l.map (fun x => (x.1.values, x.2))) i k % 2 ^ 32
  ((List.range l.length).zip l).map (fun x =>
    { hHalo := bindHalo mask x.2.1 x.2.2, pArm := fig x.1 0, tPg := if x.2.1.kind = 2 then fig x.1 1 else 0, encInParm := decide (fig x.1 2 % 2 = 1),
      pArmVar := if cores.length ≤ 1 then [] else cores.map (fun c => (c, fig x.1 (3 + c))) })

/-! ### Packages (R166, R172, R173, R177; 10_work_classes.md R234, R239; 15_recovery.md R339) -/

/-- A Niche of a candidate for `n` cores keeps to them. -/
def opNicheOk (n : Nat) (x : OpNiche) : Bool := entryOk (2 ^ n - 1) (opEntry x) && coresOk (2 ^ n - 1) (opEntry x)

/-- A line Niche of a layout (02_raster_time.md R29). -/
def opLine (n : OpNiche) : Bool := lineNiche (opEntry n)

/-- A candidate schedule as Ronas builds it: its operations by the tile function on its cores, bands of 1 to 65,535 Niches beside the Proof casts. -/
def candOk (k : EntryKind) (c : Candidate) : Bool :=
  let size (l : List Operation) : Nat := (l.flatMap (·.niches)).length
  inRange c.cores 1 16 && decide (c.halo ≤ 32) && (c.lines ++ c.bands.flatten).all (fun o => opShape o && o.niches.all (opNicheOk c.cores)) &&
  c.lines.all (fun o => o.niches.all opLine) && c.bands.flatten.all (fun o => o.niches.all (fun n => !opLine n)) &&
  (k ≠ .video && k ≠ .audio || (!c.bands.isEmpty && c.bands.all (fun l => inRange (size l) 1 65327))) &&
  c.contents.all (fun x => decide (x.1 < c.cores) && decide (x.2.1 + x.2.2.length ≤ Config.spadBytes))

/-- Watchdog budget of a best-effort Niche: four times its bound at f = 0.5, 650 tensor clocks a tick (15_recovery.md R339, log 133). -/
def beBudget (n : OpNiche) : Nat := 4 * cdiv (if n.station = 3 then (VxDesc.ofWords n.desc).clocks else (nicheMx (opEntry n)).clocks) 650

/-- Scratchpad ranges a best-effort Niche reads, counted from 0. -/
def beReads (n : OpNiche) : List (Nat × Nat) := if n.station = 3 then (VxDesc.ofWords n.desc).reads else (nicheMx (opEntry n)).reads

/-- Scratchpad ranges a best-effort vector Niche off the arrays writes, which no matrix engine checks (R193). -/
def beWrites (n : OpNiche) : List (Nat × Nat) := if n.station = 3 && !onArrays (opEntry n) then (VxDesc.ofWords n.desc).writes else []

/-- Accumulator rows a best-effort vector Niche reads. -/
def beAccRows (n : OpNiche) : Nat :=
  let d := VxDesc.ofWords n.desc
  if n.station = 3 && d.srcAcc then d.srcA % 65536 + d.rows else 0

/-- A Niche resolved for one core by itself reads only what its entry declares, a vector Niche writes only there too, and it exchanges nothing; it is an MX,
VX or SEQ Niche (R234). What a matrix engine writes is checked where it runs (R193). -/
def beNicheOk (e : MaqEntry) (n : OpNiche) : Bool :=
  (decide (n.station = 2) || decide (n.station = 3) || decide (n.station = 5)) && decide (n.engine < 4) && decide (n.unit = 0) &&
  (beReads n ++ beWrites n).all (fun x => decide (x.1 + x.2 ≤ e.spad)) && decide (beAccRows n ≤ e.accRows) && decide (fld (n.desc.getD 23 0) 31 28 = 0) &&
  decide (n.wdog = beBudget n)

/-- An entry as Ronas builds it: a session model's values lie in their ranges (09_sequence.md R217), its candidates are of different core counts, the
operations resolved for one core follow the tile function and keep to what is declared. -/
def entryWf (e : MaqEntry) : Bool :=
  (e.kind ≠ .session || (inRange e.layers 1 255 && inRange e.heads 1 64 && inRange e.lanes 1 16 && decide (e.lcGroups ≤ 256) && decide (1 ≤ e.itemBytes) &&
    decide (1 ≤ e.laneRows))) &&
  distinct (e.cands.map (·.cores)) && e.cands.all (candOk e.kind) && e.ops.all opShape && e.niches.all (beNicheOk e)

end Sys2Proof.Machine
end

