-- ==== Sys2Proof/Machine/Armature.lean ====
section
/-! DEFINITION. MAQUETTE_LOAD, MAQUETTE_DROP, ARMATURE_COMMIT, ARMATURE_SWAP (07_mapping.md R165-R174, R190-R192; 02_raster_time.md R32;
10_work_classes.md R236, R239; 15_recovery.md R349). -/

namespace Sys2Proof.Machine

/-! ### Maquettes (R166, R167) -/

/-- Total bytes of allocations. -/
def allocBytes (l : List Alloc) : Nat := (l.map (·.bytes)).sum

/-- A row operation whose row needs more than 512 issue clocks (R239). -/
def longRow (e : MaqEntry) : Bool := e.niches.any (fun n => n.station = 3 && decide (512 < rowClocks (VxDesc.ofWords n.desc)))

/-- The package passes the checks of R166 and R239. -/
def packageOk (p : Package) : Bool :=
  decide (p.magic = 0x514D5A57) && p.crcOk && decide (p.tileRev = Config.tileRev) && p.entries.all (fun e => e.kind ≠ .bestEffort || !longRow e)

/-- A package Ronas can have built. -/
def packageWf (p : Package) : Bool := p.entries.all entryWf

/-- MAQUETTE_LOAD (0x20): handle, package, then resources (03_commands.md R57); the package lies in ECC buffers (11_memory.md R265). What passes the
checks is a package Ronas has built (log 123). -/
def doMaquetteLoad (j : Nat) (p : Package) (s : State) : State :=
  if packageOk p && !packageWf p then s
  else runCmd j 0x20 s (fun e s =>
    if e.ctx ≠ 0xFFFF && (tfind s.maquettes e.ctx).isSome then finish j stCtxBusy [] s
    else if !packageOk p then finish j stBadParam [] s
    else match (if e.ctx = 0xFFFF then lowestFree 64 (s.maquettes.map (·.1)) else some e.ctx) with
      | none => finish j stNoFree [] s
      | some h => match allocPool true p.bytes s with
        | (none, s) => finish j stPoolEmpty [] s
        | (some l, s) =>
          let n := allocBytes l
          finishCtx j stOk 0 h [w32 n, hi32 n] { s with maquettes := tput s.maquettes h { pkg := p, allocs := l } })

/-- A committed Armature references the Maquette, or a TENSOR_RUN of it is in execution. -/
def maquetteBusy (s : State) (h : Nat) : Bool :=
  s.armatures.any (fun a => a.2.bindings.any (fun b => b.maq = h)) || s.jobs.any (fun b => b.maq = h)

/-- MAQUETTE_DROP (0x21). -/
def doMaquetteDrop (j : Nat) (s : State) : State :=
  runCmd j 0x21 s (fun e s =>
    match tfind s.maquettes e.ctx with
    | none => finish j stBadContext [] s
    | some m =>
      if maquetteBusy s e.ctx then finish j stCtxBusy [] s
      else finish j stOk [] (forAll m.allocs release { s with maquettes := tdel s.maquettes e.ctx }))

/-! ### Commit block (R168, Tables 7.2, 7.3) -/

/-- Binding entry `i` of a commit block. -/
def bindingAt (block : List Word) (i : Nat) : Binding :=
  let w (k : Nat) : Word := block.getD (16 + 8 * i + k) 0
  { kind := fld (w 0) 31 30, maq := fld (w 0) 21 16, target := fld (w 0) 15 0, entry := fld (w 1) 31 16, maxH := fld (w 2) 31 16,
    maxW := fld (w 2) 15 0, bPix := (w 3).toNat, framePeriod := (w 4).toNat, profile := w 5, audio := w 6 }

/-- BINDINGS, VER and CORE_MASK of the header. -/
def blockCount (block : List Word) : Nat := fld (block.getD 0 0) 31 16
def blockVer (block : List Word) : Nat := fld (block.getD 0 0) 15 8
def blockMask (block : List Word) : Nat := fld (block.getD 1 0) 15 0

/-- Binding entries of a block. -/
def blockBindings (block : List Word) : List Binding := (List.range (blockCount block)).map (bindingAt block)

/-- Kind of Maquette entry a binding needs. -/
def kindMatches (b : Binding) (k : EntryKind) : Bool :=
  match b.kind, k with
  | 0, .video => true
  | 1, .audio => true
  | 2, .session => true
  | _, _ => false

/-- Values of a binding in the ranges of Table 4.1, its target in range. -/
def bindingOk (b : Binding) : Bool :=
  match b.kind with
  | 0 => decide (b.target < 128) && decide (b.codec ≤ 1) && inRange b.maxH 64 4352 && inRange b.maxW 64 8192 &&
         decide (b.maxW * b.maxH ≤ 8912896) && inRange b.bPix 1000000 534773760 && inRange b.framePeriod 4000 1000000
  | 1 => decide (b.target < 128) && decide (b.codec = 2) && decide (b.block ≤ 640) && inRange b.mics 1 8
  | 2 => decide (b.target < 256)
  | _ => false

/-- Entry of a binding's Maquette. -/
def bindingEntry (s : State) (b : Binding) : Option MaqEntry := beEntry s b.maq b.entry

/-- The commit block check of Table 7.6. -/
def blockOk (s : State) (block : List Word) : Bool :=
  let l := blockBindings block
  decide (blockVer block = 1) && inRange (blockCount block) 1 384 && decide (blockMask block ≠ 0) &&
  distinct (l.map (fun b => (b.kind, b.target))) &&
  l.all (fun b => bindingOk b && (match bindingEntry s b with
    | some e => kindMatches b e.kind && (b.kind ≠ 2 || !longRow e)
    | none => false))

/-- Bits set in a core mask. -/
def maskCount (m : Nat) : Nat := (maskList m 16).length

/-- Bindings of a block with their entries. -/
def boundEntries (s : State) (block : List Word) : List (Binding × Option MaqEntry) := (blockBindings block).map (fun b => (b, bindingEntry s b))

/-- The plan is one Plinth can have resolved for this block. -/
def planOk (s : State) (block : List Word) (p : CommitPlan) : Bool := planFits (blockMask block) (boundEntries s block) p

/-- Figures of a block's bindings (R171). -/
def blockFigures (s : State) (block : List Word) : List BindFigures := commitFigures (blockMask block) (boundEntries s block)

/-! ### Commit checks (R192, Table 7.6) -/

/-- Main schedule and variants. -/
def planScheds (p : CommitPlan) : List Schedule := p.main :: p.variants.map (·.2)

/-- A crop list lies in the interleaved space (11_memory.md R253). -/
def ShpDesc.srcInside (d : ShpDesc) (space : Nat) : Bool := decide (d.kind ≠ 2) || decide (d.src + 16 + 16 * (d.batches * d.batch) ≤ space)

/-- Every range of a Niche's descriptor, and the watchdog budget (R159, R163, R134, R200, R339). -/
def descOk (space : Nat) (l : List Binding) (n : NicheEntry) : Bool :=
  let lineSync (slot : Nat) : Bool := l.any (fun b => decide (b.kind = 0) && decide (b.target = slot) && decide (b.timing = 0))
  decide (n.wdog ≠ 0) && (!n.safety || decide (n.wdog ≤ 4000)) &&
  (match n.station with
   | 1 => let d := ShpDesc.ofWords n.desc; d.ok (lineSync d.slot) && d.srcInside space
   | 2 => (nicheMx n).ok
   | 3 => (VxDesc.ofWords n.desc).ok
   | 4 => (TrkDesc.ofWords n.desc).ok
   | 5 => (nicheMx n).ok
   | _ => true)

/-- Niches that a Niche's edges do not lead back to: the graph below `k` ends (R176). -/
def depthOk (t : Schedule) : Nat → Nat → Bool
  | 0, _ => false
  | fuel + 1, k => (t.succs.getD k []).all (fun e => depthOk t fuel e.target)

/-- The successor table is well formed (R176). -/
def succOk (t : Schedule) : Bool :=
  t.succs.all (fun l => decide (l.length ≤ 4) && l.all (fun e => decide (e.target < t.niches.length))) &&
  (List.range t.niches.length).all (fun k =>
    decide ((t.niches.getD k default).depIn = (t.succs.flatten.filter (fun e => decide (e.target = k))).length) &&
    depthOk t (t.niches.length + 1) k)

/-- Accumulator demand of a product Niche (Table 7.6). -/
def accOk (n : NicheEntry) : Bool :=
  if n.station = 2 || n.station = 5 then
    let d := nicheMx n
    (if n.proof then decide (d.accBase = Config.accUsable) && decide (d.accRows ≤ 32) else decide (d.accBase + d.accRows ≤ Config.accUsable)) &&
    decide (d.m * d.slices * d.q ≤ d.accRows)
  else true

/-- The checks of Table 7.6 that need no resolved schedule, in order: Maquettes, block, mask, candidate schedules, decode budget. -/
def blockChecks (s : State) (block : List Word) : List (Bool × Nat) :=
  let l := blockBindings block
  let mask := blockMask block
  let n := maskCount mask
  let counts (b : Binding) (k : Nat) : Bool := ((bindingEntry s b).bind (fun e => candidate e k)).isSome
  [((l.take 384).all (fun b => (tfind s.maquettes b.maq).isSome), stBadContext),
   (blockOk s block, stBadParam),
   ((maskList mask 16).all (fun c => !s.isFenced c), stFenced),
   (l.all (fun b => counts b n && (decide (n ≤ 1) || counts b (n - 1))), stArmResource),
   (decide (((l.filter (fun b => b.kind = 0)).map (·.bPix)).sum ≤ Config.decodeBudget), stDecodeBudget)]

/-- Only Proof cast Niches touch the Proof cast block where a safety-class stream is bound (14_safety.md R320). -/
def blockKept (l : List Binding) (n : NicheEntry) : Bool :=
  !bindsSafe l || n.proof || (nicheExtents n).all (fun x => decide (x.2.2 = 0) || decide (x.2.1 + x.2.2 ≤ Config.proofBase))

/-- The checks of Table 7.6 after the handle, in order. -/
def commitChecks (s : State) (block : List Word) (p : CommitPlan) : List (Bool × Nat) :=
  let l := blockBindings block
  let every (f : NicheEntry → Bool) : Bool := (planScheds p).all (fun t => t.niches.all f)
  blockChecks s block ++
  [(every (descOk (spaceBytes s.dram) l), stBadParam),
   ((planScheds p).all succOk, stBadParam),
   (every accOk, stArmResource),
   (every (fun n => insideSpad n && blockKept l n) && (planScheds p).all noCollision, stArmResource),
   ((planScheds p).all (shapingOk l), stArmResource),
   (!bindsSafe l || (planScheds p).all (fun t => decide (t.proofGap ≤ 8000)), stArmResource)]

/-! ### Commit report (R170, Table 7.4) -/

/-- Best-effort regions of the 16 cores while the Armature is active (R234). -/
def commitRegions (s : State) (block : List Word) (p : CommitPlan) : List Region :=
  let lc := (planScheds p).flatMap (·.niches)
  (List.range 16).map (fun c =>
    if s.isFenced c then emptyRegion
    else if maskBit (blockMask block) c then beRegion lc (bindsSafe (blockBindings block)) c
    else wholeRegion)

/-- Entry of one binding. -/
def reportEntry (mask : Nat) (b : Binding) (f : BindFigures) : List Word :=
  [dw [(b.kind, 31, 30), (b.target, 15, 0)], w32 f.hHalo, w32 f.pArm, w32 (if b.kind = 2 then f.tPg else 0), w32 (b2n f.encInParm)] ++
  List.replicate 11 0 ++
  (List.range 16).map (fun c =>
    if maskBit mask c && decide (maskCount mask > 1) then w32 (((f.pArmVar.find? (fun v => v.1 = c)).map (·.2)).getD f.pArm) else 0xFFFFFFFF)

/-- Entry of one region. -/
def regionEntry (r : Region) : List Word :=
  [w32 r.spadBase, w32 r.spadBytes] ++ r.banks.map (fun b => dw [(b.2, 31, 16), (b.1, 15, 0)]) ++ [0, 0]

/-- ORDER of each element-wise fall-back Niche of the main schedule. -/
def fallbacks (p : CommitPlan) : List Word := (p.main.niches.filter onArrays).map (fun n => dw [(n.order, 23, 0)])

/-- Largest P_arm. -/
def pArmMax (l : List BindFigures) : Nat := maxNat (l.map (·.pArm))

/-- The report as entries. -/
def commitReport (block : List Word) (p : CommitPlan) (figs : List BindFigures) (regions : List Region) (bytes room : Nat) : List (List Byte) :=
  let l := blockBindings block
  let fb := fallbacks p
  let stop := 64 + 128 * l.length + 4 * fb.length
  let regs := cdiv stop 32 * 32
  let written := min l.length ((room - 64) / 128)
  let header : List Word := [dw [(written, 31, 16), (1, 15, 8)], w32 (blockMask block), w32 (pArmMax figs), w32 p.main.niches.length, w32 fb.length,
    w32 bytes, w32 regs] ++ List.replicate 9 0
  wordsBytes header :: ((l.zip figs).map (fun x => wordsBytes (reportEntry (blockMask block) x.1 x.2)) ++ fb.map wordBytes ++
    (if regs = stop then [] else [List.replicate (regs - stop) 0]) ++ regions.map (fun r => wordsBytes (regionEntry r)))

/-! ### Armatures kept for pictures under way (R32, R167) -/

/-- Schedule references in use. -/
def schedRefs (s : State) : List SchedRef :=
  s.runs.map (·.ref) ++ s.streams.flatMap (fun e => e.2.pics.filterMap (·.sched)) ++ s.packs.map (fun e => e.2.ref) ++
  s.recov.xchgs.map (·.ref) ++ s.active.toList

/-- Drop replaced Armatures that nothing uses any more, with their buffers. -/
def sweepArmatures (s : State) : State :=
  let dead := s.armatures.filter (fun e => decide (4 ≤ e.1) && !(schedRefs s).any (fun r => r.arm = e.1))
  forAll dead (fun e s => forAll e.2.allocs release { s with armatures := tdel s.armatures e.1 }) s

/-- Keys that name Armature `h` name `k` instead; `w` is what one Armature takes in the key. -/
def moveArm {α : Type} (w h k : Nat) (t : Tab α) : Tab α := t.foldl (fun m e => tput m (if e.1 / w = h then e.1 - h * w + k * w else e.1) e.2) []

/-- Keep the Armature of a handle that a commit replaces under a number of its own, for the work that still runs under it; its shaping rings go
with it (05_shaping.md R129). -/
def shelve (h : Nat) (s : State) : State :=
  match tfind s.armatures h with
  | none => s
  | some a =>
    let k := max 4 (maxNat (s.armatures.map (·.1)) + 1)
    let m (r : SchedRef) : SchedRef := if r.arm = h then { r with arm := k } else r
    sweepArmatures { s with
      armatures := tput (tdel s.armatures h) k a
      runs := s.runs.map (fun r => { r with ref := m r.ref })
      streams := s.streams.map (fun e => (e.1, { e.2 with pics := e.2.pics.map (fun p => { p with sched := p.sched.map m }) }))
      packs := s.packs.map (fun e => (e.1, { e.2 with ref := m e.2.ref }))
      stages := moveArm (2 ^ 37) h k s.stages, stageNext := moveArm (2 ^ 33) h k s.stageNext
      recov := { s.recov with xchgs := s.recov.xchgs.map (fun x => { x with ref := m x.ref }) } }

/-! ### ARMATURE_COMMIT -/

/-! ### The Armature in DRAM (R27, R176, Tables 2.2, 2.3) -/

/-- A trigger entry. -/
def trigWords (e : TrigEntry) : List Word :=
  [dw [(e.band, 19, 8), (b2n e.frame, 7, 7), (e.slot, 6, 0)], dw [(e.halo, 21, 16), (e.trigLpos, 13, 0)], dw [(e.firstNiche, 23, 0)], dw [(e.nicheCount, 15, 0)]]

/-- A Niche entry whose descriptor lies at `addr`. -/
def nicheWords (n : NicheEntry) (addr : Nat) : List Word :=
  [dw [(n.order, 23, 0)], dw [(b2n n.proof, 11, 11), (b2n n.safety, 10, 10), (n.engine, 9, 8), (n.unit, 7, 4), (b2n n.indep, 3, 3), (n.station, 2, 0)],
   w32 n.wdog, w32 addr, hi32 addr, dw [(n.depIn, 15, 0)], 0, 0]

/-- A successor entry. -/
def succWords (l : List SuccEdge) : List Word :=
  (List.range 4).map (fun i => match l[i]? with | some e => dw [(1, 31, 31), (b2n e.afterXchg, 30, 30), (e.target, 23, 0)] | none => 0)

/-- Bytes of a schedule's trigger table, Niche table, successor table and descriptors, in the order they are stored (log 122). -/
def tableSizes (t : Schedule) : List Nat :=
  [16 * t.trigs.length, 32 * t.niches.length, 16 * t.niches.length, 4 * (t.niches.map (fun n => n.desc.length)).sum]

/-- DRAM requests of a plan: one for each table that is not empty (R171). -/
def planAllocs (p : CommitPlan) : List Nat := ((planScheds p).flatMap tableSizes).filter (fun n => decide (n ≠ 0))

/-- Address of data byte `off` of a protected buffer list: 480 bytes in each 512 (11_memory.md R264, R271). -/
def eccAddr : List Alloc → Nat → Nat
  | [], off => off
  | a :: l, off => if poolSize a.pool ≤ off then eccAddr l (off - poolSize a.pool) else a.addr + off / 480 * 512 + off % 480

/-- Write data bytes from the start of a protected buffer list. -/
def eccWrite (l : List Alloc) (bs : List Byte) (s : State) : State :=
  { s with dram := { s.dram with cells := ((List.range bs.length).zip bs).foldl (fun m x => mput m (eccAddr l x.1) x.2) s.dram.cells } }

/-- First data byte of each descriptor. -/
def descOffsets : Nat → List NicheEntry → List Nat
  | _, [] => []
  | off, n :: l => off :: descOffsets (off + 4 * n.desc.length) l

/-- Images of a schedule's four tables; `desc` is where its descriptors lie. -/
def tableImages (t : Schedule) (desc : List Alloc) : List (List Word) :=
  [t.trigs.flatMap trigWords, ((t.niches.zip (descOffsets 0 t.niches)).flatMap (fun x => nicheWords x.1 (eccAddr desc x.2))),
   (List.range t.niches.length).flatMap (fun k => succWords (t.succs.getD k [])), t.niches.flatMap (·.desc)]

/-- Buffers for tables of these sizes, in turn; an empty table has none. -/
def tableBufs : List Nat → List (List Alloc) → List (List Alloc)
  | [], _ => []
  | 0 :: ns, l => [] :: tableBufs ns l
  | _ :: ns, l => l.headD [] :: tableBufs ns l.tail

/-- Write a schedule's tables into its buffers. -/
def writeTables (t : Schedule) (bufs : List (List Alloc)) (s : State) : State :=
  forAll (bufs.zip (tableImages t (bufs.getD 3 []))) (fun x => eccWrite x.1 (wordsBytes x.2)) s

/-- Write the tables of the main schedule and of every variant. -/
def writeArmature (p : CommitPlan) (bufs : List (List Alloc)) (s : State) : State :=
  let all := tableBufs ((planScheds p).flatMap tableSizes) bufs
  forAll ((List.range (planScheds p).length).zip (planScheds p)) (fun x => writeTables x.2 ((all.drop (4 * x.1)).take 4)) s

/-- Write the scratchpad contents a commit places (14_safety.md R320, 15_recovery.md R351). -/
def placeContents (l : List (Nat × Nat × List Byte)) (s : State) : State :=
  forAll l (fun x s => s.modCore x.1 (fun c => { c with spad := mwrite c.spad x.2.1 x.2.2 })) s

/-- A commit that passed every check. -/
def commitArmature (j h : Nat) (e : JEntry) (block : List Word) (p : CommitPlan) (bufs : List (List Alloc)) (s : State) : State :=
  let allocs := bufs.flatten
  let regions := commitRegions s block p
  let figs := blockFigures s block
  let a : Armature := { coreMask := blockMask block, bindings := blockBindings block, plan := p, figures := figs, regions := regions, allocs := allocs,
                        role := s.link.role, torusX := s.link.torusX, torusY := s.link.torusY }
  let s := shelve h s
  let s := placeContents p.contents (writeArmature p bufs { s with armatures := tput s.armatures h a })
  let room := (e.param 4).toNat
  let img := cutImage (commitReport block p figs regions (allocBytes allocs) room) room
  let s := hostWrite (e.param64 2) img.1 s
  finishCtx j (if img.2.2 then stTruncated else stOk) 0 h [w32 (pArmMax figs), w32 (maskCount (blockMask block))] s

/-- ARMATURE_COMMIT (0x22). A named handle that is active, then the checks of Table 7.6; for CONTEXT = 0xFFFF the want of a free handle is a want of
resources and comes after them (03_commands.md R57, log 134). What passes the checks on the block has a plan Plinth resolves (log 121). -/
def doArmatureCommit (j : Nat) (block : List Word) (p : CommitPlan) (s : State) : State :=
  if !planOk s block p && (firstFail (blockChecks s block)).isNone then s
  else runCmd j 0x22 s (fun e s =>
    if decide (e.ctx ≠ 0xFFFF) && decide (s.active.map (·.arm) = some e.ctx) then finish j stCtxBusy [] s
    else match firstFail (commitChecks s block p), (if e.ctx = 0xFFFF then lowestFree 4 (s.armatures.map (·.1)) else some e.ctx) with
      | some st, _ => finish j st [] s
      | none, none => finish j stNoFree [] s
      | none, some h => match allocAll false true (planAllocs p) [] s with
        | (none, s) => finish j stPoolEmpty [] s
        | (some l, s) => commitArmature j h e block p l s)

/-! ### ARMATURE_SWAP (R32, R236, R349) -/

/-- Schedule a swap puts in force; none when more cores of the mask are fenced than it has a variant for (R349). -/
def swapTarget (s : State) (h : Nat) (a : Armature) : Option SchedRef :=
  match (maskList a.coreMask 16).filter s.isFenced with
  | [] => some { arm := h, var := none }
  | [c] => if a.plan.variants.any (fun v => v.1 = c) then some { arm := h, var := some c } else none
  | _ => none

/-- While safety is armed, the engines of cores new to CORE_MASK begin their intervals (R322). -/
def watchNewCores (s : State) : State :=
  if s.safety.state = 0 then s
  else forAll (castCores s) (fun c s => if (s.core c).castAt.isEmpty then
    s.modCore c (fun x => { x with castAt := [(0, s.now), (1, s.now), (2, s.now), (3, s.now)] }) else s) s

/-- The session's lane lies beyond the pack groups of its model in the Armature now active; a model it does not bind leaves the session as it is (R220). -/
def laneLost (s : State) (x : Session) : Bool :=
  x.isOpen && x.shadow.isNone && !x.be && (modelEntry s x.model).isSome &&
  (match x.lane, packOf s x.model with
   | some (g, l), some p => decide (p.groups ≤ g) || decide (p.lanes ≤ l)
   | some _, none => true
   | none, _ => false)

/-- A step or chunk of the session waits for its pack group, and the Armature now active does not bind its model (R220). -/
def workUnbound (s : State) (x : Session) : Bool :=
  x.isOpen && x.shadow.isNone && (modelEntry s x.model).isNone && ((x.work.map (fun w => decide (w.phase = .ready))).getD false)

/-- A unit that cannot run any more, since the model is not bound: the command completes with BAD_PARAMETER (R220). -/
def unbindWork (n : Nat) (s : State) : State :=
  modWork n (fun w => { w with phase := .done, fault := stBadParam }) { s with jobs := s.jobs.filter (fun b => decide (b.sess ≠ some n)) }

/-- A session whose lane is lost runs as best-effort work until it closes; a unit it had ready waits for gaps (R220). -/
def demote (n : Nat) (s : State) : State :=
  let s := s.modSession n (fun x => { x with be := true, lane := none })
  if ((s.session n).work.map (fun w => decide (w.phase = .ready))).getD false then queueUnit n s else s

/-- Put a schedule in force: marks clear (R244), best-effort Niches in progress are placed again (R236), sessions lose lanes it does not have, and the steps of a model it
does not bind end (R220). -/
def activate (r : SchedRef) (s : State) : State :=
  let old := regionOf s
  let s := { s with active := some r, noSched := false, marks := [] }
  let s := forAll (List.range Config.cores) (swapCore old) s
  let s := forAll ((s.sessions.filter (fun e => workUnbound s e.2)).map (·.1)) unbindWork s
  watchNewCores (forAll ((s.sessions.filter (fun e => laneLost s e.2)).map (·.1)) demote s)

/-- ARMATURE_SWAP (0x23). -/
def doArmatureSwap (j : Nat) (s : State) : State :=
  runCmd j 0x23 s (fun e s =>
    match tfind s.armatures e.ctx with
    | none => finish j stBadContext [] s
    | some a => match swapTarget s e.ctx a with
      | none => finish j stFenced [] s
      | some r =>
        let prev := match s.active with | some x => w32 x.arm | none => 0xFFFFFFFF
        let s := detect 15 s
        finish j stOk [prev] (activate r s))

def execMaquetteLoad (j : Nat) (pkg : Package) (s : State) : Host.Outcome State Fault Refusal := .next (doMaquetteLoad j pkg s)
def execMaquetteDrop (j : Nat) (s : State) : Host.Outcome State Fault Refusal := .next (doMaquetteDrop j s)
def execArmatureCommit (j : Nat) (block : List Word) (plan : CommitPlan) (s : State) : Host.Outcome State Fault Refusal :=
  .next (doArmatureCommit j block plan s)
def execArmatureSwap (j : Nat) (s : State) : Host.Outcome State Fault Refusal := .next (doArmatureSwap j s)

end Sys2Proof.Machine
end

