-- ==== Sys2Proof/Machine/Contexts.lean ====
section
/-! DEFINITION. The end of a close and the deferred open behind it (03_commands.md R70-R72, Table 3.8; 08_tracking.md R213;
09_sequence.md R231). -/

namespace Sys2Proof.Machine

/-! ### Streams -/

/-- Everything a close with FLUSH decodes first is processed: the feeds are parsed, every picture is reported, every block has fired. -/
def flushed (x : Stream) : Bool :=
  x.feeds.isEmpty &&
  (if x.cfg.codec = 2 then decide (x.block = x.firedBlocks)
   else x.aus.all (fun a => a.decoded) && x.pics.all (fun p => p.whole && p.statusDone))

/-- No picture stands begun and unfinished: a close without FLUSH stops at the next picture boundary. -/
def atBoundary (x : Stream) : Bool := x.pics.all (fun p => decide (p.rows = 0) || p.whole || p.dropped)

/-- Niches of the stream that a trigger released have finished. -/
def streamIdle (s : State) (n : Nat) : Bool :=
  s.runs.all (fun r => r.seq || r.cast.isSome || decide (r.owner ≠ n) || r.finished) &&
  s.recov.xchgs.all (fun x => x.seq || decide (x.owner ≠ n))

/-- Records of a context that a ring holds: they are not written yet (R54). -/
def heldOf (s : State) (session : Bool) (ctx : Nat) : List RecTag :=
  s.outq.flatMap (fun e => (e.2.held.map (·.tag)).filter (fun t => t.session = session && t.context = ctx))

/-- The work of a stream that closes is done: what FLUSH decodes first, its Niches, its records (Table 3.8 steps 1, 2 and 4). -/
def streamDrained (s : State) (n : Nat) (c : CloseSt) : Bool :=
  let x := s.stream n
  (if c.flush then flushed x else atBoundary x) && streamIdle s n && (heldOf s false n).isEmpty && x.outbox.isEmpty

/-- Step 5: the close needs its last record covered, so every ring with an uncovered record of the context issues its tail write-back (R53);
none is issued in D3hot (R302). -/
def coverLast (session : Bool) (ctx : Nat) (s : State) : State :=
  if s.pcie.d3 then s
  else forAll (List.range 8) (fun o s =>
    if (s.oring o).uncovered.any (fun t => t.session = session && t.context = ctx) then tailWriteBack o s else s) s

/-- Retire every track of a slot without entries (08_tracking.md R213). -/
def retireTracks (n : Nat) (s : State) : State :=
  { s with tracks := s.tracks.map (fun t => if t.2.live && decide (t.2.slot = n) then (t.1, t.2.retire) else t) }

/-- RESULT1 of a stream's close: DON of the last picture, or number of the last block, processed; a free value when there is none. -/
def lastProcessed (s : State) (x : Stream) : Word :=
  if x.cfg.codec = 2 then (match x.lastBlock with | some k => w32 k | none => Config.freeResult s.free)
  else match x.lastDon with
    | some d => w32 d
    | none => Config.freeResult s.free

/-- Step 4 of a stream's close: the buffers are released, what the picture region held is gone (01_architecture.md R406), the tracks retire. -/
def freeStream (n : Nat) (s : State) : State :=
  let x := s.stream n
  let s := { s with runs := s.runs.filter (fun r => r.seq || r.cast.isSome || decide (r.owner ≠ n)),
                    stages := s.stages.filter (fun e => decide (e.2.1 ≠ n)),
                    dram := { s.dram with cells := regionClear x.picRegion s.dram.cells } }
  let s := retireTracks n (forAll (x.allocs ++ x.picRegion ++ x.retAllocs) release s)
  s.modStream n (fun x => { x with allocs := [], picRegion := [], retAllocs := [], closing := x.closing.map (fun c => { c with freed := true }) })

/-- Step 6 of a stream's close: the final completion, the raised generation, the order of the reconstruction pool (R81). -/
def closeStream (j n : Nat) (s : State) : State :=
  let x := s.stream n
  let last := lastProcessed s x
  let s := s.setStream n { Stream.closed (nextGen x.gen) with deferred := x.deferred, opening := x.deferred.isSome }
  finishCtx j stOk x.gen n [w32 x.seq, last] (setPool { s with free := s.free + 1 })

/-- A stream's close goes on: step 4 once its work is done, step 5, then step 6. -/
def stepClose (j n : Nat) (c : CloseSt) (s : State) : State :=
  if !(c.freed || streamDrained s n c) then s
  else
    let s := coverLast false n (if c.freed then s else freeStream n s)
    if (uncoveredOf s false n).isEmpty then closeStream j n s else s

/-! ### Sessions -/

/-- No Niche of a pack group still works for the session's lane. -/
def sessionIdle (s : State) (n : Nat) : Bool :=
  s.packs.all (fun p => !p.2.segs.contains (n + 1) ||
    s.runs.all (fun r => !r.seq || decide (r.owner * 256 + r.don ≠ p.1) || r.finished))

/-- Step 4 of a session's close: a close collective to each peer, then its pages, scale blocks and page table (R231). -/
def endPages (n : Nat) (s : State) : State :=
  let x := s.session n
  let s := dropPages n (forAll (peersOf s x.spread) (sendCollective n 3 [0, w32 x.tCtx, 0, 0, 0]) s)
  s.modSession n (fun x => { x with pages := [], closing := x.closing.map (fun c => { c with freed := true }) })

/-- Step 6 of a session's close. -/
def closeSession (j n : Nat) (s : State) : State :=
  let x := s.session n
  let s := s.setSession n { Session.closed (nextGen x.gen) with deferred := x.deferred, opening := x.deferred.isSome }
  finishCtx j stOk x.gen n [w32 x.seq] s

/-- A session's close goes on: step 4 once its work is done, step 5, then step 6. -/
def stepSessionClose (j n : Nat) (c : CloseSt) (s : State) : State :=
  if !(c.freed || (sessionIdle s n && (heldOf s true n).isEmpty)) then s
  else
    let s := coverLast true n (if c.freed then s else endPages n s)
    if (uncoveredOf s true n).isEmpty then closeSession j n s else s

/-! ### The commands -/

/-- CLOSE_FINAL: steps 4 to 6 of the close at `j` (Table 3.8): it posts its final completion once its last record is covered. -/
def doCloseFinal (j : Nat) (s : State) : State :=
  match s.entry? j with
  | none => s
  | some e =>
    if !live s || !domainUp s || decide (e.st ≠ .running) then s
    else match e.named s.link.chip with
      | none => s
      | some (true, n) => match (s.session n).closing with
        | some c => if c.j = j then stepSessionClose j n c s else s
        | none => s
      | some (false, n) => match (s.stream n).closing with
        | some c => if c.j = j then stepClose j n c s else s
        | none => s

/-- The deferred open no longer waits; its context stays busy for other commands until its final completion (R72). -/
def clearDeferred (n : Bool × Nat) (s : State) : State :=
  if n.1 then s.modSession n.2 (fun x => { x with deferred := none }) else s.modStream n.2 (fun x => { x with deferred := none })

/-- The deferred open at `j` has its final completion: its context is busy no longer; an open that waits for its peers keeps it so. -/
def endOpening (j : Nat) (n : Bool × Nat) (s : State) : State :=
  if n.1 then (if decide ((s.session n.2).pendingOpen = some j) then s.modSession n.2 (fun x => { x with opening := true })
               else s.modSession n.2 (fun x => { x with opening := false }))
  else s.modStream n.2 (fun x => { x with opening := false })

/-- DEFERRED_OPEN_RUN: the open that waited behind the close runs (R72). -/
def doDeferredOpenRun (j : Nat) (s : State) : State :=
  match s.entry? j with
  | none => s
  | some e =>
    match e.named s.link.chip with
    | none => s
    | some n =>
      if !openingOf s n || decide (e.st ≠ .deferred) then s
      else
        let s1 := clearDeferred n (modEntry j (fun x => { x with st := .waiting }) s)
        if mayBegin s1 j e.opcode then
          endOpening j n (runCmd j e.opcode s1 (if n.1 then openSession j else openStream j))
        else s

def execCloseFinal (j : Nat) (s : State) : Host.Outcome State Fault Refusal := .next (doCloseFinal j s)
/-- The deferred open names a session, or a stream: the row that says the other is no event (log 2). -/
def execDeferredOpenRun (j : Nat) (session : Bool) (s : State) : Host.Outcome State Fault Refusal :=
  .next (if ((s.entry? j).bind (fun e => e.named s.link.chip)).any (fun n => decide (n.1 = session)) then doDeferredOpenRun j s else s)

end Sys2Proof.Machine
end

