-- ==== Sys2Proof/Machine/Attention.lean ====
section
/-! DEFINITION. What the sequence unit does with the Niches of a pack group or of a session: key-value pages as weight blocks, their scales, masked
scores, pad segments (09_sequence.md R224, R228). -/

namespace Sys2Proof.Machine

/-- The batch a SEQ or VX Niche of a step or chunk works on: segment number of each lane, and rows of a lane. The rows of the batch follow each other
lane by lane, and so do key positions, each lane having an equal share of them (log 118). -/
structure Batch where
  segs : List Nat
  rows : Nat
deriving DecidableEq, Repr, Inhabited

/-- Segment of row `r`. -/
def Batch.rowSeg (b : Batch) (r : Nat) : Nat := b.segs.getD (r / max 1 b.rows) 0

/-- Key positions of a lane where there are `n` in all. -/
def Batch.share (b : Batch) (n : Nat) : Nat := max 1 (n / max 1 b.segs.length)

/-- Segment of key `i` of `n`. -/
def Batch.keySeg (b : Batch) (n i : Nat) : Nat := b.segs.getD (i / b.share n) 0

/-- Absolute position of key `i` of `n`: the positions a session holds, the oldest first, then those being appended. -/
def Batch.keyPos (b : Batch) (s : State) (n i : Nat) : Nat :=
  let x := s.session (b.keySeg n i - 1)
  x.pos - x.tCtx + i % b.share n

/-- Absolute position of the query in row `r`. -/
def Batch.rowPos (b : Batch) (s : State) (r : Nat) : Nat := (s.session (b.rowSeg r - 1)).pos + r % max 1 b.rows

/-- The score of row `r` against key `i` of `n` is replaced by −infinity: other segments, a pad segment, or a later key (R228). -/
def Batch.masked (b : Batch) (s : State) (n r i : Nat) : Bool :=
  !(decide (b.rowSeg r = b.keySeg n i) && decide (b.rowSeg r ≠ 0) && decide (b.keyPos s n i ≤ b.rowPos s r))

/-- Page row of key `i` of `n` for a layer and head: the page and the row in it. -/
def Batch.pageRow (b : Batch) (s : State) (n layer head i : Nat) : Option (Page × Nat) :=
  if b.keySeg n i = 0 then none
  else
    let pos := b.keyPos s n i
    ((s.session (b.keySeg n i - 1)).pages.find? (fun p => p.holds layer head pos)).map (fun p => (p, pos - p.firstPos))

/-- Element `k` of the key or value of a page row, widened to FP16; a page that is not there gives 0. -/
def pageElem (s : State) (value : Bool) (k : Nat) : Option (Page × Nat) → Nat
  | none => 0
  | some (p, t) => fpBits fF16 false (.ofInt (mget s.dram.cells (p.data + (if value then 32768 else 0) + 128 * t + k)).toInt)

/-- Scale of the key or value of a page row. -/
def pageScale (s : State) (value : Bool) : Option (Page × Nat) → Fp
  | none => .fin false 0 0
  | some (p, t) => fp16 (leNat 2 (mread s.dram.cells (p.scale + (if value then 512 else 0) + 2 * t) 2))

/-- The weight blocks of a product: keys in its columns with their scales as column scales, or values in its rows (R224). -/
def Batch.weights (b : Batch) (s : State) (layer head : Nat) (value : Bool) (d : MxDesc) (sp : Mem) : Mem :=
  if value then
    putAll sp ((List.range d.k).flatMap (fun k =>
      let row := b.pageRow s d.k layer head k
      (List.range d.n).map (fun n => elemAt 6 (d.bBase + k * d.bPitch) n (pageElem s true n row))))
  else
    putAll sp ((List.range d.n).flatMap (fun n =>
      let row := b.pageRow s d.n layer head n
      (if d.qscale = noAddr then [] else [elemAt 9 d.qscale n (fpBits fF32 false (pageScale s false row))]) ++
      (List.range d.k).map (fun k => elemAt 6 (d.bBase + k * d.bPitch) n (pageElem s false k row))))

/-- The value scales that a VX MUL multiplies the probabilities of each key position by (R224). -/
def Batch.scales (b : Batch) (s : State) (layer head : Nat) (d : VxDesc) (sp : Mem) : Mem :=
  putAll sp ((List.range d.cols).flatMap (fun n =>
    let v := (convOut d.inFmt false (.fp (pageScale s true (b.pageRow s d.cols layer head n)))).1
    (List.range d.rows).map (fun r => elemAt d.inFmt (d.srcB + r * d.pitchIn) n v)))

/-- A SEQ Niche on core `c`: pages as weights, and masked scores where it multiplies by keys. -/
def seqMx (b : Batch) (c : Nat) (kv : Option (Nat × Nat × Bool)) (d : MxDesc) (s : State) : State :=
  match kv with
  | none => applyMx c d s
  | some (layer, head, value) => applyMxOn c (fun r n => !value && b.masked s d.n r n) (b.weights s layer head value d) d s

/-- A VX Niche of a step or chunk on core `c`: pad rows of a SOFTMAX, value scales of the MUL. -/
def seqVx (b : Batch) (c : Nat) (kv : Option (Nat × Nat × Bool)) (d : VxDesc) (s : State) : State :=
  applyVxOn c (fun r => decide (b.rowSeg r = 0)) (match kv with
    | some (layer, head, true) => if d.op = 0x03 && decide (d.srcB ≠ noAddr) then b.scales s layer head d else id
    | _ => id) d s

/-- The keys and values that a Niche's pages need are written: those of every session in the batch (R225). -/
def Batch.kvReady (b : Batch) (s : State) : Bool :=
  b.segs.all (fun g => decide (g = 0) || (((s.session (g - 1)).work.map (fun w => w.kv.isSome)).getD true))

/-- Batch of a pack group's instance. -/
def runBatch (s : State) (x : Run) : Batch :=
  { segs := (packSegs s x.owner x.don), rows := ((schedOf s x.ref).bind (fun t => t.packs.find? (fun p => p.model = x.owner))).map (·.rows) |>.getD 1 }

/-- Batch of a best-effort session's unit: one lane. -/
def jobBatch (s : State) (n : Nat) : Batch := { segs := [n + 1], rows := ((s.session n).work.map (·.laneRows)).getD 1 }

end Sys2Proof.Machine
end

