-- ==== Sys2Proof/Machine/Track.lean ====
section
/-! DEFINITION. TRACK_CONFIG and TRACK_QUERY (08_tracking.md R199, R216). -/

namespace Sys2Proof.Machine

/-- Parameters of TRACK_CONFIG (Table 8.2). -/
def TrackCfg.ofEntry (e : JEntry) : TrackCfg :=
  let p := e.param
  { alpha := fld (p 0) 31 24, beta := fld (p 0) 23 16, embAlpha := fld (p 0) 15 8, classGate := bit (p 0) 7, gateIou := fld (p 1) 31 24,
    gateEmb := fld (p 1) 23 16, wIou := fld (p 1) 15 8, wEmb := fld (p 1) 7 0, cNew := fld (p 2) 31 16, birthConf := fld (p 2) 15 0,
    confirmHits := fld (p 3) 31 24, maxMissesTent := fld (p 3) 23 16, maxMisses := fld (p 3) 15 8, trackMax := fld (p 4) 31 16 }

/-- Every value is in its range of Table 8.2; BIRTH_CONF is an FP16 number from 0.0 to 1.0, a negative zero among them. -/
def TrackCfg.ok (c : TrackCfg) : Bool :=
  decide (c.cNew ≤ 4095) && (decide (c.birthConf ≤ 0x3C00) || decide (c.birthConf = 0x8000)) && decide (1 ≤ c.confirmHits)

/-- TRACK_CONFIG (0x40): the values wait for the first TRK Niche of a picture (R199). -/
def doTrackConfig (j : Nat) (s : State) : State :=
  runCmd j 0x40 s (fun e s =>
    match videoCheck s e with
    | some st => finish j st [] s
    | none =>
      let c := TrackCfg.ofEntry e
      if c.ok then finish j stOk [] (s.modStream e.ctx (fun x => { x with trackNext := some c })) else finish j stBadParam [] s)

/-- Images of the live contexts of a slot, or of every slot, in ascending INDEX. -/
def trackImages (s : State) (slot : Option Nat) : List (List Byte) :=
  (s.tracks.filter (fun t => t.2.live && (match slot with | some n => decide (t.2.slot = n) | none => true))).map
    (fun t => wordsBytes (t.2.image t.1))

/-- A live context a query reads lies in an uncorrectable sector of the TAE spill (11_memory.md R254, R266, log 126). -/
def tracksBad (s : State) (slot : Option Nat) : Bool :=
  s.tracks.any (fun t => t.2.live && (match slot with | some n => decide (t.2.slot = n) | none => true) && dataBad s (64 * mib) (64 * t.1) 64)

/-- TRACK_QUERY (0x41): no generation is checked where CONTEXT is 0xFFFF (R216). -/
def doTrackQuery (j : Nat) (s : State) : State :=
  runCmd j 0x41 s (fun e s =>
    let all := decide (e.ctx = 0xFFFF)
    match (if all then none else videoCheck s e) with
    | some st => finish j st [] s
    | none =>
      if tracksBad s (if all then none else some e.ctx) then finish j stEcc [] s
      else writeImage j (e.param64 0) (e.param 2).toNat (trackImages s (if all then none else some e.ctx)) true s)

def execTrackConfig (j : Nat) (s : State) : Host.Outcome State Fault Refusal := .next (doTrackConfig j s)
def execTrackQuery (j : Nat) (s : State) : Host.Outcome State Fault Refusal := .next (doTrackQuery j s)

end Sys2Proof.Machine
end

