-- ==== Sys2Proof/Machine/Niches.lean ====
section
/-! DEFINITION. Dispatch and completion of Niches, exchanges, evidence slices (02_raster_time.md R30; 06_tensor_cores.md R140, R141;
07_mapping.md R176, R183, R184, R193-R196; 08_tracking.md R202, R214; 10_work_classes.md R243, R244; 04_stream_decode.md R112-R115;
15_recovery.md Table 15.4). -/

namespace Sys2Proof.Machine

/-! ### Aborts (R343, Table 15.4) -/

/-- The Niches of a pack group, which are one step of each of its sessions, run again from the first; transfers under way are dropped (Table 15.4). -/
def rerunGroup (x : Run) (s : State) : State :=
  let s := forAll ((packSegs s x.owner x.don).filter (· ≠ 0)) (fun g => stopWork (unitOf (runNiche s x)) (g - 1)) s
  refresh { s with
    runs := s.runs.map (fun r => if r.same x then { r with st := .waiting, reruns := 1 } else r)
    recov := { s.recov with xchgs := s.recov.xchgs.filter (fun y => !(y.seq && decide (y.ref = x.ref) && decide (y.owner = x.owner) && decide (y.don = x.don))) } }

/-- An aborted LC instance: a trigger Niche is skipped with everything reachable from it in the picture; the steps of a pack group run again
once; a placed Proof cast set ends unfinished. -/
def abortRun (x : Run) (status : Nat) (s : State) : State :=
  if x.seq then (if x.reruns = 0 then rerunGroup x s else skipFrom x status true s)
  else match x.cast with
    | some (c, e) =>
      let s := { s with runs := s.runs.filter (fun r => decide (r.cast ≠ some (c, e))) }
      s.modCore c (fun k => { k with castRunning := k.castRunning.filter (fun q => q ≠ e) })
    | none => skipFrom x status true s

/-- The outcome of a faulted LC Niche (Table 7.7). -/
def faultRun (x : Run) (status : Nat) (s : State) : State :=
  if x.cast.isSome then abortRun x status s else skipFrom x status false s

/-! ### Choice (R30, R141, R202, R243) -/

/-- Slot or session an instance belongs to. -/
def Run.party (r : Run) : Bool × Nat × Nat := (r.seq, r.owner, if r.seq then r.don else 0)

/-- The instance of lowest ORDER, the earliest fired among equals. -/
def lowest (s : State) (l : List Run) : Option Run :=
  l.foldl (fun best r => match best with
    | none => some r
    | some b => if (runNiche s r).order < (runNiche s b).order then some r else best) none

/-- The TAE may take a TRK Niche: earlier pictures of the slot have ended their TRK Niches, and so have those of lower ORDER in its own
picture (R202); the bands before its own have fired. -/
def trkTurn (s : State) (x : Run) : Bool :=
  let trk (r : Run) : Bool := decide ((runNiche s r).station = 4) && !r.seq && decide (r.owner = x.owner) && !r.finished
  s.runs.all (fun r => !trk r || r.isRun x || !(donLt r.don x.don ||
    (decide (r.don = x.don) && decide ((runNiche s r).order < (runNiche s x).order)))) &&
  (s.stream x.owner).pics.all (fun p => !donLt p.don x.don || bandsFired s x.owner p)

/-- The output ring of an OUT Niche holds records (03_commands.md R54). -/
def ringHolds (s : State) (x : Run) : Bool := !x.seq && x.cast.isNone && !(s.oring (ringOf s (bandRec x.owner 3 x.don x.band 0 0 false []))).held.isEmpty

/-- Instances among which a unit chooses: OUT Niches bound to a holding ring wait (03_commands.md R54). -/
def choices (s : State) (u : UnitId) : List Run :=
  let l := readyFor s u
  match u with
  | .tae => l.filter (trkTurn s)
  | .out => l.filter (fun x => !ringHolds s x)
  | _ => l

/-- The contest group of R243. -/
def contestGroup (s : State) (l : List Run) (x : Run) : List Run :=
  if x.cast.isSome then [x]
  else x :: l.filter (fun r => r.cast.isNone && decide (r.party ≠ x.party) && decide (r.readyAt = x.readyAt) &&
    (match lowest s (l.filter (fun q => decide (q.party = r.party))) with | some q => q.isRun r | none => false))

/-- The instance a unit dispatches next, and its contest group; a placed Proof cast set goes first (R322). -/
def choose (s : State) (u : UnitId) : Option (Run × List Run) :=
  let l := choices s u
  match l.find? (fun r => r.cast.isSome) with
  | some r => some (r, [r])
  | none => match lowest s l with
    | none => none
    | some x =>
      let g := contestGroup s l x
      let marked := g.filter (fun r => s.marks.contains (u, r.niche))
      match lowest s (if marked.isEmpty then g else marked) with
      | some w => some (w, g)
      | none => none

/-- After a contest the winner's mark clears and every other carries one (R243). -/
def settleMarks (u : UnitId) (w : Run) (g : List Run) (s : State) : State :=
  if g.length < 2 then s
  else
    let losers := (g.filter (fun r => !r.isRun w)).map (fun r => (u, r.niche))
    let kept := s.marks.filter (fun m => decide (m ≠ (u, w.niche)) && !losers.contains m)
    emit 0x06 (sourceOf u) 0xFFFF 0xFFFFFF 0 0xFFF w.niche losers.length { s with marks := kept ++ losers }

/-- The chosen instance can start: its units are idle and up; a broadcast Niche also needs no ready MX or SEQ Niche of its core with a
lower ORDER outside the contest (R141), and a line Niche of a shaping unit with a final row pending goes first (R133). -/
def canStart (s : State) (u : UnitId) (w : Run) (g : List Run) : Bool :=
  let n := runNiche s w
  if broadcast n then
    (enginesOf n.unit).all (fun v => unitUp s v && idle s v &&
      (readyFor s v).all (fun r => decide (n.order ≤ (runNiche s r).order) || g.any (fun q => q.isRun r)))
  else unitUp s u && idle s u && (match u with | .shp k => !linePending s k | _ => true)

/-! ### Dispatch -/

/-- The write footprint of a Niche that a matrix engine runs (R193). -/
def nicheFootprint (n : NicheEntry) : Option Nat :=
  if n.station = 2 || n.station = 5 then (MxDesc.ofWords (n.indep || decide (n.station = 5)) n.engine n.desc).footprint Config.spadBytes
  else if onArrays n then (VxDesc.ofWords n.desc).footprint Config.spadBytes
  else none

/-- Values of the last TRACK_CONFIG accepted for a slot and not yet executed, where it will store them. -/
def acceptedTrackCfg (s : State) (n : Nat) : Option TrackCfg :=
  (((s.journal.filter (fun e => decide (e.opcode = 0x40) && decide (e.named s.link.chip = some (false, n)) && decide (e.st = .waiting) &&
    decide (staticCheck s.link.chip e = none) && decide (videoCheck s e = none))).map TrackCfg.ofEntry).filter TrackCfg.ok).getLast?

/-- The first TRK Niche of a picture fixes the values all of them use: those of the last TRACK_CONFIG accepted before it starts (R199). -/
def takeTrackCfg (x : Run) (s : State) : State :=
  let st := s.stream x.owner
  match picOf st x.don with
  | none => s
  | some p =>
    if p.trkCfg.isSome then s
    else
      let c := (acceptedTrackCfg s x.owner).getD (st.trackNext.getD st.track)
      modPic x.owner x.don (fun q => { q with trkCfg := some c }) (s.modStream x.owner (fun t => { t with track := c, trackNext := none }))

/-- Sessions whose steps or chunks a pack group is running. -/
def groupSessions (s : State) (x : Run) : List Nat :=
  (((packSegs s x.owner x.don).filter (· ≠ 0)).map (· - 1)).filter (fun n => ((s.session n).work.map (fun w => decide (w.phase = .running))).getD false)

/-- Instances of a pack group that has run out leave the table, and the units of its sessions are done, with the fault of the first that did not
complete (R194). -/
def sweepGroup (x : Run) (s : State) : State :=
  let mine := s.runs.filter (fun r => r.same x)
  if x.seq && mine.all (·.finished) then
    let status := ((mine.map (·.status)).find? (· ≠ 0)).getD 0
    forAll (groupSessions s x) (fun n => endUnit n status) { s with runs := s.runs.filter (fun r => !r.same x) }
  else s

/-- What follows the end of an instance. -/
def afterRun (x : Run) (s : State) : State :=
  let s := refresh s
  if x.seq then sweepGroup x s
  else if x.cast.isSome then s
  else if (s.stream x.owner).cfg.codec = 2 then sweepBlocks x.owner s
  else settle x.owner s

/-- Start of an evidence crop: the rate control's first QP and budget (R114). -/
def startCrop (c : StreamCfg) (r : Run) : Run := { r with qp := (c.evQpMin + c.evQpMax) / 2, remaining := c.evTarget }

/-- Start the chosen instance. -/
def startRun (u : UnitId) (w : Run) (s : State) : State :=
  let n := runNiche s w
  let s := if n.station = 4 then takeTrackCfg w s else s
  let s := modRun w (fun r => { (if n.station = 6 then startCrop (s.stream w.owner).cfg r else r) with st := .running, startAt := s.now }) (takeF u s)
  let s := traceStart u w n.order s
  match nicheFootprint n with
  | none => s
  | some st =>
    let s := count (ctrCore n.unit 17) 1 s
    let s := if n.safety then detect 7 s else s
    afterRun w (traceEnd u w.ctx w.niche w.don w.band st (faultRun w st s))

/-- NICHE_DISPATCH. -/
def doNicheDispatch (u : UnitId) (s : State) : State :=
  if !live s || !computeUp s then s
  else match choose s u with
    | none => s
    | some (w, g) => if canStart s u w g then startRun u w (settleMarks u w g s) else s

/-! ### Completion -/

/-- The status of a record that reports a skipped Niche. -/
def skipBody (live status : Nat) : List Word := trkBody [] 0 0 0 live status 0

/-- Every Niche of the band's trigger but its Proof casts serves a safety-class stream, and so does every line Niche that shapes tiles of the band (R29,
R333). -/
def safeBand (s : State) (x : Run) : Bool :=
  (runsOf s x.owner x.don).all (fun r => decide (r.band ≠ x.band) || (runNiche s r).safety || (runNiche s r).proof) &&
  (match schedOf s x.ref, picOf (s.stream x.owner) x.don with
   | some t, some p => (stripNiches t x.owner).all (fun k => k.2.safety ||
      (tilePlan (s.stream x.owner).cfg (haloOf s x.ref.arm x.owner) p.h (ShpDesc.ofWords k.2.desc) (fun _ => false)).all (fun e => decide (e.1 ≠ x.band)))
   | _, _ => true)

/-- Crop-list Niches of the band that lead to the TRK Niche: its detections' embeddings come from their batches. -/
def embedders (s : State) (x : Run) : List Run :=
  match schedOf s x.ref with
  | none => []
  | some t => s.runs.filter (fun r => r.same x && decide (r.band = x.band) && decide ((runNiche s r).station = 1) &&
      decide ((ShpDesc.ofWords (runNiche s r).desc).kind = 2) && (reachable s t r false t.niches.length [r.niche]).contains x.niche)

/-- Embedding row `i` comes from a slot at or above VALID_COUNT or from a pad tile (05_shaping.md R131). -/
def padRow (l : List Run) (i : Nat) : Bool := l.any (fun r => decide (r.entries ≤ i) || r.pads.contains i)

/-- The TAE writes a Niche's changes to its commit log (R352, log 156). -/
def logTrk (x : Run) (m : TrkMem) (s : State) : State :=
  { s with recov := { s.recov with taeLog := some { slot := x.owner, don := x.don, band := x.band, held := false, tracks := m.tracks, embs := m.embs } } }

/-- The record of the log has been handed over. -/
def handTrk (s : State) : State := { s with recov := { s.recov with taeLog := s.recov.taeLog.map (fun l => { l with held := true }) } }

/-- Settle the log: one whose record the writer holds is applied, any other is discarded (R352). -/
def settleTrk (s : State) : State :=
  match s.recov.taeLog with
  | none => s
  | some l =>
    let s := { s with recov := { s.recov with taeLog := none } }
    if l.held then { s with tracks := l.tracks, embs := l.embs } else s

/-- A TRK Niche: association and its TRACK_UPDATE, which take effect together (R214, R352). -/
def runTrk (x : Run) (n : NicheEntry) (s : State) : State :=
  let d := TrkDesc.ofWords n.desc
  let st := s.stream x.owner
  let s := modPic x.owner x.don (fun p => { p with trkDone := tput p.trkDone x.band (tget p.trkDone x.band 0 + 1) }) s
  if x.status ≠ 0 then
    bandRecord x.owner false (bandRec x.owner 5 x.don x.band (2 * b2n d.pictureEnd) x.status n.safety (skipBody (liveTracks s.tracks x.owner) x.status)) none s
  else
    let cfg := ((picOf st x.don).bind (·.trkCfg)).getD st.track
    let o := trkRun d cfg st.gen x.don (recT0 s x.owner x.don x.band % 2 ^ 32) (s.core d.detCore).spad (s.core d.embCore).spad (padRow (embedders s x))
      { tracks := s.tracks, embs := s.embs }
    let s := logTrk x o.mem s
    let s := bandRecord x.owner false (bandRec x.owner 5 x.don x.band o.flags o.status (safeBand s x) o.body) none s
    let s := settleTrk (handTrk s)
    count (ctrSlot x.owner 9) o.dropped (count (ctrSlot x.owner 10) o.full (count (ctrSlot x.owner 11) o.omitted s))

/-- Maquette entry index of a stream instance's binding. -/
def entryOf (s : State) (x : Run) : Nat :=
  (((tfind s.armatures x.ref.arm).bind (fun a => slotBinding a ((s.stream x.owner).cfg.codec = 2) x.owner)).map (fun b => b.2.entry)).getD 0

/-- Real tiles of a grid on core `c` for the band of an instance: those of the rows that carry its tag, or of every row of a reference band. -/
def gridTiles (s : State) (x : Run) (d : ShpDesc) (c : Nat) : Nat :=
  let rows := if d.kind = 0 then (match picOf (s.stream x.owner) x.don with
      | some p => ((List.range d.tilesY).filter (fun j => decide (tagOf (s.stream x.owner).cfg (haloOf s x.ref.arm x.owner) p.h d j = x.band))).length
      | none => 0) else d.tilesY
  rows * (((d.spread.find? (fun e => decide (e.1 = c))).map (·.2.length)).getD 0)

/-- A result derived from the slot is ignored: the slot lies at or above VALID_COUNT, or its tag carries PAD = 1 (05_shaping.md R131). -/
def ignoredSlot (s : State) (x : Run) (k : SlotRef) : Bool :=
  let d := ShpDesc.ofWords ((nicheAt s x.ref k.niche).getD default).desc
  if d.kind = 2 then
    match s.runs.find? (fun r => r.same x && decide (r.band = x.band) && decide (r.niche = k.niche)) with
    | some r => padRow [r] k.index
    | none => true
  else decide (gridTiles s x d k.core ≤ k.index)

/-- An output as its record shows it (R195, Table 7.8): ENTRY is the binding's, and no entry comes from a slot at or above VALID_COUNT or from a pad tile
(05_shaping.md R131). -/
def shownOutput (s : State) (x : Run) (o : OutputData) : OutputData :=
  let kept := ((List.range o.entries.length).zip o.entries).filter (fun e => match o.slots.getD e.1 none with | some k => !ignoredSlot s x k | none => true)
  { o with entry := entryOf s x, entries := kept.map (·.2), slots := [] }

/-- ENTRY_BYTES is a multiple of 4 from 4 to 65,532, and every entry has that many bytes (Table 7.8). -/
def outputOk (o : OutputData) : Bool :=
  decide (o.entryBytes % 4 = 0) && inRange o.entryBytes 4 65532 && decide (o.output < 65536) && o.entries.all (fun e => decide (e.length = o.entryBytes))

/-- The record of an audio stream after which its close has nothing left to write (Table 4.8): the other Niches of the stream have finished, and every
block has fired or fires no more. -/
def lastOfAudio (s : State) (x : Run) : Bool :=
  let y := s.stream x.owner
  decide (y.cfg.codec = 2) && (match y.closing with
    | none => false
    | some c => (!c.flush || (y.feeds.isEmpty && decide (y.block = y.firedBlocks))) &&
        s.runs.all (fun r => r.seq || r.cast.isSome || decide (r.owner ≠ x.owner) || r.isRun x || r.finished))

/-- An OUT Niche writes its outputs as BAND_RESULT records (R195, R196). -/
def runOut (x : Run) (r : NicheResult) (s : State) : State :=
  if x.seq then s
  else
    let safe := safeBand s x
    let os := (r.outputs.filter outputOk).map (shownOutput s x)
    forAll ((List.range os.length).zip os) (fun o => writeOutput x.owner x.don x.band x.status safe (decide (o.1 + 1 = os.length) && lastOfAudio s x) o.2) s

/-- An OUT Niche at work: it hands its outputs over once, and while its ring holds records it waits (03_commands.md R54). -/
def stepOut (x : Run) (r : NicheResult) (s : State) : State × Bool :=
  if ringHolds s x then (modRun x (fun q => { q with st := .ready }) s, false)
  else if x.progress = 1 then (s, true)
  else
    let s := modRun x (fun q => { q with progress := 1 }) (runOut x r s)
    if ringHolds s x then (modRun x (fun q => { q with st := .ready }) s, false) else (s, true)

/-- Crop lists a Niche writes for the SHP Niches of its trigger that read them (05_shaping.md R120); how a Niche makes a list out of its results is not
described, so the bytes come with its result (log 109). -/
def writeBoxes (x : Run) (r : NicheResult) (s : State) : State :=
  let lists := (s.runs.filter (fun q => q.same x && decide (q.band = x.band) && decide ((runNiche s q).station = 1))).filterMap (fun q =>
    let d := ShpDesc.ofWords (runNiche s q).desc
    if d.kind = 2 then some d.src else none)
  { s with dram := { s.dram with cells := (r.boxes.filter (fun b => lists.contains b.1 && decide (b.1 + b.2.length ≤ spaceBytes s.dram))).foldl (fun m b => mwrite m b.1 b.2) s.dram.cells } }

/-- The effect of an LC Niche, with false while an SHP Niche waits for a batch buffer or a line Niche, an ENC Niche has slices left, an OUT
Niche waits for its ring, or a Niche of a step waits for the new keys and values. -/
def nicheEffect (x : Run) (n : NicheEntry) (r : NicheResult) (s : State) : State × Bool :=
  if x.seq && n.kv.isSome && !(runBatch s x).kvReady s then (s, false)
  else match n.station with
  | 1 => runShp x n (awaited ((schedOf s x.ref).getD default) x.owner x.niche x.band) s
  | 2 => (writeBoxes x r (applyMx n.unit (MxDesc.ofWords n.indep n.engine n.desc) s), true)
  | 5 => (writeBoxes x r (if x.seq then seqMx (runBatch s x) n.unit n.kv (MxDesc.ofWords true n.engine n.desc) s
                           else applyMx n.unit (MxDesc.ofWords true n.engine n.desc) s), true)
  | 3 => (writeBoxes x r (if x.seq then seqVx (runBatch s x) n.unit n.kv (VxDesc.ofWords n.desc) s else applyVx n.unit (VxDesc.ofWords n.desc) s), true)
  | 4 => (runTrk x n s, true)
  | 6 => (s, x.encDone || decide ((s.stream x.owner).cfg.evMode = 0))
  | 7 => stepOut x r s
  | _ => (s, true)

/-- Core-network copies of a Niche that has written its output (R183). -/
def nicheCopies (s : State) (n : NicheEntry) : List (Nat × Nat × List Byte) :=
  let sp := (s.core n.unit).spad
  match n.station with
  | 2 => let d := MxDesc.ofWords n.indep n.engine n.desc; if d.xchg = 0 then [] else d.copies sp
  | 5 => let d := MxDesc.ofWords true n.engine n.desc; if d.xchg = 0 then [] else d.copies sp
  | 3 => let d := VxDesc.ofWords n.desc; if d.xchg = 0 then [] else d.copies sp
  | _ => []

/-- The Proof cast Niches of the engine's set have all finished (R321, R322). -/
def castDone (s : State) (x : Run) (n : NicheEntry) : Option (Nat × Nat) :=
  if !n.proof then none
  else
    let e := if n.station = 3 then 0 else n.engine
    let mine := s.runs.filter (fun r => r.same x && decide (r.band = x.band) && (runNiche s r).proof && decide ((runNiche s r).unit = n.unit) &&
      (decide ((runNiche s r).station = 2) && decide ((runNiche s r).engine = e) || (decide ((runNiche s r).station = 3) && decide (e = 0))))
    if mine.all (fun r => r.st = .done) then some (n.unit, e) else none

/-- Note a completed Proof cast set; a set Glethes placed leaves the instance table. -/
def noteCast (x : Run) (n : NicheEntry) (s : State) : State :=
  match castDone s x n with
  | none => s
  | some (c, e) =>
    let s := s.modCore c (fun k => { k with castAt := tput k.castAt e s.now,
                                            castDone := e :: k.castDone.filter (fun q => q ≠ e),
                                            castRunning := if x.cast.isSome then k.castRunning.filter (fun q => q ≠ e) else k.castRunning })
    if x.cast.isSome then { s with runs := s.runs.filter (fun r => decide (r.cast ≠ some (c, e))) } else s

/-- Complete an LC instance whose effect has taken place. -/
def endRun (u : UnitId) (x : Run) (n : NicheEntry) (s : State) : State :=
  let copies := nicheCopies s n
  let s := match coreOf u with | some c => count (ctrCore c 18) 1 s | none => s
  let s := traceEnd u x.ctx x.niche (if x.seq then 0 else x.don) x.band x.status s
  let s := modRun x (fun r => { r with st := if copies.isEmpty then .done else .landing }) s
  let s := if copies.isEmpty then s
    else { s with recov := { s.recov with xchgs := s.recov.xchgs ++ [
      { sender := n.unit, ref := x.ref, owner := x.owner, seq := x.seq, don := x.don, niche := x.niche, since := s.now, writes := copies }] } }
  afterRun x (noteCast x n s)

/-- A Niche that consumed an uncorrectable sector (R266, R343). TRK and OUT Niches still write their records, with the fault. -/
def eccRun (u : UnitId) (x : Run) (n : NicheEntry) (r : NicheResult) (s : State) : State :=
  let s := if n.safety then detect (if r.sram then 1 else 2) s else s
  let y := { x with status := stEcc }
  if n.station = 4 then endRun u y n (runTrk y n s)
  else if n.station = 7 then
    let o := stepOut y r (modRun x (fun q => { q with status := stEcc }) s)
    if o.2 then endRun u y n o.1 else o.1
  else afterRun x (traceEnd u x.ctx x.niche (if x.seq then 0 else x.don) x.band stEcc (faultRun x stEcc s))

/-! ### Best-effort Niches -/

/-- The effect of a best-effort Niche on its core (10_work_classes.md R234; 09_sequence.md R224, R228). -/
def applyBe (c : Nat) (u : UnitId) (b : BeJob) (n : OpNiche) (s : State) : State :=
  match b.sess, n.station with
  | some k, 3 => seqVx (jobBatch s k) c n.kv (beVx s c b n) s
  | some k, _ => seqMx (jobBatch s k) c n.kv (beMx s c b u n) s
  | none, 3 => applyVx c (beVx s c b n) s
  | none, _ => applyMx c (beMx s c b u n) s

/-- What a Niche of a TENSOR_RUN writes to device memory, as far as it lies in the output of its command; it stands whatever comes of later Niches (R194).
How an entry's results reach device memory is not described, so the bytes come with the Niche's result (log 119). -/
def writeJobOut (b : BeJob) (r : NicheResult) (s : State) : State :=
  match b.sess, s.entry? b.j, beEntry s b.maq b.entry with
  | none, some e, some x =>
    let first := e.param64 2
    let stop := first + (e.param 4).toNat * x.outBytes
    forAll (r.boxes.filter (fun w => decide (first ≤ w.1) && decide (w.1 + w.2.length ≤ stop))) (fun w => dramWrite w.1 w.2) s
  | _, _, _ => s

/-- A best-effort Niche completes; after its last Niche the job ends. -/
def beComplete (u : UnitId) (b : BeJob) (n : OpNiche) (r : NicheResult) (s : State) : State :=
  match b.core with
  | none => s
  | some c =>
    if r.eccFault then endJob b stEcc (traceEnd u 0xFFFF 0xFFFFFF 0 0xFFF stEcc s)
    else if n.kv.isSome && (match b.sess with | some k => !(jobBatch s k).kvReady s | none => false) then s
    else
      let s := forAll r.released releaseShare (writeJobOut b r (count (ctrCore c 19) 1 (applyBe c u b n s)))
      let s := traceEnd u 0xFFFF 0xFFFFFF 0 0xFFF 0 s
      let s := modJob b (fun x => { x with next := x.next + 1, running := none, tiles := 0, readyAt := s.now, aborts := if b.sess.isSome then x.aborts else 0 }) s
      let last := match beEntry s b.maq b.entry with | some e => decide (e.niches.length ≤ b.next + 1) | none => true
      if last then endJob b stOk s else s

/-- NICHE_COMPLETE; the Niche releases the shares it took of pool buffers (11_memory.md R274). -/
def doNicheComplete (u : UnitId) (r : NicheResult) (s : State) : State :=
  if !live s || !domainUp s || !unitUp s u then s
  else match running s u with
    | some x =>
      let n := runNiche s x
      if s.recov.hung.contains (unitOf n) then s
      else if r.eccFault then eccRun u x n r (forAll r.released releaseShare s)
      else
        let o := nicheEffect x n r s
        if o.2 then endRun u x n (forAll r.released releaseShare o.1) else o.1
    | none => match beOn s u with
      | none => s
      | some b => if s.recov.hung.any (fun v => decide (b.running = some v)) then s else match jobNiche s b with
        | some n => beComplete u b n r s
        | none => s

/-! ### Exchanges (R184, R344) -/

/-- Instance an exchange belongs to. -/
def xchgRun (s : State) (x : Xchg) : Option Run :=
  s.runs.find? (fun r => decide (r.ref = x.ref) && decide (r.owner = x.owner) && decide (r.seq = x.seq) && decide (r.don = x.don) &&
    decide (r.niche = x.niche) && decide (r.st = .landing))

/-- Write the transfers that reach cores that are up. -/
def landWrites (ws : List (Nat × Nat × List Byte)) (s : State) : State :=
  forAll ws (fun w s => if (s.core w.1).resetAt.isSome || s.isFenced w.1 then s
    else s.modCore w.1 (fun k => { k with spad := mwrite k.spad w.2.1 w.2.2 })) s

/-- XCHG_LAND: the oldest transfers from core `c` to core `dst` land; those to other cores go on independently (R184). Transfers that reach a resetting
core are discarded and their Niche counts as aborted; it is done with the last of its transfers. -/
def doXchgLand (c dst : Nat) (s : State) : State :=
  if !domainUp s then s
  else match s.recov.xchgs.find? (fun x => decide (x.sender = c) && x.writes.any (fun w => decide (w.1 = dst))) with
  | none => s
  | some x =>
    let lost := (s.core dst).resetAt.isSome || s.isFenced dst
    let rest := x.writes.filter (fun w => decide (w.1 ≠ dst))
    let run := xchgRun s x
    let left := s.recov.xchgs.flatMap (fun y => if y = x then (if rest.isEmpty || lost then [] else [{ y with writes := rest }]) else [y])
    let s := landWrites (if lost then x.writes.filter (fun w => decide (w.1 ≠ dst)) else x.writes.filter (fun w => decide (w.1 = dst)))
      { s with recov := { s.recov with xchgs := left } }
    match run with
    | none => s
    | some r =>
      if lost then afterRun r (abortRun r stWatchdog s)
      else if rest.isEmpty then afterRun r (modRun r (fun q => { q with st := .done }) s) else s

/-! ### Evidence (R112-R115, Table 4.12) -/

/-- One row of the rate control (R114): QP and remaining bytes before row `row` of `rows`, and the bytes it took. -/
def rateRow (c : StreamCfg) (rows : Nat) (a : Nat × Nat × Nat) (bytes : Nat) : Nat × Nat × Nat :=
  let left := rows - a.2.2
  let qp := if 4 * bytes * left > 5 * a.2.1 then min (a.1 + 2) c.evQpMax
            else if 5 * bytes * left < 4 * a.2.1 then max (a.1 - 1) c.evQpMin else a.1
  (qp, a.2.1 - bytes, a.2.2 + 1)

/-- CTU rows of a crop extended to multiples of 8 samples (R112). -/
def cropRows (h : Nat) : Nat := cdiv (cdiv h 8 * 8) 32

/-- The crop or preview is an IDR picture (R113): every one in mode 1; in mode 2 the first of an identity, every 32nd, and the first after a concealed
picture. -/
def isIdr (x : Stream) (evid don : Nat) : Bool :=
  match x.cfg.evMode, tfind x.previews evid with
  | 2, some (k, last) => decide (k ≥ 32) || x.concealedDons.any (fun c => !donLt c last && donLt c don)
  | _, _ => true

/-- Body of an EVIDENCE record (Table 4.12). -/
def evidenceBody (c : Word × Nat × Nat × Nat × Nat) (slice : Nat) (idr params last : Bool) (payload : List Byte) : List Word :=
  [c.1, dw [(b2n idr, 18, 18), (b2n params, 17, 17), (b2n last, 16, 16), (slice, 15, 0)], dw [(c.2.2.1, 31, 16), (c.2.1, 15, 0)],
   dw [(c.2.2.2.2, 31, 16), (c.2.2.2.1, 15, 0)], w32 payload.length, 0, 0, 0] ++ bytesWords payload

/-- Preview bookkeeping at the end of a crop. -/
def notePreview (evid don : Nat) (idr : Bool) (x : Stream) : Stream :=
  if x.cfg.evMode ≠ 2 then x
  else { x with previews := tput x.previews evid (if idr then 1 else ((tfind x.previews evid).map (·.1)).getD 0 + 1, don) }

/-- The crop a descriptor gives, clipped to the picture (R112): identity, left, top, width, height. -/
def clipCrop (p : Picture) (sl : SliceOut) : Word × Nat × Nat × Nat × Nat :=
  let x0 := max 0 sl.cropX
  let y0 := max 0 sl.cropY
  (sl.evid, x0.toNat, y0.toNat, (min (p.w : Int) (sl.cropX + sl.cropW) - x0).toNat, (min (p.h : Int) (sl.cropY + sl.cropH) - y0).toNat)

/-- A sample of 8 bits: 10-bit samples are rounded (R112). -/
def eightBit (depth v : Nat) : Nat := if depth = 8 then v else min 255 ((v + 2) / 4)

/-- What the encoder reads of a plane: the crop, extended by repeat-edge to multiples of 8 luma samples (R112). -/
def cropPlane (plane : Tab (List Nat)) (depth unit x0 y0 w h : Nat) : List Nat :=
  (List.range (cdiv h 8 * 8 / unit)).flatMap (fun y => (List.range (cdiv w 8 * 8 / unit)).map (fun x =>
    eightBit depth (sampleAt plane depth ((x0 + min (x * unit) (w - 1)) / unit) ((y0 + min (y * unit) (h - 1)) / unit))))

/-- The samples of a crop in the reference store: luma, Cb, Cr. -/
def cropSamples (p : Picture) (c : Word × Nat × Nat × Nat × Nat) : List Nat :=
  cropPlane p.luma p.depth 1 c.2.1 c.2.2.1 c.2.2.2.1 c.2.2.2.2 ++ cropPlane p.cb p.depth 2 c.2.1 c.2.2.1 c.2.2.2.1 c.2.2.2.2 ++
  cropPlane p.cr p.depth 2 c.2.1 c.2.2.1 c.2.2.2.1 c.2.2.2.2

/-- The SHP trigger Niche whose copy an ENC Niche reads for a crop wider or taller than 1,024 samples (R112, log 137): the first of its band that it
follows. -/
def scaledBy (s : State) (x : Run) : Option (Nat × ShpDesc) :=
  match schedOf s x.ref with
  | none => none
  | some t => (s.runs.find? (fun r => r.same x && decide (r.band = x.band) && decide ((runNiche s r).station = 1) &&
      (reachable s t r false t.niches.length [r.niche]).contains x.niche)).map (fun r => (r.niche, ShpDesc.ofWords (runNiche s r).desc))

/-- The crop is encoded from an SHP-scaled copy (R112). -/
def scaledCrop (c : Word × Nat × Nat × Nat × Nat) : Bool := decide (1024 < c.2.2.2.1) || decide (1024 < c.2.2.2.2)

/-- What the encoder reads of a crop: its samples in the reference store, or the batch buffers of the scaled copy. -/
def cropSource (s : State) (x : Run) (p : Picture) (c : Word × Nat × Nat × Nat × Nat) : List Nat :=
  match (if scaledCrop c then scaledBy s x else none) with
  | some (k, d) => d.dests.flatMap (fun q => (mread (s.core q).spad (curBuf s d (ringKey x.ref k) q) d.bufBytes).map (·.toNat))
  | none => cropSamples p c

/-- Height of what is encoded. -/
def cropHeight (s : State) (x : Run) (c : Word × Nat × Nat × Nat × Nat) : Nat :=
  match (if scaledCrop c then scaledBy s x else none) with
  | some (_, d) => d.finalH
  | none => c.2.2.2.2

/-- Payload bytes of a record (R115). -/
def payloadMax : Nat := 130816

/-- CTU rows the slice under way has left (R115): EV_SLICE_ROWS, or what remains of the crop. -/
def rowsLeft (c : StreamCfg) (r : Run) (rows : Nat) : Nat := min (c.evRows - r.sliceRows) (rows - r.rowsDone)

/-- The encoder's record is one the rules allow: all rows of its slice, or a split where the next CTU would pass the payload's limit (R115). -/
def sliceOk (c : StreamCfg) (r : Run) (rows : Nat) (sl : SliceOut) : Bool :=
  decide (sl.bytes ≤ payloadMax) &&
  (match sl.nextCtu with
   | none => decide (sl.rowBytes.length = rowsLeft c r rows)
   | some k => decide (sl.rowBytes.length < rowsLeft c r rows) && decide (payloadMax < sl.bytes + k))

/-- EVIDENCE_SLICE: one record. The first slice of a Niche fixes its crop and whether it is an IDR picture. -/
def doEvidenceSlice (u : Nat) (sl : SliceOut) (s : State) : State :=
  if !live s || !domainUp s then s
  else match running s (.enc u) with
  | none => s
  | some r => match picOf (s.stream r.owner) r.don with
    | none => s
    | some p =>
      let x := s.stream r.owner
      let crop := r.crop.getD (clipCrop p sl)
      let idr := if r.crop.isSome then r.idr else isIdr x crop.1.toNat r.don
      let rows := cropRows (cropHeight s r crop)
      if r.encDone || (sl.slot.map (ignoredSlot s r)).getD false || decide (x.cfg.evMode = 0) || decide (crop.2.2.2.1 = 0) || decide (rows = 0) || !sliceOk x.cfg r rows sl then s
      else
        let a := sl.rowBytes.foldl (rateRow x.cfg rows) (r.qp, r.remaining, r.rowsDone)
        let last := decide (rows ≤ a.2.2)
        let key := [crop.1.toNat, r.progress, r.qp, b2n idr] ++ cropSource s r p crop
        let payload := (List.range sl.bytes).map (Config.freeCoded key)
        let s := bandRecord r.owner false (bandRec r.owner 4 r.don r.band 0 0 (safeBand s r)
          (evidenceBody crop r.progress idr (idr && decide (r.progress = 0)) last payload)) none s
        let s := if last then s.modStream r.owner (notePreview crop.1.toNat r.don idr) else s
        modRun r (fun q => { q with crop := some crop, idr := idr, progress := q.progress + 1, qp := a.1, remaining := a.2.1, rowsDone := a.2.2,
                                    sliceRows := if sl.nextCtu.isSome then q.sliceRows + sl.rowBytes.length else 0, encDone := last }) s

/-! ### RECORD_WRITE (R116-R118) -/

/-- The OUT Niche that is writing records of a band. -/
def outRunning (s : State) (n don band : Nat) : Option Run :=
  (runsOf s n don).find? (fun r => decide (r.st = .running) && decide (r.band = band) && decide ((runNiche s r).station = 7))

/-- Words a record body may have: LEN 2-4,095 (Table 4.9). -/
def bodyOk (body : List Word) : Bool := inRange body.length 1 (8 * 4095 - 8)

/-- Entries of a BAND_RESULT body (07_mapping.md Table 7.8). -/
def bodyOutput (slots : List (Option SlotRef)) (body : List Word) : OutputData :=
  let w (n : Nat) : Word := body.getD n 0
  let k := fld (w 0) 15 0
  let bs := wordsBytes (body.drop 8)
  { output := fld (w 1) 31 16, entry := fld (w 1) 15 0, entryBytes := k, slots := slots,
    entries := (List.range (fld (w 0) 31 16)).map (fun i => (bs.drop (i * k)).take k) }

/-- The unit whose SEQ_RESULT the sequence unit has ready to write: the step that has ended abandoned (R232). -/
def abandonedStep (s : State) (n : Nat) : Option SeqWork :=
  (s.session n).work.filter (fun w => w.items.isEmpty && (decide (w.fault = stLinkDown) || decide (w.fault / 256 = 5)))

/-- RECORD_WRITE (R116): a running OUT Niche hands over a BAND_RESULT ahead of its completion, or the sequence unit the SEQ_RESULT of a step that a fault
has abandoned (09_sequence.md R232). What its fields say is taken from the state: SAFETY from the band's Niches, STATUS from the body or the step, reserved
fields 0. TRACK_UPDATE and EVIDENCE are placed by NICHE_COMPLETE and EVIDENCE_SLICE, the SEQ_RESULT of a step that ran by SEQ_STEP and FED_APPEND,
PICTURE_STATUS and STREAM_EVENT by the stream plane (R118, log 107). -/
def doRecordWrite (r : RecordReq) (s : State) : State :=
  if s.chip.fatal || decide (s.chip.phase ≠ .ready) then s
  else if r.session then
    match abandonedStep s r.context with
    | some w => if decide (r.type = 6) then abandonUnit r.context w s else s
    | none => s
  else match outRunning s r.context r.don.toNat r.band with
    | none => s
    | some x =>
      let o := bodyOutput r.slots r.body
      let status := fld (r.body.getD 3 0) 15 0
      if !(s.stream r.context).isOpen || decide (r.type ≠ 3) || !bodyOk r.body || !outputOk o || decide (o.entry ≠ entryOf s x) || ringHolds s x then s
      else
        let o := shownOutput s x o
        let q := { bandRec r.context 3 x.don r.band (r.typeFlags % 2) status (safeBand s x) (resultBody o (fld (r.body.getD 2 0) 31 16) status o.entries) with don := r.don }
        bandRecord r.context false q (if status = 0 then some o else none) s

def execNicheDispatch (u : UnitId) (s : State) : Host.Outcome State Fault Refusal := .next (doNicheDispatch u s)
def execNicheComplete (u : UnitId) (r : NicheResult) (s : State) : Host.Outcome State Fault Refusal := .next (doNicheComplete u r s)
def execEvidenceSlice (u : Nat) (sl : SliceOut) (s : State) : Host.Outcome State Fault Refusal := .next (doEvidenceSlice u sl s)
/-- `pair`: the sending core and the destination core. -/
def execXchgLand (pair : Nat × Nat) (s : State) : Host.Outcome State Fault Refusal := .next (doXchgLand pair.1 pair.2 s)
def execRecordWrite (r : RecordReq) (s : State) : Host.Outcome State Fault Refusal := .next (doRecordWrite r s)

end Sys2Proof.Machine
end

