-- ==== Sys2Proof/Machine/Observe.lean ====
section
/-! DEFINITION. Observation (16_observation.md): counter freeze, counter images, client accounts, trace settings, drains, samples and
the picture tap. -/

namespace Sys2Proof.Machine

/-! ### Freeze and counters (R360-R365) -/

/-- COUNTER_FREEZE (0x80), R364: results are T_f, or all ones when there is nothing to release. -/
def doCounterFreeze (j : Nat) (s : State) : State :=
  runCmd j 0x80 s (fun e s =>
    let words (t : Nat) : List Word := [w32 t, hi32 t]
    if bit (e.param 0) 0 then
      match s.obs.freeze with
      | none => finish j stOk [0xFFFFFFFF, 0xFFFFFFFF] s
      | some f =>
        let again := decide (s.obs.tickTrig ≠ 0)
        let s := { s with obs := { s.obs with freeze := none, sources := s.obs.tickTrig, trigger := again } }
        finish j stOk (words f.tf) s
    else
      let tf := match s.obs.freeze with | some f => f.tf | none => s.now + 1
      finish j stOk (words tf) (freezeTrigger 0 s))

/-- The image holds a counter at this key; the others of its 8-byte entries are reserved (Tables 16.1-16.3). -/
def ctrUsed (k : Nat) : Bool :=
  if k < 8 then false
  else if k < 520 then decide ((k - 8) % 32 < 21)
  else if k < 2568 then decide ((k - 520) % 16 < 13)
  else if k < 2600 then decide ((k - 2568) % 8 < 7)
  else if k < 2608 then decide (k - 2600 < 2)
  else true

/-- An 8-byte counter entry (R360). -/
def ctrEntry (ctrs : Tab Nat) (epoch : Bool) (k : Nat) : List Byte :=
  if ctrUsed k then
    let v := tget ctrs k 0
    wordsBytes [w32 v, dw [(b2n epoch, 16, 16), (v / 2 ^ 32, 15, 0)]]
  else List.replicate 8 0

/-- Entries of the image after its header: 53,632 bytes in all. -/
def ctrKeys : List Nat := (List.range 6696).map (· + 8)

/-- The COUNTER_READ image, of the snapshot while a freeze is in force (Table 16.1, R363). -/
def counterImage (s : State) : List (List Byte) :=
  let frozen := s.obs.freeze.isSome
  let tick := match s.obs.freeze with | some f => f.tf | none => s.now
  let ctrs := match s.obs.freeze with | some f => f.ctrs | none => s.obs.ctrs0
  let epoch := match s.obs.freeze with | some f => f.epoch | none => s.obs.epoch
  let hdr := [dw [(s.obs.sources, 12, 9), (b2n frozen, 8, 8), (1, 7, 0)], w32 tick, hi32 tick] ++ List.replicate 13 0
  wordsBytes hdr :: ctrKeys.map (ctrEntry ctrs epoch)

/-- Write an image as observation traffic: the write waits for the bucket (R370). -/
def writeObserved (j addr len : Nat) (entries : List (List Byte)) (s : State) : State :=
  writeImage j addr len entries false (takePcie (cutImage entries len).1.length s)

/-- Counters cleared: what was counted since the tick began stays (R361). -/
def ctrsSince (ctrs base : Tab Nat) : Tab Nat :=
  ctrs.map (fun e => (e.1, (e.2 + 2 ^ 48 - tget base e.1 0) % 2 ^ 48))

/-- COUNTER_READ (0x81), R361: the values at the start of the tick; an event of the tick counts after the clear. -/
def doCounterRead (j : Nat) (s : State) : State :=
  runCmd j 0x81 s (fun e s =>
    let im := counterImage s
    let s := if bit (e.param 3) 0 then { s with obs := { s.obs with ctrs := ctrsSince s.obs.ctrs s.obs.ctrs0, ctrs0 := [], epoch := !s.obs.epoch } } else s
    writeObserved j (e.param64 0) (e.param 2).toNat im s)

/-- CLIENT_STATS (0x83), R247, R248: the accounts at the start of the tick, so neither its own wait nor an event of the tick is among them; a
clear leaves what the tick has counted. -/
def doClientStats (j : Nat) (s : State) : State :=
  runCmd j 0x83 s (fun e s =>
    let cl := e.ctx
    let base := tget s.obs.accounts0 cl Account.reset
    let shown := match s.obs.freeze with | some f => tget f.accounts cl Account.reset | none => base
    let s := if bit (e.param 0) 0 then
        { s with obs := { s.obs with accounts := tput s.obs.accounts cl (tget s.obs.accountsTick cl Account.reset), accounts0 := tput s.obs.accounts0 cl Account.reset } }
      else s
    finish j stOk [w32 shown.wait, hi32 shown.wait, w32 shown.preempt, w32 shown.commands] s)

/-- COUNTER_SAMPLE (R366, Table 16.6): live values, SAMPLE_PERIOD ticks after the last sample. -/
def doCounterSample (c : Nat) (s : State) : State :=
  let p := s.obs.trace.period
  if p = 0 || s.obs.trace.mode ≠ 1 then s
  else
    let s := advanceTo (tget s.obs.sampled c 0 + p) s
    let v := (tget s.obs.ctrs (ctrCore c 0) 0 + tget s.obs.ctrs (ctrCore c 1) 0) % 2 ^ 48
    let s := { s with obs := { s.obs with sampled := tput s.obs.sampled c s.now } }
    emit 0x0B c 0xFFFF 0xFFFFFF 0 0xFFF v ((dw [(b2n s.obs.epoch, 16, 16), (v / 2 ^ 32, 15, 0)]).toNat) s

/-! ### Trace (R366-R371) -/

/-- Bytes of the trace ring. -/
def TraceCfg.size (c : TraceCfg) : Nat := 2 ^ c.ringLog2

/-- Free bytes of the trace ring; one 32-byte unit stays free, so that a full ring is told from an empty one (log 51). -/
def traceRoom (o : Obs) : Nat := o.trace.size - 32 - (o.wr + o.trace.size - o.head) % o.trace.size

/-- Read HEAD_ADDR again when the ring lacks room for `need` bytes, at most once in 10 ticks (R368). -/
def readHead (need headRead : Nat) (s : State) : State :=
  let due := match s.obs.headAt with | some t => decide (t + 10 ≤ s.now) | none => true
  if traceRoom s.obs < need && due then
    { s with obs := { s.obs with head := headRead % s.obs.trace.size, headAt := some s.now } }
  else s

/-- Longest run of events from the front of a list within `n` bytes. -/
def takeEvents : Nat → List (List Word) → List (List Word) × List (List Word)
  | _, [] => ([], [])
  | n, e :: es =>
    if 4 * e.length ≤ n then
      let r := takeEvents (n - 4 * e.length) es
      (e :: r.1, r.2)
    else ([], e :: es)

/-- Write bytes at the end of the trace ring, then the tail write-back. -/
def traceWrite (bs : List Byte) (s : State) : State :=
  let c := s.obs.trace
  let s := ringWrite c.ring c.size s.obs.wr bs s
  let s := { s with obs := { s.obs with wr := (s.obs.wr + bs.length) % c.size } }
  hostWords c.tailWb [w32 s.obs.wr, 0] s

/-- Tick of an event, as far as its layout carries it. -/
def eventTick (e : List Word) : Nat := (e.getD 1 0).toNat + (if e.length = 8 then (e.getD 2 0).toNat * 2 ^ 32 else 0)

/-- The buffer's first event is the oldest of all buffers (R368). -/
def oldestBuf (s : State) (b : Nat) : Bool :=
  match tget s.obs.bufs b [] with
  | [] => false
  | e :: _ => s.obs.bufs.all (fun x => match x.2 with | [] => true | f :: _ => decide (eventTick e ≤ eventTick f))

/-- Once a buffer has room for two events, GAP is written for each of its sources that lost events, which sets TRACE (R368). -/
def writeGaps (b : Nat) (s : State) : State :=
  if s.obs.trace.mode ≠ 1 then s
  else forAll (s.obs.lost.filter (fun x => traceBuf x.1 = b && decide (x.2.1 > 0))) (fun x s =>
    let buf := tget s.obs.bufs b []
    if 65536 - evBytes buf < 64 then s
    else
      let g := eventWords 1 false s.now 0x0E x.1 0xFFFF 0xFFFFFF 0 0xFFF x.2.1 x.2.2
      setCause 21 { s with obs := { s.obs with bufs := tput s.obs.bufs b (buf ++ [g]), lost := tdel s.obs.lost x.1 } }) s

/-- Move events of one buffer into the ring, as many as fit. -/
def drainInto (b n : Nat) (s : State) : State :=
  let r := takeEvents (min n (traceRoom s.obs)) (tget s.obs.bufs b [])
  if r.1.isEmpty then s
  else traceWrite (r.1.flatMap wordsBytes) { s with obs := { s.obs with bufs := tput s.obs.bufs b r.2 } }

/-- TRACE_DRAIN: one chunk of at most 2 KiB of the oldest buffer, as ring room and the cap allow (R368, R370). -/
def doTraceDrain (b headRead : Nat) (s : State) : State :=
  if s.obs.trace.mode = 0 || !oldestBuf s b || s.pcie.d3 then s
  else
    let chunk := evBytes (takeEvents 2048 (tget s.obs.bufs b [])).1
    let s := readHead chunk headRead s
    let n := evBytes (takeEvents (min 2048 (traceRoom s.obs)) (tget s.obs.bufs b [])).1
    if n = 0 then s else writeGaps b (drainInto b 2048 (takePcie (n + 8) s))

/-- Drain every local buffer into the old ring; what finds no room is lost (R366, log 52). -/
def drainAll (s : State) : State :=
  if s.obs.trace.mode = 0 then s else forAll (s.obs.bufs.map (·.1)) (fun b s => drainInto b 65536 s) s

/-- Trace settings of TRACE_CONFIG (Table 16.4). -/
def traceOf (e : JEntry) : TraceCfg :=
  { mode := fld (e.param 0) 1 0, ctrl := bit (e.param 0) 8, coreMask := fld (e.param 1) 31 16, classMask := fld (e.param 1) 15 0,
    ring := e.param64 2, ringLog2 := fld (e.param 4) 4 0, tailWb := e.param64 5, headAddr := e.param64 7,
    period := (e.param 9).toNat, tapEn := bit (e.param 10) 31, tapSlot := fld (e.param 10) 22 16, tapEvery := fld (e.param 10) 15 0 }

/-- The settings lie in their ranges (R366). -/
def traceOk (s : State) (c : TraceCfg) : Bool :=
  decide (c.mode ≤ 2) && decide (c.ring % 4096 = 0) && decide (16 ≤ c.ringLog2) && decide (c.ringLog2 ≤ 28) &&
  decide (c.tailWb % 64 = 0) && decide (c.headAddr % 8 = 0) &&
  (decide (c.period = 0) || (decide (1000 ≤ c.period) && decide (c.period ≤ 1000000))) && decide (1 ≤ c.tapEvery) &&
  (!c.tapEn || (decide (c.mode = 1) && (s.stream c.tapSlot).isOpen && decide ((s.stream c.tapSlot).cfg.codec ≠ 2)))

/-- TRACE_CONFIG (0x82), R366. -/
def doTraceConfig (j : Nat) (s : State) : State :=
  runCmd j 0x82 s (fun e s =>
    let c := traceOf e
    if !traceOk s c then finish j stBadParam [] s
    else
      let s := drainAll s
      let s := { s with obs := { s.obs with trace := c, bufs := [], lost := [], wr := 0, head := 0, headAt := none, tapDropped := 0,
                                            sampled := (List.range 16).map (fun k => (k, s.now)) } }
      finish j stOk [] s)

/-! ### The picture tap (R371) -/

/-- Sample `x` of line `y` of a plane; an absent sample is mid-grey. -/
def planeAt (p : Tab (List Nat)) (depth x y : Nat) : Nat := (tget p y []).getD x (2 ^ (depth - 1))

/-- A sample as NV12 or P010 holds it. -/
def tapSample (depth v : Nat) : List Byte := if depth = 8 then [BitVec.ofNat 8 v] else wordPair16 (v * 64)
where
  /-- little-endian halfword -/
  wordPair16 (n : Nat) : List Byte := [BitVec.ofNat 8 n, BitVec.ofNat 8 (n / 256)]

/-- The tap payload of a picture, zero-padded to a multiple of 32 bytes. -/
def tapPayload (p : Picture) : List Byte :=
  let luma := (List.range p.h).flatMap (fun y => (List.range p.w).flatMap (fun x => tapSample p.depth (planeAt p.luma p.depth x y)))
  let chroma := (List.range (p.h / 2)).flatMap (fun y => (List.range (p.w / 2)).flatMap (fun x =>
      tapSample p.depth (planeAt p.cb p.depth x y) ++ tapSample p.depth (planeAt p.cr p.depth x y)))
  let bs := luma ++ chroma
  bs ++ List.replicate ((32 - bs.length % 32) % 32) 0

/-- Every coding row of the picture is reconstructed. -/
def Picture.full (p : Picture) : Bool := decide (cdiv p.h p.ctb ≤ p.rows)

/-- Last tick at which the tap may start to write a picture: T_frame after it was complete (R371). -/
def tapDue (x : Stream) (p : Picture) : Nat := ((p.lineAt.find? (fun l => decide (p.h ≤ l.1))).map (·.2)).getD 0 + tFrame x.cfg

/-- Tick at which the buckets hold the first transfer of `n` payload bytes (R370). -/
def tapStart (n : Nat) (s : State) : Nat :=
  s.now + max (cdiv (min 65536 n - s.obs.pcieBucket) (pcieGain s.pcie)) (cdiv (min 65536 n - s.obs.dramBucket) (dramGain s.dram.rate))

/-- PICTURE_TAP. `written`: the picture is released when this many payload bytes are written. One that cannot start in time is dropped and
counted; until then it waits for ring room. -/
def doPictureTap (don : Word) (written : Option Nat) (headRead : Nat) (s : State) : State :=
  let c := s.obs.trace
  if !c.tapEn || s.pcie.d3 || decide (don.toNat % c.tapEvery ≠ 0) then s
  else match (s.stream c.tapSlot).pics.find? (fun p => p.don = don.toNat) with
    | none => s
    | some p =>
      if p.tapped || !p.full then s
      else
        let mark (s : State) : State :=
          s.modStream c.tapSlot (fun x => { x with pics := x.pics.map (fun q => if q.don = p.don then { q with tapped := true } else q) })
        let body := tapPayload p
        let s := readHead (body.length + 32) headRead s
        let late := decide (tapDue (s.stream c.tapSlot) p < tapStart body.length s)
        let s := if decide (traceRoom s.obs < body.length + 32) && !late then s else mark s
        if traceRoom s.obs < body.length + 32 && !late then s
        else if late then
          count (ctrSlot c.tapSlot 12) 1 { s with obs := { s.obs with tapDropped := (s.obs.tapDropped + 1) % 2 ^ 31 } }
        else
          let s := takePcie (body.length + 40) (takeDram body.length s)
          let body' := match written with
            | none => body
            | some k => body.take k ++ List.replicate (body.length - k) 0
          let cut := match written with | none => 0 | some k => if k < body.length then 2 ^ 31 else 0
          let ev := eventWords 1 false s.now 0x0F 0x20 c.tapSlot 0xFFFFFF don.toNat 0xFFF body.length (cut + s.obs.tapDropped)
          let s := traceWrite (wordsBytes ev ++ body') s
          { s with obs := { s.obs with tapDropped := 0 } }

def execCounterFreeze (j : Nat) (s : State) : Host.Outcome State Fault Refusal := .next (doCounterFreeze j s)
def execCounterRead (j : Nat) (s : State) : Host.Outcome State Fault Refusal := .next (doCounterRead j s)
def execTraceConfig (j : Nat) (s : State) : Host.Outcome State Fault Refusal := .next (doTraceConfig j s)
def execClientStats (j : Nat) (s : State) : Host.Outcome State Fault Refusal := .next (doClientStats j s)
def execCounterSample (c : Nat) (s : State) : Host.Outcome State Fault Refusal := .next (doCounterSample c s)
def execTraceDrain (src headRead : Nat) (s : State) : Host.Outcome State Fault Refusal := .next (doTraceDrain src headRead s)
def execPictureTap (don : Word) (written : Option Nat) (headRead : Nat) (s : State) : Host.Outcome State Fault Refusal :=
  .next (doPictureTap don written headRead s)

end Sys2Proof.Machine
end

