-- ==== Sys2Proof/Machine/Impressions.lean ====
section
/-! DEFINITION. Impressions: what is captured, the store, the boot flash, and IMPRESSION_READ (15_recovery.md R341, R342;
16_observation.md R372-R375). -/

namespace Sys2Proof.Machine

/-! ### Capture (Table 15.3, R372) -/

/-- What a hang or a failed commanded reset is recorded with. -/
structure Hang where
  condition : Nat
  unitCode : Nat
  unit : Nat
  /-- core whose scratchpad, units and counters are captured -/
  core : Option Nat
  /-- units whose queue heads are captured -/
  units : List UnitId
  context : Nat
  station : Nat
  niche : Nat
  order : Nat
  don : Nat
  band : Nat
  /-- ranges of the core's scratchpad that the hung Niche reads or writes -/
  used : List (Nat × Nat)
deriving DecidableEq, Repr, Inhabited

/-- A free word of this capture. -/
def drawn (s : State) (k : Nat) : Word := Config.freeUnitState (s.free + k)

/-- Address of byte `k` of a list of ranges. -/
def addrAt : List (Nat × Nat) → Nat → Nat
  | [], k => k % Config.spadBytes
  | (a, n) :: l, k => if k < n then a + k else addrAt l (k - n)

/-- PART 1: the 16 KiB window around the address the hung Niche last used, some address among its accesses: how far it had come no rule says (log 157). -/
def windowItems (s : State) (c : Nat) (used : List (Nat × Nat)) : List (List Word) :=
  let n := (used.map (·.2)).sum
  let a := addrAt used (if n = 0 then (drawn s 0).toNat else (drawn s 0).toNat % n)
  let start := min ((a - 8192) / 64 * 64) (Config.spadBytes - 16384)
  let sp := (s.core c).spad
  (List.range 16).map (fun i => w32 (start + 1024 * i) :: 0 :: (List.range 256).map (fun k => mreadW sp (start + 1024 * i + 4 * k)))

/-- PART 2: codes and captured values. -/
def unitItem (s : State) (onCore : Bool) : List Word :=
  (if onCore then [1, 2, 3, 4, 5, 6] else [7, 8, 9]).flatMap (fun k => [w32 k, drawn s k])

/-- Ready instances of a unit in the order of R30. -/
def byOrder (s : State) (l : List Run) : List Run :=
  l.foldl (fun r x => r.filter (fun y => decide ((runNiche s y).order ≤ (runNiche s x).order)) ++
    x :: r.filter (fun y => decide ((runNiche s x).order < (runNiche s y).order))) []

/-- Number of a unit among the units of its kind or core. -/
def unitIx : UnitId → Nat
  | .mx _ e => e
  | .vx _ => 4
  | .shp u => u
  | .enc u => u
  | _ => 0

/-- PART 3: queue heads, journal head, ASN counters. -/
def headsItem (s : State) (units : List UnitId) : List Word :=
  units.flatMap (fun u => ((byOrder s (readyFor s u)).take 16).flatMap (fun r =>
    [dw [(Config.freeUnitNo (unitIx u), 31, 25), (b2n (s.marks.contains (u, r.niche)), 24, 24), (r.niche, 23, 0)], 0])) ++
  [w32 s.jpos, hi32 s.jpos] ++
  ([(s.queue 0).asn, (s.queue 1).asn, s.sport.asn, tget s.ringAsn 0 0, tget s.ringAsn 1 0, s.mntAsn]).flatMap (fun a => [a, 0])

/-- LPOS of a stream: the last picture with a final line and its LINE (R19); the block position of an audio stream (R18, R110). -/
def lposOf (x : Stream) : Nat × Nat :=
  if x.cfg.codec = 2 then (x.block, 0)
  else match (x.pics.filter (fun p => decide (0 < p.line))).getLast? with
    | some p => (p.don, p.line)
    | none => (x.lastDon.getD 0, 0)

/-- PART 4: 16 bytes per open stream. -/
def streamsItem (s : State) : List Word :=
  s.openSlots.flatMap (fun n =>
    let x := s.stream n
    let l := lposOf x
    [dw [(x.gen, 23, 16), (n, 15, 0)], w32 l.1, w32 l.2, w32 (b2n x.catchup)])

/-- PART 5: the core's entries of Table 16.2, live (R363). -/
def countersItem (s : State) (c : Nat) : List Word :=
  (List.range 21).flatMap (fun k =>
    let v := tget s.obs.ctrs (ctrCore c k) 0
    [w32 v, dw [(b2n s.obs.epoch, 16, 16), (v / 2 ^ 32, 15, 0)]])

/-- The items of an Impression, each with the cycle of its capture. -/
def captureItems (h : Hang) (s : State) : List (Nat × Nat × List Word) :=
  let parts : List (Nat × List Word) :=
    (match h.core with | some c => (windowItems s c h.used).map (fun w => (1, w)) | none => []) ++
    [(2, unitItem s h.core.isSome), (3, headsItem s h.units), (4, streamsItem s)] ++
    (match h.core with | some c => [(5, countersItem s c)] | none => [])
  ((List.range parts.length).zip parts).map (fun x => (x.2.1, (drawn s (16 + x.1)).toNat % 2048, x.2.2))

/-- Begin the capture of an incident that the reset of unit (`code`, `unit`) will answer (R341). -/
def beginIncident (h : Hang) (code unit : Nat) (s : State) : State :=
  let n := s.recov.incidents + 1
  let imp : Impression :=
    { incident := n, detect := s.now, condition := h.condition, unitCode := h.unitCode, finalUnit := code, outcome := 3, unit := h.unit,
      context := h.context, station := h.station, niche := h.niche, order := h.order, don := h.don, band := h.band, capture := s.now,
      items := captureItems h s }
  { s with free := s.free + 64, recov := { s.recov with
      incidents := n, captures := s.recov.captures ++ [(imp, code, unit)], incs := s.recov.incs ++ [(n, code, unit)] } }

/-! ### Bytes (Table 16.7) -/

/-- One item with its head. -/
def itemWords (x : Nat × Nat × List Word) : List Word := [dw [(x.1, 31, 24), (x.2.1, 10, 0)], w32 (4 * x.2.2.length)] ++ x.2.2

/-- The header with a CRC field. -/
def impHeader (i : Impression) (crc : Word) : List Word :=
  [dw [(0x494D, 31, 16), (1, 15, 8)], w32 i.incident, w32 i.detect, hi32 i.detect,
   dw [(i.condition, 31, 24), (i.unitCode, 23, 16), (i.finalUnit, 15, 8), (i.outcome, 7, 0)], dw [(i.unit, 31, 16), (i.context, 15, 0)],
   dw [(i.station, 26, 24), (i.niche, 23, 0)], dw [(i.order, 23, 0)], w32 i.don, dw [(i.band, 31, 20)], w32 i.capture, hi32 i.capture,
   w32 (64 + 4 * (i.items.flatMap itemWords).length), dw [(i.items.length, 15, 0)], 0, crc]

/-- The header of an Impression as it stands. -/
def impHead (i : Impression) : List Word := impHeader i (crcWords (impHeader i 0 ++ i.items.flatMap itemWords))

/-- An Impression as entries: its header, then its items. -/
def impEntries (i : Impression) : List (List Byte) := wordsBytes (impHead i) :: i.items.map (fun x => wordsBytes (itemWords x))

/-! ### Store and flash (R342, R375) -/

/-- Slot of the Impression store that incident `n` takes: slot 0 keeps the first. -/
def storeSlot (n : Nat) : Nat := if n = 1 then 0 else 1 + (n - 2) % 127

/-- Impression of an incident that the store still holds. -/
def heldImp (s : State) (n : Nat) : Option Impression :=
  match tfind s.recov.store (storeSlot n) with
  | some i => if i.incident = n then some i else none
  | none => none

/-- Change an incident's Impression, captured or stored. -/
def modImp (n : Nat) (f : Impression → Impression) (s : State) : State :=
  { s with recov := { s.recov with
      captures := s.recov.captures.map (fun x => if x.1.incident = n then (f x.1, x.2) else x)
      store := s.recov.store.map (fun e => if e.2.incident = n then (e.1, f e.2) else e) } }

/-- Plinth keeps a header of every Impression, and copies of those that end with a fencing or FATAL (R375). -/
def keepFlash (i : Impression) (s : State) : State :=
  let r := s.recov
  let bad := i.outcome = 1 || decide (i.outcome = 2)
  { s with recov := { r with
      log := tput r.log r.logNext i, logNext := (r.logNext + 1) % 256
      copies := if bad then tput r.copies (if r.kept = 0 then 0 else 1 + (r.kept - 1) % 3) i else r.copies
      kept := if bad then r.kept + 1 else r.kept } }

/-- Impression of an incident, captured or stored. -/
def findImp (s : State) (n : Nat) : Option Impression :=
  match s.recov.captures.find? (fun x => x.1.incident = n) with
  | some x => some x.1
  | none => heldImp s n

/-- The incident's last unit and its outcome. -/
def settleInc (n code outcome : Nat) (s : State) : State :=
  let s := modImp n (fun i => { i with finalUnit := code, outcome := outcome }) s
  let s := { s with recov := { s.recov with incs := s.recov.incs.filter (fun x => x.1 ≠ n) } }
  match findImp s n with
  | some i => keepFlash i s
  | none => s

/-- Image of the failure log. -/
def logEntries (s : State) : List (List Byte) :=
  (List.range 256).map (fun k => match tfind s.recov.log k with
    | some i => wordsBytes (impHead i)
    | none => (List.range 64).map (fun b => Config.freeFlash (64 * k + b)))

/-- What PARAM3 of an IMPRESSION_READ names. -/
def readTarget (s : State) (ix : Nat) : Option (List (List Byte)) :=
  if ix = 0xFFFFFFFF then some (logEntries s)
  else if 0x80000000 ≤ ix ∧ ix ≤ 0x80000003 then (tfind s.recov.copies (ix - 0x80000000)).map impEntries
  else if ix = 0 then none
  else (heldImp s ix).map impEntries

/-- Bytes of the Impression store each of its 128 slots takes (11_memory.md R254, log 126). -/
def storePitch : Nat := 73728

/-- The Impression of an incident lies in an uncorrectable sector of the store (R266); the log and the copies lie in flash. -/
def impBad (s : State) (ix : Nat) (l : List (List Byte)) : Bool :=
  decide (ix < 0x80000000) && dataBad s (88 * mib + storeSlot ix * storePitch) 0 l.flatten.length

/-- IMPRESSION_READ (0x93): observation traffic (R370); on an active maintenance port it completes at once. -/
def doImpressionRead (src : TestSrc) (s : State) : State :=
  match src with
  | .journal j => runCmd j 0x93 s (fun e s =>
      match readTarget s (e.param 3).toNat with
      | none => finish j stBadParam [] s
      | some l =>
        if impBad s (e.param 3).toNat l then finish j stEcc [] s
        else writeObserved j (e.param64 0) (e.param 2).toNat l s)
  | .maintenance pkt =>
    if !(maintenanceUp s && decide (fld (pkt.getD 0 0) 7 0 = 0x93)) || s.pcie.d3 then s
    else maintenance pkt s (fun e s =>
      match staticCheck s.link.chip e with
      | some st => (st, [], s)
      | none => match readTarget s (e.param 3).toNat with
        | none => (stBadParam, [], s)
        | some l =>
          if impBad s (e.param 3).toNat l then (stEcc, [], s) else
          let c := cutImage l (e.param 2).toNat
          let s := hostWrite (e.param64 0) c.1 (takePcie c.1.length s)
          (if c.2.2 then stTruncated else stOk, [w32 c.1.length], s))

def execImpressionRead (src : TestSrc) (s : State) : Host.Outcome State Fault Refusal := .next (doImpressionRead src s)

end Sys2Proof.Machine
end

