-- ==== Sys2Proof/Machine/Pins.lean ====
section
/-! DEFINITION. Pins and PMBus (19_pins.md): the power cap, temperature reads, the thermal trip, the global trigger input. -/

namespace Sys2Proof.Machine

/-- PMBus answers: not while the thermal trip has stopped every output (R401, R403). -/
def pmbus (s : State) (body : State → State) : State :=
  if s.chip.phase = .thermal then s else body s

/-- A PMBus read returns bytes; a NACK returns none. -/
def pmAnswer (bs : Option (List Byte)) (s : State) : State := { s with pcie := { s.pcie with rdata := bs, rpoison := false } }

/-- Two bytes of a word, low first. -/
def wordPair (n : Nat) : List Byte := [BitVec.ofNat 8 n, BitVec.ofNat 8 (n / 256)]

/-- The f announced follows the f in force, with a POWER_CAP event in the tick it changes (R402); each core takes it at its next
Niche boundary (R39). -/
def applyCap (s : State) : State :=
  let f := fInForce s
  if f = s.chip.fNow then s
  else
    let old := s.chip.fNow
    emit 0x0C 0x24 0xFFFF 0xFFFFFF 0 0xFFF f old { s with chip := { s.chip with fNow := f, fPast := (s.now, old) :: s.chip.fPast } }

/-- n lies in 128-256 (R402). -/
def capOk (n : Nat) : Bool := decide (128 ≤ n) && decide (n ≤ 256)

/-- CAP_F (0xD0). -/
def doCapF (w : Option Nat) (s : State) : State :=
  pmbus s (fun s => match w with
    | none => pmAnswer (some (wordPair s.chip.capF)) s
    | some v =>
      let n := v % 512
      if capOk n then applyCap (pmAnswer (some []) { s with chip := { s.chip with capF := n } }) else pmAnswer none s)

/-- CAP_PIN_F (0xD1). -/
def doCapPinF (w : Option Nat) (s : State) : State :=
  pmbus s (fun s => match w with
    | none => pmAnswer (some (wordPair s.chip.capPinF)) s
    | some v =>
      let n := v % 512
      if capOk n then applyCap (pmAnswer (some []) { s with chip := { s.chip with capPinF := n } }) else pmAnswer none s)

/-- CAP_ACTIVE (0xD2). -/
def doCapActive (s : State) : State := pmbus s (fun s => pmAnswer (some (wordPair (fInForce s))) s)

/-- OT_WARN (0xD3): 60-100 °C. -/
def doOtWarn (w : Option Nat) (s : State) : State :=
  pmbus s (fun s => match w with
    | none => pmAnswer (some (wordPair s.chip.otWarn)) s
    | some v =>
      if 60 ≤ v && decide (v ≤ 100) then pmAnswer (some []) { s with chip := { s.chip with otWarn := v } } else pmAnswer none s)

/-- CAP_n sampled at a level (R402). -/
def doCapN (level : Bool) (s : State) : State := applyCap { s with chip := { s.chip with capPin := level } }

/-- CLEAR_FAULTS (0x03): a latched bit clears unless its condition held in the last sample; PMB_ALERT_n rises when none remains (R403). -/
def doClearFaults (s : State) : State :=
  pmbus s (fun s =>
    let c := s.chip
    let limit : Int := if c.industrial then 105000 else 100000
    let fault := c.otFault && decide (c.temp > limit)
    let warn := c.otWarned && decide (c.temp > (c.otWarn : Int) * 1000)
    pmAnswer (some []) { s with chip := { c with otFault := fault, otWarned := warn, alertN := !(fault || warn) } })

/-- STATUS_TEMPERATURE (0x7D). -/
def doStatusTemperature (s : State) : State :=
  pmbus s (fun s => pmAnswer (some [BitVec.ofNat 8 (128 * b2n s.chip.otFault + 64 * b2n s.chip.otWarned)]) s)

/-- LINEAR11 of a temperature in thousandths of a degree: exponent −3, mantissa rounded down, as PMBus 1.3 lays it out (log 25). -/
def linear11 (milliC : Int) : Nat :=
  let y := (milliC * 8) / 1000
  (unsigned 5 (-3)) * 2048 + unsigned 11 y

/-- READ_TEMPERATURE_1 (0x8D). -/
def doReadTemperature1 (s : State) : State := pmbus s (fun s => pmAnswer (some (wordPair (linear11 s.chip.temp))) s)

/-- PMBUS_REVISION (0x98). -/
def doPmbusRevision (s : State) : State := pmbus s (fun s => pmAnswer (some [0x33]) s)

/-- THERMTRIP (R401): outputs no longer driven rest at the level of their pull (R400, R403), and no Keastan port sends or answers any more. -/
def doThermtrip (s : State) : State :=
  { s with chip := { s.chip with phase := .thermal, thermN := false, faultN := false, alertN := true }, safety := { s.safety with safeN := false },
           obs := { s.obs with trigOut := false }, link := { s.link with ports := [] } }

/-- TRIG_IN: a rising edge triggers a freeze; ignored before start-up is done (R362, R391). -/
def doTrigIn (s : State) : State := if s.chip.phase = .ready then freezeTrigger 1 s else s

def execCapF (w : Option Nat) (s : State) : Host.Outcome State Fault Refusal := .next (doCapF w s)
def execCapPinF (w : Option Nat) (s : State) : Host.Outcome State Fault Refusal := .next (doCapPinF w s)
def execCapActive (s : State) : Host.Outcome State Fault Refusal := .next (doCapActive s)
def execOtWarn (w : Option Nat) (s : State) : Host.Outcome State Fault Refusal := .next (doOtWarn w s)
def execCapN (level : Bool) (s : State) : Host.Outcome State Fault Refusal := .next (doCapN level s)
def execClearFaults (s : State) : Host.Outcome State Fault Refusal := .next (doClearFaults s)
def execStatusTemperature (s : State) : Host.Outcome State Fault Refusal := .next (doStatusTemperature s)
def execReadTemperature1 (s : State) : Host.Outcome State Fault Refusal := .next (doReadTemperature1 s)
def execPmbusRevision (s : State) : Host.Outcome State Fault Refusal := .next (doPmbusRevision s)
def execThermtrip (s : State) : Host.Outcome State Fault Refusal := .next (doThermtrip s)
def execTrigIn (s : State) : Host.Outcome State Fault Refusal := .next (doTrigIn s)

end Sys2Proof.Machine
end

