-- ==== Sys2Proof/Machine/Recovery.lean ====
section
/-! DEFINITION. Hangs, engine and core resets, FATAL (15_recovery.md R336-R349). -/

namespace Sys2Proof.Machine

/-! ### Units and requests (Table 15.1, R338) -/

/-- Unit `a` is unit `b` or lies inside it: (code, number). -/
def inside (a b : Nat × Nat) : Bool :=
  decide (b.1 = 3) || (decide (b.1 = 2) && ((decide (a.1 = 2) && decide (a.2 = b.2)) || (decide (a.1 = 1) && decide (a.2 / 4 = b.2)))) ||
  (decide (b.1 = 1) && decide (a = b))

/-- Core of an engine or core unit. -/
def unitCore (code n : Nat) : Nat := if code = 1 then n / 4 else n

/-- A reset of the unit, or of one that contains it, is requested or in progress. -/
def resetting (s : State) (code n : Nat) : Bool :=
  s.recov.domainAt.isSome || s.recov.requests.any (fun r => inside (code, n) (r.1, r.2.1)) ||
  (decide (code ≤ 2) && (s.core (unitCore code n)).resetAt.isSome) ||
  (decide (code = 1) && (tfind (s.core (n / 4)).engineReset (n % 4)).isSome)

/-- A reset of a larger unit than this one is requested, or an Impression is being captured for it. -/
def escalating (s : State) (code n : Nat) : Bool :=
  s.recov.captures.any (fun x => decide (code < x.2.1) && inside (code, n) x.2) ||
  s.recov.requests.any (fun r => decide (code < r.1) && inside (code, n) (r.1, r.2.1))

/-- The unit executes a Niche with SAFETY = 1 in the schedule in force (14_safety.md R317). -/
def safetyUnit (s : State) (code n : Nat) : Bool :=
  match code with
  | 1 => safetyOnEngine s (n / 4) (n % 4)
  | 2 => safetyOnCore s n
  | _ => safetyInDomain s

/-- Request a reset: one already requested or in progress is joined. -/
def requestReset (code n : Nat) (s : State) : State :=
  if resetting s code n then s
  else resetTrip (safetyUnit s code n) { s with recov := { s.recov with requests := s.recov.requests ++ [(code, n, s.now)] } }

/-- Tick at which the reset of a unit was requested. -/
def requested (s : State) (code n : Nat) : Option Nat :=
  (s.recov.requests.find? (fun r => decide (r.1 = code) && decide (r.2.1 = n))).map (fun r => r.2.2)

/-- Drop the requests that a reset of the unit absorbs. -/
def absorb (code n : Nat) (s : State) : State :=
  { s with recov := { s.recov with requests := s.recov.requests.filter (fun r => !inside (r.1, r.2.1) (code, n)) } }

/-- RESET trace event. -/
def traceReset (code n : Nat) (s : State) : State := emit 0x09 0x24 0xFFFF 0xFFFFFF 0 0xFFF code n s

/-! ### FATAL (R345, 13_host_endpoint.md R309) -/

/-- Set DEVICE_STATUS.FATAL. -/
def setFatal (s : State) : State :=
  if s.chip.fatal then s
  else detect 14 (setCause 20 (uncorLog 22 [3, w32 s.now, 0, 0] { s with chip := { s.chip with fatal := true, faultN := false } }))

/-- A compute-domain reset ends in FATAL, and with it every open incident, whose units it contains (R341, R345). -/
def domainFatal (s : State) : State := setFatal (forAll s.recov.incs (fun x s => settleInc x.1 3 2 s) s)

/-! ### The end of a reset -/

/-- Complete the commanded resets of units inside the unit whose reset ended. -/
def endWaiters (code n : Nat) (s : State) : State :=
  let mine := s.recov.waiters.filter (fun w => inside (w.code, w.unit) (code, n))
  let s := { s with recov := { s.recov with waiters := s.recov.waiters.filter (fun w => !inside (w.code, w.unit) (code, n)) } }
  forAll mine (fun w s =>
    if decide (w.code ≤ 2) && s.isFenced (unitCore w.code w.unit) then finish w.j stFenced [] s
    else finish w.j stOk [w32 (if w.during then 0 else s.now - w.start)] s) s

/-- The reset of a unit ended with this outcome; sessions whose work it had stopped send their layers again (12_links.md Table 12.7). -/
def endReset (code n outcome : Nat) (s : State) : State :=
  let mine := s.recov.incs.filter (fun x => inside x.2 (code, n))
  layersAgain (fun u => unitUp s u || (coreOf u).any s.isFenced) (endWaiters code n (forAll mine (fun x s => settleInc x.1 code outcome s) s))

/-- An incident of no hang: a commanded reset that failed; its window lies anywhere in the scratchpad. -/
def failedReset (code n : Nat) : Hang :=
  let c := unitCore code n
  { condition := 8, unitCode := code, unit := n, core := some c, units := enginesOf c ++ [.vx c], context := 0xFFFF, station := 0,
    niche := 0xFFFFFF, order := 0, don := 0, band := 0xFFF, used := [] }

/-- A reset that failed leads to the reset of a larger unit: the open incident takes it over, else one begins (R337, R341). -/
def escalate (code n code2 n2 : Nat) (s : State) : State :=
  let mine := s.recov.incs.filter (fun x => inside x.2 (code, n))
  if mine.isEmpty then beginIncident (failedReset code n) code2 n2 s
  else
    let s := { s with recov := { s.recov with incs := s.recov.incs.map (fun x => if inside x.2 (code, n) then (x.1, code2, n2) else x) } }
    requestReset code2 n2 (forAll mine (fun x s => modImp x.1 (fun i => { i with finalUnit := code2 }) s) s)

/-! ### Work hit by a reset (R343, R344) -/

/-- Abort what is in progress on a unit. -/
def stopUnit (u : UnitId) (s : State) : State :=
  let s := { s with recov := { s.recov with hung := s.recov.hung.filter (fun v => decide (v ≠ u)) } }
  let s := match running s u with
    | some x => afterRun x (abortRun x stWatchdog (traceEnd u x.ctx x.niche (if x.seq then 0 else x.don) x.band stWatchdog s))
    | none => s
  forAll (s.jobs.filter (fun b => b.holds s u)) (fun b s => abortJob b stWatchdog (traceEnd u 0xFFFF 0xFFFFFF 0 0xFFF stWatchdog s)) s

/-- The exchanges of a resetting sender never land; their Niches count as aborted. -/
def dropExchanges (c : Nat) (s : State) : State :=
  let mine := s.recov.xchgs.filter (fun x => x.sender = c)
  let runs := mine.filterMap (xchgRun s)
  let s := { s with recov := { s.recov with xchgs := s.recov.xchgs.filter (fun x => x.sender ≠ c) } }
  forAll runs (fun r s => afterRun r (abortRun r stWatchdog s)) s

/-- Clear the accumulator bank of an engine. -/
def clearBank (e : Nat) (acc : Tab Word) : Tab Word := acc.filter (fun x => decide (x.1 / 49152 ≠ e))

/-! ### Engine reset -/

/-- ENGINE_RESET. -/
def doEngineReset (c e : Nat) (s : State) : State :=
  match requested s 1 (4 * c + e) with
  | none => s
  | some t =>
    if !live s || !domainUp s || (s.core c).resetAt.isSome then s
    else
      let s := absorb 1 (4 * c + e) s
      let s := s.modCore c (fun k => { k with engineReset := tput k.engineReset e t, acc := clearBank e k.acc })
      stopUnit (.mx c e) (traceReset 1 (4 * c + e) s)

/-- Engine reset in progress that can end now. -/
def engineEnding (s : State) (c e : Nat) : Option Nat :=
  if !live s || !domainUp s || escalating s 1 (4 * c + e) then none else tfind (s.core c).engineReset e

/-- ENGINE_RESET_END, within 50 µs of the request. -/
def doEngineResetEnd (c e : Nat) (pass : Bool) (s : State) : State :=
  match engineEnding s c e with
  | none => s
  | some t =>
    if s.now > t + 50 then s
    else if pass then endReset 1 (4 * c + e) 0 (s.modCore c (fun k => { k with engineReset := tdel k.engineReset e }))
    else escalate 1 (4 * c + e) 2 c s

/-- ENGINE_RESET_TIMEOUT. -/
def doEngineResetTimeout (c e : Nat) (s : State) : State :=
  match engineEnding s c e with
  | none => s
  | some t => escalate 1 (4 * c + e) 2 c (advanceTo (t + 51) s)

/-! ### Core reset, fencing (R347, R348) -/

/-- CORE_RESET: resets of its engines are absorbed. -/
def doCoreReset (c : Nat) (s : State) : State :=
  match requested s 2 c with
  | none => s
  | some t =>
    if !live s || !domainUp s then s
    else
      let s := absorb 2 c s
      let s := s.modCore c (fun k => { k with resetAt := some t, engineReset := [], acc := [], weights := none })
      let s := { s with marks := s.marks.filter (fun m => decide (coreOf m.1 ≠ some c)) }
      dropExchanges c (forAll (enginesOf c ++ [.vx c]) stopUnit (traceReset 2 c s))

/-- A unit whose Niches were running waits to be released again. -/
def rewaitUnit (x : Session) : Session :=
  { x with work := x.work.map (fun w => if w.phase = .running then { w with phase := .ready } else w) }

/-- No precomputed schedule remains: trigger Niches and pack groups stop, and the streams' pictures go on as unbound ones (07_mapping.md
R191). -/
def stopSchedules (s : State) : State :=
  if !s.noSched then s
  else
    let s := { s with runs := [], packs := [], recov := { s.recov with xchgs := [] },
                      sessions := s.sessions.map (fun e => (e.1, if e.2.be then e.2 else rewaitUnit e.2)),
                      streams := s.streams.map (fun e => (e.1, { e.2 with pics := e.2.pics.map (fun p => { p with sched := none, bound := false }) })) }
    forAll s.openSlots settle s

/-- Niches bound to a fenced core that have not run are skipped with CORE_FENCED; best-effort work there starts again elsewhere. -/
def leaveCore (c : Nat) (s : State) : State :=
  let bound_ (s : State) (r : Run) : Bool := (r.st = .waiting || r.st = .ready) && decide (coreOf (unitOf (runNiche s r)) = some c)
  let hit := s.runs.filter (bound_ s)
  let s := { s with runs := s.runs.filter (fun r => match r.cast with | some x => decide (x.1 ≠ c) | none => true) }
  let s := forAll hit (fun x s => match s.runs.find? (fun r => r.isRun x) with
    | some r => if bound_ s r then afterRun r (skipFrom r stFenced false s) else s
    | none => s) s
  forAll (s.jobs.filter (fun b => b.core = some c)) restartJob s

/-- A failed core reset: fencing at the second failure, else a compute-domain reset. -/
def coreFailed (c : Nat) (s : State) : State :=
  let s := s.modCore c (fun k => { k with failed := k.failed + 1 })
  if (s.core c).failed ≥ 2 then endReset 2 c 1 (leaveCore c (stopSchedules (fence c s)))
  else escalate 2 c 3 0 s

/-- Core reset in progress that can end now. -/
def coreEnding (s : State) (c : Nat) : Option Nat :=
  if !live s || !domainUp s || escalating s 2 c then none else (s.core c).resetAt

/-- CORE_RESET_END, within 200 µs of the request. -/
def doCoreResetEnd (c : Nat) (pass : Bool) (s : State) : State :=
  match coreEnding s c with
  | none => s
  | some t =>
    if s.now > t + 200 then s
    else if pass then endReset 2 c 0 (s.modCore c (fun k => { k with resetAt := none }))
    else coreFailed c s

/-- CORE_RESET_TIMEOUT. -/
def doCoreResetTimeout (c : Nat) (s : State) : State :=
  match coreEnding s c with
  | none => s
  | some t => coreFailed c (advanceTo (t + 201) s)

/-! ### Hangs (R338-R341, Table 15.2) -/

/-- The incident is known: captured, or its reset requested or in progress. -/
def hangKnown (s : State) (h : Hang) (code n : Nat) : Bool :=
  resetting s code n || s.recov.captures.any (fun x => decide (x.1.condition = h.condition) && decide (x.1.unitCode = h.unitCode) &&
    decide (x.1.unit = h.unit))

/-- A hang answered by the reset of unit (`code`, `n`). -/
def hang (h : Hang) (code n : Nat) (s : State) : State := if hangKnown s h code n then s else beginIncident h code n s

/-- Incident of another engine of the core detected at most 50 µs ago (R338). -/
def nearIncident (s : State) (c e : Nat) : Option Nat :=
  ((s.recov.captures.map (·.1) ++ s.recov.store.map (·.2)).find? (fun i =>
    decide (i.condition = 1) && (decide (i.finalUnit = 1) || (decide (i.finalUnit = 2) && s.recov.incs.any (fun x => x.1 = i.incident))) &&
    decide (i.unit / 4 = c) && decide (i.unit ≠ 4 * c + e) && decide (s.now ≤ i.detect + 50))).map (·.incident)

/-- The second of two engine hangs of a core, or a further one: one core reset, no second Impression. -/
def joinHang (n c : Nat) (s : State) : State :=
  let s := modImp n (fun i => { i with finalUnit := 2, outcome := 3 }) s
  let held := s.recov.captures.any (fun x => x.1.incident = n)
  let s := { s with recov := { s.recov with
      captures := s.recov.captures.map (fun x => if x.1.incident = n then (x.1, 2, c) else x)
      incs := s.recov.incs.filter (fun x => x.1 ≠ n) ++ [(n, 2, c)] } }
  if held then s else requestReset 2 c s

/-- A hang on matrix engine `e` of core `c`. -/
def engineHang (h : Hang) (c e : Nat) (s : State) : State :=
  if hangKnown s h 1 (4 * c + e) then s
  else match nearIncident s c e with
    | some n => joinHang n c s
    | none => beginIncident h 1 (4 * c + e) s

/-- The first reset that answers a hung Niche of unit `u`. -/
def answerHang (u : UnitId) (h : Hang) (s : State) : State :=
  let s := if u = .out then s else { s with recov := { s.recov with hung := s.recov.hung.filter (fun v => decide (v ≠ u)) ++ [u] } }
  match u with
  | .mx c e => engineHang { h with condition := 1, unitCode := 1, unit := 4 * c + e, core := some c, units := enginesOf c ++ [.vx c] } c e s
  | .vx c => hang { h with condition := 2, unitCode := 2, unit := c, core := some c, units := enginesOf c ++ [.vx c] } 2 c s
  | .out => setFatal s
  | _ => hang { h with condition := 6, unitCode := 3, unit := unitIx u, core := none, units := [u] } 3 0 s

/-- Ranges of a core's scratchpad among extents. -/
def usedOn (c : Option Nat) (l : List Extent) : List (Nat × Nat) := (l.filter (fun x => decide (c = some x.1))).map (fun x => x.2)

/-- What an incident records of an LC instance. -/
def runHang (s : State) (x : Run) : Hang :=
  let n := runNiche s x
  { condition := 0, unitCode := 0, unit := 0, core := none, units := [], context := x.ctx, station := n.station, niche := x.niche,
    order := n.order, don := if x.seq then 0 else x.don, band := x.band, used := usedOn (coreOf (unitOf n)) (nicheExtents n) }

/-- What an incident records of a best-effort Niche. -/
def beHang (s : State) (u : UnitId) (b : BeJob) (n : OpNiche) : Hang :=
  let c := (coreOf u).getD 0
  let used := if n.station = 3 then (beVx s c b n).reads ++ (beVx s c b n).writes else (beMx s c b u n).reads ++ (beMx s c b u n).writes
  { condition := 0, unitCode := 0, unit := 0, core := none, units := [], context := b.sess.getD 0xFFFF, station := n.station, niche := 0xFFFFFF,
    order := 0, don := 0, band := 0xFFF, used := used }

/-- Some unit of the reset that answers a hang on `u` already answers for it. -/
def unitDown (s : State) (u : UnitId) : Bool :=
  match u with
  | .mx c e => resetting s 1 (4 * c + e)
  | .vx c => resetting s 2 c
  | _ => resetting s 3 0

/-- NICHE_WATCHDOG: the count exceeds WDOG_TICKS (R339); ticks of a pause do not count. -/
def doNicheWatchdog (u : UnitId) (s : State) : State :=
  if !live s || !domainUp s || unitDown s u then s
  else match running s u with
    | some x =>
      let n := runNiche s x
      if unitOf n ≠ u then s
      else
        let s := advanceTo (x.startAt + n.wdog + 1) s
        answerHang u (runHang s x) (if n.safety then detect 6 s else s)
    | none => match beOn s u with
      | none => s
      | some b => match jobNiche s b with
        | some n => if b.running ≠ some u then s else answerHang u (beHang s u b n) (advanceTo (b.runAt + b.pausedTicks + n.wdog + 1) s)
        | none => s

/-- XCHG_HANG: an exchange of core `c` has not landed 100 µs after its Niche completed. -/
def doXchgHang (c : Nat) (s : State) : State :=
  if !live s || !domainUp s then s
  else match s.recov.xchgs.find? (fun x => x.sender = c) with
    | none => s
    | some x =>
      let s := advanceTo (x.since + 100) s
      let n := (nicheAt s x.ref x.niche).getD default
      hang { condition := 3, unitCode := 2, unit := c, core := some c, units := enginesOf c ++ [.vx c],
             context := if x.seq then 0xFFFF else x.owner, station := n.station, niche := x.niche, order := n.order,
             don := if x.seq then 0 else x.don, band := if x.seq then 0xFFF else ((xchgRun s x).map (·.band)).getD 0xFFF
             used := usedOn (some c) (nicheExtents n) } 2 c s

/-- A hang of the stream plane or a shaping unit on a stream. -/
def streamHang (cond unit slot don band : Nat) (s : State) : State :=
  hang { condition := cond, unitCode := 3, unit := unit, core := none, units := [.dec], context := slot, station := 0, niche := 0xFFFFFF,
         order := 0, don := don, band := band, used := [] } 3 0 s

/-- The bound streams of an entropy engine that have data pending and room in the bin buffer, each with the tick since when (R340). -/
def binsDue (s : State) (e : Nat) : List (Nat × Nat) :=
  (s.openSlots.filter (fun n => decide ((s.stream n).engine = e) && bound s n && !binFull (s.stream n))).filterMap (fun n =>
    (pendingTick s n).map (fun t => (n, max t (s.stream n).roomAt)))

/-- The entry with the least tick, the first among equals. -/
def earliest : List (Nat × Nat) → Option (Nat × Nat)
  | [] => none
  | x :: l => match earliest l with
    | none => some x
    | some y => if y.2 < x.2 then some y else some x

/-- ENTROPY_HANG: the engine has decoded no bin for 1 ms while one of its bound streams had data pending and room. -/
def doEntropyHang (e : Nat) (s : State) : State :=
  if !live s || !domainUp s then s
  else match earliest (binsDue s e) with
    | none => s
    | some x =>
      let last := maxNat ((s.openSlots.filter (fun n => decide ((s.stream n).engine = e))).map (fun n => (s.stream n).binAt))
      streamHang 4 e x.1 (s.stream x.1).nextDon 0xFFF (advanceTo (max x.2 last + 1000) s)

/-- Ready rows of other streams before the stream's in the pool's order (R81). -/
def rowsAhead (s : State) (n : Nat) : Nat :=
  match s.pool.find? (fun e => decide (e.1 = n)) with
  | none => 0
  | some e => (s.pool.filter (fun m => decide (m.1 ≠ n) && (decide (m.2.2 < e.2.2) || (decide (m.2.2 = e.2.2) && decide (m.1 < n))) && rowReady s m.1)).length

/-- The stream whose row reconstruction engine `e` works on: the ready rows take the engines in the pool's order (DESIGN CHOICE, log 142). -/
def rowOf (s : State) (e : Nat) : Option Nat :=
  (s.pool.map (·.1)).find? (fun n => rowReady s n && decide (rowsAhead s n = e))

/-- RECON_HANG: the row of an engine is unfinished 2 ms after it began; pauses do not count. -/
def doReconHang (e : Nat) (s : State) : State :=
  if !live s || !domainUp s then s
  else match rowOf s e with
    | none => s
    | some n =>
      let don := ((reconPicture (s.stream n)).map (·.don)).getD 0
      streamHang 5 e n don 0xFFF (advanceTo ((s.stream n).rowStart + 2000) s)

/-- Tick at which the last line that a step of a strip feed needs became final. -/
def rowFinal (s : State) (n : Nat) (p : Picture) (r : SchedRef) (d : ShpDesc) (e : Nat × Option Nat × List TileJob) : Option Nat :=
  let line := match e.2.1 with
    | some j => d.lastLine p.h j + 1
    | none => trigLine (s.stream n).cfg (haloOf s r.arm n) p.h e.1
  (p.lineAt.find? (fun x => decide (line ≤ x.1))).map (·.2)

/-- The line Niches of shaping unit `u` with a tile row due that finds room: (slot, Niche, picture, band, tick of its last source line). -/
def stripDue (s : State) (u : Nat) : List (Nat × Nat × Picture × Nat × Nat) :=
  s.openSlots.flatMap (fun n => (s.stream n).pics.flatMap (fun p => (dueSteps s n p).filterMap (fun x =>
    let d := ShpDesc.ofWords x.2.1.desc
    if decide (x.2.1.unit = u) && stepRoom s n x.2.2.1 x.1 d p x.2.2.2 then (rowFinal s n p x.2.2.1 d x.2.2.2).map (fun t => (n, x.1, p, x.2.2.2.1, t)) else none)))

/-- STRIP_ROW_HANG: an output row of a strip-feed Niche unfinished 200 µs after its last source line became final. -/
def doStripRowHang (u : Nat) (s : State) : State :=
  if !live s || !domainUp s then s
  else match stripDue s u with
    | [] => s
    | (n, k, p, b, t) :: _ =>
      let s := advanceTo (t + 200) s
      let e := (activeSched s).map (fun t => t.niches.getD k default) |>.getD default
      hang { condition := 6, unitCode := 3, unit := u, core := none, units := [.shp u], context := n, station := 1, niche := k, order := e.order,
             don := p.don, band := b, used := [] } 3 0 s

/-! ### Impressions written -/

/-- IMPRESSION_WRITTEN: the oldest capture goes to the store, and the reset it precedes is requested unless another reset has answered
the incident meanwhile. -/
def doImpressionWritten (s : State) : State :=
  if s.chip.fatal then s
  else match s.recov.captures with
    | [] => s
    | (i, code, n) :: rest =>
      let open_ := s.recov.incs.any (fun x => x.1 = i.incident)
      let s := setCause 18 { s with recov := { s.recov with captures := rest, store := tput s.recov.store (storeSlot i.incident) i } }
      if open_ then requestReset code n s else s

/-! ### Commanded resets (R338) -/

/-- Begin a commanded reset. One accepted during a compute-domain reset causes none: it completes when that reset ends, at once if it has ended. -/
def commandReset (e : JEntry) (code n : Nat) (s : State) : State :=
  let busy := s.recov.domainAt.isSome || domainRequested s
  if e.during && !busy then finish e.jpos stOk [0] s
  else
    let s := { s with recov := { s.recov with waiters := s.recov.waiters ++ [
      { j := e.jpos, start := s.now, code := if e.during then 3 else code, unit := if e.during then 0 else n, during := e.during }] } }
    if e.during then s else requestReset code n s

/-- RESET_ENGINE (0x90). -/
def doResetEngine (j : Nat) (s : State) : State :=
  runCmd j 0x90 s (fun e s => if s.isFenced (e.ctx / 4) then finish j stFenced [] s else commandReset e 1 e.ctx s)

/-- RESET_CORE (0x91). -/
def doResetCore (j : Nat) (s : State) : State :=
  runCmd j 0x91 s (fun e s => if s.isFenced e.ctx then finish j stFenced [] s else commandReset e 2 e.ctx s)

/-- RESET_COMPUTE (0x92). -/
def doResetCompute (j : Nat) (s : State) : State := runCmd j 0x92 s (fun e s => commandReset e 3 0 s)

def execResetEngine (j : Nat) (s : State) : Host.Outcome State Fault Refusal := .next (doResetEngine j s)
def execResetCore (j : Nat) (s : State) : Host.Outcome State Fault Refusal := .next (doResetCore j s)
def execResetCompute (j : Nat) (s : State) : Host.Outcome State Fault Refusal := .next (doResetCompute j s)
def execNicheWatchdog (u : UnitId) (s : State) : Host.Outcome State Fault Refusal := .next (doNicheWatchdog u s)
def execXchgHang (c : Nat) (s : State) : Host.Outcome State Fault Refusal := .next (doXchgHang c s)
def execEntropyHang (e : Nat) (s : State) : Host.Outcome State Fault Refusal := .next (doEntropyHang e s)
def execReconHang (e : Nat) (s : State) : Host.Outcome State Fault Refusal := .next (doReconHang e s)
def execStripRowHang (u : Nat) (s : State) : Host.Outcome State Fault Refusal := .next (doStripRowHang u s)
def execImpressionWritten (s : State) : Host.Outcome State Fault Refusal := .next (doImpressionWritten s)
def execEngineReset (c e : Nat) (s : State) : Host.Outcome State Fault Refusal := .next (doEngineReset c e s)
def execEngineResetEnd (c e : Nat) (pass : Bool) (s : State) : Host.Outcome State Fault Refusal := .next (doEngineResetEnd c e pass s)
def execEngineResetTimeout (c e : Nat) (s : State) : Host.Outcome State Fault Refusal := .next (doEngineResetTimeout c e s)
def execCoreReset (c : Nat) (s : State) : Host.Outcome State Fault Refusal := .next (doCoreReset c s)
def execCoreResetEnd (c : Nat) (pass : Bool) (s : State) : Host.Outcome State Fault Refusal := .next (doCoreResetEnd c pass s)
def execCoreResetTimeout (c : Nat) (s : State) : Host.Outcome State Fault Refusal := .next (doCoreResetTimeout c s)

end Sys2Proof.Machine
end

