-- ==== Sys2Proof/Machine/Replay.lean ====
section
/-! DEFINITION. The compute-domain reset, recovery and replay (15_recovery.md R350-R355, R347; 11_memory.md R269). -/

namespace Sys2Proof.Machine

/-! ### Resume pictures (R354) -/

/-- A band of the picture has records that are not all issued; a skipped or absent band counts as issued. -/
def outstanding (s : State) (n : Nat) (p : Picture) : Bool :=
  match p.sched with
  | none => decide (p.line = 0) && bound s n
  | some r => match schedOf s r with
    | none => false
    | some t => (List.range (bandCount (s.stream n).cfg p.h)).any (fun b =>
        (trigOf t false n b).isSome && notSkipped p b && ((tfind p.fired b).isNone || !bandDone s n p.don b))

/-- DON of the resume picture of a video stream. -/
def resumeDon (s : State) (n : Nat) : Nat :=
  let x := s.stream n
  match x.pics.find? (outstanding s n) with
  | some p => p.don
  | none => match x.pics.find? (fun p => !p.whole) with
    | some p => p.don
    | none => x.nextDon

/-- Mark where a stream resumes, from what was issued when the reset came; an audio stream resumes at its oldest block not fully delivered. -/
def markResume (n : Nat) (s : State) : State :=
  let x := s.stream n
  if x.cfg.codec = 2 then
    let open_ := (x.blockTicks.map (·.1)).filter (fun k => donLt k x.firedBlocks)
    s.setStream n { x with firedBlocks := open_.foldl (fun a k => if donLt k a then k else a) x.firedBlocks, replayFrom := some x.block, blockDiscard := x.blockIssued }
  else s.setStream n { x with replayFrom := some (resumeDon s n) }

/-! ### COMPUTE_RESET (R350) -/

/-- A core of the compute domain after its reset. -/
def resetCore (c : Core) : Core :=
  { c with spad := [], acc := [], resetAt := none, engineReset := [], weights := none, castRunning := [], castDone := [] }

/-- A session keeps what it has committed; the step or chunk under way will start again (R352, R353). -/
def resetUnit (x : Session) : Session :=
  if x.work.isNone then x
  else { x with work := x.work.map (fun w => { w with phase := .idle, fault := 0, chunk := 0, layer := 0, stopped := none, kv := none }), colls := [], gathers := [], headRows := [] }

/-- Client of a session's work: of the command, or of the open for a fed append (10_work_classes.md R245). -/
def workClient (s : State) (x : Session) : Nat := ((x.work.bind (·.j)).bind s.entry?).elim x.client (·.client)

/-- The wait of replayed work runs on to the start of the execution that completes it: what has passed since its begin and was not counted as its units'
waits (10_work_classes.md R246). -/
def rewait (n : Nat) (s : State) : State :=
  match (s.session n).work with
  | none => s
  | some w =>
    let s := account (workClient s (s.session n)) (fun a => { a with wait := (a.wait + (s.now - w.tick - w.waited)) % 2 ^ 64 }) s
    s.modSession n (fun x => { x with work := x.work.map (fun w => { w with tick := s.now, waited := 0 }) })

/-- Sessions with work start their unit again after the reset (R353). -/
def restartUnits (s : State) : State :=
  forAll ((s.sessions.filter (fun e => e.2.work.isSome)).map (·.1)) (fun n s => nextUnit n (rewait n s)) s

/-- COMPUTE_RESET. -/
def doComputeReset (s : State) : State :=
  match requested s 3 0 with
  | none => s
  | some t =>
    if !live s || !domainUp s then s
    else
      let s := forAll s.openSlots markResume (traceReset 3 0 (absorb 3 0 s))
      let s := forAll ((List.range Config.cores).filter (fun c => !s.isFenced c)) (fun c s => s.modCore c resetCore) s
      let s := { s with jobs := s.jobs.filter (fun b => b.sess.isNone), sessions := List.map (fun (e : Nat × Session) => (e.1, resetUnit e.2)) s.sessions }
      forAll s.jobs restartJob { s with runs := [], marks := [], packs := [], stages := [], stageNext := []
                                        recov := { s.recov with domainAt := some t, xchgs := [], hung := [] } }

/-! ### Self-tests, swap, journal (Table 15.5 steps 2-4) -/

/-- One core's self-tests within the reset: a core whose count becomes 1 is tested once more. -/
def testCore (first second : List Nat) (c : Nat) (s : State) : State :=
  if s.isFenced c || !first.contains c then s
  else
    let k := (s.core c).failed + 1
    if k ≥ 2 then fence c (s.modCore c (fun x => { x with failed := 2 }))
    else if second.contains c then fence c (s.modCore c (fun x => { x with failed := 2 }))
    else s.modCore c (fun x => { x with failed := 1 })

/-- The work of a lost command leaves its session. -/
def dropWork (j : Nat) (x : Session) : Session := if x.work.bind (·.j) = some j then { x with work := none } else x

/-- Read sector `k` of mirror A's data in the scan; an uncorrectable one is read from mirror B, which is then rewritten into mirror A (R269). True when
neither can be read. -/
def scanSector (lostA lostB : List Nat) (k : Nat) (x : Bool × State) : Bool × State :=
  let s := x.2
  let a := mirrorSector s.dram false k
  let b := mirrorSector s.dram true k
  if !lostA.contains k && !s.dram.bad.contains a then x
  else if lostB.contains k || s.dram.bad.contains b then
    (true, countUe (32 * b) (countUe (32 * a) { s with dram := { s.dram with bad := a :: b :: s.dram.bad.filter (fun y => y ≠ a && y ≠ b) } }))
  else (x.1, mirrorUe false (32 * a) s)

/-- The 16 sectors of an entry's 512 bytes in a mirror's data. -/
def entrySectors (e : JEntry) : List Nat := (List.range 16).map (fun i => 16 * e.place + i)

/-- Read a journal entry in the scan, sector by sector: one that neither mirror yields is lost, its command completes with ECC_UNCORRECTABLE and safety's
MEMORY_PLANE is detected. -/
def scanEntry (lostA lostB : List Nat) (e : JEntry) (s : State) : State :=
  if e.st = .done then s
  else
    let r := (entrySectors e).foldl (fun x k => scanSector lostA lostB k x) (false, s)
    let s := r.2
    if !r.1 then s
    else finish e.jpos stEcc [] (detect 17
      { s with jobs := s.jobs.filter (fun b => b.j ≠ e.jpos), sessions := List.map (fun (x : Nat × Session) => (x.1, dropWork e.jpos x.2)) s.sessions })

/-! ### Decode restarts (step 7, R354, R355) -/

/-- The resume picture's checkpoint can be used: its CRC is correct and its references are in the store. One that reconstruction had not begun
resumes from the store as it stands. -/
def checkpointOk (x : Stream) (bad : Bool) (r : Nat) : Bool :=
  !bad && (match picOf x r with
    | none => decide (r = x.nextDon)
    | some p =>
      x.aus.any (fun a => decide (a.don = some r)) &&
      (if p.rows = 0 then (x.pics.filter (fun q => donLt q.don r)).all (·.whole)
       else match p.ckpt with
         | some l => l.all (fun d => x.pics.any (fun q => decide (q.don = d) && q.stored))
         | none => false))

/-- DON decoding restarts at, and whether with concealment from the oldest retained access unit. -/
def restartPoint (x : Stream) (bad : Bool) (r : Nat) : Nat × Bool :=
  if checkpointOk x bad r then (r, false)
  else match ((x.aus.filter (fun a => a.irap)).filterMap (·.don)).filter (fun d => !donLt r d) |>.getLast? with
    | some d => (d, false)
    | none => ((x.aus.filterMap (·.don)).headD r, true)

/-- A picture's schedule in replay: the one now in force of its Armature; of another Armature that has a fenced core in its CORE_MASK the variant for
that core, and none where it has no variant left (R348, 07_mapping.md R191). -/
def replaySched (s : State) (r : SchedRef) : Option SchedRef :=
  if s.noSched then none
  else match s.active with
    | some a => if r.arm = a.arm then some a else (tfind s.armatures r.arm).bind (swapTarget s r.arm)
    | none => none

/-- A picture whose decoding starts again. -/
def restartPic (s : State) (x : Stream) (r loss : Nat) (p : Picture) : Picture :=
  let p := { p with coded := [], segsDone := false, bins := 0, segTicks := [], line := 0, rows := 0, lineAt := [], reached := [], fired := [],
                    tileRows := [], tileCols := [], segSrc := [], rowBins := [], stored := false, isRef := true, luma := [], cb := [], cr := [], concealedUnits := 0, ckpt := none,
                    loss := if donLt p.loss loss then loss else p.loss }
  if donLt p.don r then { p with replayed := true, sched := none, bound := false, statusDone := true }
  else
    let ref := p.sched.bind (replaySched s)
    { p with
      replayed := auComplete x p, sched := ref, bound := p.bound && ref.isSome
      discard := p.issued.map (fun e => (e.1, e.2 - tget p.trkDone e.1 0)) }

/-- Restart a video stream at its replay start. -/
def restartVideo (n : Nat) (bad : Bool) (s : State) : State :=
  let x := s.stream n
  match x.replayFrom with
  | none => s
  | some r0 =>
    let q := restartPoint x bad r0
    let r := if donLt r0 q.1 then q.1 else r0
    let loss := if q.2 then q.1 else (x.pics.map (·.loss)).headD 0
    let pics := x.pics.filterMap (fun p =>
      if donLt p.don q.1 then
        if !donLt p.don r0 then none else some (if q.2 then { p with stored := false, isRef := false } else p)
      else some (restartPic s x r (if q.2 then loss else p.loss) p))
    -- the decoding state of the checkpoint: no picture begins in rejection, and its concealment chains are those it began with
    let chains := if q.2 then (false, false) else ((picOf x q.1).map (·.chains)).getD (false, false)
    let again (a : Au) : Bool := match a.don with | some d => !donLt d q.1 | none => false
    let any := x.aus.any again
    s.setStream n { x with
      concealChain := if any then chains.1 else x.concealChain, raslChain := if any then chains.2 else x.raslChain
      pics := pics, aus := x.aus.map (fun a => if again a then { a with decoded := false, started := false, taken := 0 } else a)
      paused := false, rowStart := s.now, binAt := s.now, roomAt := s.now, replayFrom := some r, replayTick := some s.now }

/-- Decode restarts on a stream. -/
def restartStream (bad : List Nat) (n : Nat) (s : State) : State :=
  if (s.stream n).cfg.codec = 2 then s else settle n (restartVideo n (bad.contains n) s)

/-! ### COMPUTE_RESET_END -/

/-- Steps 5 to 7: the TAE's log is settled, and session state stands as committed with its records (R352); the Armature's contents are written again;
a Proof cast set passes; decode restarts. -/
def recover (bad : List Nat) (s : State) : State :=
  let s := settleTrk s
  let s := match activeArm s with
    | some a => placeContents (a.plan.contents.filter (fun x => !s.isFenced x.1)) s
    | none => s
  let cast := if bindsSafety s then runCasts s else (s, true)
  let s := if cast.2 then cast.1 else detect 3 cast.1
  forAll s.openSlots (restartStream bad) s

/-- COMPUTE_RESET_END, within 2 ms of the request. `lostA`, `lostB`: data sectors of the journal mirrors that the scan finds uncorrectable. -/
def doComputeResetEnd (first second lostA lostB bad : List Nat) (s : State) : State :=
  match s.recov.domainAt with
  | none => s
  | some t =>
    if !live s || decide (s.now > t + 2000) then s
    else
      let before := s.chip.fenced
      let s := forAll (List.range Config.cores) (testCore first second) s
      if (List.range Config.cores).all s.isFenced then domainFatal s
      else
        let s := stopSchedules { s with recov := { s.recov with domainAt := none } }
        let s := restartUnits (recover bad (forAll s.journal (scanEntry lostA lostB) s))
        endReset 3 0 (if s.chip.fenced = before then 0 else 1) s

/-- COMPUTE_RESET_TIMEOUT. -/
def doComputeResetTimeout (s : State) : State :=
  match s.recov.domainAt with
  | none => s
  | some t => if !live s then s else domainFatal (advanceTo (t + 2001) s)

def execComputeReset (s : State) : Host.Outcome State Fault Refusal := .next (doComputeReset s)
def execComputeResetEnd (firstFail secondFail lostA lostB badCkpt : List Nat) (s : State) : Host.Outcome State Fault Refusal :=
  .next (doComputeResetEnd firstFail secondFail lostA lostB badCkpt s)
def execComputeResetTimeout (s : State) : Host.Outcome State Fault Refusal := .next (doComputeResetTimeout s)

end Sys2Proof.Machine
end

