-- ==== Sys2Proof/Machine/Startup.lean ====
section
/-! DEFINITION. Power-on reset and start-up (18_startup.md R383-R392; 15_recovery.md Table 15.6). -/

namespace Sys2Proof.Machine

/-! ### Power-on reset (R383, R391, R392) -/

/-- Recovery state after power-on reset: the boot flash keeps the failure log and the copies (R375, R392). -/
def flashOnly (r : Recovery) : Recovery :=
  { Recovery.reset with log := r.log, logNext := r.logNext, copies := r.copies }

/-- Chip state after power-on reset; the level of CAP_n, the temperature and the part's grade come from outside (R402, R403). -/
def Chip.powerOn (c : Chip) : Chip :=
  { Chip.reset with powerOns := c.powerOns + 1, industrial := c.industrial, temp := c.temp, capPin := c.capPin,
                    fNow := if c.capPin then 256 else 128,
                    stepping := c.stepping, minSvn := c.minSvn }

/-- POWER_ON_RESET: everything but the boot flash is lost or reset; INCARNATION and CHALLENGE are drawn anew (R283, R328). -/
def powerOn (s : State) : State :=
  { State.reset with
    pending := s.pending
    free := s.free
    hostMem := s.hostMem
    chip := s.chip.powerOn
    link := Link.reset (s.chip.powerOns + 1)
    safety := { Safety.reset with challenge := Config.freeChallenge s.safety.draws, draws := s.safety.draws + 1 }
    recov := flashOnly s.recov }

/-! ### Start-up (R384-R391) -/

/-- Word `n` of an image's header (Table 18.5). -/
def imageDw (m : ImageInfo) (n : Nat) : Word := m.header.getD n 0

/-- VERSION of an image. -/
def imageVersion (m : ImageInfo) : Word := imageDw m 3

/-- MAGIC, VER and KIND are correct and LENGTH is within its limit, for KIND 1 (stage) or 2 (main) (R387, Table 18.5). -/
def imageHeaderOk (kind : Nat) (m : ImageInfo) : Bool :=
  decide (fld (imageDw m 0) 31 16 = 0x5049) && decide (fld (imageDw m 0) 15 8 = 1) && decide (fld (imageDw m 0) 7 0 = kind) && decide (1 ≤ (imageDw m 1).toNat) &&
  decide ((imageDw m 1).toNat ≤ if kind = 1 then 2097152 else 12582912)

/-- The image is valid but for its security version. -/
def imageSound (kind : Nat) (m : ImageInfo) : Bool := imageHeaderOk kind m && m.keyOk && m.signatureOk

/-- The image is valid (R387). -/
def imageValid (minSvn kind : Nat) (m : ImageInfo) : Bool := imageSound kind m && decide (minSvn ≤ (imageDw m 2).toNat)

/-- Stage images with the main image of their slot, in the order the ROM checks them (R384, R387). -/
def bootOrder (bootSrc : Bool) (b : BootInfo) : List (ImageInfo × ImageInfo) :=
  if bootSrc then [(b.stageB, b.mainB), (b.stageA, b.mainA)] else [(b.stageA, b.mainA), (b.stageB, b.mainB)]

/-- MAGIC, VER and CRC of a boot configuration block are correct (R386, Table 18.4). -/
def configOk (ws : List Word) : Bool :=
  decide (fld (ws.getD 0 0) 31 16 = 0x4243) && decide (fld (ws.getD 0 0) 15 8 = 1) && decide (ws.length = 1024) &&
  decide (ws.getD 1023 0 = crcWords (ws.take 1023))

/-- The block the ROM uses: the first copy that is correct (R386). -/
def bootConfig (b : BootInfo) : Option (List Word) := [b.configA, b.configB].find? configOk

/-- Data rate of the boot configuration (Table 18.4). -/
def bootRate (b : BootInfo) : Nat :=
  match bootConfig b with
  | none => 6400
  | some ws => match fld (ws.getD 1 0) 1 0 with | 1 => 7500 | 2 => 8533 | _ => 6400

/-- Stop word (R390). -/
def stopWord (step detail : Nat) : Word := dw [(0xFF, 31, 24), (step, 23, 16), (detail, 15, 0)]

/-- Start-up stops: FW_VERSION holds the stop word, and FAULT_n and SAFE_n stay low (R390). -/
def stopAt (step detail : Nat) (s : State) : State :=
  { s with chip := { s.chip with phase := .stopped, fwVersion := stopWord step detail, faultN := false },
           safety := { s.safety with safeN := false } }

/-- The population lies in Table 11.1: all channels alike, 256 MiB to 4 GiB, one or two ranks (R249). -/
def populationOk (b : BootInfo) : Bool := b.uniform && [256, 512, 1024, 2048, 4096].contains b.chanMib && (b.ranks = 1 || b.ranks = 2)

/-- What start-up is said to meet can happen: a failed training step names a step, rank and channel there are, a core exists, the PCI Express
link runs at a speed and width of Table 13.1. -/
def bootPossible (b : BootInfo) : Bool :=
  b.badCores.all (· < 16) && [8, 16, 32].contains b.pcieSpeed && [1, 2, 4, 8].contains b.pcieWidth &&
  (match b.trainFail with
   | none => true
   | some (step, rank, ch) => decide (1 ≤ step) && decide (step ≤ 8) && decide (rank < b.ranks) && decide (ch < 16))

/-- A delay that training leaves in the record: the centre of a run of at least 32 of the settings 0-255, which lies in 15-239, and free in them (R256). -/
def trainedDelay (seed field : Nat) : Nat := 15 + Config.freeDelay (64 * seed + field) % 225

/-- A VREF that training leaves in the record: free in its 8 bits, since the steps are the device's (R256). -/
def trainedVref (seed field : Nat) : Nat := Config.freeDelay (64 * seed + field) % 256

/-- Training record of a rank that is present and trained (Table 11.10). -/
def trainedChan (seed : Nat) : Chan :=
  { Chan.reset with
    attempts := 1 + Config.freeDelay (64 * seed + 63) % 3
    wck := trainedDelay seed 0, vrefCa := trainedVref seed 1, cs := trainedDelay seed 2, ca := trainedDelay seed 3
    vrefDqW := trainedVref seed 4, vrefDqR := trainedVref seed 5, gate := trainedDelay seed 6
    readDq := (List.range 16).map (fun i => (i, trainedDelay seed (8 + i)))
    writeDq := (List.range 16).map (fun i => (i, trainedDelay seed (24 + i))) }

/-- Training record of channel `key / 2`, rank `key % 2` after start-up step 3 (R255, R407). -/
def bootChan (b : BootInfo) (draw key : Nat) : Chan :=
  if b.ranks ≤ key % 2 then { Chan.reset with status := 0xFF }
  else match b.trainFail with
    | some (step, rank, ch) =>
      if 2 * ch + rank = key then { trainedChan (32 * draw + key) with status := step, attempts := 3 } else trainedChan (32 * draw + key)
    | none => trainedChan (32 * draw + key)

/-- DRAM after training: nothing written, the default pools, RFM_N 9 (R255, R262, Table 11.6). -/
def bootDram (b : BootInfo) (draw : Nat) : Dram :=
  initParts { Dram.reset with
    capMib := 16 * b.chanMib, rate := bootRate b, ranks := b.ranks,
    chans := (List.range 32).map (fun k => (k, bootChan b draw k)) }

/-- Step 1: the PCI Express link trains to a speed and width of 13_host_endpoint.md Table 13.1 (01_architecture.md R16). -/
def trainPcie (b : BootInfo) (s : State) : State := { s with pcie := { s.pcie with speed := b.pcieSpeed, width := b.pcieWidth } }

/-- Straps are sampled at the end of power-on reset and hold until the next one (R384): a rerun after a function-level reset keeps them. -/
def sampleStraps (b : BootInfo) (s : State) : State :=
  let s := { s with chip := { s.chip with stepping := b.stepping } }
  if s.pcie.flrCount = 0 then { s with chip := { s.chip with barSize := b.barSize, testEn := b.testEn, bootSrc := b.bootSrc } } else s

/-- The boot configuration: subsystem identity and what the link plane takes at step 7 (R386, Table 18.4). -/
def takeConfig (b : BootInfo) (s : State) : State :=
  match bootConfig b with
  | none => { s with pcie := { s.pcie with subsysVendor := 0x1F2B, subsysId := 0 },
                     chip := { s.chip with bootLink := 0, bootRoutes := none, flashMap := Chip.reset.flashMap } }
  | some ws =>
    let w (n : Nat) : Word := ws.getD n 0
    { s with pcie := { s.pcie with subsysVendor := fld (w 2) 15 0, subsysId := fld (w 2) 31 16 },
             chip := { s.chip with bootLink := w 3, bootRoutes := if bit (w 4) 0 then some ((ws.drop 5).take 16) else none,
                                   flashMap := ((w 21).toNat, (w 22).toNat, (w 23).toNat) } }

/-- Cores that fail their self-test twice are fenced (R389, R347). -/
def fenceBad (bad : List Nat) (s : State) : State :=
  forAll bad (fun c s => if s.isFenced c then s else fence c (s.modCore c (fun k => { k with failed := 2 }))) s

/-- A function-level reset requested during start-up takes effect when step 8 ends (R311, R391). -/
def lateFlr (s : State) : State := if s.chip.flrPending then flrRun false s else s

/-- The DRAM_TRAIN_STEP packets held on the maintenance port are accepted when step 8 ends (R391). -/
def takeHeld (s : State) : State :=
  forAll s.chip.mntHeld (fun e s => doDramTrainStep e.1 e.2 s) { s with chip := { s.chip with mntHeld := [] } }

/-- Steps 5-8: self-test, link plane, READY (R388, R389). -/
def finishBoot (b : BootInfo) (version : Word) (s : State) : State :=
  let s := fenceBad b.badCores s
  if s.chip.fenced = 0xFFFF then stopAt 5 0 s
  else
    let s := bringUp b.portsUp (linkBoot s)
    takeHeld (lateFlr { s with chip := { s.chip with phase := .ready, fwVersion := version, faultN := true } })

/-- Steps 3-8, with the stage image that runs and the main image of its slot; the stage releases DDR_RESET_n first (R382). -/
def bootFrom (b : BootInfo) (stage main : ImageInfo) (s : State) : State :=
  let s := { s with chip := { s.chip with ddrResetN := true } }
  if !populationOk b then stopAt 3 0xF000 s
  else
    let s := { s with dram := bootDram b (s.chip.powerOns + s.pcie.flrCount.toNat) }
    match b.trainFail with
    | some (step, rank, ch) => stopAt 3 (4096 * step + 256 * rank + ch) s
    | none =>
      if !(imageValid s.chip.minSvn 2 main && decide (imageVersion main = imageVersion stage)) then stopAt 4 1 s
      else finishBoot b (imageVersion main) s

/-- START_UP: the whole of Table 18.6, up to READY or a stop. -/
def doStartUp (b : BootInfo) (s : State) : State :=
  if s.chip.phase ≠ .starting || !bootPossible b then s
  else
    let s := takeConfig b (sampleStraps b (trainPcie b s))
    let images := bootOrder s.chip.bootSrc b
    match images.find? (fun x => imageValid s.chip.minSvn 1 x.1) with
    | some x => bootFrom b x.1 x.2 s
    | none => stopAt 2 (if images.any (fun x => imageSound 1 x.1) then 2 else 1) s

def execPowerOnReset (s : State) : Host.Outcome State Fault Refusal := .next (powerOn s)
def execStartUp (b : BootInfo) (s : State) : Host.Outcome State Fault Refusal := .next (doStartUp b s)

end Sys2Proof.Machine
end

