-- ==== Sys2Proof/Machine/Dispatch.lean ====
section
/-! DEFINITION. The dispatch: one arm per command of the block, each one direct call of its meaning. -/

namespace Sys2Proof.Machine

open Sys2Proof

def exec (i : Instr) (s : State) : Host.Outcome State Fault Refusal :=
  match i with
  | .nop j => Sys2Proof.Machine.execNop j s
  | .fence j => Sys2Proof.Machine.execFence j s
  | .streamOpen j => Sys2Proof.Machine.execStreamOpen j s
  | .streamClose j => Sys2Proof.Machine.execStreamClose j s
  | .streamFeed j => Sys2Proof.Machine.execStreamFeed j s
  | .streamRetune j => Sys2Proof.Machine.execStreamRetune j s
  | .maquetteLoad j pkg => Sys2Proof.Machine.execMaquetteLoad j pkg s
  | .maquetteDrop j => Sys2Proof.Machine.execMaquetteDrop j s
  | .armatureCommit j block plan => Sys2Proof.Machine.execArmatureCommit j block plan s
  | .armatureSwap j => Sys2Proof.Machine.execArmatureSwap j s
  | .tensorRun j => Sys2Proof.Machine.execTensorRun j s
  | .seqOpen j answered => Sys2Proof.Machine.execSeqOpen j answered s
  | .seqAppend j run => Sys2Proof.Machine.execSeqAppend j run s
  | .seqStep j runs => Sys2Proof.Machine.execSeqStep j runs s
  | .seqClose j => Sys2Proof.Machine.execSeqClose j s
  | .trackConfig j => Sys2Proof.Machine.execTrackConfig j s
  | .trackQuery j => Sys2Proof.Machine.execTrackQuery j s
  | .poolConfig j => Sys2Proof.Machine.execPoolConfig j s
  | .poolStatus j => Sys2Proof.Machine.execPoolStatus j s
  | .linkConfig j upPorts => Sys2Proof.Machine.execLinkConfig j upPorts s
  | .routeSet j => Sys2Proof.Machine.execRouteSet j s
  | .collective j rows => Sys2Proof.Machine.execCollective j rows s
  | .safetyArm j proofPass => Sys2Proof.Machine.execSafetyArm j proofPass s
  | .safetyClear j proofPass during => Sys2Proof.Machine.execSafetyClear j proofPass during s
  | .safetyStatus j => Sys2Proof.Machine.execSafetyStatus j s
  | .safetyHeartbeat j => Sys2Proof.Machine.execSafetyHeartbeat j s
  | .counterFreeze j => Sys2Proof.Machine.execCounterFreeze j s
  | .counterRead j => Sys2Proof.Machine.execCounterRead j s
  | .traceConfig j => Sys2Proof.Machine.execTraceConfig j s
  | .clientStats j => Sys2Proof.Machine.execClientStats j s
  | .resetEngine j => Sys2Proof.Machine.execResetEngine j s
  | .resetCore j => Sys2Proof.Machine.execResetCore j s
  | .resetCompute j => Sys2Proof.Machine.execResetCompute j s
  | .impressionRead src => Sys2Proof.Machine.execImpressionRead src s
  | .dramTrainStep pkt sweep => Sys2Proof.Machine.execDramTrainStep pkt sweep s
  | .testOpcode src => Sys2Proof.Machine.execTestOpcode src s
  | .commandAccept r0 r1 => Sys2Proof.Machine.execCommandAccept r0 r1 s
  | .closeFinal j => Sys2Proof.Machine.execCloseFinal j s
  | .deferredOpenRun j session => Sys2Proof.Machine.execDeferredOpenRun j session s
  | .cmdRingTail q v => Sys2Proof.Machine.execCmdRingTail q v s
  | .cplRingHead q v => Sys2Proof.Machine.execCplRingHead q v s
  | .ringEnSet q => Sys2Proof.Machine.execRingEnSet q s
  | .ringEnClear q => Sys2Proof.Machine.execRingEnClear q s
  | .outRingEnSet o => Sys2Proof.Machine.execOutRingEnSet o s
  | .outRingEnClear o => Sys2Proof.Machine.execOutRingEnClear o s
  | .outRingHead o v => Sys2Proof.Machine.execOutRingHead o v s
  | .outCoal o v => Sys2Proof.Machine.execOutCoal o v s
  | .outCoalBytes o v => Sys2Proof.Machine.execOutCoalBytes o v s
  | .intxCause v => Sys2Proof.Machine.execIntxCause v s
  | .tickLo => Sys2Proof.Machine.execTickLo s
  | .outFullTicksLo o => Sys2Proof.Machine.execOutFullTicksLo o s
  | .accessErrors => Sys2Proof.Machine.execAccessErrors s
  | .registerWrite off v be => Sys2Proof.Machine.execRegisterWrite off v be s
  | .bar2Read off len ecc => Sys2Proof.Machine.execBar2Read off len ecc s
  | .bar2Write off bytes => Sys2Proof.Machine.execBar2Write off bytes s
  | .hostReadFail r => Sys2Proof.Machine.execHostReadFail r s
  | .intxHoldoffExpiry => Sys2Proof.Machine.execIntxHoldoffExpiry s
  | .functionLevelReset hung => Sys2Proof.Machine.execFunctionLevelReset hung s
  | .hotReset hung => Sys2Proof.Machine.execHotReset hung s
  | .d3hotEntry => Sys2Proof.Machine.execD3hotEntry s
  | .d0Return => Sys2Proof.Machine.execD0Return s
  | .outCoalExpiry o => Sys2Proof.Machine.execOutCoalExpiry o s
  | .recordWrite r => Sys2Proof.Machine.execRecordWrite r s
  | .heldRecordRelease o => Sys2Proof.Machine.execHeldRecordRelease o s
  | .tsPacket slot => Sys2Proof.Machine.execTsPacket slot s
  | .warRecord slot => Sys2Proof.Machine.execWarRecord slot s
  | .retentionShortEnd slot => Sys2Proof.Machine.execRetentionShortEnd slot s
  | .retentionRelease slot => Sys2Proof.Machine.execRetentionRelease slot s
  | .entropyDecode slot info => Sys2Proof.Machine.execEntropyDecode slot info s
  | .rowReconstructed slot row => Sys2Proof.Machine.execRowReconstructed slot row s
  | .stripFeedResume slot => Sys2Proof.Machine.execStripFeedResume slot s
  | .bandTrigger slot => Sys2Proof.Machine.execBandTrigger slot s
  | .audioBlockTrigger slot => Sys2Proof.Machine.execAudioBlockTrigger slot s
  | .decodeLate slot pic => Sys2Proof.Machine.execDecodeLate slot pic s
  | .shpTileRow slot nicheIx => Sys2Proof.Machine.execShpTileRow slot nicheIx s
  | .nicheDispatch u => Sys2Proof.Machine.execNicheDispatch u s
  | .nicheComplete u r => Sys2Proof.Machine.execNicheComplete u r s
  | .fedAppend sess run steps => Sys2Proof.Machine.execFedAppend sess run steps s
  | .evidenceSlice u sl => Sys2Proof.Machine.execEvidenceSlice u sl s
  | .xchgLand pair => Sys2Proof.Machine.execXchgLand pair s
  | .beGap u => Sys2Proof.Machine.execBeGap u s
  | .bePause u tilesDone => Sys2Proof.Machine.execBePause u tilesDone s
  | .nicheWatchdog u => Sys2Proof.Machine.execNicheWatchdog u s
  | .xchgHang c => Sys2Proof.Machine.execXchgHang c s
  | .entropyHang e => Sys2Proof.Machine.execEntropyHang e s
  | .reconHang e => Sys2Proof.Machine.execReconHang e s
  | .stripRowHang u => Sys2Proof.Machine.execStripRowHang u s
  | .impressionWritten => Sys2Proof.Machine.execImpressionWritten s
  | .engineReset c e => Sys2Proof.Machine.execEngineReset c e s
  | .engineResetEnd c e pass => Sys2Proof.Machine.execEngineResetEnd c e pass s
  | .engineResetTimeout c e => Sys2Proof.Machine.execEngineResetTimeout c e s
  | .coreReset c => Sys2Proof.Machine.execCoreReset c s
  | .coreResetEnd c pass => Sys2Proof.Machine.execCoreResetEnd c pass s
  | .coreResetTimeout c => Sys2Proof.Machine.execCoreResetTimeout c s
  | .computeReset => Sys2Proof.Machine.execComputeReset s
  | .computeResetEnd firstFail secondFail lostA lostB badCkpt => Sys2Proof.Machine.execComputeResetEnd firstFail secondFail lostA lostB badCkpt s
  | .computeResetTimeout => Sys2Proof.Machine.execComputeResetTimeout s
  | .safetyFrame frame => Sys2Proof.Machine.execSafetyFrame frame s
  | .lockstep pair => Sys2Proof.Machine.execLockstep pair s
  | .hbMissed => Sys2Proof.Machine.execHbMissed s
  | .proofCastDue c e => Sys2Proof.Machine.execProofCastDue c e s
  | .proofCastCheck c e ok => Sys2Proof.Machine.execProofCastCheck c e ok s
  | .proofCastInterval c e => Sys2Proof.Machine.execProofCastInterval c e s
  | .lposStall slot pic band => Sys2Proof.Machine.execLposStall slot pic band s
  | .recordLate slot pic band => Sys2Proof.Machine.execRecordLate slot pic band s
  | .clock ref devPpm => Sys2Proof.Machine.execClock ref devPpm s
  | .voltage r microvolts => Sys2Proof.Machine.execVoltage r microvolts s
  | .temperatureSample milliC => Sys2Proof.Machine.execTemperatureSample milliC s
  | .sramScrub p uncorrectable => Sys2Proof.Machine.execSramScrub p uncorrectable s
  | .patrolScrub sector ecc => Sys2Proof.Machine.execPatrolScrub sector ecc s
  | .dramRequest ch a => Sys2Proof.Machine.execDramRequest ch a s
  | .driftCheck ch rank readDelta writeDelta => Sys2Proof.Machine.execDriftCheck ch rank readDelta writeDelta s
  | .allBankRefresh ch => Sys2Proof.Machine.execAllBankRefresh ch s
  | .poolRefill p ecc => Sys2Proof.Machine.execPoolRefill p ecc s
  | .refcountIncrement addr => Sys2Proof.Machine.execRefcountIncrement addr s
  | .codewordReceive port corrected credits => Sys2Proof.Machine.execCodewordReceive port corrected credits s
  | .command port pk => Sys2Proof.Machine.execCommand port pk s
  | .accept port pk => Sys2Proof.Machine.execAccept port pk s
  | .refuse port pk => Sys2Proof.Machine.execRefuse port pk s
  | .completion port pk => Sys2Proof.Machine.execCompletion port pk s
  | .scatter port pk => Sys2Proof.Machine.execScatter port pk s
  | .gather port pk => Sys2Proof.Machine.execGather port pk s
  | .stale port pk => Sys2Proof.Machine.execStale port pk s
  | .ack port pk => Sys2Proof.Machine.execAck port pk s
  | .flrNotice port pk => Sys2Proof.Machine.execFlrNotice port pk s
  | .linkPacketForward port pk => Sys2Proof.Machine.execLinkPacketForward port pk s
  | .ackSend chip cls => Sys2Proof.Machine.execAckSend chip cls s
  | .retransmit chip cls => Sys2Proof.Machine.execRetransmit chip cls s
  | .portDown port => Sys2Proof.Machine.execPortDown port s
  | .codewordTimeout port => Sys2Proof.Machine.execCodewordTimeout port s
  | .portTrainRetry port => Sys2Proof.Machine.execPortTrainRetry port s
  | .trainingComplete port r => Sys2Proof.Machine.execTrainingComplete port r s
  | .trigIn => Sys2Proof.Machine.execTrigIn s
  | .counterSample c => Sys2Proof.Machine.execCounterSample c s
  | .traceDrain src headRead => Sys2Proof.Machine.execTraceDrain src headRead s
  | .pictureTap don written headRead => Sys2Proof.Machine.execPictureTap don written headRead s
  | .capN level => Sys2Proof.Machine.execCapN level s
  | .clearFaults => Sys2Proof.Machine.execClearFaults s
  | .statusTemperature => Sys2Proof.Machine.execStatusTemperature s
  | .readTemperature1 => Sys2Proof.Machine.execReadTemperature1 s
  | .pmbusRevision => Sys2Proof.Machine.execPmbusRevision s
  | .capF w => Sys2Proof.Machine.execCapF w s
  | .capPinF w => Sys2Proof.Machine.execCapPinF w s
  | .capActive => Sys2Proof.Machine.execCapActive s
  | .otWarn w => Sys2Proof.Machine.execOtWarn w s
  | .thermtrip => Sys2Proof.Machine.execThermtrip s
  | .powerOnReset => Sys2Proof.Machine.execPowerOnReset s
  | .startUp b => Sys2Proof.Machine.execStartUp b s
  | .interruptDisable v => Sys2Proof.Machine.execInterruptDisable v s
  | .aerError e header => Sys2Proof.Machine.execAerError e header s
  | .seqTrigger model group segs => Sys2Proof.Machine.execSeqTrigger model group segs s

end Sys2Proof.Machine
end

