-- ==== Sys2Proof/Safety.lean ====
section
/-! DEFINITION. What counts as a sound state, and when a command may run, in the terms claims use. -/

namespace Sys2Proof.Machine

/-- Host memory and device DRAM are in canonical form. -/
def memOk (s : State) : Bool := Memory.wf s.hostMem && Memory.wf s.dram.cells

/-- The tick counter has 64 bits (02_raster_time.md R34). -/
def clockOk (s : State) : Bool := decide (s.chip.tick < 2 ^ 64)

/-- The safety state is one of R315 and SAFE_n is high only while armed (14_safety.md R316). -/
def safetyOk (s : State) : Bool := decide (s.safety.state ≤ 2) && (!s.safety.safeN || decide (s.safety.state = 1))

/-- A sound state. -/
def sound (s : State) : Bool := memOk s && clockOk s && safetyOk s

/-- The command journalled at `j` as `e` may begin, and passes the checks that come before its own parameters (03_commands.md R57, R67). -/
def Runs (s : State) (j op : Nat) (e : JEntry) : Prop :=
  s.entry? j = some e ∧ mayBegin s j op = true ∧ staticCheck s.link.chip e = none

/-- The same, for a command that names an open stream by its own generation while no close of it runs (R69, R70, R72). -/
def RunsOn (s : State) (j op : Nat) (e : JEntry) : Prop := Runs s j op e ∧ streamCheck s e = none

/-- The compute domain takes new work: start-up is done, FATAL is not set, and no compute-domain reset runs (15_recovery.md R345, R351). -/
def takesWork (s : State) : Bool := live s && computeUp s

/-- A link port without its waiting packets, credits and turn of the round robin. -/
def LPort.kept (x : LPort) : LPort := { x with queue := [], credits := [], freed := [], lastIn := 0 }

/-- What the part keeps while it only reports: the state without the journal, the ring positions of the host queues, host memory, INTA and its
causes, the trace buffers, the accounts, the answer of the maintenance port, and packets handed to the link plane with the credits they take. -/
def kept (s : State) : State :=
  { s with
    journal := [], hq := [], hostMem := [], mntCpl := none
    pcie := { s.pcie with cause := 0, recent := (0, 0), asserted := false, deassertAt := none }
    link := { s.link with pairs := [], kept := [], tx := [], ports := [0, 1, 2, 3].map (fun p => (p, (s.lport p).kept)) }
    obs := { s.obs with accounts := [], accountsTick := [], bufs := [], lost := [] } }

/-- The packet has left by the port, or waits at it (12_links.md R290); `via`: the port it came in by and the class and channel of its buffer there. -/
def Handed (o : Nat) (via : Option (Nat × Nat)) (p : LinkPkt) (t : State) : Prop := (o, p) ∈ t.link.tx ∨ (p, via) ∈ (t.lport o).queue

/-- The port is UP, nothing waits at it, and it holds a credit for the packet. -/
def portClear (s : State) (o : Nat) (p : LinkPkt) : Prop :=
  portUp s o = true ∧ (s.lport o).queue = [] ∧ 0 < tget (s.lport o).credits (creditKey p) 0

/-- The address lies in the completion ring of host queue `q` (03_commands.md R51). -/
def inCplRing (s : State) (q a : Nat) : Prop :=
  let h := s.queue q
  let base := join64 h.cplBaseLo h.cplBaseHi
  base ≤ a ∧ a < base + 32 * max 1 h.cplSize.toNat

/-- The next completion entry of host queue `q` lies in its ring (03_commands.md R51). -/
def cplIndexOk (s : State) (q : Nat) : Prop := (s.queue q).cplIndex < max 1 (s.queue q).cplSize.toNat

/-- Between the two states cause `n` of Table 14.2 trips safety: the tripped state with the cause first and SAFE_n low, the trip counted, its tick
kept, a freeze triggered, the word's change reported (14_safety.md R315-R319, R327). -/
def Trips (n : Nat) (s t : State) : Prop :=
  t.safety.state = 2 ∧ t.safety.first = some n ∧ maskBit t.safety.causes n = true ∧ t.safety.safeN = false ∧ t.safety.tripTick = t.chip.tick ∧
  t.safety.trips = min (s.safety.trips + 1) 65535 ∧ t.safety.mask = s.safety.mask ∧ t.safety.key = s.safety.key ∧
  t.pcie.cause.getLsbD 17 = true ∧ (s.obs.freeze = none → t.obs.trigger = true ∨ t.obs.freeze.isSome = true) ∧
  t.streams = s.streams ∧ t.sessions = s.sessions ∧ t.runs = s.runs ∧ t.dram = s.dram ∧ t.hostMem = s.hostMem ∧ t.cores = s.cores

end Sys2Proof.Machine
end

