-- ==== Sys2Proof/Certificates/Slice0/Obligations.lean ====
section
/-! DEFINITION. The statements made of the model, each named for what it says; each docstring cites the rules of the spec it formalises. -/

open Sys2Proof Sys2Proof.Machine

/-! ### The queue, reset, and what every step keeps -/

/-- A step runs the command at the front of the queue with the queue's rest. -/
def Obligations.StepRunsFrontCommand : Prop :=
  ∀ (c : Instr) (rest : List Instr) (s : State), s.pending = c :: rest → step s = exec c { s with pending := rest }

/-- On an empty queue one tick of the 64-bit counter passes (02 R34; the model's choice, log 1); TRIG_OUT is high in that tick exactly when a freeze
trigger fell in the tick before, and the freeze then holds the new tick (16 R362). -/
def Obligations.EmptyQueueTicks : Prop :=
  ∀ s : State, s.pending = [] → ∃ t, step s = .next t ∧ t.chip.tick = (s.chip.tick + 1) % 2 ^ 64 ∧ t.obs.trigOut = s.obs.trigger ∧
    (s.obs.trigger = true → ∃ f, t.obs.freeze = some f ∧ f.tf = t.chip.tick ∧ f.ctrs = s.obs.ctrs) ∧
    (s.obs.trigger = false → t.obs.freeze = s.obs.freeze) ∧
    t.pending = [] ∧ t.journal = s.journal ∧ t.streams = s.streams ∧ t.sessions = s.sessions ∧ t.dram = s.dram ∧ t.hostMem = s.hostMem ∧
    t.safety = s.safety ∧ t.link = s.link ∧ t.recov = s.recov

/-- What reset leaves where the manual gives the value: generations 1 (03 R70), registers 0 but OUT_COAL_BYTES (13 Tables 13.3-13.5), tick 0 (02 R34),
safety off with SAFE_n low, no key (14 R315, R316, R328), CAP_F 256 and CAP_PIN_F 128 (19 R402), the standalone role (12 R284), no context and no
accepted command. -/
def Obligations.ResetValues : Prop :=
  (∀ n, (State.reset.stream n).gen = 1 ∧ (State.reset.stream n).isOpen = false ∧ (State.reset.session n).gen = 1 ∧
    (State.reset.session n).isOpen = false) ∧
  (∀ q off, regQueue State.reset q off = 0) ∧
  (∀ o off, regOut State.reset o off = if off = 0x18 then 0x1000 else 0) ∧
  (∀ off, off ≠ 0 → regGlobal State.reset off = 0) ∧
  State.reset.journal = [] ∧ State.reset.pending = [] ∧ State.reset.chip.tick = 0 ∧ State.reset.safety.state = 0 ∧ State.reset.safety.safeN = false ∧
  State.reset.safety.key = 0 ∧ State.reset.chip.capF = 256 ∧ State.reset.chip.capPinF = 128 ∧ State.reset.link.role = 0 ∧
  State.reset.chip.fatal = false ∧ State.reset.active = none

/-- The state after reset is sound. -/
def Obligations.ResetIsSound : Prop := sound State.reset = true

/-- From every sound state a step leads to a sound state: host memory and DRAM stay in canonical form (the model's own), the tick counter stays within
64 bits (02 R34), the safety state stays off, armed or tripped (14 R315), and SAFE_n is high only while it is armed (14 R316). -/
def Obligations.EveryStepKeepsSound : Prop :=
  ∀ s t : State, sound s = true → step s = .next t → sound t = true

/-- SAFE_n goes high only with SAFETY_ARM or SAFETY_CLEAR (14 R316): no other command, and no tick, raises it. -/
def Obligations.OnlyArmingRaisesSafeN : Prop :=
  ∀ s t : State, sound s = true → s.safety.safeN = false → step s = .next t → t.safety.safeN = true →
    ∃ rest, (∃ j p, s.pending = .safetyArm j p :: rest) ∨ (∃ j p d, s.pending = .safetyClear j p d :: rest)

/-! ### Power-on reset, start-up, function-level reset, power states -/

/-- POWER_ON_RESET completes in every state, in the machine right after reset but for what comes from outside the part (host memory, the temperature,
the grade, the level of CAP_n, which sets the f announced), the fused security version, the failure log and the Impression copies of the boot flash, and
INCARNATION and CHALLENGE, which are drawn anew: every context, journal entry, DRAM byte and safety setting is gone, and the tick counts from 0 (18 R383,
R392; 02 R34; 03 R70; 12 R283; 14 R315, R316, R328; 15 Table 15.6; 16 R375; the queue, the count of power-ons and the counters of draws are the model's). -/
def Obligations.PowerOnLosesAllButFlash : Prop :=
  (∀ s : State, exec .powerOnReset s = .next
    { State.reset with
      pending := s.pending, free := s.free, hostMem := s.hostMem
      chip := { Chip.reset with powerOns := s.chip.powerOns + 1, industrial := s.chip.industrial, temp := s.chip.temp, capPin := s.chip.capPin,
                                fNow := if s.chip.capPin then 256 else 128, stepping := s.chip.stepping, minSvn := s.chip.minSvn }
      link := Link.reset (s.chip.powerOns + 1)
      safety := { Safety.reset with challenge := Config.freeChallenge s.safety.draws, draws := s.safety.draws + 1 }
      recov := { Recovery.reset with log := s.recov.log, logNext := s.recov.logNext, copies := s.recov.copies } }) ∧
  (∀ s : State, ∃ t, exec .powerOnReset s = .next t ∧ t.chip.phase = .starting ∧ t.chip.tick = 0 ∧ t.chip.fatal = false ∧ t.chip.fenced = 0 ∧
    t.chip.faultN = false ∧ t.recov.log = s.recov.log ∧ t.recov.logNext = s.recov.logNext ∧ t.recov.copies = s.recov.copies ∧ t.recov.store = [] ∧
    t.journal = [] ∧ t.streams = [] ∧ t.sessions = [] ∧ t.maquettes = [] ∧ t.armatures = [] ∧ t.tracks = [] ∧ t.cores = [] ∧ t.dram = Dram.reset ∧
    t.hq = [] ∧ t.outq = [] ∧ t.safety.state = 0 ∧ t.safety.safeN = false ∧ t.safety.key = 0 ∧ t.obs = Obs.reset ∧ t.pcie = Pcie.reset)

/-- START_UP with a valid stage image, a population of Table 11.1, no failed training step, a valid main image of the same version, no bad core and no
reset requested meanwhile reaches READY: FW_VERSION holds the version, FAULT_n and DDR_RESET_n are high, and SAFE_n, the tick and the fenced cores stay
(18 R382, R387, R388; 13 Tables 13.3, 13.6). START_UP that stops at step 2, 3 or 4 leaves FW_VERSION with the stop word, the step in bits 23-16, the
phase stopped and FAULT_n and SAFE_n low (18 R390). -/
def Obligations.StartUpOutcomes : Prop :=
  (∀ (b : BootInfo) (x : ImageInfo × ImageInfo) (s : State), s.chip.phase = .starting → bootPossible b = true →
    (bootOrder (sampleStraps b s).chip.bootSrc b).find? (fun y => imageValid s.chip.minSvn 1 y.1) = some x → populationOk b = true →
    b.trainFail = none → imageValid s.chip.minSvn 2 x.2 = true → imageVersion x.2 = imageVersion x.1 → b.badCores = [] →
    s.chip.fenced ≠ 0xFFFF → s.chip.flrPending = false →
    ∃ t, exec (.startUp b) s = .next t ∧ t.chip.phase = .ready ∧ t.chip.fwVersion = imageVersion x.2 ∧ t.chip.faultN = true ∧
      t.chip.ddrResetN = true ∧ t.chip.tick = s.chip.tick ∧ t.chip.fenced = s.chip.fenced ∧ t.safety = s.safety ∧
      t.dram.capMib = 16 * b.chanMib ∧ t.dram.cells = []) ∧
  (∀ (b : BootInfo) (s : State), s.chip.phase = .starting → bootPossible b = true →
    ∃ t, exec (.startUp b) s = .next t ∧
    match (bootOrder (sampleStraps b s).chip.bootSrc b).find? (fun y => imageValid s.chip.minSvn 1 y.1) with
    | none => t.chip.phase = .stopped ∧ fld t.chip.fwVersion 31 24 = 0xFF ∧ fld t.chip.fwVersion 23 16 = 2 ∧ t.chip.faultN = false ∧ t.safety.safeN = false
    | some x =>
      (populationOk b = false →
        t.chip.phase = .stopped ∧ t.chip.fwVersion = stopWord 3 0xF000 ∧ t.chip.faultN = false ∧ t.safety.safeN = false) ∧
      (∀ step rank ch, populationOk b = true → b.trainFail = some (step, rank, ch) →
        t.chip.phase = .stopped ∧ t.chip.fwVersion = stopWord 3 (4096 * step + 256 * rank + ch) ∧ t.chip.faultN = false ∧ t.safety.safeN = false) ∧
      (populationOk b = true → b.trainFail = none →
        (imageValid s.chip.minSvn 2 x.2 && decide (imageVersion x.2 = imageVersion x.1)) = false →
        t.chip.phase = .stopped ∧ t.chip.fwVersion = stopWord 4 1 ∧ t.chip.faultN = false ∧ t.safety.safeN = false))

/-- FUNCTION_LEVEL_RESET of a running part, and HOT_RESET exactly like it (15 R346): no context, accepted command or Armature remains (03 R73), safety
is off with no key (14 R317, R328), FLR_COUNT rises, INCARNATION is new and FATAL is cleared; the tick, DRAM contents outside the picture regions of the
streams that end (01 R10, R406) and pools' shares, fenced cores, sticky AER bits, the Impressions and each queue's CMD_LAST_ASN and CPL_LAST_ASN stay (13
R309, R311, Table 13.11; 12 R283). After a stop the reset starts the part again: FW_VERSION is 0, FLR_COUNT and INCARNATION rise (18 R390). A reset
whose compute-domain reset hangs leaves only power-on reset: FAULT_n stays low and a further reset does nothing (15 R346). D3HOT_ENTRY changes nothing
but the power state, and D0_RETURN leaves it: contexts, Niches, DRAM, safety and links keep their state (13 R302). -/
def Obligations.FunctionLevelResetsAndPowerStates : Prop :=
  (∀ s : State, (∀ h, exec (.hotReset h) s = exec (.functionLevelReset h) s) ∧
    (s.chip.phase = .ready → ∃ t, exec (.functionLevelReset false) s = .next t ∧
      t.chip.phase = .ready ∧ t.chip.fatal = false ∧ t.chip.faultN = true ∧ t.journal = [] ∧ t.streams = [] ∧ t.sessions = [] ∧ t.maquettes = [] ∧
      t.armatures = [] ∧ t.tracks = [] ∧ t.active = none ∧ t.safety.state = 0 ∧ t.safety.safeN = false ∧ t.safety.key = 0 ∧ t.sport = SafetyPort.reset ∧
      t.pcie.flrCount = s.pcie.flrCount + 1 ∧ t.pcie.mask = 0 ∧ t.link.incarnation = s.link.incarnation + 1 ∧
      t.chip.tick = s.chip.tick ∧ t.chip.fenced = s.chip.fenced ∧ t.dram.cells = regionClear (s.streams.flatMap (fun e => e.2.picRegion)) s.dram.cells ∧ t.dram.shares = s.dram.shares ∧
      t.pcie.uncorStatus = s.pcie.uncorStatus ∧ t.pcie.corStatus = s.pcie.corStatus ∧ t.pcie.headerLog = s.pcie.headerLog ∧ t.recov.store = s.recov.store ∧
      t.obs.ctrs = [] ∧ t.hostMem = s.hostMem ∧
      ∀ q, (t.queue q).cmdLastAsn = (s.queue q).cmdLastAsn ∧ (t.queue q).cplLastAsn = (s.queue q).cplLastAsn ∧ (t.queue q).ringEn = false)) ∧
  (∀ (h : Bool) (s : State), s.chip.phase = .stopped → ∃ t, exec (.functionLevelReset h) s = .next t ∧ t.chip.phase = .starting ∧ t.chip.fwVersion = 0 ∧
    t.pcie.flrCount = s.pcie.flrCount + 1 ∧ t.link.incarnation = s.link.incarnation + 1 ∧ t.chip.tick = s.chip.tick ∧ t.safety.safeN = false) ∧
  (∀ s : State, s.chip.phase = .ready → ∃ t, exec (.functionLevelReset true) s = .next t ∧ t.chip.phase = .hung ∧ t.chip.faultN = false ∧
    ∀ h, exec (.functionLevelReset h) t = .next t) ∧
  ((∀ s : State, s.chip.phase = .ready ∨ s.chip.phase = .stopped →
    exec .d3hotEntry s = .next { s with pcie := { s.pcie with d3 := true } }) ∧
  (∀ s : State, s.pcie.d3 = true → ∃ t, exec .d0Return s = .next t ∧ t.pcie.d3 = false ∧ t.streams = s.streams ∧ t.sessions = s.sessions ∧
    t.maquettes = s.maquettes ∧ t.armatures = s.armatures ∧ t.runs = s.runs ∧ t.tracks = s.tracks ∧ t.dram = s.dram ∧ t.safety = s.safety ∧
    t.link = s.link ∧ t.chip = s.chip ∧ t.recov = s.recov))

/-! ### PMBus and pins (19_pins.md) -/

/-- The seven PMBus reads return the value of Table 19.5 and change nothing else: STATUS_TEMPERATURE bits 7 and 6, READ_TEMPERATURE_1 in LINEAR11
(exponent -3: the model's choice, log 25), PMBUS_REVISION 0x33, CAP_ACTIVE, CAP_F, CAP_PIN_F and OT_WARN. OT_WARN takes 60-100 and refuses any other
value with NACK; CLEAR_FAULTS keeps a fault or warning bit only where its condition stays, and PMB_ALERT_n rises when none does (19 R403). -/
def Obligations.PmbusRegisters : Prop :=
  (∀ s : State, s.chip.phase ≠ .thermal →
    let got (bs : List Byte) : State := { s with pcie := { s.pcie with rdata := some bs, rpoison := false } }
    exec .statusTemperature s = .next (got [BitVec.ofNat 8 (128 * b2n s.chip.otFault + 64 * b2n s.chip.otWarned)]) ∧
    exec .readTemperature1 s = .next (got (wordPair (linear11 s.chip.temp))) ∧
    exec .pmbusRevision s = .next (got [0x33]) ∧
    exec .capActive s = .next (got (wordPair (if s.chip.capPin then s.chip.capF else min s.chip.capF s.chip.capPinF))) ∧
    exec (.capF none) s = .next (got (wordPair s.chip.capF)) ∧ exec (.capPinF none) s = .next (got (wordPair s.chip.capPinF)) ∧
    exec (.otWarn none) s = .next (got (wordPair s.chip.otWarn))) ∧
  (∀ s : State, s.chip.phase ≠ .thermal →
    (∀ v, 60 ≤ v → v ≤ 100 → exec (.otWarn (some v)) s =
      .next { s with chip := { s.chip with otWarn := v }, pcie := { s.pcie with rdata := some [], rpoison := false } }) ∧
    (∀ v, v < 60 ∨ 100 < v → exec (.otWarn (some v)) s = .next { s with pcie := { s.pcie with rdata := none, rpoison := false } }) ∧
    ∃ t, exec .clearFaults s = .next t ∧ (t.chip.otFault = true ↔ s.chip.otFault = true ∧ s.chip.temp > if s.chip.industrial then 105000 else 100000) ∧
      (t.chip.otWarned = true ↔ s.chip.otWarned = true ∧ s.chip.temp > (s.chip.otWarn : Int) * 1000) ∧ (t.chip.alertN = true ↔ t.chip.otFault = false ∧ t.chip.otWarned = false) ∧
      t = { s with chip := { s.chip with otFault := t.chip.otFault, otWarned := t.chip.otWarned, alertN := t.chip.alertN },
                   pcie := { s.pcie with rdata := some [], rpoison := false } })

/-- CAP_F, CAP_PIN_F and the level of CAP_n set the power cap: n in 128-256 is taken, the f announced is then the lower of CAP_F and, while CAP_n is
low, CAP_PIN_F; a write outside the range is refused with NACK and changes nothing (19 R402, R403). Streams, sessions, DRAM, safety and host memory
stay. THERMTRIP drives THERMTRIP_n, FAULT_n and SAFE_n low, and until power-on reset the part answers no PMBus command and no BAR access and no
function-level reset revives it (19 R401). TRIG_IN triggers a freeze at the end of the tick it falls in, once start-up is done, and changes no
counter; before, it is ignored (16 R362, R364; 18 R391). -/
def Obligations.PowerCapAndPins : Prop :=
  (∀ s : State,
    let f (p : Bool) (a b : Nat) : Nat := if p then a else min a b
    let rest (t : State) : Prop := t.streams = s.streams ∧ t.sessions = s.sessions ∧ t.runs = s.runs ∧ t.dram = s.dram ∧ t.safety = s.safety ∧
      t.hostMem = s.hostMem ∧ t.journal = s.journal ∧ t.link = s.link ∧ t.chip.otWarn = s.chip.otWarn ∧ t.chip.tick = s.chip.tick
    (∀ v, s.chip.phase ≠ .thermal → 128 ≤ v % 512 → v % 512 ≤ 256 →
      (∃ t, exec (.capF (some v)) s = .next t ∧ t.chip.capF = v % 512 ∧ t.chip.capPinF = s.chip.capPinF ∧ t.chip.capPin = s.chip.capPin ∧
        t.chip.fNow = f s.chip.capPin (v % 512) s.chip.capPinF ∧ t.pcie.rdata = some [] ∧ rest t) ∧
      (∃ t, exec (.capPinF (some v)) s = .next t ∧ t.chip.capPinF = v % 512 ∧ t.chip.capF = s.chip.capF ∧ t.chip.capPin = s.chip.capPin ∧
        t.chip.fNow = f s.chip.capPin s.chip.capF (v % 512) ∧ t.pcie.rdata = some [] ∧ rest t)) ∧
    (∀ v, s.chip.phase ≠ .thermal → v % 512 < 128 ∨ 256 < v % 512 →
      exec (.capF (some v)) s = .next { s with pcie := { s.pcie with rdata := none, rpoison := false } } ∧
      exec (.capPinF (some v)) s = .next { s with pcie := { s.pcie with rdata := none, rpoison := false } }) ∧
    (∀ p, ∃ t, exec (.capN p) s = .next t ∧ t.chip.capPin = p ∧ t.chip.fNow = f p s.chip.capF s.chip.capPinF ∧ t.chip.capF = s.chip.capF ∧
      t.chip.capPinF = s.chip.capPinF ∧ rest t)) ∧
  (∀ s : State, ∃ t, exec .thermtrip s = .next t ∧ t.chip.phase = .thermal ∧ t.chip.thermN = false ∧ t.chip.faultN = false ∧ t.safety.safeN = false ∧
    t.chip.tick = s.chip.tick ∧ t.streams = s.streams ∧ t.dram = s.dram ∧ t.hostMem = s.hostMem ∧
    exec .statusTemperature t = .next t ∧ exec (.functionLevelReset false) t = .next t ∧ live t = false ∧
    ∃ u, exec .powerOnReset t = .next u ∧ u.chip.thermN = true) ∧
  (∀ s : State,
    (s.chip.phase = .ready → s.obs.freeze = none → exec .trigIn s =
      .next { s with obs := { s.obs with sources := s.obs.sources ||| 2, trigger := true, tickTrig := s.obs.tickTrig ||| 2 } }) ∧
    (s.chip.phase = .ready → s.obs.freeze.isSome = true → exec .trigIn s =
      .next { s with obs := { s.obs with sources := s.obs.sources ||| 2 ||| 8, trigger := s.obs.trigger, tickTrig := s.obs.tickTrig ||| 2 } }) ∧
    (s.chip.phase ≠ .ready → exec .trigIn s = .next s))

/-! ### The PCI Express endpoint (13_host_endpoint.md) -/

/-- CMD_RING_TAIL is taken where it does not move the tail back or lie beyond the ring; otherwise it is ignored, BAD_TAIL is set, and its cause with
its first setting (03 R49; 13 Table 13.9). CPL_RING_HEAD is taken up to the next completion entry; otherwise it is ignored and CONFIG_ERR is set (03
R52; 13 R305). Setting RING_EN of a host queue with sizes in range starts the ring anew: head, tail and ASN counter 0, PHASE 1; out of range it stays
0 and CONFIG_ERR is set. Clearing it stops acceptance and changes nothing else (03 R48, R51; 13 R305). -/
def Obligations.HostRingRegisters : Prop :=
  (∀ (q : Nat) (v : Word) (s : State), barOpen s = true → q < 2 →
    let h := s.queue q
    let n := h.cmdSize.toNat
    let w := v.toNat % 2 ^ 16
    (w < n → (h.tail + n - h.head) % n ≤ (w + n - h.head) % n → exec (.cmdRingTail q v) s = .next (s.setQueue q { h with tail := w })) ∧
    (n ≤ w ∨ (w + n - h.head) % n < (h.tail + n - h.head) % n → ∃ t, exec (.cmdRingTail q v) s = .next t ∧
      t.queue q = { h with badTail := true } ∧ (h.badTail = false → t.pcie.cause.getLsbD 2 = true) ∧ t.journal = s.journal)) ∧
  (∀ (q : Nat) (v : Word) (s : State), barOpen s = true → q < 2 →
    let h := s.queue q
    let n := h.cplSize.toNat
    let w := v.toNat % 2 ^ 16
    (w < n → (w + n - h.cplHead) % n ≤ (h.cplIndex + n - h.cplHead) % n →
      exec (.cplRingHead q v) s = .next (s.setQueue q { h with cplHead := w })) ∧
    (n ≤ w ∨ (h.cplIndex + n - h.cplHead) % n < (w + n - h.cplHead) % n → ∃ t, exec (.cplRingHead q v) s = .next t ∧
      t.queue q = { h with configErr := true } ∧ t.journal = s.journal)) ∧
  (∀ (q : Nat) (s : State), barOpen s = true → q < 2 →
    (s.chip.phase = .ready → (s.queue q).ringEn = false → queueConfigOk (s.queue q) = true →
      exec (.ringEnSet q) s = .next (s.setQueue q
        { s.queue q with
          ringEn := true, head := 0, tail := 0, cplHead := 0, cplIndex := 0, phase := true, asn := 0, cmdLastAsn := 0, cplLastAsn := 0
          failRun := 0, everEnabled := true })) ∧
    ((s.queue q).ringEn = false → queueConfigOk (s.queue q) = false → ∃ t, exec (.ringEnSet q) s = .next t ∧
      t.queue q = { s.queue q with configErr := true } ∧ t.journal = s.journal) ∧
    exec (.ringEnClear q) s = .next (s.setQueue q { s.queue q with ringEn := false }))

/-- Setting an output ring's RING_EN with values in range puts OUT_RING_HEAD and OUT_TAIL to 0 and begins at offset 0, and records that waited leave in
their order; out of range it stays 0 and CONFIG_ERR is set (13 R305, Table 13.5; 03 R54). Clearing it leaves it 0, with every written record covered (03
R53; 13 R305). OUT_RING_HEAD is taken where it is a multiple of 32 inside the ring; OUT_COAL and OUT_COAL_BYTES are taken while the ring is off or the
value is in range; otherwise each is ignored and sets CONFIG_ERR (13 R305, Table 13.5). -/
def Obligations.OutputRingRegisters : Prop :=
  (∀ (o : Nat) (s : State), barOpen s = true → o < 8 →
    (s.chip.phase = .ready → (s.oring o).ringEn = false → outConfigOk (s.oring o) = true → ∃ t k, exec (.outRingEnSet o) s = .next t ∧
      (t.oring o).ringEn = true ∧ (t.oring o).active = true ∧ (t.oring o).head = 0 ∧ (t.oring o).held = (s.oring o).held.drop k ∧
      t.streams = s.streams ∧ ((s.oring o).held = [] → t = s.setOring o
        { s.oring o with ringEn := true, active := true, head := 0, tail := 0, wr := 0, uncovered := [], uncoveredBytes := 0 })) ∧
    ((s.oring o).ringEn = false → outConfigOk (s.oring o) = false → ∃ t, exec (.outRingEnSet o) s = .next t ∧
      t.oring o = { s.oring o with configErr := true }) ∧
    ((s.oring o).ringEn = true → ∃ t, exec (.outRingEnClear o) s = .next t ∧ (t.oring o).ringEn = false ∧ (t.oring o).active = false ∧
      (t.oring o).uncovered = [] ∧ (t.oring o).held = (s.oring o).held)) ∧
  (∀ (o : Nat) (v : Word) (s : State), barOpen s = true → o < 8 →
    let r := s.oring o
    let refused (c : Instr) : Prop := ∃ t, exec c s = .next t ∧ t.oring o = { r with configErr := true } ∧ t.streams = s.streams ∧ t.hostMem = s.hostMem
    (if fld v 25 0 % 32 = 0 ∧ fld v 25 0 < r.bytes then exec (.outRingHead o v) s = .next (s.setOring o { r with head := fld v 25 0 })
     else refused (.outRingHead o v)) ∧
    (if r.ringEn = false ∨ (keep v 12 0).toNat ≤ 4000 then exec (.outCoal o v) s = .next (s.setOring o { r with coal := keep v 12 0 })
     else refused (.outCoal o v)) ∧
    (if r.ringEn = false ∨ coalBytesOk (keep v 20 0) = true then
       exec (.outCoalBytes o v) s = .next (s.setOring o { r with coalBytes := keep v 20 0 })
     else refused (.outCoalBytes o v)))

/-- The reads with a side effect: TICK_LO and OUT_FULL_TICKS_LO return the low half and latch the high half, ACCESS_ERRORS returns its count and
clears it (13 Tables 13.3, 13.5). A register write that does not cover a whole DW is counted in ACCESS_ERRORS and ignored (13 R304). Of those that do,
BAR2_WINDOW, the low command ring base of queue 0 and OUT_COAL's neighbour at 0x201C read back what was written in their writable bits, and the
read-only offsets named here ignore it. A write to INTX_CAUSE clears the bits written 1, but for one that hardware sets in the same clock, which stays 1
(13 R307). A configuration write sets the writable bits of BAR0 and of BAR2's high half by the size strap, whose other bits read as R301 fixes them, and
clears the AER status bits written 1 (13 R301, R309; where the registers of R297 and R300 lie is the model's, log 141). -/
def Obligations.RegisterAccess : Prop :=
  (∀ s : State, barOpen s = true →
    exec .tickLo s = .next { s with pcie := { s.pcie with tickHi := hi32 s.chip.tick, rdata := some (wordBytes (w32 s.chip.tick)), rpoison := false } } ∧
    exec .accessErrors s =
      .next { s with pcie := { s.pcie with accessErrors := 0, rdata := some (wordBytes s.pcie.accessErrors), rpoison := false } } ∧
    ∀ o, o < 8 → ∃ t, exec (.outFullTicksLo o) s = .next t ∧ t.oring o = { s.oring o with fullHi := hi32 (s.oring o).fullTicks } ∧
      t.pcie.rdata = some (wordBytes (w32 (s.oring o).fullTicks)) ∧ t.streams = s.streams ∧ t.dram = s.dram) ∧
  (∀ (v : Word) (s : State), barOpen s = true →
    (∀ off be, be ≠ 15 → exec (.registerWrite (.bar0 off) v be) s =
      .next { s with pcie := { s.pcie with accessErrors := w32 (satAdd 32 s.pcie.accessErrors.toNat 1) } }) ∧
    (∃ t, exec (.registerWrite (.bar0 0x38) v 15) s = .next t ∧ regRead t 0x38 = keep v 3 0 ∧ t.hq = s.hq ∧ t.outq = s.outq) ∧
    (∃ t, exec (.registerWrite (.bar0 0x1000) v 15) s = .next t ∧ regRead t 0x1000 = keep v 31 12 ∧ t.pcie = s.pcie ∧ t.outq = s.outq) ∧
    (∃ t, exec (.registerWrite (.bar0 0x201C) v 15) s = .next t ∧ regRead t 0x201C = keep v 13 0 ∧ t.pcie = s.pcie ∧ t.outq = s.outq) ∧
    (∀ off ∈ [0x0, 0x4, 0x8, 0x10, 0x14, 0x30, 0x40, 0x44, 0x1028, 0x102C, 0x1048, 0x3024, 0x3028, 0x3044],
      exec (.registerWrite (.bar0 off) v 15) s = .next s) ∧
    ∀ same, ∃ t, exec (.intxCause { v := v, same := same }) s = .next t ∧ t.hq = s.hq ∧ t.outq = s.outq ∧ t.journal = s.journal ∧
      ∀ k, t.pcie.cause.getLsbD k = (s.pcie.cause.getLsbD k && !(v.getLsbD k && !(same.getLsbD k && (recentCauses s).getLsbD k)))) ∧
  (∀ (v : Word) (s : State), configOpen s = true →
    (∃ t, exec (.registerWrite (.config (.bar 0)) v 15) s = .next t ∧ configRead t (.bar 0) = (v &&& 0xFE000000) ||| 0x4 ∧ t.hq = s.hq ∧
      t.pcie.cause = s.pcie.cause) ∧
    (∃ t, exec (.registerWrite (.config (.bar 3)) v 15) s = .next t ∧
      configRead t (.bar 3) = (if s.chip.barSize then (s.pcie.bar2Hi &&& 3) ||| (v &&& 0xFFFFFFFC) else v) ∧ t.hq = s.hq ∧ t.pcie.cause = s.pcie.cause) ∧
    (∃ t, exec (.registerWrite (.config .uncorStatus) v 15) s = .next t ∧ t.pcie.uncorStatus = s.pcie.uncorStatus &&& ~~~v ∧
      t.pcie.corStatus = s.pcie.corStatus ∧ t.hq = s.hq) ∧
    (∃ t, exec (.registerWrite (.config .corStatus) v 15) s = .next t ∧ t.pcie.corStatus = s.pcie.corStatus &&& ~~~v ∧
      t.pcie.uncorStatus = s.pcie.uncorStatus ∧ t.hq = s.hq))

/-- While the function answers no BAR access (start-up not done, D3hot, a hung reset, a thermal trip), every BAR command is an Unsupported Request
that AER logs: it returns no data and changes nothing else (13 R302, R308, R310; its header is a free value). BAR2_WRITE changes no byte of DRAM outside
the bytes it addresses, and inside them stores each byte the rules do not discard: model weights, picture regions, and the regions of the firmware, the
TAE spill, the Impressions, the pool metadata and the safety store stay (13 R303; 11 R254; 01 R406). BAR2_READ of bytes without error returns the stored
bytes, those of every write queued before it among them, with zeros in a closed picture region and in check bytes, and changes nothing else; a sector it
touches with an uncorrectable error, protected and not masked, poisons it (11 R266); an address beyond the BAR or the memory is an Unsupported Request
(13 R301, R303; 11 R261; 01 R406; 16 R371). -/
def Obligations.BarAccess : Prop :=
  (∀ s : State, barOpen s = false → ∀ (q o off len be : Nat) (v : Word) (w : IntxWrite) (ecc : List EccCond) (bytes : List Byte), ∃ p : Pcie,
    p.rdata = none ∧ bit p.uncorStatus 20 = true ∧ p.cause = s.pcie.cause ∧ p.mask = s.pcie.mask ∧ p.window = s.pcie.window ∧
    ∀ c ∈ [Instr.cmdRingTail q v, .cplRingHead q v, .ringEnSet q, .ringEnClear q, .outRingEnSet o, .outRingEnClear o, .outRingHead o v, .outCoal o v,
           .outCoalBytes o v, .intxCause w, .tickLo, .outFullTicksLo o, .accessErrors, .registerWrite (.bar0 off) v be, .bar2Read off len ecc,
           .bar2Write off bytes], exec c s = .next { s with pcie := p, free := s.free + 4 }) ∧
  (∀ (off : Nat) (bs : List Byte) (s : State), barOpen s = true → bar2In s off bs.length = true → bar2Addr s off + bs.length ≤ spaceBytes s.dram →
    Memory.wf s.dram.cells = true →
    ∃ t, exec (.bar2Write off bs) s = .next t ∧ t.streams = s.streams ∧ t.maquettes = s.maquettes ∧ t.hostMem = s.hostMem ∧
      (s.dram.bad = [] → t.pcie = s.pcie ∧ t.safety = s.safety) ∧
      (∀ a, a < bar2Addr s off ∨ bar2Addr s off + bs.length ≤ a → mget t.dram.cells a = mget s.dram.cells a) ∧
      ∀ i b, bs[i]? = some b → mget t.dram.cells (bar2Addr s off + i) =
        if bar2Discards s (bar2Addr s off + i) then mget s.dram.cells (bar2Addr s off + i) else b) ∧
  (∀ (off len : Nat) (ecc : List EccCond) (s : State), barOpen s = true →
    (bar2In s off len = true → bar2Addr s off + len ≤ spaceBytes s.dram →
      (s.dram.bad = [] → (∀ c ∈ ecc, c = .clean) →
        ∃ t, exec (.bar2Read off len ecc) s = .next t ∧ t.pcie.rpoison = false ∧ t.dram = s.dram ∧ t.streams = s.streams ∧ t.safety = s.safety ∧
          ∃ bytes, t.pcie.rdata = some bytes ∧ bytes.length = len ∧
            ∀ i, i < len → bytes[i]? = some (
              let a := bar2Addr s off + i
              if checkSector s.dram a || (inPicture s a && !(s.obs.trace.tapEn && inPictureOf s s.obs.trace.tapSlot a)) then 0
              else mget s.dram.cells a)) ∧
      (∀ i, ecc[i]? = some .double → i < (bar2Addr s off % 32 + len + 31) / 32 →
        let k := bar2Addr s off / 32 + i
        let first := max (bar2Addr s off) (32 * k)
        (placeOf s.dram first).protected = true → bar2Masked s first = false →
        ∃ t, exec (.bar2Read off len ecc) s = .next t ∧ t.pcie.rpoison = true ∧ t.streams = s.streams ∧ t.dram.cells = s.dram.cells)) ∧
    (bar2In s off len = false ∨ spaceBytes s.dram < bar2Addr s off + len →
      ∃ t, exec (.bar2Read off len ecc) s = .next t ∧ t.pcie.rdata = none ∧ bit t.pcie.uncorStatus 20 = true ∧ t.dram = s.dram))

/-- INTA follows its expression: setting Interrupt Disable deasserts it; clearing it, or the end of the holdoff, asserts it while a masked cause is
set and the holdoff has passed; Interrupt Status shows that a masked cause is set, whatever Interrupt Disable holds (13 R306). Nothing but the interrupt
state and, for the expiry, the clock changes. An error of Table 13.10 is logged: its status bit is sticky, its message, unless it is masked, has the class
of its severity, and the Header Log keeps the header of an unmasked uncorrectable one while none stands under the First Error Pointer; after reset the
severities are the defaults (13 R308; the bits' places are the base specification's, log 141). A slot read that fails is counted, and the eighth in a row
sets CONFIG_ERR (13 R299, R312). -/
def Obligations.InterruptsAndErrors : Prop :=
  (∀ s : State, s.pcie.d3 = false → configOpen s = true →
    (∃ t, exec (.interruptDisable true) s = .next t ∧ t.pcie.asserted = false ∧ t.pcie.command = s.pcie.command ||| 0x400 ∧ t.pcie.cause = s.pcie.cause ∧
      bit (configRead t .commandStatus) 19 = causePending s.pcie ∧ t.hq = s.hq ∧ t.outq = s.outq ∧ t.streams = s.streams) ∧
    (s.pcie.cause &&& s.pcie.mask ≠ 0 → s.pcie.deassertAt = none →
      ∃ t, exec (.interruptDisable false) s = .next t ∧ t.pcie.asserted = true ∧ t.pcie.command = s.pcie.command &&& ~~~0x400 ∧
        t.pcie.cause = s.pcie.cause ∧ bit (configRead t .commandStatus) 19 = true ∧ t.hq = s.hq ∧ t.outq = s.outq ∧ t.streams = s.streams) ∧
    (∀ d, s.pcie.cause &&& s.pcie.mask ≠ 0 → bit s.pcie.command 10 = false → s.pcie.asserted = false → s.pcie.deassertAt = some d →
      s.chip.tick ≤ d + s.pcie.holdoff.toNat → d + s.pcie.holdoff.toNat < 2 ^ 64 →
      ∃ t, exec .intxHoldoffExpiry s = .next t ∧ t.pcie.asserted = true ∧ t.pcie.cause = s.pcie.cause ∧ t.chip.tick = d + s.pcie.holdoff.toNat ∧
        t.hq = s.hq ∧ t.streams = s.streams ∧ t.dram = s.dram)) ∧
  (∀ (e : AerError) (h : List Word) (s : State), s.chip.phase ≠ .thermal → ∃ t, exec (.aerError e h) s = .next t ∧
    (if aerCorrectable e then
       bit t.pcie.corStatus (aerBit e) = true ∧ t.pcie.uncorStatus = s.pcie.uncorStatus ∧ t.pcie.headerLog = s.pcie.headerLog ∧
       t.pcie.errMsgs = s.pcie.errMsgs ++ (if bit s.pcie.corMask (aerBit e) then [] else [0])
     else
       bit t.pcie.uncorStatus (aerBit e) = true ∧ t.pcie.corStatus = s.pcie.corStatus ∧
       t.pcie.errMsgs = s.pcie.errMsgs ++
         (if bit s.pcie.uncorMask (aerBit e) then [] else if bit s.pcie.uncorSeverity (aerBit e) then [2] else [1]) ∧
       (bit s.pcie.uncorMask (aerBit e) = false → bit s.pcie.uncorStatus s.pcie.firstError = false →
         t.pcie.headerLog = h.take 4 ∧ t.pcie.firstError = aerBit e) ∧
       (bit s.pcie.uncorStatus s.pcie.firstError = true → t.pcie.headerLog = s.pcie.headerLog)) ∧
    (∀ k, bit s.pcie.uncorStatus k = true → bit t.pcie.uncorStatus k = true) ∧
    t.pcie.cause = s.pcie.cause ∧ t.hq = s.hq ∧ t.journal = s.journal ∧ t.dram = s.dram) ∧
  (∀ e : AerError, aerCorrectable e = false → bit State.reset.pcie.uncorSeverity (aerBit e) =
    decide (e ∈ [AerError.dataLinkProtocol, .receiverOverflow, .flowControl, .malformed])) ∧
  (∀ (q : Nat) (c : ReadCause) (h : List Word) (s : State), live s = true → (s.queue q).ringEn = true → s.pcie.d3 = false →
    0 < slotsReady (s.queue q) → (s.queue q).failRun < 8 →
    ∃ t, exec (.hostReadFail { place := .slot q, cause := c, header := h }) s = .next t ∧ (t.queue q).failRun = (s.queue q).failRun + 1 ∧
      ((s.queue q).failRun = 7 → (t.queue q).configErr = true) ∧ t.journal = s.journal ∧
      tget t.obs.ctrs (ctrReadFail q) 0 = (tget s.obs.ctrs (ctrReadFail q) 0 + 1) % 2 ^ 48)

/-! ### Commands, acceptance and completions (03_commands.md) -/

/-- NOP completes with OK; FENCE completes with OK and the number of earlier commands of its scope unfinished at its acceptance, once every one of
them has posted its final completion, and waits until then (03 R58, R67). A private opcode on any port but M, and an opcode not permitted on its port,
complete with PORT_PRIVILEGE; an undefined one completes with BAD_OPCODE (03 R44). On an active maintenance port likewise, but for the opcodes
0xF0-0xFF: the manual says nothing of them there, and the model stops; with every shared journal entry in use a packet there is not accepted (03 R65).
-/
def Obligations.NopFenceAndForeignOpcodes : Prop :=
  (∀ (j : Nat) (e : JEntry) (s : State),
    (Runs s j 0x01 e → exec (.nop j) s = .next (finish j stOk [] (beginCmd e s))) ∧
    (Runs s j 0x02 e → fenceClear s e (bit (e.param 0) 0) = true → exec (.fence j) s = .next (finish j stOk [w32 e.waited] (beginCmd e s))) ∧
    (s.entry? j = some e → fenceClear s e (bit (e.param 0) 0) = false → exec (.fence j) s = .next s)) ∧
  ((∀ (j : Nat) (e : JEntry) (s : State), s.entry? j = some e → mayBegin s j e.opcode = true →
    (0xF0 ≤ e.opcode ∨ (∃ i, opInfo e.opcode = some i ∧ i.allows e.port = false) →
      exec (.testOpcode (.journal j)) s = .next (finish j stPortPrivilege [] (beginCmd e s))) ∧
    (e.opcode < 0xF0 → opInfo e.opcode = none → exec (.testOpcode (.journal j)) s = .next (finish j stBadOpcode [] (beginCmd e s)))) ∧
  (∀ (pkt : List Word) (s : State), maintenanceUp s = true →
    let op := fld (pkt.getD 0 0) 7 0
    (0xF0 ≤ op → exec (.testOpcode (.maintenance pkt)) s = .refused .privateTestOpcode) ∧
    (op < 0xF0 → Config.journalShared ≤ sharedUsed s → exec (.testOpcode (.maintenance pkt)) s = .next s) ∧
    (op < 0xF0 → op ≠ 0xA0 → op ≠ 0x93 → sharedUsed s < Config.journalShared → ∃ t c, exec (.testOpcode (.maintenance pkt)) s = .next t ∧ t.mntCpl = some c ∧
      c.status = (if (opInfo op).isSome then stPortPrivilege else stBadOpcode) ∧ c.final = true ∧ c.tag = pkt.getD 1 0 ∧ c.asn = s.mntAsn + 1 ∧
      kept t = kept { s with jpos := s.jpos + 1, jlast := (s.chip.tick, 5), mntAsn := s.mntAsn + 1 } ∧ t.hostMem = s.hostMem ∧ t.journal = s.journal)))

/-- The final completion of the only command of a host queue is written at the next entry of its completion ring with the words of Table 3.6, and its
journal entry is freed; PHASE inverts where the ring wraps (03 R51, R65). A first completion sets CPL_LAST_ASN, and one with IRQ its cause. First
completions are posted in ASN order: that of a later command waits while an earlier one of the same host queue has posted none, and then both are
posted and freed (03 R66). Beginning a command, and giving it its final completion, change nothing but the journal, the client's account, the
completion rings in host memory with their positions, the interrupt, and packets to other parts; no other byte of host memory changes, and the ring
positions stay inside the rings (03 R51, R57, R59). -/
def Obligations.CompletionsPosted : Prop :=
  (∀ (e : JEntry) (st : Nat) (r : List Word) (s : State), s.journal = [e] → e.port = .host → e.queue < 2 → e.cpls = [] → s.pcie.d3 = false →
    s.chip.fatal = false → Memory.wf s.hostMem = true →
    let h := s.queue e.queue
    let addr := join64 h.cplBaseLo h.cplBaseHi + 32 * h.cplIndex
    let wrap := decide (h.cplSize.toNat ≤ h.cplIndex + 1)
    let t := finish e.jpos st r s
    t.journal = [] ∧ kept t = kept s ∧
    mread t.hostMem addr 32 = wordsBytes [dw [(b2n h.phase, 24, 24), (e.opcode, 23, 16), (st, 15, 0)], e.tag, e.asn,
      dw [(1, 31, 31), (s.link.chip, 29, 24), (e.gen, 23, 16), (e.ctx, 15, 0)], r.getD 0 0, r.getD 1 0, r.getD 2 0, r.getD 3 0] ∧
    (∀ a, a < addr ∨ addr + 32 ≤ a → mget t.hostMem a = mget s.hostMem a) ∧
    (t.queue e.queue).cplIndex = (if wrap then 0 else h.cplIndex + 1) ∧ (t.queue e.queue).phase = (if wrap then !h.phase else h.phase) ∧
    (t.queue e.queue).cplLastAsn = (if e.posted = 0 then e.asn else h.cplLastAsn) ∧ (e.irq = true → t.pcie.cause.getLsbD e.queue = true)) ∧
  (∀ (a b : JEntry) (st st' : Nat) (r r' : List Word) (s : State), s.journal = [a, b] → a.port = .host → b.port = .host → a.queue < 2 →
    b.queue = a.queue → a.jpos < b.jpos → a.cpls = [] → b.cpls = [] → a.posted = 0 → b.posted = 0 → s.pcie.d3 = false → s.chip.fatal = false →
    let t := finish b.jpos st r s
    t.hostMem = s.hostMem ∧ t.hq = s.hq ∧ t.journal = [a, { b with cpls := [b.cpl s.link.chip st true b.gen b.ctx r], st := .done }] ∧
    (finish a.jpos st' r' t).journal = []) ∧
  ((∀ (e : JEntry) (s : State), kept (beginCmd e s) = kept s ∧ (beginCmd e s).hostMem = s.hostMem ∧ (beginCmd e s).hq = s.hq ∧
    (beginCmd e s).pcie = s.pcie) ∧
  ∀ (j st : Nat) (r : List Word) (s : State), cplIndexOk s 0 → cplIndexOk s 1 →
    let t := finish j st r s
    kept t = kept s ∧ cplIndexOk t 0 ∧ cplIndexOk t 1 ∧
    (∀ a, ¬ inCplRing s 0 a → ¬ inCplRing s 1 a → mget t.hostMem a = mget s.hostMem a) ∧
    ∀ x ∈ t.journal, ∃ y ∈ s.journal, x.jpos = y.jpos)

/-- While the maintenance port is inactive, the device ignores every input on its balls and accepts nothing on it. TEST_EN, which makes it active, is
sampled at the end of power-on reset (18 R384). -/
def Obligations.InactiveMaintenancePort : Prop :=
  ∀ (pkt : List Word) (sw : Sweep) (s : State), s.chip.testEn = false → strapsTaken s = true →
    exec (.dramTrainStep pkt sw) s = .next s ∧ exec (.impressionRead (.maintenance pkt)) s = .next s ∧
    exec (.testOpcode (.maintenance pkt)) s = .next s

/-- A host packet that no check of R72 takes at once is journalled as waiting, with the next ASN and journal position, its tick and the count a FENCE
reports, and the head write-back covers it (03 R50, R61, R62); nothing else changes. Behind a packet of a later place in the order of ports and queues
that came in the same tick it is journalled in the next one (03 R68; the model's choice of when, log 110). What cannot be accepted is not read. -/
def Obligations.PacketAccepted : Prop :=
  (∀ (q : Nat) (r : SlotRead) (s : State), q < 2 → canAccept s q r.words = true →
    let c := if q = 0 then Instr.commandAccept [r] [] else .commandAccept [] [r]
    let place : Fin 6 := if q = 0 then 1 else 2
    let h := s.queue q
    let w0 := r.words.getD 0 0
    let e : JEntry :=
      { jpos := s.jpos + 1, port := .host, queue := q, asn := h.asn + 1, pkt := r.words, data := r.data, tick := s.chip.tick, st := .waiting,
        cpls := [], posted := 0, waited := fenceCount s .host q (s.jpos + 1) (bit (r.words.getD 4 0) 0), origin := none, fwd := none,
        began := none, client := fld w0 23 16, place := mirrorPlace s, during := s.recov.domainAt.isSome || domainRequested s }
    let head := (h.head + 1 + fld w0 25 24) % h.cmdSize.toNat
    let behind : Prop := s.jlast.1 = s.chip.tick ∧ place < s.jlast.2
    (¬ behind → earlyCheck s e = .proceed → ∃ t, exec c s = .next t ∧ t.journal = s.journal ++ [e] ∧
      kept t = kept { s with jpos := s.jpos + 1, jlast := (s.chip.tick, place) } ∧ t.pcie = s.pcie ∧ t.queue (1 - q) = s.queue (1 - q) ∧
      t.queue q = { h with head := head, asn := h.asn + 1, cmdLastAsn := h.asn + 1, failRun := 0 } ∧
      t.hostMem = mwrite s.hostMem (join64 h.headWbLo h.headWbHi) (wordsBytes [w32 head, h.asn + 1, 0, 0])) ∧
    (behind → exec c s = exec c (advance 1 s))) ∧
  ∀ (r0 r1 : SlotRead) (l0 l1 : List SlotRead) (s : State), canAccept s 0 r0.words = false → canAccept s 1 r1.words = false →
    exec (.commandAccept (r0 :: l0) (r1 :: l1)) s = .next s ∧ exec (.commandAccept [] (r1 :: l1)) s = .next s ∧
    exec (.commandAccept (r0 :: l0) []) s = .next s

/-! ### Streams (04_stream_decode.md) -/

/-- STREAM_OPEN of a closed slot, named or the lowest free, with every value in its range, room in the budgets and its buffers allocated, opens the slot with
the generation it holds, the entropy engine with the most unreserved capacity and the allocated buffers, sets the reconstruction pool's order anew, and
completes with OPEN_OK (04 R77-R82; 03 R69, R70). No other slot changes, nor any byte of DRAM; a SAFETY stream opened while safety is armed is a configuration
change, and while it is off one that is counted (14 R315, R319, Table 14.2). An open that waited behind a close runs the same way, and its slot is busy for
other commands until then (03 R72). -/
def Obligations.StreamOpened : Prop :=
  (∀ (j n : Nat) (e : JEntry) (s : State) (bufs : List (List Alloc)) (u : State),
    let c := StreamCfg.ofEntry e
    let k := if c.codec = 2 then 0 else pickEngine s
    Runs s j 0x10 e → (e.ctx = n ∨ e.ctx = 0xFFFF ∧ freeSlot s = some n) → n < 128 → (s.stream n).isOpen = false → e.gen = 0 → c.bad = none →
    (c.codec = 2 → audioCount s < 64) → (c.codec ≠ 2 → pixSum s n + c.bPix ≤ 6400000000 ∧ engineLoad s k + c.bins ≤ 1000000000) →
    allocAll c.safety false c.buffers [] (beginCmd e s) = (some bufs, u) →
    ∃ v, exec (.streamOpen j) s = .next (finishCtx j stOpenOk (s.stream n).gen n [w32 c.buffers.sum, hi32 c.buffers.sum, w32 k] v) ∧
      v.stream n = { Stream.closed (s.stream n).gen with
        isOpen := true, cfg := c, engine := k, retCap := c.retBytes, deferred := (s.stream n).deferred, wholeAt := s.chip.tick
        picRegion := if c.codec = 2 then [] else bufs.getD 0 []
        retAllocs := bufs.getD (if c.codec = 2 then 0 else 1) []
        allocs := bufs.getD (if c.codec = 2 then 1 else 2) [] } ∧
      (∀ m, m ≠ n → v.stream m = s.stream m) ∧ v.dram = u.dram ∧ v.dram.cells = s.dram.cells ∧ v.hostMem = s.hostMem ∧ v.sessions = s.sessions ∧
      v.pool = (v.streams.filter (fun x => x.2.isOpen && decide (x.2.cfg.codec ≠ 2))).map (fun x => (x.1, x.2.cfg.bPix, 0)) ∧
      (c.safety = true → s.safety.state = 0 → v.safety.state = 0 ∧ tget v.safety.seen 15 0 = tget s.safety.seen 15 0 + 1) ∧
      (c.safety = false → kept v = kept { s with streams := v.streams, dram := v.dram, pool := v.pool }) ∧
      (c.safety = true → s.safety.state = 1 → v.safety.state = 2 ∧ v.safety.safeN = false ∧ maskBit v.safety.causes 15 = true)) ∧
  ∀ (j n : Nat) (e : JEntry) (s s0 : State), Runs s j 0x10 e → e.ctx = n → n < 128 → s0.entry? j = some { e with st := .deferred } →
    (s0.stream n).opening = true → clearDeferred (false, n) (modEntry j (fun y => { y with st := .waiting }) s0) = s →
    ∃ u, exec (.streamOpen j) s = .next u ∧ exec (.deferredOpenRun j false) s0 = .next (u.modStream n (fun x => { x with opening := false }))

/-- The checks of STREAM_OPEN in their order: a slot already open, a GEN other than 0, a value out of range, no free slot, a budget exceeded, buffers
that cannot be allocated; each completes with its status and opens nothing (03 R57, R69, R72; 04 R77, R79, R80, R82). A feed with a bad length or framing
completes with BAD_PARAMETER and the bytes in use and free, and its data is discarded; every command on a stream that is not open, is closing, or has
another generation completes with that status and changes nothing else, but that a rejected close leaves an open deferred behind it to run (04 R85; 03
R57, R69, R70, R72). -/
def Obligations.StreamCommandChecks : Prop :=
  (∀ (j : Nat) (e : JEntry) (s : State), Runs s j 0x10 e → e.ctx < 128 ∨ e.ctx = 0xFFFF →
    let c := StreamCfg.ofEntry e
    let answers (st : Nat) (r : List Word) : Prop := exec (.streamOpen j) s = .next (finish j st r (beginCmd e s))
    let shut := e.ctx = 0xFFFF ∨ (s.stream e.ctx).isOpen = false
    let slot := if e.ctx = 0xFFFF then freeSlot s else some e.ctx
    (e.ctx < 128 → (s.stream e.ctx).isOpen = true → answers stCtxBusy []) ∧
    (shut → e.gen ≠ 0 → answers stStaleGen []) ∧
    (∀ i, shut → e.gen = 0 → c.bad = some i → answers stBadParam [w32 i]) ∧
    (shut → e.gen = 0 → c.bad = none → slot = none → answers stNoFree []) ∧
    (∀ n, shut → e.gen = 0 → c.bad = none → slot = some n →
      (c.codec = 2 → 64 ≤ audioCount s → answers stDecodeBudget []) ∧
      (c.codec ≠ 2 → 6400000000 < pixSum s n + c.bPix ∨ 1000000000 < engineLoad s (pickEngine s) + c.bins → answers stDecodeBudget []) ∧
      ∀ u, (c.codec = 2 → audioCount s < 64) →
        (c.codec ≠ 2 → pixSum s n + c.bPix ≤ 6400000000 ∧ engineLoad s (pickEngine s) + c.bins ≤ 1000000000) →
        allocAll c.safety false c.buffers [] (beginCmd e s) = (none, u) →
        exec (.streamOpen j) s = .next (finish j stPoolEmpty [] u) ∧ u.streams = s.streams)) ∧
  (∀ (j : Nat) (e : JEntry) (s : State),
    (RunsOn s j 0x12 e → feedOk (s.stream e.ctx).cfg (e.param 2).toNat e.data = false →
      let x := s.stream e.ctx
      exec (.streamFeed j) s = .next (finish j stBadParam [w32 x.inUse, w32 (x.retCap - x.inUse)] (beginCmd e s))) ∧
    ∀ x ∈ [((0x11 : Nat), Instr.streamClose j), (0x12, .streamFeed j), (0x13, .streamRetune j), (0x40, .trackConfig j), (0x41, .trackQuery j)],
      Runs s j x.1 e → e.ctx < 128 →
      let answers (st : Nat) : Prop := exec x.2 s = .next
        (if x.1 = 0x11 then rejectClose j st (false, e.ctx) (beginCmd e s) else finish j st [] (beginCmd e s))
      ((s.stream e.ctx).isOpen = false → answers stBadContext) ∧
      ((s.stream e.ctx).isOpen = true → (s.stream e.ctx).closing = none → e.gen ≠ (s.stream e.ctx).gen → answers stStaleGen) ∧
      ((s.stream e.ctx).isOpen = true → (s.stream e.ctx).closing.isSome = true → answers stCtxClosing))

/-- STREAM_FEED of well-framed data that fits retention, after what R108 lets go, appends it in order with its marks and completes with OK and the
bytes in use and free (04 R85). Where it does not fit and the stream is overdue, whole access units go, oldest first, until it fits: the RETENTION_SHORT
condition and one STREAM_EVENT begin, and the feed carries it (R109). What fits neither way is discarded with FEED_OVERFLOW, one STREAM_EVENT and a mark
that cuts the access unit (R86). STREAM_RETUNE of values in range and within the budget and the buffers gives its selected values to the pictures whose
first line becomes final after its acceptance, to an audio stream at once, grows the retention buffer where the values need it, and completes with OK
and where they begin; otherwise it completes with BAD_PARAMETER, DECODE_BUDGET or POOL_EMPTY and changes no value (R84). STREAM_CLOSE posts
CLOSE_DRAINING: with FLUSH the access unit being fed is taken as complete, without it what reconstruction has not begun and what was fed in part is
discarded (03 R71, Table 3.8). While safety is armed the retune or close of a masked slot is a configuration change (14 R319, Table 14.2). -/
def Obligations.StreamFedRetunedAndClosing : Prop :=
  (∀ (j : Nat) (e : JEntry) (s : State), RunsOn s j 0x12 e → feedOk (s.stream e.ctx).cfg (e.param 2).toNat e.data = true →
    let x := s.stream e.ctx
    let len := (e.param 2).toNat
    let y := { x with aus := x.aus.drop (releasable x e.tick), irapFrom := x.irapFrom.orElse (fun _ => some e.tick) }
    let z := if overdue y e.tick then dropOldest x.retCap len y.aus.length y else y
    let told := { z with
      retShort := decide (x.retCap < y.inUse + len) || x.retShort
      retShortAt := if y.inUse + len ≤ x.retCap ∨ x.retShort = true then x.retShortAt else e.tick
      seq := if y.inUse + len ≤ x.retCap ∨ x.retShort = true then x.seq else (x.seq + 1) % 2 ^ 32 }
    (z.inUse + len ≤ x.retCap →
      ∃ v, exec (.streamFeed j) s = .next (finish j stOk [w32 (z.inUse + len), w32 (x.retCap - (z.inUse + len))] v) ∧
        (y.inUse + len ≤ x.retCap → kept v = kept { s with streams := v.streams }) ∧ v.hostMem = s.hostMem ∧ v.sessions = s.sessions ∧
        v.dram = s.dram ∧ (∀ m, m ≠ e.ctx → v.stream m = s.stream m) ∧
        v.stream e.ctx = { told with
          feeds := x.feeds ++ [{ bytes := e.data, tick := e.tick, asn := e.asn, auEnd := bit (e.param 3) 0, discont := bit (e.param 3) 1, drop := false
                                 short := told.retShort }]
          fedBytes := x.fedBytes ++ [(e.tick, e.data.length)] }) ∧
    (x.retCap < z.inUse + len → z.aus.length = y.aus.length →
      ∃ v, exec (.streamFeed j) s = .next (finish j stFeedOverflow [w32 y.inUse, w32 (x.retCap - y.inUse)] v) ∧
        (∀ m, m ≠ e.ctx → v.stream m = s.stream m) ∧ v.sessions = s.sessions ∧ v.dram = s.dram ∧
        v.stream e.ctx = { y with feeds := x.feeds ++ [FeedChunk.mark e.tick e.asn (bit (e.param 3) 0) true], seq := (x.seq + 1) % 2 ^ 32 }) ∧
    (x.retCap < z.inUse + len → z.aus.length < y.aus.length →
      ∃ v, exec (.streamFeed j) s = .next (finish j stFeedOverflow [w32 z.inUse, w32 (x.retCap - z.inUse)] v) ∧
        (∀ m, m ≠ e.ctx → v.stream m = s.stream m) ∧ v.sessions = s.sessions ∧ v.dram = s.dram ∧
        v.stream e.ctx = { told with
          feeds := x.feeds ++ [FeedChunk.mark e.tick e.asn (bit (e.param 3) 0) true], seq := (told.seq + 1) % 2 ^ 32 })) ∧
  (∀ (j : Nat) (e : JEntry) (s : State), RunsOn s j 0x13 e →
    let x := s.stream e.ctx
    let old := x.retune.getD x.cfg
    let m := e.param 0
    let video := decide (old.codec ≠ 2)
    let c := { old with
      bPix := if bit m 0 && video then (e.param 1).toNat else old.bPix
      deadline := if bit m 1 && video then fld (e.param 2) 6 0 else old.deadline
      retention := if bit m 2 then (if fld (e.param 3) 31 16 = 0 then 200 else fld (e.param 3) 31 16) else old.retention
      outRing := if bit m 3 then fld (e.param 4) 22 20 else old.outRing }
    let fits := video = true → old.bPix < c.bPix → pixSum s e.ctx + c.bPix ≤ 6400000000
    let fresh (p : Picture) : Bool := p.freshAfter e.tick && decide (0 < p.line)
    (∀ i, retuneBad e c = some i → exec (.streamRetune j) s = .next (finish j stBadParam [w32 i] (beginCmd e s))) ∧
    (retuneBad e c = none → ¬ fits → exec (.streamRetune j) s = .next (finish j stDecodeBudget [] (beginCmd e s))) ∧
    (retuneBad e c = none → fits → ∀ b u, allocAll x.cfg.safety false [c.retBytes] [] (beginCmd e s) = (b, u) → x.retCap < c.retBytes → b = none →
      exec (.streamRetune j) s = .next (finish j stPoolEmpty [] u) ∧ u.streams = s.streams) ∧
    (retuneBad e c = none → fits → ∀ b u, allocAll x.cfg.safety false [c.retBytes] [] (beginCmd e s) = (b, u) → c.retBytes ≤ x.retCap ∨ b.isSome = true →
      let w := if c.retBytes ≤ x.retCap then x else { x with retAllocs := (b.getD []).getD 0 [], retCap := c.retBytes }
      ∃ v, exec (.streamRetune j) s = .next (finish j stOk [w32 (nextFresh x e.tick)] v) ∧ (∀ k, k ≠ e.ctx → v.stream k = s.stream k) ∧
        v.sessions = s.sessions ∧ v.hostMem = s.hostMem ∧ v.dram.cells = s.dram.cells ∧ v.pool = (setPool v).pool ∧
        v.stream e.ctx = (
          if x.cfg.codec = 2 then { w with cfg := c }
          else if x.pics.any fresh then
            { w with cfg := c, retune := none,
                     pics := x.pics.map (fun p => if fresh p then { p with outRing := c.outRing, bPix := c.bPix, deadline := c.deadline } else p) }
          else { w with retune := some c }) ∧
        (maskBit s.safety.mask e.ctx = true → s.safety.state = 1 → v.safety.state = 2 ∧ v.safety.safeN = false ∧ maskBit v.safety.causes 15 = true) ∧
        (c.retBytes ≤ x.retCap → maskBit s.safety.mask e.ctx = false ∨ s.safety.state = 0 →
          kept v = kept { s with streams := v.streams, pool := v.pool }))) ∧
  (∀ (j : Nat) (e : JEntry) (s : State), RunsOn s j 0x11 e →
    let x := s.stream e.ctx
    let flush := bit (e.param 0) 0
    let goesOn (a : Au) : Bool := a.closed && x.pics.any (fun p => decide (p.au = a.id) && decide (0 < p.rows))
    ∃ v, exec (.streamClose j) s = .next (interim j stCloseDraining x.gen v) ∧ (∀ m, m ≠ e.ctx → v.stream m = s.stream m) ∧ v.runs = s.runs ∧
      v.sessions = s.sessions ∧ v.dram = s.dram ∧ v.hostMem = s.hostMem ∧
      (v.stream e.ctx).closing = some { j := j, flush := flush, freed := false } ∧ (v.stream e.ctx).isOpen = true ∧ (v.stream e.ctx).gen = x.gen ∧
      (flush = true → v.stream e.ctx = { x with
        closing := some { j := j, flush := flush, freed := false }
        feeds := if x.feeds.isEmpty ∧ x.openAu = none then x.feeds else x.feeds ++ [FeedChunk.mark s.chip.tick 0 true false] }) ∧
      (flush = false → v.stream e.ctx = { x with
        closing := some { j := j, flush := flush, freed := false }
        feeds := []
        aus := x.aus.map (fun a => if goesOn a then a else { a with decoded := true, closed := true })
        pics := x.pics.map (fun p =>
          if p.whole || p.segsDone && decide (0 < p.rows) || x.aus.any (fun a => decide (a.id = p.au) && goesOn a) then p else { p with dropped := true })
        pcm := x.pcm.take (x.pcm.length - x.pcmPart), pcmPart := 0 }) ∧
      (maskBit s.safety.mask e.ctx = true → s.safety.state = 1 → v.safety.state = 2 ∧ v.safety.safeN = false ∧ maskBit v.safety.causes 15 = true) ∧
      (maskBit s.safety.mask e.ctx = false ∨ s.safety.state = 0 → kept v = kept { s with streams := v.streams }))

/-- The work of a closing stream done, CLOSE_FINAL releases its buffers, what its picture region held is gone, every track of the slot retires, and each
ring with an uncovered record of the stream issues its tail write-back (03 Table 3.8 steps 4 and 5, R53; 08 R213; 01 R406). With every record covered the
final completion raises the generation, wrapping from 255 to 1, and leaves the slot closed and empty, with a deferred open now opening; other slots and
sessions stay (03 R70-R72). The final completion of a session's close raises its generation and leaves it closed; other sessions and every stream stay
(03 R70; 09 R231). -/
def Obligations.ContextCloses : Prop :=
  (∀ (j n : Nat) (e : JEntry) (c : CloseSt) (s : State), s.entry? j = some e → takesWork s = true → e.st = .running →
    e.named s.link.chip = some (false, n) → (s.stream n).closing = some c → c.j = j → c.freed = true ∨ streamDrained s n c = true →
    let x := s.stream n
    let inside (a : Nat) : Bool := x.picRegion.any (fun r => decide (r.addr ≤ a) && decide (a < r.addr + r.bytes))
    (∃ t, exec (.closeFinal j) s = .next t ∧ (∀ m, m ≠ n → t.stream m = s.stream m) ∧ t.sessions = s.sessions ∧
      (∀ a, mget t.dram.cells a = if c.freed = false ∧ inside a = true then 0 else mget s.dram.cells a) ∧
      (c.freed = false → ∀ p ∈ t.tracks, p.2.slot = n → p.2.live = false) ∧ (c.freed = true → t.tracks = s.tracks) ∧
      (s.pcie.d3 = false → ∀ o, o < 8 → (s.oring o).uncovered.any (fun r => !r.session && decide (r.context = n)) = true →
        (t.oring o).uncovered = [] ∧ (t.oring o).tail = (s.oring o).wr)) ∧
    (uncoveredOf s false n = [] → ∃ last u, exec (.closeFinal j) s = .next (finishCtx j stOk x.gen n [w32 x.seq, last] u) ∧
      (x.cfg.codec ≠ 2 → ∀ d, x.lastDon = some d → last = w32 d) ∧ (x.cfg.codec = 2 → 0 < x.firedBlocks → last = w32 (x.firedBlocks - 1)) ∧
      u.stream n = { Stream.closed (if 255 ≤ x.gen then 1 else x.gen + 1) with deferred := x.deferred, opening := x.deferred.isSome } ∧
      (∀ m, m ≠ n → u.stream m = s.stream m) ∧
      u.sessions = s.sessions ∧ u.journal = s.journal ∧ u.hostMem = s.hostMem ∧ u.maquettes = s.maquettes ∧ u.armatures = s.armatures ∧
      u.chip = s.chip)) ∧
  (∀ (j n : Nat) (e : JEntry) (c : CloseSt) (s : State), s.entry? j = some e → takesWork s = true → e.st = .running →
    e.named s.link.chip = some (true, n) → (s.session n).closing = some c → c.j = j →
    c.freed = true ∨ sessionIdle s n = true ∧ heldOf s true n = [] → uncoveredOf s true n = [] →
    let x := s.session n
    ∃ u, exec (.closeFinal j) s = .next (finishCtx j stOk x.gen n [w32 x.seq] u) ∧
      u.session n = { Session.closed (if 255 ≤ x.gen then 1 else x.gen + 1) with deferred := x.deferred, opening := x.deferred.isSome } ∧
      (∀ m, m ≠ n → u.session m = s.session m) ∧ u.streams = s.streams ∧ u.journal = s.journal ∧ u.hostMem = s.hostMem ∧ u.tracks = s.tracks ∧
      u.maquettes = s.maquettes ∧ u.armatures = s.armatures ∧ u.chip = s.chip)

/-- The device keeps each access unit fed within the last RETENTION ms; where it lets earlier ones go it does so in feed order, and for a video stream
the first one left is an IRAP or IDR (04 R108). RETENTION_SHORT ends when an IRAP or IDR fed after the release has been kept RETENTION ms (R109). -/
def Obligations.RetentionKept : Prop :=
  ∀ (n : Nat) (s : State), (s.stream n).isOpen = true →
    let x := s.stream n
    (∃ t k, exec (.retentionRelease n) s = .next t ∧ t = s.setStream n { x with aus := x.aus.drop k } ∧ k ≤ x.aus.length ∧
      (∀ a ∈ x.aus, s.chip.tick ≤ a.fed + x.cfg.retention * 1000 → a ∈ x.aus.drop k) ∧ (∀ a ∈ x.aus, a.complete = none → a ∈ x.aus.drop k) ∧
      (x.cfg.codec ≠ 2 → 0 < k → ∃ a, (x.aus.drop k).head? = some a ∧ a.irap = true)) ∧
    (∀ a, x.retShort = true → x.aus.find? (fun a => a.irap && a.complete.isSome && decide (a.fed > x.retShortAt)) = some a →
      a.fed + x.cfg.retention * 1000 < 2 ^ 64 →
      ∃ t, exec (.retentionShortEnd n) s = .next t ∧ t.stream n = { x with retShort := false } ∧ t.chip.tick = max s.chip.tick (a.fed + x.cfg.retention * 1000) ∧
        (∀ m, m ≠ n → t.stream m = s.stream m) ∧ t.sessions = s.sessions ∧ t.dram = s.dram ∧ t.hostMem = s.hostMem)

/-- TS_PACKET takes 188 bytes of the oldest feed. A packet without the sync byte, or marked erroneous, is discarded and counted, and a marked one cuts
the access unit; a packet of the video PID in sequence adds its payload to the access unit, and one that starts a payload unit completes that access
unit and begins the next (04 R88, R90, Table 4.4; the packet layout is the transport standard's, log 26). WAR_RECORD takes one record. A record of
another type than the stream's is discarded with a STREAM_EVENT; a video record that is a whole access unit adds it, complete at its feed's tick; PCM
that continues the last block in time fills the block ring, and each block filled takes the next number (04 R88, R91, R92, R110, R111). -/
def Obligations.ContainersParsed : Prop :=
  (∀ (n : Nat) (f : FeedChunk) (r : List FeedChunk) (s : State), parserUp s n = true → (s.stream n).cfg.container = 0 → (s.stream n).feeds = f :: r →
    188 < f.bytes.length → f.discont = false →
    let x := { s.stream n with feeds := { f with bytes := f.bytes.drop 188 } :: r }
    let p := TsPacket.ofBytes (f.bytes.take 188)
    (p.sync = false → exec (.tsPacket n) s = .next (count (ctrSlot n 7) 1 (s.setStream n x))) ∧
    (p.sync = true → p.tei = true →
      exec (.tsPacket n) s = .next (count (ctrSlot n 7) 1 (s.setStream n { cutAu x with gapNext := true, errGap := true }))) ∧
    (∀ a l pl, p.sync = true → p.tei = false → p.scrambled = false → p.payload = some pl → videoPidOf x = some p.pid → x.errGap = false →
      x.lastCc = some l → l < 16 → p.cc = (l + 1) % 16 → x.openAu = some a → (∀ b ∈ x.aus, b.id ≠ a.id → b.closed = true) →
      (∀ b ∈ x.aus, b.id < x.nextAu) →
      ∃ t, exec (.tsPacket n) s = .next t ∧ (∀ m, m ≠ n → t.stream m = s.stream m) ∧ kept t = kept { s with streams := t.streams } ∧
        (p.pusi = false → x.dropRest = false → (t.stream n).aus = x.aus.map (fun b => if b.id = a.id then
          { b with bytes := b.bytes ++ pl, size := b.size + 188, fed := f.tick, retShort := b.retShort || f.short,
                     marks := b.marks ++ [(b.bytes.length + pl.length, f.tick)] } else b)) ∧
        (p.pusi = true → ∃ b, (t.stream n).aus = x.aus.map (fun b => if b.id = a.id then
            { b with closed := true, complete := some f.tick, irap := hasIrap x.cfg.codec a.bytes } else b) ++ [b] ∧
          b.id = x.nextAu ∧ b.complete = none ∧ b.size = 188 ∧ (b.pts, b.bytes) = pesStart pl))) ∧
  (∀ (n k : Nat) (f : FeedChunk) (r : List FeedChunk) (s : State), parserUp s n = true → (s.stream n).cfg.container = 1 →
    (s.stream n).feeds = f :: r → warLen f.bytes = some k → k < f.bytes.length → f.discont = false →
    let x := { s.stream n with feeds := { f with bytes := f.bytes.drop k } :: r }
    let h (i : Nat) : Word := (bytesWords (f.bytes.take 16)).getD i 0
    let payload := ((f.bytes.take k).drop 16).take (h 1).toNat
    let pts := (h 2).toNat + b2n (bit (h 3) 0) * 2 ^ 32
    fld (h 0) 31 16 = 0x5752 → fld (h 0) 15 8 = 1 →
    (fld (h 0) 7 0 ≠ (if x.cfg.codec = 2 then 2 else 1) → exec (.warRecord n) s = .next (streamEvent n 11 0 0 (s.setStream n x))) ∧
    (x.cfg.codec ≠ 2 → fld (h 0) 7 0 = 1 → bit (h 3) 1 = true → bit (h 3) 2 = true → bit (h 3) 3 = false → (∀ b ∈ x.aus, b.closed = true ∧ b.id < x.nextAu) →
      ∃ t, exec (.warRecord n) s = .next t ∧ (∀ m, m ≠ n → t.stream m = s.stream m) ∧ kept t = kept { s with streams := t.streams } ∧
        (t.stream n).nextAu = x.nextAu + 1 ∧
        (t.stream n).aus = x.aus ++ [{ id := x.nextAu, bytes := payload, size := k, complete := some f.tick, fed := f.tick, pts := some pts
                                       irap := hasIrap x.cfg.codec payload, decoded := false, retShort := f.short, closed := true
                                       gap := x.gapNext, don := none, started := false, marks := [(payload.length, f.tick)]
                                       taken := 0, noRef := false, late := none, reported := false }]) ∧
    (x.cfg.codec = 2 → fld (h 0) 7 0 = 2 → fld (h 3) 19 16 = x.cfg.mics → payload.length % (2 * x.cfg.mics) = 0 → 0 < x.cfg.mics →
      0 < x.cfg.audioBlock → bit (h 3) 3 = false → x.gapNext = false → bit (h 3) 1 = true → x.nextPts = none →
      let bb := x.cfg.audioBlock * x.cfg.mics * 2
      ∃ t, exec (.warRecord n) s = .next t ∧ (∀ m, m ≠ n → t.stream m = s.stream m) ∧ t.sessions = s.sessions ∧ t.dram = s.dram ∧
        (t.stream n).block = (x.block + (x.pcmPart + payload.length) / bb) % 2 ^ 32 ∧
        (t.stream n).pcmPart = (x.pcmPart + payload.length) % bb ∧
        (t.stream n).nextPts = some ((8 * pts + 45 * (payload.length / (2 * x.cfg.mics))) % 2 ^ 36) ∧
        (payload.length ≤ 4 * bb → (t.stream n).pcm.drop ((t.stream n).pcm.length - payload.length) = payload)))

/-- Entropy decoding takes the oldest access unit not decoded, when it is the stream's turn on its engine. One whose parameter set the device does not
support or the open does not allow is discarded and counted, with no DON; the first of a run enters rejection, or DIM_EXCEEDS_OPEN, with one
STREAM_EVENT (04 R99, R100). Otherwise its picture begins with the next DON (02 R18), and as many of its segments are decoded as the bin buffer holds and
R95 lets one turn take; with the last segment of a complete access unit its decoding is done (04 R95, R96). The engine's other streams have no more to
be served before this one; what becomes due with the new picture is written, and nothing else of the part changes. -/
def Obligations.EntropyDecoding : Prop :=
  ∀ (n : Nat) (i : AuInfo) (a : Au) (s : State), parserUp s n = true → (s.stream n).cfg.codec ≠ 2 → nextAu (s.stream n) = some a →
    runAhead (s.stream n) a = true → engineTurn s n = true → segsFed a i = true →
    let x := s.stream n
    let aus := x.aus.map (fun b => if b.id = a.id then { b with decoded := true } else b)
    (∀ st, auVerdict x i = some st → a.don = none → x.reject.isSome = true ∨ x.dim = true →
      exec (.entropyDecode n i) s = .next (count (ctrSlot n (condEntry st)) 1 (s.setStream n { x with aus := aus }))) ∧
    (∀ st, auVerdict x i = some st → a.don = none → x.reject = none → x.dim = false →
      ∃ t, exec (.entropyDecode n i) s = .next t ∧
        t.stream n = { x with aus := aus, seq := (x.seq + 1) % 2 ^ 32, dim := decide (st = stDimExceeds)
                              reject := if st = stDimExceeds then none else some st } ∧
        (∀ m, m ≠ n → t.stream m = s.stream m) ∧ t.sessions = s.sessions ∧ t.dram = s.dram ∧
        tget t.obs.ctrs (ctrSlot n (condEntry st)) 0 = (tget s.obs.ctrs (ctrSlot n (condEntry st)) 0 + 1) % 2 ^ 48) ∧
    (auVerdict x i = none → a.don = none → a.started = false → x.reject = none → x.dim = false →
      (∀ q ∈ x.pics, q.au ≠ a.id ∧ q.don ≠ x.nextDon) →
      let segs := turnSegs (4 * x.cfg.bPicBins) 0 (cdiv (x.cfg.binBytes - 2 * binsHeld x) 2) i.segs
      ∃ t p, exec (.entropyDecode n i) s = .next t ∧ (t.stream n).nextDon = (x.nextDon + 1) % 2 ^ 32 ∧ p ∈ (t.stream n).pics ∧ p.don = x.nextDon ∧
        p.au = a.id ∧ p.w = i.sps.width ∧ p.h = i.sps.height ∧ p.kind = i.kind ∧ p.pts = a.pts ∧ p.line = 0 ∧ p.rows = 0 ∧
        p.bins = (segs.map (fun g => (segUnits (4 * x.cfg.bPicBins) g).2)).sum ∧
        (∀ b ∈ (t.stream n).aus, b.id = a.id → b.don = some x.nextDon) ∧
        (i.last = true → segs.length = i.segs.length → a.complete.isSome = true →
          p.segsDone = true ∧ ∀ b ∈ (t.stream n).aus, b.id = a.id → b.decoded = true) ∧
        (∀ m, m ≠ n → t.stream m = { s.stream m with yields := (s.stream m).yields.filter (fun k => k ≠ n) }) ∧
        t.tracks = s.tracks ∧ t.dram = s.dram ∧ t.maquettes = s.maquettes ∧ t.armatures = s.armatures ∧
        (x.pics = [] → x.outbox = [] → a.late = none → 0 < i.sps.height → 0 < i.sps.ctb →
          (t.stream n).pics = [p] ∧ kept t = kept { s with streams := t.streams }))

/-- A row of a stream in the reconstruction pool is reconstructed into its oldest picture that is not whole: the picture's rows rise by one, LINE only rises,
to the picture's height at the last row, and the row's samples are written to the reference picture in DRAM, no byte outside the stream's picture region (01
R11, R406; 02 R18, R19; 04 R81). A stream whose place in the weighted order has not come waits (04 R81, R97; the order is the model's, log 105). A stream
without room for the row pauses instead (04 R97, R98), and STRIP_FEED_RESUME ends the pause once there is room, or no picture to go on with. -/
def Obligations.RowsReconstructed : Prop :=
  ∀ (n : Nat) (s : State), parserUp s n = true →
    let x := s.stream n
    (∀ (r : RowData) (p : Picture), reconPicture x = some p → s.pool.any (fun e => decide (e.1 = n)) = true → x.paused = false → rowDecoded x p = true →
      (reconBlocked s n p = false → poolTurn s n = false → exec (.rowReconstructed n r) s = .next s) ∧
      (reconBlocked s n p = true → exec (.rowReconstructed n r) s = .next (s.setStream n { x with paused := true })) ∧
      (reconBlocked s n p = false → poolTurn s n = true → p.rows + 1 < p.rowCount → p.line ≤ p.h → (∀ q ∈ x.pics, q.don = p.don → q = p) →
        ∃ t q, exec (.rowReconstructed n r) s = .next t ∧ q ∈ (t.stream n).pics ∧ q.don = p.don ∧ q.rows = p.rows + 1 ∧ q.line = newLine p r ∧
          p.line ≤ q.line ∧ q.line ≤ p.h ∧ (t.stream n).pics.length = x.pics.length ∧ (∀ m, m ≠ n → t.stream m = s.stream m) ∧
          t.dram = { s.dram with cells := (storeLines x.cfg q p.rows).foldl (fun m l => storeWrite x.picRegion l.1 l.2 m) s.dram.cells } ∧
          (Memory.wf s.dram.cells = true → ∀ a, (∀ b ∈ x.picRegion, a < b.addr ∨ b.addr + b.bytes ≤ a) →
            mget t.dram.cells a = mget s.dram.cells a) ∧
          t.sessions = s.sessions ∧ t.hostMem = s.hostMem ∧ t.runs = s.runs) ∧
      (reconBlocked s n p = false → poolTurn s n = true → p.rowCount ≤ p.rows + 1 →
        newLine p r = p.h ∧ ∃ t, exec (.rowReconstructed n r) s = .next t ∧ (t.stream n).lastDon = some p.don ∧ (t.stream n).wholeAt = s.chip.tick ∧
          (∀ m, m ≠ n → t.stream m = s.stream m))) ∧
    (∀ p, x.paused = true → reconPicture x = some p →
      (reconBlocked s n p = false → exec (.stripFeedResume n) s = .next (s.setStream n { x with paused := false, rowStart := s.chip.tick })) ∧
      (reconBlocked s n p = true → exec (.stripFeedResume n) s = .next s)) ∧
    (x.paused = true → reconPicture x = none → exec (.stripFeedResume n) s = .next (s.setStream n { x with paused := false }))

/-! ### Tracks, bands and triggers (02_raster_time.md, 08_tracking.md) -/

/-- TRACK_CONFIG in range waits for the next picture's first TRK Niche; out of range it completes with BAD_PARAMETER (08 R199, Table 8.2). TRACK_QUERY
writes the images of the live contexts of its slot, or of every slot, in ascending index, cut at an image where the buffer ends, and reports how many
were written and how many there are (08 R216; 03 Table 3.9); with a live context in an uncorrectable sector it completes with ECC_UNCORRECTABLE and
writes nothing (11 R266). No other byte of host memory changes. On an audio stream both complete with BAD_CONTEXT. -/
def Obligations.TrackCommands : Prop :=
  ∀ (j : Nat) (e : JEntry) (s : State),
    (RunsOn s j 0x40 e →
      exec (.trackConfig j) s = .next (
        if (s.stream e.ctx).cfg.codec = 2 then finish j stBadContext [] (beginCmd e s)
        else if (TrackCfg.ofEntry e).ok then
          finish j stOk [] ((beginCmd e s).setStream e.ctx { s.stream e.ctx with trackNext := some (TrackCfg.ofEntry e) })
        else finish j stBadParam [] (beginCmd e s))) ∧
    (RunsOn s j 0x41 e → e.ctx < 128 → (s.stream e.ctx).cfg.codec = 2 → exec (.trackQuery j) s = .next (finish j stBadContext [] (beginCmd e s))) ∧
    (Runs s j 0x41 e → e.ctx = 0xFFFF ∨ (streamCheck s e = none ∧ (s.stream e.ctx).cfg.codec ≠ 2 ∧ e.ctx < 128) →
      let slot := if e.ctx = 0xFFFF then none else some e.ctx
      let live := s.tracks.filter (fun t => t.2.live && (decide (e.ctx = 0xFFFF) || decide (t.2.slot = e.ctx)))
      let images := live.map (fun t => wordsBytes (t.2.image t.1))
      (tracksBad s slot = true → exec (.trackQuery j) s = .next (finish j stEcc [] (beginCmd e s))) ∧
      (tracksBad s slot = false →
        ∃ k, k ≤ live.length ∧ (images.take k).flatten.length ≤ (e.param 2).toNat ∧
          (k < live.length → (e.param 2).toNat < (images.take (k + 1)).flatten.length) ∧
          exec (.trackQuery j) s = .next (finish j (if k = live.length then stOk else stTruncated) [w32 k, w32 live.length]
            { beginCmd e s with hostMem := mwrite s.hostMem (join64 (e.param 0) (e.param 1)) (images.take k).flatten })))

/-- The trigger line of band b is T_b = min(y_b + H_band + H_halo, H_pic). The halo of the last band, and of any band whose halo would pass the bottom
of the picture, is cut off at H_pic. -/
def Obligations.TriggerLine : Prop :=
  ∀ (c : StreamCfg) (halo h b : Nat), b < bandCount c h →
    trigLine c halo h b = min (bandTop c h b + bandHeight c h + halo) h ∧
    (c.timing ≠ 1 → bandTop c h b = b * c.hBand ∧ bandHeight c h = c.hBand ∧ bandCount c h = cdiv h c.hBand) ∧
    (h < bandTop c h b + bandHeight c h + halo → trigLine c halo h b = h) ∧
    (0 < bandHeight c h → b + 1 = bandCount c h → trigLine c halo h b = h)

/-- BAND_TRIGGER fires a band that has not fired, whose trigger line LINE has reached and whose trigger instance is free: the tick is kept with the
picture. Where no band can fire, or the stream, the compute domain or the schedule takes no work, nothing happens (02 R25, R26). AUDIO_BLOCK_TRIGGER
fires the next whole block once its trigger instance is free: the blocks fired rise by one, and a block of an unbound stream is counted (04 R110; 07
R169). A video stream, and one without a whole block, does not move. A picture whose LINE has not reached the trigger line of a band by the band's
deadline, D sixteenths of T_frame after its coded data was complete, is DECODE_LATE from that band on, also while its access unit waits for the entropy
engine; it is counted, and the stream is in catch-up (02 R40, R41; 04 R107). -/
def Obligations.TriggersFire : Prop :=
  (∀ (n : Nat) (s : State),
    (∀ p r e b, streamRuns (s.stream n) = true → takesWork s = true → s.noSched = false → nextFire s n = some (p, r, e, b) →
      p ∈ (s.stream n).pics ∧ trigLineOf s n p b ≤ p.line ∧ tfind p.fired b = none ∧ parityFree s n p.don b = true ∧ e.band = b ∧ e.slot = n ∧
      b < bandCount (s.stream n).cfg p.h ∧
      ∃ t, exec (.bandTrigger n) s = .next t ∧ ((s.stream n).outbox = [] → t.sessions = s.sessions) ∧ t.dram = s.dram ∧ t.journal = s.journal ∧
        (∀ m, m ≠ n → t.stream m = s.stream m) ∧ (p.whole = false → (∀ q ∈ (s.stream n).pics, q.don = p.don → q = p) → ∃ q ∈ (t.stream n).pics, q.don = p.don ∧ tfind q.fired b = some s.chip.tick)) ∧
    (nextFire s n = none ∨ takesWork s = false ∨ s.noSched = true ∨ streamRuns (s.stream n) = false → exec (.bandTrigger n) s = .next s)) ∧
  (∀ (n : Nat) (s : State), streamRuns (s.stream n) = true → takesWork s = true →
    let k := (s.stream n).firedBlocks
    ((s.stream n).cfg.codec = 2 → (s.stream n).block ≠ k → parityFree s n k 0 = true →
      ∃ t, exec (.audioBlockTrigger n) s = .next t ∧ (t.stream n).firedBlocks = (k + 1) % 2 ^ 32 ∧ (t.stream n).block = (s.stream n).block ∧
        (∀ m, m ≠ n → t.stream m = s.stream m) ∧ t.dram = s.dram ∧
        ((s.stream n).outbox = [] → t.sessions = s.sessions ∧ t.hostMem = s.hostMem ∧ t.safety = s.safety) ∧
        (bound s n = false → (s.stream n).outbox = [] → tget t.obs.ctrs (ctrSlot n 8) 0 = (tget s.obs.ctrs (ctrSlot n 8) 0 + 1) % 2 ^ 48)) ∧
    ((s.stream n).cfg.codec ≠ 2 ∨ (s.stream n).block = k → exec (.audioBlockTrigger n) s = .next s)) ∧
  (∀ (n : Nat) (don : Word) (head : AuInfo) (p : Picture) (b d : Nat) (s : State), streamRuns (s.stream n) = true → takesWork s = true →
    pictureFor (s.stream n) don.toNat head = some p → p.late = none → p.replayed = false → p.whole = false → firstUnreached s n p = some b →
    tdOf s n p b = some d →
    let x := s.stream n
    let due := d + cdiv ((cfgOf x p).deadline * tFrame x.cfg) 16
    s.chip.tick ≤ due → due < 2 ^ 64 →
    ∃ t, exec (.decodeLate n ⟨don, head⟩) s = .next t ∧ t.chip.tick = due ∧ (t.stream n).catchup = true ∧
      (∀ q0, picOf x don.toNat = some q0 → (∀ q ∈ x.pics, q.don = q0.don → q = q0) → ∃ q ∈ (t.stream n).pics, q.don = q0.don ∧ q.late = some b) ∧
      (picOf x don.toNat = none → (∃ a ∈ (t.stream n).aus, a.id = p.au) ∧
        ∀ a ∈ (t.stream n).aus, a.id = p.au → ∃ r, picSched s n p = some r ∧ a.late = some (b, r, head)) ∧
      tget t.obs.ctrs (ctrSlot n 6) 0 = (tget s.obs.ctrs (ctrSlot n 6) 0 + 1) % 2 ^ 48 ∧ (∀ m, m ≠ n → t.stream m = s.stream m) ∧
      (x.outbox = [] → t.sessions = s.sessions) ∧ t.dram = s.dram)

/-- A record handed to a ring that is enabled, holds none and has room is written at its write offset: LEN, type, CONTEXT, GEN and SEQ in the header, SEQ one
above the last of the context, DON and BAND, and CRC the CRC-32 of DW0-DW6 and the body (04 R116, Table 4.8; 03 R53). Nothing outside the ring changes in host
memory while no tail write-back is due. A ring that is off holds the record, and host memory stays (03 R54; 13 R305). RECORD_WRITE places a BAND_RESULT of a
running OUT Niche, without the entries of pad slots (07 R195), once the records of earlier bands and pictures are placed, and keeps it until then (04 R118);
an OUT Niche whose ring holds records waits (03 R54). It places the SEQ_RESULT of a step that a fault has abandoned, with TOKEN 0xFFFF_FFFF, DON 0 and BAND
0xFFF, and the step ends (09 R232); of other types, and where no OUT Niche of the band runs or no step is abandoned, it places none: the other commands place
those (log 107). OUT_COAL ticks after the oldest uncovered record, as OUT_COAL was when it was written (13 R305), the tail write-back makes every record
written visible: it writes OUT_TAIL to host memory and sets the ring's cause where OUT_IRQ is set (03 R53). Records held leave in their order, none is
dropped, and none leaves while the ring is off; a hold that goes on because the ring is full sets OUT_FULL's cause (03 R54; 13 R305). -/
def Obligations.RecordsPlaced : Prop :=
  (∀ (r : RecordReq) (s : State), s.chip.fatal = false → s.chip.phase = .ready → s.pcie.d3 = false → s.link.chip < 64 → r.context < 2 ^ 16 →
    Memory.wf s.hostMem = true →
    let placed (ring gen seq : Nat) (don : Word) (band : Nat) (body : List Word) (t : State) : Prop :=
      let o := s.oring ring
      o.held = [] →
      ∃ ws, ws.length % 8 = 0 ∧ fld (ws.getD 0 0) 31 16 = ws.length / 8 ∧ fld (ws.getD 0 0) 15 8 = r.type ∧ fld (ws.getD 1 0) 15 0 = r.context ∧
        fld (ws.getD 1 0) 23 16 = gen ∧ ws.getD 2 0 = w32 seq ∧ ws.getD 3 0 = don ∧ fld (ws.getD 4 0) 31 20 = band ∧
        ws.getD 7 0 = crcWords (ws.take 7 ++ ws.drop 8) ∧ (ws.drop 8).take body.length = body ∧
        (o.ringEn = true → o.fits (4 * ws.length) = true → o.wr + 4 * ws.length ≤ o.bytes →
          let base := join64 o.baseLo o.baseHi
          (t.oring ring).wr = (o.wr + 4 * ws.length) % o.bytes ∧ (t.oring ring).held = [] ∧
          (o.coal ≠ 0 → o.uncoveredBytes + 4 * ws.length < o.coalBytes.toNat →
            mread t.hostMem (base + o.wr) (4 * ws.length) = wordsBytes ws ∧ (t.oring ring).tail = o.tail ∧
            ∀ a, a < base + o.wr ∨ base + o.wr + 4 * ws.length ≤ a → mget t.hostMem a = mget s.hostMem a)) ∧
        (o.ringEn = false → t.hostMem = s.hostMem ∧ (t.oring ring).held.map (·.words) = [ws] ∧ (t.oring ring).wr = o.wr)
    (r.session = false → ∀ p q, r.type = 3 → (s.stream r.context).isOpen = true → (s.stream r.context).cfg.codec ≠ 2 →
      (s.stream r.context).gen < 256 → picOf (s.stream r.context) r.don.toNat = some p → r.band < 0xFFF → tget p.discard r.band 0 = 0 →
      outRunning s r.context r.don.toNat r.band = some q → bodyOk r.body = true → outputOk (bodyOutput r.slots r.body) = true →
      fld (r.body.getD 1 0) 15 0 = entryOf s q →
      let x := s.stream r.context
      let seq := (x.seq + 1) % 2 ^ 32
      let shown := shownOutput s q (bodyOutput r.slots r.body)
      let body := resultBody shown (fld (r.body.getD 2 0) 31 16) (fld (r.body.getD 3 0) 15 0) shown.entries
      (ringHolds s q = true → exec (.recordWrite r) s = .next s) ∧
      (ringHolds s q = false → recordTurn s r.context r.don.toNat r.band = false → ∃ t, exec (.recordWrite r) s = .next t ∧ t.hostMem = s.hostMem ∧
        (t.stream r.context).seq = x.seq ∧ (t.stream r.context).outbox.length = x.outbox.length + 1 ∧ t.outq = s.outq ∧ t.sessions = s.sessions) ∧
      (ringHolds s q = false → recordTurn s r.context r.don.toNat r.band = true → (∀ l ∈ x.outbox, l.req.don ≠ r.don ∨ l.req.band ≠ r.band) →
        ∃ t, exec (.recordWrite r) s = .next t ∧ placed p.outRing x.gen seq r.don r.band body t ∧ (t.stream r.context).seq = seq ∧
          (∀ m, m ≠ r.context → t.stream m = s.stream m) ∧ t.dram = s.dram ∧
          (fld (r.body.getD 3 0) 15 0 ≠ 0 ∨ (∀ y ∈ s.sessions, fedBy r.context (fld (r.body.getD 1 0) 31 16) y.2 = false) → t.sessions = s.sessions))) ∧
    (r.session = true → r.type = 6 → (s.session r.context).gen < 256 → ∀ w, abandonedStep s r.context = some w →
      let x := s.session r.context
      let seq := (x.seq + 1) % 2 ^ 32
      ∃ v body, exec (.recordWrite r) s = .next (endWork r.context w.fault v) ∧ placed x.outRing x.gen seq 0 0xFFF body v ∧
        body.getD 0 0 = 0xFFFFFFFF ∧ fld (body.getD 3 0) 15 0 = w.fault ∧ (v.session r.context).seq = seq ∧ (v.session r.context).work = x.work ∧
        (∀ m, m ≠ r.context → v.session m = s.session m) ∧ v.dram = s.dram ∧ v.streams = s.streams ∧ v.journal = s.journal) ∧
    (r.session = false ∧ (r.type ≠ 3 ∨ outRunning s r.context r.don.toNat r.band = none) ∨
      r.session = true ∧ (r.type ≠ 6 ∨ abandonedStep s r.context = none) → exec (.recordWrite r) s = .next s)) ∧
  (∀ (o : Nat) (s : State), s.pcie.d3 = false →
    let r := s.oring o
    (r.uncovered ≠ [] → s.chip.tick ≤ r.due → r.due < 2 ^ 64 → o < 8 →
      ∃ t, exec (.outCoalExpiry o) s = .next t ∧ t.chip.tick = r.due ∧ (t.oring o).tail = r.wr ∧ (t.oring o).uncovered = [] ∧
        (t.oring o).wr = r.wr ∧ t.hostMem = mwrite s.hostMem (join64 r.tailWbLo r.tailWbHi) (wordsBytes [w32 r.wr, 0]) ∧
        (r.irqEn = true → t.pcie.cause.getLsbD (8 + o) = true) ∧ t.streams = s.streams ∧ t.dram = s.dram) ∧
    (∃ t k, exec (.heldRecordRelease o) s = .next t ∧ (t.oring o).held = r.held.drop k ∧ t.streams = s.streams ∧ t.sessions = s.sessions ∧
      t.dram = s.dram ∧ (r.ringEn = false → r.held ≠ [] → t = s) ∧
      (∀ b, r.held = [b] → r.ringEn = true → r.fits (4 * b.words.length) = true → (t.oring o).held = [] ∧
        (t.oring o).wr = (r.wr + 4 * b.words.length) % r.bytes) ∧
      (∀ b l, r.held = b :: l → r.ringEn = true → r.fits (4 * b.words.length) = false → (t.oring o).held = r.held ∧ (t.oring o).fullHold = true ∧
        (r.fullHold = false → t.pcie.cause.getLsbD 16 = true))))

/-! ### Maquettes, Armatures and Niches (05_maquette.md, 07_mapping.md, 10_work_classes.md) -/

/-- MAQUETTE_LOAD into a handle, named or the lowest free: a handle in use completes with CONTEXT_BUSY, an invalid package with BAD_PARAMETER; a valid
one takes its buffers and completes with OK and their size, with NO_FREE_CONTEXT where no handle is free, with POOL_EMPTY where its buffers cannot be
taken (07 R166; 11 R265, R271). MAQUETTE_DROP of a loaded Maquette that no Armature and no TENSOR_RUN uses returns its buffers; in use it completes with
CONTEXT_BUSY, not loaded with BAD_CONTEXT (07 R167). No byte of DRAM, stream, session, Armature or other Maquette changes. -/
def Obligations.Maquettes : Prop :=
  ∀ (j : Nat) (pkg : Package) (e : JEntry) (s : State),
    let valid := pkg.magic = 0x514D5A57 ∧ pkg.crcOk = true ∧ pkg.tileRev = 1 ∧ pkg.entries.all (fun x => decide (x.kind ≠ .bestEffort) || !longRow x) = true
    (Runs s j 0x20 e → e.ctx < 64 ∨ e.ctx = 0xFFFF → (valid → packageWf pkg = true) →
      let answers (st : Nat) : Prop := exec (.maquetteLoad j pkg) s = .next (finish j st [] (beginCmd e s))
      let used := e.ctx ≠ 0xFFFF ∧ (tfind s.maquettes e.ctx).isSome = true
      let slot := if e.ctx = 0xFFFF then lowestFree 64 (s.maquettes.map (·.1)) else some e.ctx
      (used → answers stCtxBusy) ∧ (¬ used → ¬ valid → answers stBadParam) ∧ (¬ used → valid → slot = none → answers stNoFree) ∧
      (∀ h b u, ¬ used → valid → slot = some h → allocPool true pkg.bytes (beginCmd e s) = (b, u) →
        kept u = kept { s with dram := u.dram } ∧ u.dram.cells = s.dram.cells ∧
        (b = none → exec (.maquetteLoad j pkg) s = .next (finish j stPoolEmpty [] u)) ∧
        ∀ l, b = some l → exec (.maquetteLoad j pkg) s = .next (finishCtx j stOk 0 h [w32 (l.map (·.bytes)).sum, hi32 (l.map (·.bytes)).sum]
          { u with maquettes := tput s.maquettes h { pkg := pkg, allocs := l } }))) ∧
    (Runs s j 0x21 e →
      let used := s.armatures.any (fun a => a.2.bindings.any (fun b => b.maq = e.ctx)) || s.jobs.any (fun b => b.maq = e.ctx)
      (tfind s.maquettes e.ctx = none → exec (.maquetteDrop j) s = .next (finish j stBadContext [] (beginCmd e s))) ∧
      ((tfind s.maquettes e.ctx).isSome = true → used = true → exec (.maquetteDrop j) s = .next (finish j stCtxBusy [] (beginCmd e s))) ∧
      ((tfind s.maquettes e.ctx).isSome = true → used = false → ∃ v, exec (.maquetteDrop j) s = .next (finish j stOk [] v) ∧
        v.maquettes = tdel s.maquettes e.ctx ∧ v.dram.cells = s.dram.cells ∧ v.streams = s.streams ∧ v.armatures = s.armatures ∧
        v.sessions = s.sessions ∧ v.hostMem = s.hostMem))

/-- ARMATURE_COMMIT, with a plan Plinth can have resolved for its block where the block passes its own checks, into a handle, named or the lowest free: the
active handle completes with CONTEXT_BUSY; then the first failing check of Table 7.6 gives its status; then NO_FREE_CONTEXT where no handle is free (the
model's place for it, log 134), and POOL_EMPTY where the tables' buffers cannot be taken (07 R165, R168, R192). Otherwise the handle holds the Armature,
with figures that the block, its Maquettes and CORE_MASK determine (07 R171), its tables stand in their buffers and the scratchpad contents it places in
their cores, the commit report is written to host memory, cut at the entry where the buffer ends, and the command completes with OK, or TRUNCATED, the
largest P_arm and the cores of CORE_MASK (07 R170, Table 7.4). The active Armature, the streams' values, the sessions and the Maquettes stay. -/
def Obligations.ArmatureCommitted : Prop :=
  ∀ (j : Nat) (block : List Word) (p : CommitPlan) (e : JEntry) (s : State), Runs s j 0x22 e →
    planOk s block p = true ∨ (firstFail (blockChecks s block)).isSome = true → e.ctx < 4 ∨ e.ctx = 0xFFFF →
    let answers (st : Nat) : Prop := exec (.armatureCommit j block p) s = .next (finish j st [] (beginCmd e s))
    let slot := if e.ctx = 0xFFFF then lowestFree 4 (s.armatures.map (·.1)) else some e.ctx
    let figs := blockFigures s block
    let busy := e.ctx ≠ 0xFFFF ∧ s.active.map (·.arm) = some e.ctx
    (busy → answers stCtxBusy) ∧
    (¬ busy →
      (∀ st, firstFail (commitChecks s block p) = some st → answers st) ∧
      (firstFail (commitChecks s block p) = none → slot = none → answers stNoFree) ∧
      (∀ h u, slot = some h → firstFail (commitChecks s block p) = none → allocAll false true (planAllocs p) [] (beginCmd e s) = (none, u) →
        exec (.armatureCommit j block p) s = .next (finish j stPoolEmpty [] u)) ∧
      (∀ h l u, slot = some h → firstFail (commitChecks s block p) = none → allocAll false true (planAllocs p) [] (beginCmd e s) = (some l, u) →
        let room := (e.param 4).toNat
        let report := commitReport block p figs (commitRegions s block p) (l.flatten.map (·.bytes)).sum room
        ∃ v k, exec (.armatureCommit j block p) s = .next (finishCtx j (if k = report.length then stOk else stTruncated) 0 h
            [w32 (pArmMax figs), w32 (maskCount (blockMask block))] v) ∧
          k ≤ report.length ∧ (report.take k).flatten.length ≤ room ∧ (k < report.length → room < (report.take (k + 1)).flatten.length) ∧
          v.hostMem = mwrite s.hostMem (join64 (e.param 2) (e.param 3)) (report.take k).flatten ∧
          tfind v.armatures h = some { coreMask := blockMask block, bindings := blockBindings block, plan := p, figures := figs
                                       regions := commitRegions s block p, allocs := l.flatten, role := s.link.role
                                       torusX := s.link.torusX, torusY := s.link.torusY } ∧
          v.dram.cells = (writeArmature p l s).dram.cells ∧ v.cores = (placeContents p.contents s).cores ∧
          v.active = s.active ∧ v.sessions = s.sessions ∧ v.maquettes = s.maquettes ∧ ∀ n, (v.stream n).cfg = (s.stream n).cfg))

/-- ARMATURE_SWAP (0x23) to an Armature whose CORE_MASK holds exactly one fenced core activates that Armature's variant for the core. When its CORE_MASK
holds two or more fenced cores, the swap completes with CORE_FENCED (0x0505) and the active Armature stays (15 R349). With no fenced core it activates
the main schedule; to a handle that holds no Armature it completes with BAD_CONTEXT (02 R32). An activation completes with OK and the handle active
before, clears the yield marks (10 R244), leaves pictures and instances under way as they are (02 R32), and trips safety while that is armed,
being counted while it is off (14 R315, Table 14.2); a session that loses its lane runs as best-effort work from then on, a step of a model that is not
bound any more ends, and no other session changes (09 R220). -/
def Obligations.ArmatureSwapped : Prop :=
  ∀ (j : Nat) (e : JEntry) (s : State), Runs s j 0x23 e →
    (tfind s.armatures e.ctx = none → exec (.armatureSwap j) s = .next (finish j stBadContext [] (beginCmd e s))) ∧
    ∀ a : Armature, tfind s.armatures e.ctx = some a →
    let gone := (maskList a.coreMask 16).filter s.isFenced
    let swapped (var : Option Nat) : Prop := ∃ v, exec (.armatureSwap j) s =
        .next (finish j stOk [match s.active with | some x => w32 x.arm | none => 0xFFFFFFFF] v) ∧
      v.active = some { arm := e.ctx, var := var } ∧ v.noSched = false ∧ v.marks = [] ∧ v.streams = s.streams ∧
      v.armatures = s.armatures ∧ v.maquettes = s.maquettes ∧ v.runs = s.runs ∧ v.dram = s.dram ∧ v.hostMem = s.hostMem ∧
      (∀ n, (v.session n).be = (s.session n).be ∧ (v.session n).lane = (s.session n).lane ∨ (v.session n).be = true ∧ (v.session n).lane = none) ∧
      (∀ n, (v.session n).isOpen = (s.session n).isOpen ∧ (v.session n).tCtx = (s.session n).tCtx ∧ (v.session n).pages = (s.session n).pages) ∧
      ((∀ x ∈ s.sessions, laneLost { s with active := some { arm := e.ctx, var := var }, noSched := false } x.2 = false ∧
        workUnbound { s with active := some { arm := e.ctx, var := var }, noSched := false } x.2 = false) → v.sessions = s.sessions) ∧
      (s.safety.state = 0 → v.safety.state = 0 ∧ tget v.safety.seen 15 0 = tget s.safety.seen 15 0 + 1) ∧ (s.safety.state = 1 → v.safety.state = 2 ∧ v.safety.safeN = false ∧ maskBit v.safety.causes 15 = true)
    (gone = [] → swapped none) ∧
    (∀ c, gone = [c] → a.plan.variants.any (fun v => v.1 = c) = true → swapped (some c)) ∧
    (2 ≤ gone.length → exec (.armatureSwap j) s = .next (finish j stFenced [] (beginCmd e s)) ∧
      (finish j stFenced [] (beginCmd e s)).active = s.active)

/-- TENSOR_RUN with parameters in range and a region somewhere that holds its demand becomes a job that waits for a gap; its completion comes with its last
Niche, at once where its entry has none. A batch beyond MAX_BATCH, input or output beyond the interleaved space, and input and output that share a byte
complete with BAD_PARAMETER; where no unfenced core's region holds the demand it completes with ARMATURE_RESOURCE and none of its Niches runs (10 R233, R235;
07 R166; 11 R253). At a gap of a unit Plinth places the chosen job's next Niche there: the job runs on the unit's core, whose region is the only one to hold
its weights, in a part of it beside those of the other jobs there (10 R237, R238; the parts are the model's, log 135); a paused job resumes first (R240). A
pause at a tile boundary keeps the tiles done and counts one pre-emption (R241, R245). -/
def Obligations.BestEffortWork : Prop :=
  (∀ (j : Nat) (e : JEntry) (m : Maquette) (x : MaqEntry) (s : State), Runs s j 0x30 e → forwards s e = false → tfind s.maquettes e.ctx = some m →
    m.pkg.entries[(e.param 5).toNat]? = some x →
    let batch := (e.param 4).toNat
    let inAt := join64 (e.param 0) (e.param 1)
    let outAt := join64 (e.param 2) (e.param 3)
    let fine := x.kind = .bestEffort ∧ batch ≤ x.maxBatch ∧ inAt + batch * x.inBytes ≤ spaceBytes s.dram ∧ outAt + batch * x.outBytes ≤ spaceBytes s.dram ∧
      rangesMeet inAt (batch * x.inBytes) outAt (batch * x.outBytes) = false
    let fits (c : Nat) : Bool := !s.isFenced c && decide (x.spad ≤ (regionOf s c).spadBytes) && (regionOf s c).banks.all (fun b => decide (x.accRows ≤ b.2))
    (fine → (∃ c, c < 16 ∧ fits c = true) → x.niches ≠ [] →
      exec (.tensorRun j) s = .next { beginCmd e s with jobs := s.jobs ++ [
        { j := j, sess := none, maq := e.ctx, entry := (e.param 5).toNat, next := 0, core := none, engine := none, again := false, running := none
          paused := false, tiles := 0, startAt := 0, runAt := 0, pausedAt := 0, pausedTicks := 0, readyAt := s.chip.tick, preempt := 0, aborts := 0
          base := 0, rowBase := 0 }] }) ∧
    (fine → (∃ c, c < 16 ∧ fits c = true) → x.niches = [] → exec (.tensorRun j) s = .next (finish j stOk [0, 0] (beginCmd e s))) ∧
    (fine → (∀ c, c < 16 → fits c = false) → exec (.tensorRun j) s = .next (finish j stArmResource [] (beginCmd e s))) ∧
    (¬ fine → exec (.tensorRun j) s = .next (finish j stBadParam [] (beginCmd e s)))) ∧
  (∀ (u : UnitId) (c : Nat) (b : BeJob) (n : OpNiche) (s : State), coreOf u = some c → c < 16 → jobNiche s b = some n →
    (takesWork s = true → s.jobs.find? (fun b => b.paused && b.holds s u) = none → (∀ y ∈ s.jobs, nowhere s y = false) →
      pickJob s c (byJournal (s.jobs.filter (jobReady s c u))) = some b → ∀ z, placedAt s c b = some z → beFootprint s c z u n = none →
      b ∈ s.jobs ∧ gapOpen s c u (beWide n) = true ∧
      ∃ t, exec (.beGap u) s = .next t ∧ (t.core c).weights = some (jobWeights s b) ∧
        (∀ k, k < 16 → k ≠ c → (t.core k).weights ≠ some (jobWeights s b)) ∧ t.jobs.length = s.jobs.length ∧
        (∃ y ∈ t.jobs, y.is b = true ∧ y.running = some u ∧ y.core = some c ∧ y.paused = false ∧ y.tiles = 0 ∧ y.next = b.next ∧ y.base = z.base ∧ y.rowBase = z.rowBase) ∧
        (∀ y ∈ s.jobs, y.is b = false → y ∈ t.jobs) ∧ t.runs = s.runs ∧ t.streams = s.streams ∧ t.dram = s.dram ∧ t.journal = s.journal) ∧
    (takesWork s = true → s.jobs.find? (fun b => b.paused && b.holds s u) = some b → gapOpen s c u (beWide n) = true →
      ∃ t, exec (.beGap u) s = .next t ∧ (∃ y ∈ t.jobs, y.is b = true ∧ y.paused = false ∧ y.tiles = b.tiles ∧ y.running = b.running) ∧
        t.runs = s.runs ∧ t.streams = s.streams ∧ t.dram = s.dram) ∧
    (∀ done, beOn s u = some b → b.running = some u → beWide n = false → readyFor s u ≠ [] → b.core = some c → s.recov.hung.contains u = false →
      b.tiles ≤ done → done ≤ beTiles n →
      ∃ t, exec (.bePause u done) s = .next t ∧ (∃ y ∈ t.jobs, y.is b = true ∧ y.paused = true ∧ y.tiles = done ∧ y.preempt = b.preempt + 1 ∧
          y.pausedAt = s.chip.tick) ∧
        tget t.obs.ctrs (ctrCore c 20) 0 = (tget s.obs.ctrs (ctrCore c 20) 0 + 1) % 2 ^ 48 ∧ t.runs = s.runs ∧ t.streams = s.streams ∧
        t.dram = s.dram ∧ t.cores = s.cores))

/-- A unit at a boundary starts the instance it chose: that instance runs from now on and no other instance changes. Among ready instances of one
stream, with no Proof cast set placed, the chosen one has the lowest ORDER (02 R30, 10 R243); in a contest every loser carries a mark. -/
def Obligations.NicheDispatched : Prop :=
  ∀ (u : UnitId) (w : Run) (g : List Run) (s : State), takesWork s = true → choose s u = some (w, g) →
    w ∈ s.runs ∧ w.st = .ready ∧
    ((∀ r ∈ choices s u, r.party = w.party ∧ r.cast = none) → ∀ r ∈ choices s u, (runNiche s w).order ≤ (runNiche s r).order) ∧
    (canStart s u w g = true → nicheFootprint (runNiche s w) = none →
      ∃ t, exec (.nicheDispatch u) s = .next t ∧ t.runs.length = s.runs.length ∧
        (∀ (k : Nat) (r : Run), s.runs[k]? = some r → ∃ r' : Run, t.runs[k]? = some r' ∧ (r.isRun w = false → r' = r) ∧
          (r.isRun w = true → r'.st = .running ∧ r'.startAt = s.chip.tick ∧ r'.niche = r.niche ∧ r'.don = r.don ∧ r'.band = r.band)) ∧
        (2 ≤ g.length → ∀ r ∈ g, r.isRun w = false → (u, r.niche) ∈ t.marks) ∧ (g.length < 2 → t.marks = s.marks) ∧
        t.dram = s.dram ∧ t.safety = s.safety ∧ t.hostMem = s.hostMem ∧ t.jobs = s.jobs) ∧
    (canStart s u w g = false → exec (.nicheDispatch u) s = .next s)

/-- A product or vector Niche that completes writes its core's scratchpad and accumulators as its descriptor says, no other core's memory, and of DRAM only
the crop lists of its trigger; the instance runs no more (05 R120; 06 R157, R160; 07 R176). One of a pack group works on its batch, with the group's pages as
weight blocks, masked scores and pad segments, and waits for the keys and values that its pages take (09 R224, R225, R228). The shares of pool buffers that it
took are released (11 R274). An OUT Niche whose ring holds records waits (03 R54). One that consumed an uncorrectable sector changes no core, and a safety
Niche's trips (11 R266; 14 Table 14.2). Track association completes with its contexts changed together with its record (08 R214). -/
def Obligations.NicheCompleted : Prop :=
  ∀ (u : UnitId) (r : NicheResult) (x : Run) (s : State), takesWork s = true → unitUp s u = true → running s u = some x →
    let n := runNiche s x
    s.recov.hung.contains (unitOf n) = false →
    let c := n.unit
    let batch := runBatch s x
    let lists (t : State) : Prop := t.dram = (forAll r.released releaseShare (writeBoxes x r s)).dram
    let waits := x.seq = true ∧ n.kv.isSome = true ∧ batch.kvReady s = false
    (r.eccFault = false → waits → exec (.nicheComplete u r) s = .next s) ∧
    (r.eccFault = false → ¬ waits → n.station = 2 ∨ n.station = 5 →
      let d := MxDesc.ofWords (n.station = 5 || n.indep) n.engine n.desc
      let sp := (s.core c).spad
      let o := match (if n.station = 5 ∧ x.seq = true then n.kv else none) with
        | some (layer, head, value) =>
          d.runOn (fun r k => !value && batch.masked s d.n r k) sp (batch.weights s layer head value d sp) (s.core c).acc
        | none => d.run sp (s.core c).acc
      ∃ t, exec (.nicheComplete u r) s = .next t ∧ (t.core c).spad = o.1 ∧ (t.core c).acc = o.2.1 ∧
        (∀ k, k ≠ c → (t.core k).spad = (s.core k).spad ∧ (t.core k).acc = (s.core k).acc) ∧ (∀ q ∈ t.runs, q.isRun x = true → q.st ≠ .running) ∧
        lists t ∧ t.tracks = s.tracks ∧ (x.seq = false → (s.stream x.owner).outbox = [] → t.sessions = s.sessions)) ∧
    (r.eccFault = false → ¬ waits → n.station = 3 →
      let d := VxDesc.ofWords n.desc
      let sp := (s.core c).spad
      let o := if x.seq = true then
          d.runOn (fun r => decide (batch.rowSeg r = 0)) sp (match n.kv with
            | some (layer, head, true) => if d.op = 0x03 && decide (d.srcB ≠ noAddr) then batch.scales s layer head d sp else sp
            | _ => sp) (s.core c).acc
        else d.run sp (s.core c).acc
      ∃ t, exec (.nicheComplete u r) s = .next t ∧ (t.core c).spad = o.1 ∧ (t.core c).acc = (s.core c).acc ∧
        (∀ k, k ≠ c → (t.core k).spad = (s.core k).spad ∧ (t.core k).acc = (s.core k).acc) ∧ (∀ q ∈ t.runs, q.isRun x = true → q.st ≠ .running) ∧
        lists t ∧ t.tracks = s.tracks) ∧
    (r.eccFault = false → n.station = 4 → x.status = 0 → x.seq = false →
      let d := TrkDesc.ofWords n.desc
      let cfg := ((picOf (s.stream x.owner) x.don).bind (·.trkCfg)).getD (s.stream x.owner).track
      let o := trkRun d cfg (s.stream x.owner).gen x.don (recT0 s x.owner x.don x.band % 2 ^ 32) (s.core d.detCore).spad (s.core d.embCore).spad
        (padRow (embedders s x)) { tracks := s.tracks, embs := s.embs }
      ∃ t, exec (.nicheComplete u r) s = .next t ∧ t.tracks = o.mem.tracks ∧ t.embs = o.mem.embs ∧ t.dram = (forAll r.released releaseShare s).dram ∧
        ∀ k, (t.core k).spad = (s.core k).spad ∧ (t.core k).acc = (s.core k).acc) ∧
    (r.eccFault = true → n.station = 2 ∨ n.station = 3 ∨ n.station = 5 →
      ∃ t, exec (.nicheComplete u r) s = .next t ∧ (∀ k, (t.core k).spad = (s.core k).spad ∧ (t.core k).acc = (s.core k).acc) ∧
        t.dram = (forAll r.released releaseShare s).dram ∧ t.tracks = s.tracks ∧ (∀ q ∈ t.runs, q.isRun x = true → q.st ≠ .running) ∧
        (n.safety = true → s.safety.state = 1 → t.safety.state = 2 ∧ t.safety.safeN = false)) ∧
    (r.eccFault = false → n.station = 6 → x.encDone = false → (s.stream x.owner).cfg.evMode ≠ 0 → exec (.nicheComplete u r) s = .next s) ∧
    (r.eccFault = false → n.station = 7 → x.seq = false → ringHolds s x = true → ∃ t, exec (.nicheComplete u r) s = .next t ∧ t.hostMem = s.hostMem ∧
      t.streams = s.streams ∧ t.outq = s.outq ∧ ∀ q ∈ t.runs, q.isRun x = true → q.st = .ready)

/-- The oldest core-network transfers of one core to another land: each is written to its destination core, which is up, no other core changes, and with
the last of its transfers the exchange is no more in flight and its instance is done; transfers to other cores go on independently (07 R183, R184).
SHP_TILE_ROW writes the slots of the next due tile row of a line Niche, as many as find a batch buffer: with the last the row is counted, otherwise the
slots written are; a row of a band that DECODE_LATE skipped is passed over without touching a core (05 R128, R129, R131). EVIDENCE_SLICE issues the
record of one slice: the crop's rows coded rise by the slice's, QP moves by +2 or -1 within its bounds as the bytes of each row ask, and the crop is
complete with its last row (04 R112-R115). A slice that is no whole slice and no split that R115 allows is no event. -/
def Obligations.ExchangesStripsAndEvidence : Prop :=
  (∀ (c dst : Nat) (x : Xchg) (s : State), computeUp s = true →
    s.recov.xchgs.find? (fun x => decide (x.sender = c) && x.writes.any (fun w => decide (w.1 = dst))) = some x →
    (s.core dst).resetAt = none → s.isFenced dst = false →
    let rest := x.writes.filter (fun w => decide (w.1 ≠ dst))
    ∃ t, exec (.xchgLand (c, dst)) s = .next t ∧
      t.recov.xchgs = s.recov.xchgs.flatMap (fun y => if y = x then (if rest = [] then [] else [{ x with writes := rest }]) else [y]) ∧
      (t.core dst).spad = (x.writes.filter (fun w => w.1 = dst)).foldl (fun m w => mwrite m w.2.1 w.2.2) (s.core dst).spad ∧
      (∀ k, (k ≠ dst → (t.core k).spad = (s.core k).spad) ∧ (t.core k).acc = (s.core k).acc) ∧
      (rest = [] → ∀ q ∈ t.runs, ∀ y, xchgRun s x = some y → q.isRun y = true → q.st ≠ .landing) ∧ (rest ≠ [] → t.runs = s.runs) ∧
      t.dram = s.dram ∧ t.tracks = s.tracks ∧ (x.seq = false → (s.stream x.owner).outbox = [] → t.sessions = s.sessions)) ∧
  (∀ (n k : Nat) (p : Picture) (d : ShpDesc) (r : SchedRef) (b : Nat) (row : Option Nat) (jobs : List TileJob) (s : State),
    streamRuns (s.stream n) = true → computeUp s = true → stripPicture s n k = some (p, d, r, b, row, jobs) →
    (∀ q ∈ (s.stream n).pics, q.don = p.don → q = p) →
    let u := ((nicheAt s r k).map (·.unit)).getD 0
    (trigInRow s u = true ∨ lineInRow s u n k = true → exec (.shpTileRow n k) s = .next s) ∧
    (trigInRow s u = false → lineInRow s u n k = false →
    let o := writeJobs d p (ringKey r k) p.don b n jobs s
    let moved (rows cols : Nat) (t : State) : Prop :=
      (∃ q ∈ (t.stream n).pics, q.don = p.don ∧ tget q.tileRows k 0 = rows ∧ tget q.tileCols k 0 = cols) ∧ (∀ m, m ≠ n → t.stream m = s.stream m) ∧
      t.dram = s.dram ∧ t.hostMem = s.hostMem ∧ t.safety = s.safety
    let late := match p.late with | some l => decide (l ≤ b) | none => false
    (late = false → o.2 = jobs.length → ∃ t, exec (.shpTileRow n k) s = .next t ∧ moved (tget p.tileRows k 0 + 1) 0 t ∧ t.cores = o.1.cores) ∧
    (late = false → o.2 < jobs.length → ∃ t, exec (.shpTileRow n k) s = .next t ∧
      moved (tget p.tileRows k 0) (tget p.tileCols k 0 + o.2) t ∧ t.cores = o.1.cores) ∧
    (late = true → ∃ t, exec (.shpTileRow n k) s = .next t ∧ moved (tget p.tileRows k 0 + 1) 0 t ∧ t.cores = s.cores))) ∧
  (∀ (u : Nat) (sl : SliceOut) (r : Run) (p : Picture) (s : State), takesWork s = true → running s (.enc u) = some r → r.encDone = false →
    picOf (s.stream r.owner) r.don = some p →
    let c := (s.stream r.owner).cfg
    let crop := r.crop.getD (clipCrop p sl)
    let rows := cropRows (cropHeight s r crop)
    c.evMode ≠ 0 → 0 < crop.2.2.2.1 → 0 < rows → (sl.slot.map (ignoredSlot s r)).getD false = false →
    (sliceOk c r rows sl = false → exec (.evidenceSlice u sl) s = .next s) ∧
    (sliceOk c r rows sl = true → c.evQpMin ≤ r.qp → r.qp ≤ c.evQpMax →
      ∃ t, exec (.evidenceSlice u sl) s = .next t ∧ t.dram = s.dram ∧ t.sessions = s.sessions ∧ (∀ m, m ≠ r.owner → t.stream m = s.stream m) ∧
        (tget p.discard r.band 0 = 0 → recordTurn s r.owner r.don r.band = true → (s.stream r.owner).outbox = [] →
          (t.stream r.owner).seq = ((s.stream r.owner).seq + 1) % 2 ^ 32) ∧
        ∃ q ∈ t.runs, q.isRun r = true ∧ q.progress = r.progress + 1 ∧ q.rowsDone = r.rowsDone + sl.rowBytes.length ∧ q.crop = some crop ∧
          q.encDone = decide (rows ≤ r.rowsDone + sl.rowBytes.length) ∧ c.evQpMin ≤ q.qp ∧ q.qp ≤ c.evQpMax ∧
          (∀ b, sl.rowBytes = [b] → q.remaining = r.remaining - b ∧ q.qp =
            (let left := rows - r.rowsDone
             if 4 * b * left > 5 * r.remaining then min (r.qp + 2) c.evQpMax
             else if 5 * b * left < 4 * r.remaining then max (r.qp - 1) c.evQpMin else r.qp))))

/-! ### Sequence sessions (09_sequence.md) -/

/-- SEQ_OPEN of a closed session, named or the lowest free, of a bound model with parameters in range: an LC session takes the lowest free lane, and one whose
spread meets an Armature committed for another role runs as best-effort work (09 R218-R220; 12 R380); with no lane it completes with NO_FREE_CONTEXT, with a
peer out of reach NO_ROUTE, with no buffers POOL_EMPTY. On one part its pages are allocated, valid and empty, and the open completes with OPEN_OK and the
number of pages (09 R219, R221). Spread over parts it waits for its peers: once each has answered, it completes with OPEN_OK and the pages of all parts, or,
where one refused, with PEER_REJECTED and the peer's status, closed again (03 Table 3.9; 09 R219; 12 R293). An open that waited behind a close runs the same
way, and its session is busy until its final completion (03 R69-R72). -/
def Obligations.SessionOpened : Prop :=
  (∀ (j n : Nat) (e : JEntry) (m : MaqEntry) (s : State),
    let a := SeqArgs.ofEntry e
    let be := a.be || (decide (a.spread ≠ 0) && roleDiffers s)
    let lane := if be then none else freeLane s a.model
    let heads := headsOn a.spread s.link.chip m.heads
    let pages := m.layers * heads.length * (a.tMax / 256)
    Runs s j 0x31 e → openingAt s j = none → (e.ctx = n ∧ n < 4096 ∨ e.ctx = 0xFFFF ∧ freeSession s = some n) → (s.session n).isOpen = false →
    e.gen = 0 → SeqArgs.bad s a = none → modelEntry s a.model = some m →
    (spreadOk s a.spread = false → exec (.seqOpen j false) s = .next (finish j stNoRoute [] (beginCmd e s))) ∧
    (spreadOk s a.spread = true → be = false → lane = none → exec (.seqOpen j false) s = .next (finish j stNoFree [] (beginCmd e s))) ∧
    ∀ bufs u, spreadOk s a.spread = true → (be = true ∨ lane.isSome = true) → allocAll false false (pageSizes pages) [] (beginCmd e s) = (bufs, u) →
      (bufs = none → exec (.seqOpen j false) s = .next (finish j stPoolEmpty [] u)) ∧
      (bufs.isSome = true →
        ∃ v x, exec (.seqOpen j false) s = .next (if peersOf s a.spread = [] then finishCtx j stOpenOk (s.session n).gen n [w32 pages] v else v) ∧
          v.session n = x ∧ x.isOpen = true ∧ x.pendingOpen = (if peersOf s a.spread = [] then none else some j) ∧
          x.gen = (s.session n).gen ∧ x.model = a.model ∧ x.be = be ∧ x.lane = lane ∧ x.tMax = a.tMax ∧ x.tCtx = 0 ∧ x.pos = 0 ∧ x.seq = 0 ∧
          x.lastTok = none ∧ x.outRing = a.outRing ∧ x.slide = a.slide ∧ x.pages.length = pages ∧ (∀ p ∈ x.pages, p.valid = true ∧ p.tokens = 0) ∧
          (∀ k, k ≠ n → v.session k = s.session k) ∧ v.streams = s.streams ∧ v.hostMem = s.hostMem ∧ v.safety = s.safety ∧
          (peersOf s a.spread = [] → v.link = s.link))) ∧
  (∀ (j n : Nat) (s : State), openingAt s j = some n → live s = true → (s.session n).colls = [] →
    let x := s.session n
    (x.collFail = 0 → exec (.seqOpen j true) s = .next (finishCtx j stOpenOk x.gen n [w32 (x.pages.length + (x.accepted.map (·.2)).sum)]
      (s.setSession n { x with pendingOpen := none, accepted := [], opening := false }))) ∧
    (x.collFail ≠ 0 → ∃ v, exec (.seqOpen j true) s = .next (finish j (if x.peerLost then stPeerFlr else stPeerRejected)
        [0, 0, 0, if x.peerLost then 0 else w32 x.collFail] v) ∧
      v.session n = Session.closed x.gen ∧ (∀ k, k ≠ n → v.session k = s.session k) ∧ v.streams = s.streams)) ∧
  (∀ (j n : Nat) (s : State), openingAt s j = some n → (s.session n).colls ≠ [] → ∀ b, exec (.seqOpen j b) s = .next s) ∧
  ∀ (j n : Nat) (e : JEntry) (s s0 : State), Runs s j 0x31 e → openingAt s j = none → e.ctx = n → n < 4096 → s0.entry? j = some { e with st := .deferred } →
    (s0.session n).opening = true → clearDeferred (true, n) (modEntry j (fun y => { y with st := .waiting }) s0) = s →
    ∃ u, exec (.seqOpen j false) s = .next u ∧
      exec (.deferredOpenRun j true) s0 = .next (u.modSession n (fun x => { x with opening := decide (x.pendingOpen = some j) }))

/-- SEQ_CLOSE of an open session posts CLOSE_DRAINING; the session is closing, and its fed appends that have not begun are discarded and counted (09
R226, R231; 03 R71). SEQ_OPEN of an open session completes with CONTEXT_BUSY, with a GEN other than 0 with STALE_GENERATION. SEQ_APPEND, SEQ_STEP and
SEQ_CLOSE complete with the first failing check of their session: BAD_CONTEXT where it is not open, CONTEXT_CLOSING, STALE_GENERATION; a rejected close
leaves an open deferred behind it to run (03 R57, R70-R72). A SEQ_APPEND of no item or beyond a context that does not slide, and a SEQ_STEP of no step or
more than 1,024, complete with BAD_PARAMETER; then one whose model is not bound with BAD_PARAMETER, and one with a lost peer with ABANDONED_PEER_FLR (03
Table 3.5; 09 R220, R225, R230). -/
def Obligations.SessionChecks : Prop :=
  ∀ (j : Nat) (e : JEntry) (s : State), fedFirst s j = false → workingAt s j = none → e.ctx < 4096 →
    let x := s.session e.ctx
    (Runs s j 0x34 e → sessionCheck s e = none → ∃ v, exec (.seqClose j) s = .next (interim j stCloseDraining x.gen v) ∧
      v.session e.ctx = { x with fed := [], closing := some { j := j, flush := false, freed := false } } ∧
      tget v.obs.ctrs (ctrFed e.ctx) 0 % 2 ^ 48 = (tget s.obs.ctrs (ctrFed e.ctx) 0 + x.fed.length) % 2 ^ 48 ∧
      (∀ k, k ≠ e.ctx → v.session k = s.session k) ∧ v.streams = s.streams ∧ v.dram = s.dram ∧ v.hostMem = s.hostMem ∧ v.runs = s.runs) ∧
    (Runs s j 0x31 e → openingAt s j = none → x.isOpen = true → exec (.seqOpen j false) s = .next (finish j stCtxBusy [] (beginCmd e s))) ∧
    (Runs s j 0x31 e → openingAt s j = none → x.isOpen = false → e.gen ≠ 0 →
      exec (.seqOpen j false) s = .next (finish j stStaleGen [] (beginCmd e s))) ∧
    (∀ r runs, ∀ c ∈ [((0x32 : Nat), Instr.seqAppend j r), (0x33, .seqStep j runs), (0x34, .seqClose j)], Runs s j c.1 e →
      (c.1 = 0x33 → forwards s e = false) →
      let answers (st : Nat) : Prop := exec c.2 s = .next
        (if c.1 = 0x34 then rejectClose j st (true, e.ctx) (beginCmd e s) else finish j st [] (beginCmd e s))
      (x.isOpen = false ∨ x.shadow.isSome = true ∨ x.pendingOpen.isSome = true → answers stBadContext) ∧
      (x.isOpen = true → x.shadow = none → x.pendingOpen = none → x.closing.isSome = true → answers stCtxClosing) ∧
      (x.isOpen = true → x.shadow = none → x.pendingOpen = none → x.closing = none → e.gen ≠ x.gen → answers stStaleGen)) ∧
    (∀ r, Runs s j 0x32 e → sessionCheck s e = none →
      let k := (e.param 2).toNat
      let outside := k = 0 ∨ (x.slide = false ∧ x.tMax < x.tCtx + k)
      (outside → exec (.seqAppend j r) s = .next (finish j stBadParam [] (beginCmd e s))) ∧
      (¬ outside → modelEntry s x.model = none → exec (.seqAppend j r) s = .next (finish j stBadParam [] (beginCmd e s))) ∧
      (¬ outside → (modelEntry s x.model).isSome = true → x.peerLost = true →
        exec (.seqAppend j r) s = .next (finish j stPeerFlr [] (beginCmd e s)))) ∧
    (∀ runs, Runs s j 0x33 e → forwards s e = false → sessionCheck s e = none →
      let k := fld (e.param 0) 15 0
      (k = 0 ∨ 1024 < k → exec (.seqStep j runs) s = .next (finish j stBadParam [] (beginCmd e s))) ∧
      (1 ≤ k → k ≤ 1024 → modelEntry s x.model = none → exec (.seqStep j runs) s = .next (finish j stBadParam [] (beginCmd e s))) ∧
      (1 ≤ k → k ≤ 1024 → (modelEntry s x.model).isSome = true → x.peerLost = true →
        exec (.seqStep j runs) s = .next (finish j stPeerFlr [] (beginCmd e s))))

/-- SEQ_APPEND, SEQ_STEP and a fed append on one part take up their session: an append cuts its items into chunks of at most one lane, and the first chunk or
step is ready for its pack group's trigger, or, of a BE session, waits for gaps; a context that slides makes room for its rows first, T_ctx falling by 256 for
each slide (09 R220, R225, R228). While its Niches run, its keys and values are written above what is committed; a chunk whose Niches have run commits: T_ctx
and POS rise by its items, the last token is cleared, and after the last chunk the command completes with T_ctx. A step whose Niches have run commits the same
for one position: the token is the index of the largest logit, a SEQ_RESULT is issued, and after the last step, an EOS that ends the command, or a context
that is full and does not slide, the command completes with T_ctx and the steps run (09 R225, R232, Table 9.3). A fault of the unit leaves T_ctx, POS and the
token as they were once the slide had made room, and is the command's status (09 R194, R230; log 138). A fed append with no room is discarded and counted; its
auto steps end as the steps of a command do, with no completion (09 R226). -/
def Obligations.SessionsAdvance : Prop :=
  let room (x : Session) (k : Nat) : Nat := x.tCtx - 256 * (if x.slide then slidesFor x.tMax k x.tCtx else 0)
  let alone (n : Nat) (s v : State) : Prop :=
    (∀ k, k ≠ n → v.session k = s.session k) ∧ v.streams = s.streams ∧ v.safety = s.safety ∧ v.tracks = s.tracks ∧ v.cores = s.cores
  let taken (n : Nat) (j : Option Nat) (x : Session) (m : MaqEntry) (items steps : Nat) (s v : State) : Prop :=
    ∃ w, (v.session n).work = some w ∧ (v.session n).tCtx = room x (if items = 0 then 1 else w.chunk) ∧ w.j = j ∧ w.items.length = items ∧ w.chunk = min items (max 1 m.laneRows) ∧
      w.steps = steps ∧ w.i = 0 ∧ w.phase = .ready ∧ w.fault = 0 ∧ w.layer = w.layers ∧ alone n s v ∧
      (x.be = false → v.jobs = s.jobs) ∧ (x.be = true → ∃ b, v.jobs = s.jobs ++ [b] ∧ b.sess = some n ∧ b.core = none)
  (∀ (n : Nat) (m : MaqEntry) (s : State),
    let x := s.session n
    x.spread = 0 → modelEntry s x.model = some m → x.peerLost = false → (x.be = true → noFit s n = false ∧ m.niches ≠ []) →
    (∀ j e r, Runs s j 0x32 e → workingAt s j = none → fedFirst s j = false → e.ctx = n → sessionCheck s e = none → 0 < (e.param 2).toNat →
      x.slide = true ∨ x.tCtx + (e.param 2).toNat ≤ x.tMax →
      ∃ v, exec (.seqAppend j r) s = .next v ∧ taken n (some j) x m (e.param 2).toNat 0 s v ∧ v.hostMem = s.hostMem ∧
        v.journal = (beginCmd e s).journal) ∧
    (∀ j e runs, Runs s j 0x33 e → forwards s e = false → workingAt s j = none → fedFirst s j = false → e.ctx = n → sessionCheck s e = none →
      1 ≤ fld (e.param 0) 15 0 → fld (e.param 0) 15 0 ≤ 1024 →
      (x.slide = true ∨ x.tCtx ≠ x.tMax → ∃ v, exec (.seqStep j runs) s = .next v ∧ taken n (some j) x m 0 (fld (e.param 0) 15 0) s v ∧
        v.hostMem = s.hostMem ∧ v.journal = (beginCmd e s).journal) ∧
      (x.slide = false → x.tCtx = x.tMax → ∃ v, exec (.seqStep j runs) s = .next (finish j stOk [w32 x.tCtx, 0] v) ∧
        (v.session n).tCtx = x.tCtx ∧ (v.session n).seq = x.seq ∧ alone n s v)) ∧
    (∀ r runs items flags tick rest, x.fed = (items, flags, tick) :: rest → x.isOpen = true → x.work = none → takesWork s = true →
      fedTurn s n tick = true → items ≠ [] →
      let open_ := x.slide = true ∨ (x.tCtx ≠ x.tMax ∧ x.tCtx + items.length ≤ x.tMax)
      (open_ → ∃ v, exec (.fedAppend n r runs) s = .next v ∧ taken n none x m items.length x.autoSteps s v ∧ (v.session n).fed = rest) ∧
      (¬ open_ → ∃ v, exec (.fedAppend n r runs) s = .next v ∧ v.session n = { x with fed := rest } ∧ alone n s v ∧
        tget v.obs.ctrs (ctrFed n) 0 = (tget s.obs.ctrs (ctrFed n) 0 + 1) % 2 ^ 48))) ∧
  (∀ (n j : Nat) (w : SeqWork) (s : State), workingAt s j = some n → (s.session n).work = some w → w.j = some j → takesWork s = true →
    let x := s.session n
    (∀ r, w.items ≠ [] → w.fault = 0 → chunkOk x w r = true → rowsAgree w r.rows = true →
      let after (t : Nat) (v : State) : Prop := (v.session n).tCtx = t ∧ (v.session n).pos = x.pos + w.chunk ∧ (v.session n).lastTok = none ∧
        (v.session n).gen = x.gen ∧ alone n s v ∧ v.hostMem = s.hostMem
      (unitDone w = true → w.items.length = w.chunk → w.steps = 0 →
        ∃ v, exec (.seqAppend j r) s = .next (finish j stOk [w32 (x.tCtx + w.chunk), w32 w.i] v) ∧ after (x.tCtx + w.chunk) v ∧ (v.session n).work = none) ∧
      (unitDone w = true → w.chunk < w.items.length → x.spread = 0 → x.be = false → (modelEntry s x.model).isSome = true →
        ∃ v y, exec (.seqAppend j r) s = .next v ∧ after (room { x with tCtx := x.tCtx + w.chunk } y.chunk) v ∧ v.journal = s.journal ∧
          (v.session n).work = some y ∧ y.items = w.items.drop w.chunk ∧ y.chunk = min (w.items.length - w.chunk) w.laneRows ∧ y.phase = .ready) ∧
      (unitDone w = false → underWay w = true → ∃ v, exec (.seqAppend j r) s = .next v ∧
        v.session n = { x with work := some { w with kv := some r.rows } } ∧ alone n s v ∧ v.journal = s.journal ∧ v.hostMem = s.hostMem)) ∧
    (∀ r, w.items ≠ [] → w.fault ≠ 0 → ∃ v, exec (.seqAppend j r) s = .next (finish j w.fault [w32 x.tCtx, w32 w.i] v) ∧
      v.session n = { x with work := none, gathers := [], headRows := [] } ∧ alone n s v ∧ v.dram = s.dram) ∧
    (∀ r rest, w.items = [] → w.fault = 0 → unitDone w = true → stepOk x w r = true → rowsAgree w [r.rows] = true →
      let tok := w32 (argmax (r.logits.map fp32))
      let last := (w.endOnEos = true ∧ tok = w.eos) ∨ w.steps ≤ w.i + 1 ∨ (x.slide = false ∧ x.tCtx + 1 = x.tMax)
      let after (t : Nat) (v : State) : Prop := (v.session n).tCtx = t ∧ (v.session n).pos = x.pos + 1 ∧ (v.session n).lastTok = some tok ∧
        (v.session n).seq = (x.seq + 1) % 2 ^ 32 ∧ alone n s { v with safety := s.safety }
      (last → ∃ v, exec (.seqStep j (r :: rest)) s = .next (finish j stOk [w32 (x.tCtx + 1), w32 (w.i + 1)] v) ∧ after (x.tCtx + 1) v ∧
        (v.session n).work = none) ∧
      (¬ last → x.spread = 0 → x.be = false → (modelEntry s x.model).isSome = true → ∃ v y, exec (.seqStep j (r :: rest)) s = .next v ∧
        after (room { x with tCtx := x.tCtx + 1 } 1) v ∧ v.journal = s.journal ∧
        (v.session n).work = some y ∧ y.i = w.i + 1 ∧ y.steps = w.steps ∧ y.phase = .ready)) ∧
    (∀ runs, w.items = [] → w.fault ≠ 0 → ∃ v, exec (.seqStep j runs) s = .next (finish j w.fault [w32 x.tCtx, w32 w.i] v) ∧
      (v.session n).tCtx = x.tCtx ∧ (v.session n).pos = x.pos ∧ (v.session n).lastTok = x.lastTok ∧ (v.session n).work = none ∧
      (w.fault = stLinkDown ∨ w.fault / 256 = 5 → (v.session n).seq = (x.seq + 1) % 2 ^ 32) ∧
      (∀ k, k ≠ n → v.session k = s.session k) ∧ v.streams = s.streams ∧ v.dram = s.dram)) ∧
  ∀ (n : Nat) (r : AppendRun) (w : SeqWork) (s : State), (s.session n).work = some w → w.auto = true → w.j = none → takesWork s = true → w.items ≠ [] →
    w.fault = 0 → unitDone w = true → w.items.length = w.chunk → w.steps = 0 → chunkOk (s.session n) { w with frames := r.frames } r = true →
    rowsAgree w r.rows = true →
    ∃ v, exec (.fedAppend n r []) s = .next v ∧ (v.session n).tCtx = (s.session n).tCtx + w.chunk ∧ (v.session n).pos = (s.session n).pos + w.chunk ∧
      (v.session n).lastTok = none ∧ (v.session n).work = none ∧ alone n s v ∧ v.journal = s.journal

/-- A pack group's trigger takes the ready lanes as its segments, releases its Niches and marks the lanes' work running; with no lane ready, or its last
trigger's Niches unfinished, it does not fire (09 R228), nor does a row that names other segments than the lanes have. COLLECTIVE on the part of a peer: an
open builds a shadow session with this part's share of the pages; append and step name the session by its home generation, commit the rows the home part's
T_ctx confirms, slide as the home part does, keep the new rows until the next collective, and complete with T_ctx; a close drops the shadow session (09 R229,
R230; 12 R293). Kinds above 3 complete with BAD_PARAMETER, an open of a shadow session that is open with CONTEXT_BUSY, others without one with BAD_CONTEXT, of
another generation with STALE_GENERATION. -/
def Obligations.GroupsAndCollectives : Prop :=
  (∀ (model group : Nat) (r : SchedRef) (p : Pack) (s : State), takesWork s = true → s.active = some r → packOf s model = some p → s.noSched = false →
    group < p.groups →
    let segs := segments s model group p.lanes
    let busy := s.runs.any (fun x => x.seq && decide (x.owner = model) && decide (x.don = group) && !x.finished)
    (segs.any (· ≠ 0) = true → busy = false → ∃ t, exec (.seqTrigger model group segs) s = .next t ∧
      tfind t.packs (model * 256 + group) = some { ref := r, segs := segs } ∧ (∀ k, k ≠ model * 256 + group → tfind t.packs k = tfind s.packs k) ∧
      s.runs.length ≤ t.runs.length ∧ (∀ k, k + 1 ∉ segs → t.session k = s.session k) ∧
      (∀ k, k + 1 ∈ segs → t.session k = { s.session k with
        work := (s.session k).work.map (fun w => { w with phase := if p.nicheCount = 0 then .done else .running }) }) ∧
      t.streams = s.streams ∧ t.dram = s.dram ∧ t.safety = s.safety) ∧
    (∀ g, g ≠ segs ∨ segs.any (· ≠ 0) = false ∨ busy = true → exec (.seqTrigger model group g) s = .next s)) ∧
  (∀ (j : Nat) (rows : List (List KvRow)) (e : JEntry) (chip pos : Nat) (s : State), Runs s j 0x62 e → e.origin = some (chip, pos) →
    let kind := fld (e.param 0) 3 0
    (3 < kind → exec (.collective j rows) s = .next (finish j stBadParam [] (beginCmd e s))) ∧
    (0 < kind → kind ≤ 3 → shadowOf s chip e.ctx = none → exec (.collective j rows) s = .next (finish j stBadContext [] (beginCmd e s))) ∧
    (kind = 0 → (shadowOf s chip e.ctx).isSome = true → exec (.collective j rows) s = .next (finish j stCtxBusy [] (beginCmd e s))) ∧
    (∀ m n bufs u, kind = 0 → shadowOf s chip e.ctx = none → modelEntry s (fld (e.param 1) 23 16) = some m → tMaxOk (e.param 2).toNat = true →
      freeSession s = some n → allocAll false false (pageSizes (shadowPages s.link.chip e m)) [] (beginCmd e s) = (some bufs, u) →
      ∃ v x, exec (.collective j rows) s = .next (finish j stOk [w32 (shadowPages s.link.chip e m)] v) ∧ v.session n = x ∧ x.isOpen = true ∧
        x.shadow = some (chip, e.ctx, e.gen) ∧ x.tCtx = 0 ∧ x.tMax = (e.param 2).toNat ∧ x.pages.length = shadowPages s.link.chip e m ∧
        (∀ k, k ≠ n → v.session k = s.session k) ∧ v.streams = s.streams) ∧
    (∀ n x, 0 < kind → kind ≤ 3 → shadowOf s chip e.ctx = some (n, x) → tfind s.sessions n = some x →
      (x.shadow.map (·.2.2) ≠ some e.gen → exec (.collective j rows) s = .next (finish j stStaleGen [] (beginCmd e s))) ∧
      (x.shadow.map (·.2.2) = some e.gen →
        ∃ v, exec (.collective j rows) s = .next (finish j stOk [w32 (e.param 2).toNat] v) ∧ (∀ k, k ≠ n → v.session k = s.session k) ∧
          v.streams = s.streams ∧ v.hostMem = s.hostMem ∧
          (kind = 3 → v.session n = Session.closed x.gen) ∧
          (kind ≠ 3 → (v.session n).tCtx = (e.param 2).toNat - 256 * (if x.slide then slidesFor x.tMax (e.param 4).toNat (e.param 2).toNat else 0) ∧ (v.session n).stepId = (e.param 3).toNat ∧
            (v.session n).pendRows = (rows.filter (rowsOk (v.session n))).take (e.param 4).toNat ∧ (v.session n).shadow = x.shadow ∧
            (v.session n).pos = (if (e.param 2).toNat = x.tCtx + x.pendRows.length then x.pos + x.pendRows.length else x.pos)))))

/-! ### Pools and DRAM (11_memory.md) -/

/-- POOL_CONFIG in its RFM-only form sets RFM_N; otherwise, with no context of any kind, it lays the pools out anew: every partition is whole and
free, no reference count and no run of the safety region stands, the bytes of the ECC partitions are zero and no other byte changes. While a context
exists it completes with CONTEXT_BUSY, and with values outside their ranges, shares above 1,000 or no pool space with BAD_PARAMETER (11 R262, R276,
R277). POOL_STATUS writes as many of the 49 entries of its image as the buffer holds, and MIN_FREE becomes FREE (11 R278). A refill or a spill moves
buffers between a partition's cache and its ring and loses none: the free count stays, a refill adds up to 64 entries to a cache below 32, a spill
takes 64 from one above 224; an uncorrectable sector met on the way is counted (11 R266, R273). A share taken raises a buffer's count; at 65,535 it
stays, the wait is counted, and the increment waits for a decrement (11 R274). -/
def Obligations.PoolsManaged : Prop :=
  (∀ (j : Nat) (e : JEntry) (s : State),
    (Runs s j 0x50 e →
      let n := fld (e.param 9) 3 0
      let sh := poolShares e
      let d := { s.dram with shares := sh, safetyMib := (e.param 8).toNat }
      let rfm := if n = 0 then s.dram.rfmN else n
      let fits : Prop := (∀ x ∈ sh, x.2 ≤ 8) ∧ (e.param 8).toNat ≤ 4096 ∧ rfmOk n = true ∧ (sh.map (·.1)).sum ≤ 1000 ∧ 0 < poolSpace d
      (bit (e.param 10) 0 = true → rfmOk n = true →
        exec (.poolConfig j) s = .next (finish j stOk [] { beginCmd e s with dram := { s.dram with rfmN := rfm } })) ∧
      (bit (e.param 10) 0 = true → rfmOk n = false → exec (.poolConfig j) s = .next (finish j stBadParam [] (beginCmd e s))) ∧
      (bit (e.param 10) 0 = false → noContexts s = false → exec (.poolConfig j) s = .next (finish j stCtxBusy [] (beginCmd e s))) ∧
      (bit (e.param 10) 0 = false → noContexts s = true → fits →
        ∃ v, exec (.poolConfig j) s = .next (finish j stOk [] v) ∧ kept v = kept { s with dram := v.dram } ∧
          (∀ a, mget v.dram.cells a = (match placeOf v.dram a with | .ecc _ _ => 0 | _ => mget s.dram.cells a)) ∧
          (∀ x, x ∈ v.dram.bad ↔ x ∈ s.dram.bad ∧ ∀ p ix, placeOf v.dram (32 * x) ≠ .ecc p ix) ∧
          v.dram.shares = sh ∧ v.dram.safetyMib = (e.param 8).toNat ∧ v.dram.rfmN = rfm ∧ v.dram.refs = [] ∧ v.dram.safetyRuns = [] ∧
          v.dram.chans = s.dram.chans ∧ v.dram.queues = s.dram.queues ∧ v.dram.capMib = s.dram.capMib ∧
          ∀ p ecc, p < 8 → (v.part (partKey p ecc)).total = partCount d p ecc ∧ (v.part (partKey p ecc)).free = partCount d p ecc) ∧
      (bit (e.param 10) 0 = false → noContexts s = true → ¬ fits → exec (.poolConfig j) s = .next (finish j stBadParam [] (beginCmd e s)))) ∧
    (Runs s j 0x51 e → ∃ k v, k ≤ 49 ∧ exec (.poolStatus j) s =
        .next (finish j (if k = 49 then stOk else stTruncated) [w32 (((poolImage s).take k).flatten.length)] v) ∧
      v.hostMem = mwrite s.hostMem (join64 (e.param 0) (e.param 1)) ((poolImage s).take k).flatten ∧
      ((poolImage s).take k).flatten.length ≤ (e.param 2).toNat ∧ (k < 49 → (e.param 2).toNat < ((poolImage s).take (k + 1)).flatten.length) ∧
      kept v = kept { s with dram := { s.dram with parts := v.dram.parts } } ∧
      ∀ q x, tfind s.dram.parts q = some x → tfind v.dram.parts q = some { x with minFree := x.free })) ∧
  ((∀ (k : Nat) (bad : Option Nat) (s : State), ∃ t, exec (.poolRefill k bad) s = .next t ∧ (t.part k).free = (s.part k).free ∧
    (t.part k).total = (s.part k).total ∧ (∀ q, q ≠ k → t.part q = s.part q) ∧ t.dram.cells = s.dram.cells ∧ t.dram.refs = s.dram.refs ∧
    ((s.part k).cache.length < 32 → 64 ≤ ((s.part k).ring.map (·.2)).sum → (t.part k).cache.length = (s.part k).cache.length + 64) ∧
    (224 < (s.part k).cache.length → (t.part k).cache.length = (s.part k).cache.length - 64) ∧
    ((∀ a, bad = some a → placeOf s.dram a ≠ .metadata) → t.safety = s.safety ∧ t.dram.chans = s.dram.chans ∧ t.dram.bad = s.dram.bad ∧
      (32 ≤ (s.part k).cache.length → (s.part k).cache.length ≤ 224 → t = s)) ∧
    (∀ a, bad = some a → placeOf s.dram a = .metadata → let c := channelAt s.dram a
      t.chan c 0 = { s.chan c 0 with ue := min ((s.chan c 0).ue + 1) (2 ^ 32 - 1) } ∧ a / 32 ∈ t.dram.bad ∧
      (ueTrips s a = false → t.safety = s.safety))) ∧
  (∀ (a : Nat) (s : State), (tfind s.dram.refs a = none → exec (.refcountIncrement a) s = .next s) ∧ ∀ n, tfind s.dram.refs a = some n →
    (n < 65535 → exec (.refcountIncrement a) s =
      .next { s with dram := { s.dram with refs := tput s.dram.refs a (n + 1), readers := tput s.dram.readers a (tget s.dram.readers a 0 + 1) } }) ∧
    (65535 ≤ n → ∀ p ix ecc, placeOf s.dram a = (if ecc then .ecc p ix else .plain p ix) → ∃ t, exec (.refcountIncrement a) s = .next t ∧
      t.dram.refs = s.dram.refs ∧ t.dram.refWaits = s.dram.refWaits ++ [a] ∧
      (t.part (partKey p ecc)) = { s.part (partKey p ecc) with waits := min ((s.part (partKey p ecc)).waits + 1) (2 ^ 32 - 1) } ∧
      (∀ q, q ≠ partKey p ecc → t.part q = s.part q) ∧ t.dram.cells = s.dram.cells)))

/-- A channel queues a read of one of its lines with the bytes that every write queued before it leaves there, forwarded where pending writes cover the
whole line; a write is merged into a pending one of its line, and what is queued after it finds its bytes. A request for a full queue or of a line that
is not the channel's changes nothing, nor does one of another requester than the control cluster for the channel-local areas (11 R252, R253, R259-R261).
A drain starts with the 48th write and ends at 16; LC goes first (10 R242), then reads unless the class drains; each request passed over counts, to 8
(11 R259). A served read answers its bytes, poisoned where a protected sector of its line holds an uncorrectable error, and one forwarded whole touches
nothing of DRAM (11 R261, R265); a served write reads the sectors it covers in part, and one it covers wholly loses its uncorrectable error. An opened row
counts on its bank, less what a management command relieves (11 R263; the device reports when and how much, log 139). -/
def Obligations.ChannelQueues : Prop :=
  (∀ (ch : Nat) (s : State),
    let q := s.chanQ ch
    let at_ (r : DramReq) (k : Nat) (c : EccCond) : Prop := (placeOf s.dram (32 * (2 * r.line + k))).protected = true ∧ sectorCond s (2 * r.line + k) c = .double
    let part (l : List (Option Byte)) : Prop := (∃ x ∈ l, x.isSome = true) ∧ none ∈ l
    let opened (act : Option (Nat × Nat × Bool)) (t : State) : Prop := ∀ b row last, act = some (b, row, last) →
      tfind (t.chanQ ch).openRow b = some row ∧
      let k := tget q.activates b 0 + 1
      tget (t.chanQ ch).activates b 0 = (if Config.rfmNeeded = true ∧ Config.rfmThreshold ≤ k then k - Config.rfmRelief else k)
    (∀ who line, who ≠ Requester.control → spaceBytes s.dram ≤ 64 * line → lineOn s ch who line = false) ∧
    (∀ who line lc, lineOn s ch who line = true → q.reads.length < 64 → ∃ t r, exec (.dramRequest ch (.read who line lc)) s = .next t ∧
      (t.chanQ ch).reads = q.reads ++ [r] ∧ (t.chanQ ch).writes = q.writes ∧ r.line = line ∧ r.lc = lc ∧ r.passed = 0 ∧ t.dram.cells = s.dram.cells ∧
      r.bytes = (mread s.dram.cells (line * 64) 64).map some ∧
      (q.writes.filter (fun w => w.line = line) = [] → r.forwarded = false) ∧
      ∀ w, q.writes.filter (fun w => w.line = line) = [w] → w.bytes.length = 64 → (r.forwarded = true ↔ none ∉ w.bytes)) ∧
    (∀ who line lc, lineOn s ch who line = false ∨ 64 ≤ q.reads.length → exec (.dramRequest ch (.read who line lc)) s = .next s) ∧
    (∀ who line lc bs, lineOn s ch who line = true → q.writes.any (fun w => w.line = line) = true ∨ q.writes.length < 64 →
      ∃ t, exec (.dramRequest ch (.write who line lc bs)) s = .next t ∧ (t.chanQ ch).reads = q.reads ∧
        (Memory.wf s.dram.cells = true → (∀ a, a < line * 64 ∨ line * 64 + bs.length ≤ a → mget t.dram.cells a = mget s.dram.cells a) ∧
          ∀ i b, bs[i]? = some b → mget t.dram.cells (line * 64 + i) = b.getD (mget s.dram.cells (line * 64 + i))) ∧
        (48 ≤ (t.chanQ ch).writes.length → (t.chanQ ch).drainLc = true ∧ (t.chanQ ch).drainBe = true) ∧
        (q.writes.any (fun w => w.line = line) = false →
          (t.chanQ ch).writes = q.writes ++ [{ line := line, lc := lc, bytes := bs, forwarded := false, passed := 0 }]) ∧
        (q.writes.any (fun w => w.line = line) = true → (t.chanQ ch).writes.length = q.writes.length ∧
          ∀ (k : Nat) (w : DramReq), q.writes[k]? = some w → ∃ y : DramReq, (t.chanQ ch).writes[k]? = some y ∧
            (w.line ≠ line → y = w) ∧ (w.line = line → y = { w with bytes := y.bytes } ∧ (w.bytes.length = 64 → bs.length = 64 → ∀ i, i < 64 →
              y.bytes.getD i none = (match bs.getD i none with | some b => some b | none => w.bytes.getD i none))))) ∧
    (∀ who line lc bs, lineOn s ch who line = false ∨ 64 ≤ q.writes.length ∧ q.writes.any (fun w => w.line = line) = false →
      exec (.dramRequest ch (.write who line lc bs)) s = .next s) ∧
    (∀ (pick : Nat) (ecc : EccCond × EccCond) (act : Option (Nat × Nat × Bool)) (sn : Bool),
      (pick ≠ 0 → act ≠ none → exec (.dramRequest ch (.serve pick ecc act sn)) s = .next s) ∧
      (pick = 0 ∨ act = none →
        (∀ w rest lc, nextKind q = some (false, lc) → takeReq lc pick q.writes = some (w, rest) → w.bytes.length = 64 →
          ∃ t, exec (.dramRequest ch (.serve pick ecc act sn)) s = .next t ∧ (t.chanQ ch).writes = rest ∧ (t.chanQ ch).reads = q.reads ∧
            t.dram.cells = s.dram.cells ∧ opened act t ∧ (rest.length ≤ 16 → (t.chanQ ch).drainLc = false ∧ (t.chanQ ch).drainBe = false) ∧
            (none ∉ w.bytes.take 32 → 2 * w.line ∉ t.dram.bad) ∧ (none ∉ w.bytes.drop 32 → 2 * w.line + 1 ∉ t.dram.bad) ∧
            (part (w.bytes.take 32) → at_ w 0 ecc.1 → 2 * w.line ∈ t.dram.bad) ∧ (part (w.bytes.drop 32) → at_ w 1 ecc.2 → 2 * w.line + 1 ∈ t.dram.bad) ∧
            (¬ part (w.bytes.take 32) → ¬ part (w.bytes.drop 32) → t.safety = s.safety)) ∧
        (∀ r rest lc, nextKind q = some (true, lc) → takeReq lc pick q.reads = some (r, rest) →
          ∃ t, exec (.dramRequest ch (.serve pick ecc act sn)) s = .next t ∧ (t.chanQ ch).reads = rest ∧ (t.chanQ ch).writes = q.writes ∧
            (t.chanQ ch).last = r.bytes.map (·.getD 0) ∧ t.dram.cells = s.dram.cells ∧
            (r.forwarded = true → (t.chanQ ch).poisoned = false ∧ (t.chanQ ch).openRow = q.openRow ∧ t.dram.bad = s.dram.bad ∧
              t.dram.chans = s.dram.chans ∧ t.safety = s.safety) ∧
            (r.forwarded = false → opened act t ∧ ((placeOf s.dram (r.line * 64)).protected = true →
              ((t.chanQ ch).poisoned = true ↔ sectorCond s (2 * r.line) ecc.1 = .double ∨ sectorCond s (2 * r.line + 1) ecc.2 = .double)) ∧
              ((placeOf s.dram (r.line * 64)).protected = false → (t.chanQ ch).poisoned = false) ∧
              (at_ r 0 ecc.1 → 2 * r.line ∈ t.dram.bad) ∧ (at_ r 1 ecc.2 → 2 * r.line + 1 ∈ t.dram.bad) ∧
              (¬ at_ r 0 ecc.1 → ¬ at_ r 1 ecc.2 → t.safety = s.safety)))))) ∧
  ((∀ (q : ChanQ) (lc : Bool), (lc = true ∨ q.reads.all (fun r => !r.lc) = true ∧ q.writes.all (fun r => !r.lc) = true) →
    let drain := if lc then q.drainLc else q.drainBe
    let reads := q.reads.any (fun r => r.lc = lc)
    let writes := q.writes.any (fun r => r.lc = lc)
    (nextKind q = some (false, lc) ↔ writes = true ∧ (drain = true ∨ reads = false)) ∧
    (nextKind q = some (true, lc) ↔ reads = true ∧ ¬ (drain = true ∧ writes = true))) ∧
  ∀ (lc : Bool) (pick : Nat) (l rest : List DramReq) (r : DramReq), takeReq lc pick l = some (r, rest) →
    r ∈ l ∧ r.lc = lc ∧ rest.length + 1 = l.length ∧ ((∀ x ∈ l, x.passed ≤ 8) → ∀ x ∈ rest, x.passed ≤ 8) ∧
    (rest.map (·.passed)).sum + r.passed = (l.map (·.passed)).sum + pick)

/-- Patrol counts a corrected sector and an uncorrectable one, found now or known before, on its channel, and trips DRAM_UE only in the places of Table 14.2
(11 R266, R267); a sector of a journal mirror is repaired from the other mirror, counted, unless that one is uncorrectable too (11 R269). A drift of four or
more settings waits for the next all-bank refresh, which moves the sixteen delays by it within 0-255 and counts (11 R257); the refresh lowers each bank's
count of activates by what the device reports (11 R263, log 139). DRAM_TRAIN_STEP on an active maintenance port, before any host ring was enabled: it reports
the passing lanes and the widest window, and with APPLY and a window of 32 settings or more replaces the trained values; out of range it completes with
BAD_PARAMETER, and once a host ring has been enabled with CONTEXT_BUSY (11 R256, R258). -/
def Obligations.DramMaintained : Prop :=
  ((∀ (sector : Nat) (k : EccCond) (s : State),
    let a := 32 * sector
    let c := channelAt s.dram a
    let x := s.chan c 0
    let more := min (x.ue + 1) (2 ^ 32 - 1)
    ((placeOf s.dram a).protected = false → exec (.patrolScrub sector k) s = .next s) ∧
    ((placeOf s.dram a).protected = true →
      (k = .clean → sector ∉ s.dram.bad → exec (.patrolScrub sector k) s = .next s) ∧
      (k = .single → sector ∉ s.dram.bad → exec (.patrolScrub sector k) s = .next (s.setChan c 0 { x with ce := min (x.ce + 1) (2 ^ 32 - 1) })) ∧
      (k = .double ∨ sector ∈ s.dram.bad → ∃ t, exec (.patrolScrub sector k) s = .next t ∧ t.dram.cells = s.dram.cells ∧
        ((∀ b, placeOf s.dram a ≠ .mirror b) → t.chan c 0 = { x with ue := more } ∧ sector ∈ t.dram.bad ∧
          (ueTrips s a = false → t.safety = s.safety) ∧
          (ueTrips s a = true → s.safety.state = 1 → t.safety.state = 2 ∧ maskBit t.safety.causes 2 = true ∧ t.safety.safeN = false)) ∧
        (∀ b, placeOf s.dram a = .mirror b → t.safety = s.safety ∧
          (mirrorTwin b a / 32 ∈ s.dram.bad → t.chan c 0 = { x with ue := more } ∧ sector ∈ t.dram.bad) ∧
          (mirrorTwin b a / 32 ∉ s.dram.bad → t.chan c 0 = { x with ue := more, repairs := min (x.repairs + 1) 65535 } ∧ sector ∉ t.dram.bad))))) ∧
  (∀ (ch rank : Nat) (rd wr : Int) (s : State),
    (s.dram.ranks ≤ rank ∨ rd.natAbs < 4 ∧ wr.natAbs < 4 → exec (.driftCheck ch rank rd wr) s = .next s) ∧
    (rank < s.dram.ranks → 4 ≤ rd.natAbs ∨ 4 ≤ wr.natAbs → ∃ t, exec (.driftCheck ch rank rd wr) s = .next t ∧
      t.chan ch rank = { s.chan ch rank with driftPend := some (if 4 ≤ rd.natAbs then rd else 0, if 4 ≤ wr.natAbs then wr else 0) })) ∧
  (∀ (ch : Nat) (s : State), ∃ t, exec (.allBankRefresh ch) s = .next t ∧ t.dram.cells = s.dram.cells ∧ t.safety = s.safety ∧
    (∀ b, tget (t.chanQ ch).activates b 0 = tget (s.chanQ ch).activates b 0 - Config.rfmRelief) ∧ ∀ k, k < 2 →
    let x := s.chan ch k
    let y := t.chan ch k
    let moved (a b : Tab Nat) (d : Int) : Prop := ∀ i, i < 16 → tget b i 0 = (max 0 (min 255 (((tget a i 0 : Nat) : Int) + d))).toNat
    (x.driftPend = none → y = x) ∧
    (∀ rd wr, x.driftPend = some (rd, wr) →
      let n := (if rd ≠ 0 then 1 else 0) + (if wr ≠ 0 then 1 else 0)
      y = { x with readDq := y.readDq, writeDq := y.writeDq, driftPend := none, drift := min (x.drift + n) 65535 } ∧
      (rd = 0 → y.readDq = x.readDq) ∧ (rd ≠ 0 → moved x.readDq y.readDq rd) ∧ (wr = 0 → y.writeDq = x.writeDq) ∧
      (wr ≠ 0 → moved x.writeDq y.writeDq wr)))) ∧
  (∀ (pkt : List Word) (sw : Sweep) (s : State), maintenanceUp s = true → fld (pkt.getD 0 0) 7 0 = 0xA0 →
    (Config.journalShared ≤ sharedUsed s → exec (.dramTrainStep pkt sw) s = .next s) ∧
    (sharedUsed s < Config.journalShared → fld (pkt.getD 0 0) 25 24 = 0 → fld (pkt.getD 2 0) 15 0 < 16 → bit (pkt.getD 3 0) 7 = false →
    let p (n : Nat) : Word := pkt.getD (n + 4) 0
    let ch := fld (pkt.getD 2 0) 15 0
    let rank := fld (p 0) 8 8
    let lane := fld (p 1) 23 16
    let lanes := (List.range 16).filter (fun i => decide (lane = 0xFF) || decide (lane = i))
    let window (i : Nat) := widestRun (swept sw i (fld (p 1) 7 0) (fld (p 1) 15 8))
    let good : Prop := 1 ≤ fld (p 0) 3 0 ∧ fld (p 0) 3 0 ≤ 7 ∧ (lane < 16 ∨ lane = 0xFF) ∧ fld (p 1) 7 0 ≤ fld (p 1) 15 8 ∧ fld (p 2) 2 0 ≤ 5
    let fresh : Prop := (s.queue 0).everEnabled = false ∧ (s.queue 1).everEnabled = false
    let answers (t : State) (st : Nat) : Prop := exec (.dramTrainStep pkt sw) s = .next t ∧ (∃ c, t.mntCpl = some c ∧ c.status = st ∧ c.final = true ∧
      c.asn = s.mntAsn + 1 ∧ c.opcode = 0xA0) ∧ t.jpos = s.jpos + 1 ∧ t.dram.cells = s.dram.cells ∧ t.streams = s.streams ∧ t.safety = s.safety
    (¬ fresh → ∃ t, answers t stCtxBusy ∧ t.dram = s.dram) ∧
    (fresh → ¬ good → ∃ t, answers t stBadParam ∧ t.dram = s.dram) ∧
    (fresh → good → (∀ i ∈ lanes, window i = none) → ∃ t c, answers t stOk ∧ t.chan ch rank = s.chan ch rank ∧ t.mntCpl = some c ∧ c.r0 = 0 ∧
      c.r1 = 0xFFFF ∧ c.r2 = w32 sw.errors ∧ c.r3 = 0xFF) ∧
    (∀ i f l, fresh → good → i ∈ lanes → window i = some (f, l) → (∀ k ∈ lanes, ∀ g m, window k = some (g, m) →
        m - g ≤ l - f ∧ (k < i → m - g < l - f)) →
      let passed := lanes.filter (fun k => wide (window k))
      let applies : Prop := bit (p 0) 16 = true ∧ f + 31 ≤ l ∧ (s.chan ch rank).status ≠ 0xFF
      ∃ t c, answers t stOk ∧ t.mntCpl = some c ∧ c.r0 = w32 ((passed.map (2 ^ ·)).sum) ∧ c.r1 = dw [(l, 15, 8), (f, 7, 0)] ∧ c.r2 = w32 sw.errors ∧
        (¬ applies → t.chan ch rank = s.chan ch rank ∧ c.r3 = 0xFF) ∧
        (applies → c.r3 = w32 ((f + l) / 2) ∧ t.chan ch rank =
          { (applyTrain (fld (p 0) 3 0) sw (passed.map (fun k => (k, centre (window k)))) ((f + l) / 2) (s.chan ch rank)) with status := 0, attempts := 1 }))))

/-! ### Links (12_links.md) -/

/-- LINK_CONFIG within the ranges of Table 12.2 sets role, chip ID, torus dimensions and the ports' enables and datelines: a newly enabled port
trains, the end of its attempt as R283 says, a disabled one is DISABLED and counts a fault when it was UP; RESULT0 shows the ports UP. Out of range it
completes with BAD_PARAMETER, and a change of role or chip ID with work that fixes them with CONTEXT_BUSY (12 R285). ROUTE_SET replaces the whole
table where every valid entry names enabled ports and no entry an ALT_PORT that is its PRIMARY, and the completions kept for chips that have a route
leave; else BAD_PARAMETER (12 R286, R292). -/
def Obligations.LinksConfigured : Prop :=
  ∀ (j : Nat) (e : JEntry) (s : State),
    (∀ ups : List (Nat × TrainEnd), Runs s j 0x60 e →
      let c := LinkWord.ofWord (e.param 0)
      let busy : Prop := (c.role ≠ s.link.role ∨ c.chip ≠ s.link.chip) ∧ linkBusy s = true
      (busy → exec (.linkConfig j ups) s = .next (finish j stCtxBusy [] (beginCmd e s))) ∧
      (¬ busy → c.ok = false → exec (.linkConfig j ups) s = .next (finish j stBadParam [] (beginCmd e s))) ∧
      (¬ busy → c.ok = true → ∃ v, exec (.linkConfig j ups) s = .next (finish j stOk [w32 (upMask v)] v) ∧
        v.link.role = c.role ∧ v.link.chip = c.chip ∧ v.link.torusX = (if c.role = 2 then c.tx else s.link.torusX) ∧
        v.link.torusY = (if c.role = 2 then c.ty else s.link.torusY) ∧ v.link.route = s.link.route ∧ v.streams = s.streams ∧
        ((∀ r ∈ ups, r.2 = .failed) → v.sessions = s.sessions ∧ v.dram = s.dram ∧ v.hostMem = s.hostMem ∧ v.safety = s.safety ∧
          v.link.pairs = s.link.pairs) ∧
        ∀ p, p < 4 → (v.lport p).enabled = maskBit c.en p ∧ (v.lport p).dateline = maskBit c.dateline p ∧
          (maskBit c.en p = false → (v.lport p).st = 0 ∧ ((s.lport p).st = 2 →
            tget v.obs.ctrs (ctrPort p 6) 0 = (tget s.obs.ctrs (ctrPort p 6) 0 + 1) % 2 ^ 48)) ∧
          (maskBit c.en p = true → (s.lport p).enabled = true → (s.lport p).st ≠ 1 → (v.lport p).st = (s.lport p).st) ∧
          (maskBit c.en p = true → (s.lport p).enabled = false ∨ (s.lport p).st = 1 →
            ((∀ r ∈ ups, r.1 = p → r.2 = .failed) → (v.lport p).st = 1) ∧
            (∀ chip role peer tx ty inc cr, ups.filter (fun r => r.1 = p) = [(p, .identity chip role peer tx ty inc cr)] →
              let same : Prop := role = c.role ∧ (c.role = 2 → tx = c.tx ∧ ty = c.ty) ∧ peer = (if p % 2 = 0 then p + 1 else p - 1)
              (v.lport p).st = (if ¬ same then 4 else if chip = c.chip then 5 else 2))))) ∧
    (Runs s j 0x61 e →
      let entry (i : Nat) : Nat := fld (e.param (i / 4)) (8 * (i % 4) + 7) (8 * (i % 4))
      let good : Prop := ∀ i, i < 64 → i ≠ s.link.chip → (128 ≤ entry i → (s.lport (entry i % 4)).enabled = true ∧
        (entry i / 64 % 2 = 1 → (s.lport (entry i / 16 % 4)).enabled = true)) ∧ (entry i / 64 % 2 = 1 → entry i / 16 % 4 ≠ entry i % 4)
      (good → ∃ r u, u = finish j stOk [] { beginCmd e s with link := { s.link with route := r, onAlt := 0 } } ∧ (∀ i, i < 64 → tget r i 0 = entry i) ∧
        exec (.routeSet j) s = .next (resendKept u) ∧ (s.link.kept = [] → exec (.routeSet j) s = .next u)) ∧
      (¬ good → exec (.routeSet j) s = .next (finish j stBadParam [] (beginCmd e s))))

/-- Training that reaches the peer's identity brings a port UP with the credits the peer announces, or leaves it ROLE_MISMATCH or ID_CONFLICT (12
R282, R283, R290); an enabled port that is not UP starts again (R282). Codewords that arrive restore credits and let a waiting packet leave (R290). A
lost lane, 10 µs without a codeword, the eighth replay in a row and FLR_NOTICE take a port that is UP to DOWN_FAULT and count; its routes go to their
alternates, by which the packets this part had queued for it leave (R281, R287, R295). FLR_NOTICE also closes the sender's shadow sessions, and a
changed INCARNATION does and forgets what its chip sent (R292, Table 12.7). -/
def Obligations.PortsTrainAndFail : Prop :=
  ∀ (p : Nat) (s : State),
    let x := s.lport p
    let others (t : State) : Prop := (∀ q, q ≠ p → (t.lport q).kept = (s.lport q).kept) ∧ t.streams = s.streams ∧ t.link.route = s.link.route
    let quiet (t : State) : Prop := others t ∧ t.sessions = s.sessions ∧ t.safety = s.safety ∧ t.dram = s.dram ∧ t.journal = s.journal ∧
      t.hostMem = s.hostMem
    let counts (k : Nat) (t : State) : Prop := tget t.obs.ctrs (ctrPort p k) 0 = (tget s.obs.ctrs (ctrPort p k) 0 + 1) % 2 ^ 48
    let fell (t : State) : Prop := (t.lport p).kept = { x.kept with st := 3, replays := 0 } ∧ (t.lport p).queue = [] ∧ counts 6 t ∧
      t.pcie.cause.getLsbD 19 = true ∧
      (∀ d, d < 64 → 128 ≤ tget s.link.route d 0 % 256 → tget s.link.route d 0 / 64 % 2 = 1 → tget s.link.route d 0 % 4 = p →
        maskBit t.link.onAlt d = true) ∧
      (∀ pk o b, (pk, none) ∈ x.queue → routeOut t pk.dest = some (o, b) → Handed o none { pk with turned := b } t)
    let gone (chip : Nat) (t : State) : Prop := ∀ n, (s.session n).shadow.map (·.1) = some chip → (t.session n).isOpen = false ∧ (t.session n).shadow = none
    (x.st = 2 → (∀ c ∈ [Instr.portDown p, .codewordTimeout p], ∃ t, exec c s = .next t ∧ fell t ∧ quiet t) ∧
      (∀ b, 7 ≤ x.replays → ∃ t, exec (.codewordReceive p b none) s = .next t ∧ fell t ∧ counts 1 t ∧ quiet t) ∧
      (∀ b, x.replays < 7 → ∃ t, exec (.codewordReceive p b none) s = .next t ∧ t.lport p = { x with replays := x.replays + 1 } ∧ counts 1 t ∧
        quiet t ∧ t.link.tx = s.link.tx) ∧
      (∀ b cr, ∃ t, exec (.codewordReceive p b (some cr)) s = .next t ∧ (t.lport p).kept = { x.kept with replays := 0 } ∧ (b = true → counts 0 t) ∧ quiet t ∧
        (x.queue = [] → t.link.tx = s.link.tx ∧ ∀ k, k < 6 → tget (t.lport p).credits k 0 = tget x.credits k 0 + cr.getD k 0) ∧
        (∀ pk, x.queue = [(pk, none)] → creditKey pk < 6 → 0 < tget x.credits (creditKey pk) 0 + cr.getD (creditKey pk) 0 →
          t.link.tx = s.link.tx ++ [(p, pk)] ∧ (t.lport p).queue = [])) ∧
      (∀ pk, pktCrcOk pk = true → ∃ t, exec (.flrNotice p pk) s = .next t ∧ fell t ∧ others t ∧ gone pk.src t)) ∧
    (x.st ≠ 2 → (∀ c ∈ [Instr.portDown p, .codewordTimeout p], exec c s = .next s) ∧ (∀ b cr, exec (.codewordReceive p b cr) s = .next s) ∧
      ∀ pk, exec (.flrNotice p pk) s = .next s) ∧
    (x.enabled = true → x.st ≠ 2 → ∃ t, exec (.portTrainRetry p) s = .next t ∧ t.lport p = { x with st := 1 } ∧ quiet t) ∧
    (x.enabled = false ∨ x.st = 2 → exec (.portTrainRetry p) s = .next s) ∧
    (∀ r, x.enabled = false ∨ x.st ≠ 1 ∨ r = .failed → exec (.trainingComplete p r) s = .next s) ∧
    (x.enabled = true → x.st = 1 → ∀ chip role peer tx ty inc cr,
      let c := Instr.trainingComplete p (.identity chip role peer tx ty inc cr)
      let same : Prop := role = s.link.role ∧ (s.link.role = 2 → tx = s.link.torusX ∧ ty = s.link.torusY) ∧ peer = (if p % 2 = 0 then p + 1 else p - 1)
      (¬ same → ∃ t, exec c s = .next t ∧ t.lport p = { x with st := 4 } ∧ quiet t) ∧
      (same → chip = s.link.chip → ∃ t, exec c s = .next t ∧ t.lport p = { x with st := 5 } ∧ quiet t) ∧
      (same → chip ≠ s.link.chip → ∃ t, exec c s = .next t ∧ (t.lport p).kept = { x.kept with st := 2, peer := chip, replays := 0 } ∧ others t ∧
        tfind t.link.peerInc chip = some inc ∧
        (s.link.kept = [] → (∀ o, tfind s.link.peerInc chip = some o → o = inc) → quiet t ∧ t.link.tx = s.link.tx ∧
          t.lport p = { x with st := 2, peer := chip, replays := 0, queue := [], credits := (List.range 6).zip cr, freed := [], lastIn := 0 }) ∧
        (∀ o, tfind s.link.peerInc chip = some o → o ≠ inc → tfind t.link.highest chip = none ∧ (∀ q, (chip, q) ∉ t.link.taken) ∧ gone chip t)))

/-- A host command for another part is sent on when the routing table names a path and completes with NO_ROUTE otherwise (03 R74, R75); ACCEPT is
noted, REFUSE completes it with the status it carries (03 R65), COMPLETION with that part's status and chip, a rejection there as PEER_REJECTED with
its status in RESULT3 (03 R74, R76). A packet whose CRC fails is discarded and counted on its port, one out of SEQ order is discarded silently (12
R289, R291); the next COMMAND of its origin is journalled, answered with ACCEPT and remembered, refused with JOURNAL_FULL when the 512 ring entries
are in use, and answered again, not run again, when its position was accepted before (03 R61, R65, R75). -/
def Obligations.WorkForwarded : Prop :=
  (∀ (s : State),
    (∀ j e runs, (Runs s j 0x30 e ∨ Runs s j 0x33 e ∧ workingAt s j = none) → forwards s e = true →
      let c := if e.opcode = 0x30 then Instr.tensorRun j else .seqStep j runs
      let cls := if e.queue = 0 then 1 else 2
      let k := pairKey e.dest cls
      (s.link.role = 0 ∨ tget s.link.route e.dest 0 / 128 % 2 = 0 → exec c s = .next (finish j stNoRoute [] s)) ∧
      (s.link.role ≠ 0 → tget s.link.route e.dest 0 / 128 % 2 = 1 → ∃ t pk, exec c s = .next t ∧
        t.entry? j = some { e with st := .forwarded, fwd := some (e.dest, false) } ∧ pk.dest = e.dest ∧ pk.src = s.link.chip ∧ pk.type = 1 ∧
        pk.aux = w32 j ∧ pk.data = e.pkt ∧ (e.opcode = 0x30 → pk.context = 0xFFFF ∧ pk.gen = 0) ∧ (e.opcode = 0x33 → pk.context = e.ctx ∧ pk.gen = e.gen) ∧ pk.cls = cls ∧ pktCrcOk pk = true ∧
        pk.seq = w32 (tget s.link.pairs k Pair.reset).nextSeq ∧
        (tget t.link.pairs k Pair.reset).unacked = (tget s.link.pairs k Pair.reset).unacked ++ [pk] ∧
        (∀ port b, routeOut s e.dest = some (port, b) → (tget s.link.pairs k Pair.reset).unacked.length < 256 →
          Handed port none { pk with turned := b } t ∧ (portClear s port pk → t.link.tx = s.link.tx ++ [(port, { pk with turned := b })])) ∧
        t.streams = s.streams ∧ t.sessions = s.sessions ∧ t.dram = s.dram ∧ t.hostMem = s.hostMem ∧ t.safety = s.safety)) ∧
    (∀ (port : Nat) (pk : LinkPkt), portUp s port = true → pk.dest = s.link.chip → pktCrcOk pk = true →
      let u := creditBack port pk s
      (forwardedFrom s pk.src pk.aux.toNat = none → exec (.accept port pk) s = .next u ∧
        exec (.refuse port pk) s = .next (answerColl pk.src pk.aux (fld pk.aux2 15 0) 0 u)) ∧
      ∀ e : JEntry, forwardedFrom s pk.src pk.aux.toNat = some e →
        exec (.accept port pk) s = .next (modEntry e.jpos (fun x => { x with fwd := some (pk.src, true) }) u) ∧
        exec (.refuse port pk) s = .next (finish e.jpos (fld pk.aux2 15 0) [] u) ∧
        (pk.context = 0xFFFF ∨ currentGen s pk = some pk.gen →
          pk.seq.toNat = (tget s.link.pairs (pairKey pk.src pk.cls) Pair.reset).expect →
          let st := fld (pk.data.getD 0 0) 15 0
          let rejected : Prop := st / 256 = 2 ∨ st / 256 = 3
          let done (v : State) : State :=
            if (tget s.link.pairs (pairKey pk.src pk.cls) Pair.reset).sinceAck + 1 ≥ 16 then doAckSend pk.src pk.cls v else v
          ∃ v c, exec (.completion port pk) s = .next (done (produce e.jpos c v)) ∧ v.journal = s.journal ∧ v.hostMem = s.hostMem ∧
            v.streams = s.streams ∧ v.sessions = s.sessions ∧
            c.final = true ∧ c.chip = pk.src ∧ c.tag = e.tag ∧ c.asn = e.asn ∧ c.opcode = e.opcode ∧ c.r0 = pk.data.getD 4 0 ∧ c.r1 = pk.data.getD 5 0 ∧
            c.r2 = pk.data.getD 6 0 ∧ c.context = fld (pk.data.getD 3 0) 15 0 ∧ c.gen = fld (pk.data.getD 3 0) 23 16 ∧
            (rejected → c.status = stPeerRejected ∧ c.r3 = w32 st) ∧ (¬ rejected → c.status = st ∧ c.r3 = pk.data.getD 7 0)))) ∧
  (∀ (port : Nat) (pk : LinkPkt) (s : State), portUp s port = true → pk.dest = s.link.chip → live s = true → s.link.role ≠ 0 →
    let k := pairKey pk.src pk.cls
    let pos := pk.aux.toNat
    let q := if pk.cls = 1 then 0 else 1
    let asn := tget s.ringAsn q 0 + 1
    let answers (t : State) (type : Nat) (w : Word) : Prop := (routeOut s pk.src).isSome = true →
      ∃ o r, Handed o none r t ∧ r.dest = pk.src ∧ r.src = s.link.chip ∧ r.type = type ∧ r.aux = pk.aux ∧ r.aux2 = w
    (pktCrcOk pk = false → ∀ c ∈ [Instr.command port pk, .accept port pk, .refuse port pk, .completion port pk, .scatter port pk, .gather port pk,
        .stale port pk, .ack port pk, .flrNotice port pk], exec c s = .next (count (ctrPort port 2) 1 (creditBack port pk s))) ∧
    (pktCrcOk pk = true → pk.seq.toNat ≠ (tget s.link.pairs k Pair.reset).expect →
      ∀ c ∈ [Instr.command port pk, .completion port pk, .scatter port pk, .gather port pk], exec c s = .next (creditBack port pk s)) ∧
    (pktCrcOk pk = true → pk.seq.toNat = (tget s.link.pairs k Pair.reset).expect →
      ((pk.src, pos) ∈ s.link.taken → ∃ t, exec (.command port pk) s = .next t ∧ t.journal = s.journal ∧ t.jpos = s.jpos ∧ t.ringAsn = s.ringAsn ∧
        t.hostMem = s.hostMem ∧ t.dram = s.dram ∧ t.safety = s.safety ∧
        ∀ e, s.journal.find? (fun e => e.origin = some (pk.src, pos)) = some e → answers t 2 e.asn) ∧
      ((pk.src, pos) ∉ s.link.taken → 512 ≤ portUsed s .ring → ∃ t, exec (.command port pk) s = .next t ∧ t.journal = s.journal ∧ t.jpos = s.jpos ∧
        answers t 3 0x0303 ∧ t.link.highest = s.link.highest ∧ t.link.taken = s.link.taken) ∧
      ((pk.src, pos) ∉ s.link.taken → portUsed s .ring < 512 → s.entry? (s.jpos + 1) = none → ∃ t, exec (.command port pk) s = .next t ∧
        t.jpos = s.jpos + 1 ∧ tget t.ringAsn q 0 = asn ∧ tget t.link.highest pk.src 0 = max pos (tget s.link.highest pk.src 0) ∧
        (pk.src, pos) ∈ t.link.taken ∧ answers t 2 asn ∧ t.hostMem = s.hostMem ∧ t.dram = s.dram ∧ t.safety = s.safety)))

/-- ACK releases the packets at or before its SEQ and the completions they carried; one that shows another INCARNATION first forgets what its chip sent and
closes that chip's shadow sessions. An ACK is sent after packets received and names the last SEQ in order (which class it is for stands in no field of
the header, log 20); RETRANSMIT sends from the first unacknowledged packet on, and the fourth without progress, or no route, drops them, restarts SEQ
at 1, completes a command without ACCEPT with LINK_DOWN and fails the collectives without ACCEPT that wait for the chip, while an accepted one stays (09
R230; 12 R291, R292). STALE is counted (R294). SCATTER is answered with a GATHER of as many words, their values left open; GATHER keeps the words of its
sender for the layer, and the last sends the next layer's input to every peer; both are discarded during a reset of the work; one that names a context
of another generation is discarded with STALE, its SEQ still acknowledged (12 R293, R294, R296). A packet for another chip leaves by the port of R287
one hop poorer, on the virtual channel of R288, at once where the port is free (R290); without a path or with no hop left it is dropped and counted
(R287). -/
def Obligations.LinkDelivery : Prop :=
  (∀ (s : State),
    (∀ (port : Nat) (pk : LinkPkt), portUp s port = true → pk.dest = s.link.chip → pktCrcOk pk = true →
      let k := pairKey pk.src pk.ackFor
      let u := (tget s.link.pairs k Pair.reset).unacked
      (tfind s.link.peerInc pk.src = some pk.aux2 ∨ tfind s.link.peerInc pk.src = none → ∃ t, exec (.ack port pk) s = .next t ∧
        (tget t.link.pairs k Pair.reset).unacked = u.filter (fun x => !seqLe x.seq.toNat pk.aux.toNat) ∧
        ((u.any fun x => seqLe x.seq.toNat pk.aux.toNat) = true → (tget t.link.pairs k Pair.reset).retries = 0) ∧
        (∀ m, m ≠ k → tget t.link.pairs m Pair.reset = tget s.link.pairs m Pair.reset) ∧
        (∀ c, c ∈ t.link.kept ↔ c ∈ s.link.kept ∧ ∀ x ∈ u, seqLe x.seq.toNat pk.aux.toNat = true →
          ¬ (x.type = 4 ∧ x.aux = w32 c.2.1 ∧ x.dest = c.1)) ∧
        tfind t.link.peerInc pk.src = some pk.aux2 ∧ t.journal = s.journal ∧ t.streams = s.streams ∧ t.sessions = s.sessions) ∧
      (∀ inc, tfind s.link.peerInc pk.src = some inc → inc ≠ pk.aux2 → pk.ackFor = 1 ∨ pk.ackFor = 2 → ∃ t, exec (.ack port pk) s = .next t ∧
        (∀ x ∈ u, seqLe x.seq.toNat pk.aux.toNat = false → x ∈ (tget t.link.pairs k Pair.reset).unacked) ∧
        (∀ x ∈ (tget t.link.pairs k Pair.reset).unacked, seqLe x.seq.toNat pk.aux.toNat = false) ∧
        (tget t.link.pairs k Pair.reset).expect = 1 ∧ tfind t.link.highest pk.src = none ∧ (∀ q, (pk.src, q) ∉ t.link.taken) ∧
        (∀ n, (s.session n).shadow.map (·.1) = some pk.src → (t.session n).isOpen = false) ∧
        tfind t.link.peerInc pk.src = some pk.aux2 ∧ t.streams = s.streams) ∧
      exec (.stale port pk) s = .next (count (ctrPort ((routeOut s pk.src).elim port (·.1)) 5) 1 (creditBack port pk s))) ∧
    (∀ chip cls : Nat,
      let k := pairKey chip cls
      let pr := tget s.link.pairs k Pair.reset
      (pr.sinceAck = 0 ∨ routeOut s chip = none → exec (.ackSend chip cls) s = .next s) ∧
      (∀ o b, pr.sinceAck ≠ 0 → routeOut s chip = some (o, b) → ∃ t r, exec (.ackSend chip cls) s = .next t ∧ Handed o none r t ∧
        (portClear s o r → t.link.tx = s.link.tx ++ [(o, r)]) ∧ pktCrcOk r = true ∧
        r.dest = chip ∧ r.src = s.link.chip ∧ r.type = 8 ∧ r.cls = 0 ∧ r.vc = 0 ∧ r.seq = 0 ∧ r.context = 0xFFFF ∧ r.gen = 0 ∧ r.ackFor = cls ∧ r.aux = w32 (pr.expect + 2 ^ 32 - 1) ∧
        r.aux2 = s.link.incarnation ∧ tget t.link.pairs k Pair.reset = { pr with sinceAck := 0 } ∧ t.journal = s.journal) ∧
      (pr.unacked = [] → exec (.retransmit chip cls) s = .next s) ∧
      (∀ o b, pr.unacked ≠ [] → pr.retries < 3 → routeOut s chip = some (o, b) → ∃ t, exec (.retransmit chip cls) s = .next t ∧
        (∀ u ∈ pr.unacked.take 256, u.dest = chip → Handed o none { u with turned := b } t) ∧
        tget t.link.pairs k Pair.reset = { pr with retries := pr.retries + 1 } ∧ t.journal = s.journal) ∧
      (pr.unacked ≠ [] → 3 ≤ pr.retries ∨ routeOut s chip = none →
        let dead := s.journal.filter (fun e => e.st = .forwarded && e.fwd = some (chip, false) && (if e.queue = 0 then 1 else 2) = cls)
        ∃ v, exec (.retransmit chip cls) s = .next (forAll (dead.map (·.jpos)) (fun j s => finish j stLinkDown [] s) v) ∧
          v.journal = s.journal ∧ v.streams = s.streams ∧ tget v.link.pairs k Pair.reset = { pr with nextSeq := 1, unacked := [], retries := 0 } ∧
          (∀ o x, (x, none) ∈ (v.lport o).queue → ¬ (x.src = s.link.chip ∧ x.dest = chip ∧ x.cls = cls)) ∧
          ∀ n, n ∈ spreadOver s chip → awaits chip cls (s.session n) = true → (v.session n).collFail ≠ 0 ∧
            ∀ c, c ∈ (v.session n).colls ↔ c ∈ (s.session n).colls ∧ ¬ (c.1 = chip ∧ c.2.2 = false)))) ∧
  (∀ (port : Nat) (pk : LinkPkt) (s : State), portUp s port = true →
    let k := pairKey pk.src pk.cls
    let pr := tget s.link.pairs k Pair.reset
    (pk.dest = s.link.chip → pktCrcOk pk = true → pk.seq.toNat = pr.expect →
      let took (t : State) : Prop := (tget t.link.pairs k Pair.reset).expect = (pr.expect + 1) % 2 ^ 32 ∧ t.streams = s.streams ∧ t.dram = s.dram ∧
        t.journal = s.journal ∧ t.hostMem = s.hostMem ∧ t.safety = s.safety
      (pk.context ≠ 0xFFFF → currentGen s pk ≠ some pk.gen → ∀ c ∈ [Instr.scatter port pk, .gather port pk, .completion port pk],
        ∃ t, exec c s = .next t ∧ took t ∧ t.sessions = s.sessions ∧ ∀ o b, routeOut s pk.src = some (o, b) →
          ∃ r, Handed o none r t ∧ r.type = 7 ∧ r.dest = pk.src ∧ r.aux = w32 pk.type ∧ r.aux2 = pk.seq) ∧
      (pk.context = 0xFFFF ∨ currentGen s pk = some pk.gen →
        (domainUp s = false → ∃ t, exec (.scatter port pk) s = .next t ∧ took t ∧ t.sessions = s.sessions ∧ t.link.tx.length ≤ s.link.tx.length + 1 ∧
          (tget t.link.pairs k Pair.reset).unacked = pr.unacked) ∧
        (workReset s (s.session pk.context) = true → ∃ t, exec (.gather port pk) s = .next t ∧ took t ∧ t.sessions = s.sessions) ∧
        (domainUp s = true → ∃ t g, exec (.scatter port pk) s = .next t ∧ took t ∧ t.sessions = s.sessions ∧
          (tget t.link.pairs k Pair.reset).unacked = pr.unacked ++ [g] ∧ g.type = 6 ∧ g.dest = pk.src ∧ g.context = pk.context ∧ g.gen = pk.gen ∧
          g.aux = pk.aux ∧ g.aux2 = pk.aux2 ∧ g.data.length = pk.data.length) ∧
        (workReset s (s.session pk.context) = false → ∃ t, exec (.gather port pk) s = .next t ∧ took t ∧
          let n := pk.context
          let x := s.session n
          let left := x.gathers.erase pk.src
          let kept := x.headRows ++ [(pk.src, (x.work.map (·.layer)).getD 0, pk.data)]
          let asked : Prop := ∃ w, x.work = some w ∧ pk.aux = w32 w.layer ∧ pk.aux2 = w32 x.stepId ∧ pk.src ∈ x.gathers
          (¬ asked → t.sessions = s.sessions) ∧
          (asked → (∀ m, m ≠ n → t.session m = s.session m) ∧ (left ≠ [] → t.session n = { x with gathers := left, headRows := kept }) ∧
            ∀ w, x.work = some w → left = [] →
              (w.layers ≤ w.layer + 1 → t.session n = { x with gathers := [], headRows := kept, work := some { w with layer := w.layers } }) ∧
              (w.layer + 1 < w.layers → t.session n =
                  { x with gathers := peersOf s x.spread, headRows := kept, work := some { w with layer := w.layer + 1 } } ∧
                ∀ p ∈ peersOf s x.spread, ∃ g ∈ (tget t.link.pairs (pairKey p (if x.be then 2 else 1)) Pair.reset).unacked, g.type = 5 ∧ g.dest = p ∧
                  g.context = n ∧ g.aux = w32 (w.layer + 1) ∧ g.aux2 = w32 x.stepId))))) ∧
    (pk.dest ≠ s.link.chip →
      let e := tget s.link.route pk.dest 0
      let prim := e % 4
      let alt := e / 16 % 4
      let straight : Prop := pk.turned = true ∧ prim / 2 = port / 2
      let usable : Prop := portUp s prim = true ∧ onAlternate s pk.dest = false
      let leaves (o : Nat) (b : Bool) : Prop :=
        let vc := if o / 2 ≠ port / 2 then 0 else if (s.lport port).dateline then 1 else pk.vc
        let r := { pk with hops := pk.hops - 1, turned := b, vc := vc }
        portUp s o = true → (pk.hops = 0 → exec (.linkPacketForward port pk) s = .next (count (ctrPort port 4) 1 (creditBack port pk s))) ∧
          (0 < pk.hops → ∃ t, exec (.linkPacketForward port pk) s = .next t ∧ Handed o (some (port, creditKey pk)) r t ∧
            (portClear s o r → t.link.tx = s.link.tx ++ [(o, r)] ∧ (o ≠ port → tget (t.lport o).credits (creditKey r) 0 + 1 =
              tget (s.lport o).credits (creditKey r) 0 ∧ t.lport port = (creditBack port pk s).lport port)) ∧
            t.streams = s.streams ∧ t.journal = s.journal ∧ t.link.pairs = s.link.pairs)
      let drops : Prop := exec (.linkPacketForward port pk) s = .next (count (ctrPort port 3) 1 (creditBack port pk s))
      (straight → leaves (if port % 2 = 0 then port + 1 else port - 1) true ∧ (portUp s (if port % 2 = 0 then port + 1 else port - 1) = false → drops)) ∧
      (¬ straight → e / 128 % 2 = 1 → usable → leaves prim false) ∧
      (¬ straight → e / 128 % 2 = 1 → ¬ usable → e / 64 % 2 = 1 → leaves alt true) ∧
      (¬ straight → e / 128 % 2 = 0 ∨ ¬ usable ∧ (e / 64 % 2 = 0 ∨ portUp s alt = false) → drops)))

/-! ### Functional safety (14_safety.md) -/

/-- SAFETY_ARM with every condition of R330 arms: SAFE_n goes high, CAUSES and FIRST_CAUSE clear, the key, the mask and the heartbeat gap begin; otherwise the
state stays and RESULT1 names each condition that fails; a mask of zeros completes with BAD_PARAMETER (R330). Both run a Proof cast set on every engine of the
unfenced cores and compare its results: condition [4] holds when every set has its Niches, its engine up and the results its block expects (R321, R330).
SAFETY_CLEAR with MODE = 1 turns safety off and keeps the FLR causes; with MODE = 0 it arms again where R331 allows, and otherwise names the reasons; a cause
detected while it runs leaves safety tripped and is reported, with either MODE (R319, R331). SAFETY_STATUS returns the four words of R332. -/
def Obligations.SafetyCommands : Prop :=
  ∀ (j : Nat) (e : JEntry) (pass : Bool) (s : State),
    let f := s.safety
    let no (b : Bool) (k : Nat) : Nat := if b then 0 else 2 ^ k
    let armed (v : State) : Prop := v.safety.state = 1 ∧ v.safety.safeN = true ∧ v.safety.causes = 0 ∧ v.safety.first = none ∧
      v.pcie.cause.getLsbD 17 = true
    let rest (v : State) : Prop := v.streams = s.streams ∧ v.sessions = s.sessions ∧ v.dram = s.dram ∧ v.hostMem = s.hostMem ∧ v.runs = s.runs
    let cast := runCasts (beginCmd e s)
    let ok := pass && cast.2
    let compared (v : State) : Prop := ∀ t, activeSched s = some t → computeUp s = true → ∀ c k, c ∈ castCores s → k < 4 →
      tfind (v.core c).castAt k = some s.chip.tick ∧
      (ok = true → castMatch v c k = true ∧ (castNiches t c k).length = (if k = 0 then 4 else 3) ∧ unitUp s (.mx c k) = true)
    (Runs s j 0x70 e →
      let mask := (e.param 1).toNat + (e.param 2).toNat * 2 ^ 32 + (e.param 3).toNat * 2 ^ 64 + (e.param 4).toNat * 2 ^ 96
      let r := no (bindsSafety s) 1 + no (maskMatches s mask) 2 + no (!causePresent s) 3 + no ok 4 + no (decide (f.state = 0)) 5
      (mask = 0 → exec (.safetyArm j pass) s = .next (finish j stBadParam [] (beginCmd e s))) ∧
      (mask ≠ 0 → r ≠ 0 → ∃ v, exec (.safetyArm j pass) s = .next (finish j stOk [f.word, w32 r] v) ∧ v.safety = f ∧ rest v ∧ compared v) ∧
      (mask ≠ 0 → r = 0 → ∃ v, exec (.safetyArm j pass) s = .next (finish j stOk [v.safety.word, 0] v) ∧ armed v ∧ v.safety.key = e.param 0 ∧
        v.safety.mask = mask ∧ v.safety.hbAt = s.chip.tick ∧ v.safety.hbCount = 0 ∧ v.safety.hbGap = 0 ∧ rest v ∧ compared v)) ∧
    (Runs s j 0x71 e →
      let r := no (maskMatches s f.mask) 2 + no (!causePresent s) 3 + no ok 4 + no (decide (f.state = 2)) 5 + no (heartbeatRecent s) 7 +
        no (!f.locked) 8
      (∀ during, bit (e.param 0) 0 = true → during = 0 ∨ f.state = 0 →
        ∃ v, exec (.safetyClear j pass during) s = .next (finish j stOk [v.safety.word, 0] v) ∧ v.safety.state = 0 ∧
          v.safety.safeN = false ∧ v.safety.key = f.key ∧ rest v ∧ v.safety.causes = f.causes &&& 0x4001 ∧
          v.safety.first = (if maskBit f.causes 0 then some 0 else if maskBit f.causes 14 then some 14 else none)) ∧
      (bit (e.param 0) 0 = false → r = 0 → ∃ v, exec (.safetyClear j pass 0) s = .next (finish j stOk [v.safety.word, 0] v) ∧ armed v ∧
        v.safety.mask = f.mask ∧ v.safety.key = f.key ∧ rest v ∧ compared v) ∧
      (bit (e.param 0) 0 = false → r ≠ 0 → ∃ v, exec (.safetyClear j pass 0) s = .next (finish j stOk [f.word, w32 r] v) ∧ v.safety = f ∧ rest v ∧
        compared v) ∧
      (∀ during n, f.state = 1 ∨ f.state = 2 → n < 18 → maskBit during n = true →
        ∃ v w, exec (.safetyClear j pass during) s = .next (finish j stOk [v.safety.word, w] v) ∧ v.safety.state = 2 ∧
          maskBit v.safety.causes n = true ∧ w.getLsbD 6 = true ∧ rest v)) ∧
    (Runs s j 0x72 e → exec (.safetyStatus j) s =
      .next (finish j stOk [f.word, dw [(f.trips, 31, 16), (f.first.getD 0xFF, 7, 0)], w32 f.tripTick, w32 f.hbGap] (beginCmd e s)))

/-- A heartbeat is judged when the safety port accepts it: it is correct when PARAM0 is the CRC-32 over the challenge last shown before its frame and
HB_KEY; a correct one draws the next challenge, the gap begins anew and the count rises while safety is armed or tripped; a wrong one trips HB_WRONG
while armed, and a gap above 6,000 ticks trips HB_MISSED, adding its cause to a trip that stands. Its completion has the four results of R328. -/
def Obligations.Heartbeats : Prop :=
  ∀ (s : State),
    let f := s.safety
    (∀ j e, Runs s j 0x73 e → exec (.safetyHeartbeat j) s =
      .next (finish j stOk [crcWords [e.param 1, ~~~f.key], f.word, w32 e.tick, w32 f.hbCount] (beginCmd e s))) ∧
    (∀ (x : SpiFrame) q q' pk ch e, live s = true → x.words.length = 32 → x.written = true → portUsed s .safety < 64 →
      s.sport.prev = .packet q → s.sport.pend = some (q', pk, ch) →
      e.pkt = pk → e.port = .safety → e.opcode = 0x73 → staticCheck s.link.chip e = none →
      ∃ t, exec (.safetyFrame x) s = .next t ∧
        let good : Prop := e.param 0 = crcWords [ch, f.key]
        let gap := t.chip.tick - f.hbAt
        t.chip.tick ≤ s.chip.tick + 1 ∧ t.safety.key = f.key ∧ t.safety.mask = f.mask ∧ t.streams = s.streams ∧ t.dram = s.dram ∧
        (good → t.safety.hbAt = t.chip.tick ∧ t.safety.hbOk = true ∧ t.safety.hbCount = (if f.state = 0 then f.hbCount else f.hbCount + 1) ∧
          t.safety.hbGap = (if f.state = 0 then f.hbGap else max f.hbGap gap) ∧ t.safety.draws = f.draws + 1 ∧
          t.safety.challenge = Config.freeChallenge f.draws) ∧
        (good → gap ≤ 6000 ∨ f.state = 0 → t.safety.state = f.state ∧ t.safety.causes = f.causes ∧ t.safety.safeN = f.safeN) ∧
        (good → 6000 < gap → f.state = 1 → Trips 11 s t) ∧
        (¬ good → t.safety.hbAt = f.hbAt ∧ t.safety.hbCount = f.hbCount ∧ t.safety.challenge = f.challenge ∧ (f.state = 1 → Trips 12 s t))) ∧
    (f.state = 0 → exec .hbMissed s = .next s) ∧
    (f.state = 1 ∨ f.state = 2 → f.hbAt + 6001 < 2 ^ 64 → s.chip.tick < 2 ^ 64 → ∃ t, exec .hbMissed s = .next t ∧
      t.chip.tick = max s.chip.tick (f.hbAt + 6001) ∧ t.safety.hbGap = max f.hbGap (t.chip.tick - f.hbAt) ∧ t.safety.state = 2 ∧
      maskBit t.safety.causes 11 = true ∧ t.streams = s.streams ∧ t.dram = s.dram ∧ (f.state = 1 → Trips 11 s t))

/-- The safety port answers in each frame the request of the one before (14 Tables 14.3, 14.4): a frame error with RESP 4 and no effect, a packet with
RESP 1 and the next ASN once journalled, RESP 3 while its 64 entries are in use or its entry is not written yet (at
most 20 µs, log 155), a repeat with RESP 2 and the first ASN, RESP 5 before READY; each
response carries the safety word, the oldest completion not yet acknowledged, and a CRC, and CPL_ACK of a request frees the entries it covers
(R324-R327). -/
def Obligations.SafetyFrames : Prop :=
  ∀ (x : SpiFrame) (s : State), s.chip.phase ≠ .thermal →
    let ws := x.words
    let p := s.sport
    let seq := fld (ws.getD 0 0) 15 0
    let kind := fld (ws.getD 0 0) 23 16
    let bad : Prop := fld (ws.getD 0 0) 31 24 ≠ 0x5A ∨ ws.getD 31 0 ≠ crcWords (ws.take 31) ∨ 1 < kind
    let head (resp q : Nat) : Word := dw [(0xA5, 31, 24), (resp, 23, 16), (q, 15, 0)]
    let replies (t : State) (resp q : Nat) (asn : Word) : Prop := t.sport.frame.length = 32 ∧ t.sport.frame.getD 0 0 = head resp q ∧
      t.sport.frame.getD 1 0 = asn ∧ t.sport.frame.getD 2 0 = t.safety.word ∧ t.sport.frame.getD 3 0 = t.safety.challenge ∧
      t.sport.frame.getD 4 0 = w32 t.chip.tick ∧ t.sport.frame.getD 31 0 = crcWords (t.sport.frame.take 31) ∧
      (safetyCpl s = none → t.sport.frame.getD 5 0 = 0) ∧
      (∀ c, safetyCpl s = some c → t.sport.frame.getD 5 0 = 1 ∧ ∀ k, k < 8 → t.sport.frame.getD (6 + k) 0 = (c.words false).getD k 0)
    let still (t : State) : Prop := t.streams = s.streams ∧ t.sessions = s.sessions ∧ t.dram = s.dram ∧ t.hostMem = s.hostMem
    (ws.length ≠ 32 → exec (.safetyFrame x) s = .next { s with sport := { p with prev := .error (prevSeq p.prev) } }) ∧
    (ws.length = 32 → live s = false → ∃ t, exec (.safetyFrame x) s = .next t ∧ replies t 5 (prevSeq p.prev) 0 ∧ t.journal = s.journal ∧
      t.sport.prev = .notReady seq ∧ still t ∧ t.safety = s.safety) ∧
    (ws.length = 32 → live s = true → ∃ t, exec (.safetyFrame x) s = .next t ∧ still t ∧
      let written : Prop := x.written = true ∨ p.pendAt + 20 < s.chip.tick
      let accepts : Prop := (∃ q, p.prev = .packet q) ∧ p.pend ≠ none ∧ portUsed s .safety < 64 ∧ written
      (∀ q, p.prev = .idle q → replies t 0 q 0) ∧ (∀ q, p.prev = .error q → replies t 4 q 0) ∧ (∀ q, p.prev = .notReady q → replies t 5 q 0) ∧
      (∀ q asn, p.prev = .again q asn → replies t 2 q asn) ∧ (∀ q, p.prev = .packet q → p.pend = none → replies t 0 q 0) ∧
      (∀ q, p.prev = .packet q → p.pend ≠ none → 64 ≤ portUsed s .safety ∨ ¬ written → replies t 3 q 0) ∧
      (∀ q q' pk ch, p.prev = .packet q → p.pend = some (q', pk, ch) → portUsed s .safety < 64 → written →
        (fld (pk.getD 0 0) 7 0 ≠ 0x73 → t.safety = s.safety) ∧
        replies t 1 q (p.asn + 1) ∧ t.sport.asn = p.asn + 1 ∧ t.sport.lastAccepted = some (q', p.asn + 1) ∧ t.jpos = s.jpos + 1 ∧
        (bad → s.entry? (s.jpos + 1) = none → t.sport.pend = none ∧
          ∃ e, t.entry? (s.jpos + 1) = some e ∧ e.pkt = pk ∧ e.port = .safety ∧ e.asn = p.asn + 1)) ∧
      (¬ accepts → t.sport.asn = p.asn ∧ t.sport.lastAccepted = p.lastAccepted ∧ t.jpos = s.jpos ∧ t.safety = s.safety) ∧
      (bad → t.sport.prev = .error seq ∧ t.sport.cplAck = p.cplAck ∧ (¬ accepts → t.journal = s.journal ∧ t.sport.pend = p.pend)) ∧
      (¬ bad → t.sport.cplAck = ws.getD 1 0 ∧
        (∀ e ∈ s.journal, e.port = .safety → e.st = .done → seqLe e.asn.toNat (ws.getD 1 0).toNat = true → e ∉ t.journal) ∧
        (kind = 0 → t.sport.prev = .idle seq) ∧
        (∀ asn, kind = 1 → t.sport.lastAccepted = some (seq, asn) → t.sport.prev = .again seq asn ∧ t.sport.pend = none) ∧
        (kind = 1 → (∀ asn, t.sport.lastAccepted ≠ some (seq, asn)) → t.sport.prev = .packet seq ∧
          (accepts ∨ (∀ y, p.pend = some y → y.1 ≠ seq) → t.sport.pend = some (seq, (ws.drop 2).take 16, p.shownChallenge) ∧ t.sport.pendAt = t.chip.tick) ∧
          (¬ accepts → ∀ y, p.pend = some y → y.1 = seq → t.sport.pend = some y ∧ t.sport.pendAt = p.pendAt))))

/-- While armed, each mechanism of Table 14.2 trips its own cause: lockstep, scrub, supply, clock, junction temperature, Proof cast mismatch and
interval, line position and late records; off, a lockstep detection only counts, and tripped a scrub detection adds its bit and FIRST_CAUSE stays
(R315, R318, R319; 19 Table 19.2). Within its limits a sample trips nothing. A completed Proof cast set is compared once, against its block (R321). Six
milliseconds after an engine's last Proof cast set the next is placed while safety is armed: its Niches join the runs, waiting on those of the set before
them, and nothing else does (14 R322). -/
def Obligations.MechanismsTrip : Prop :=
  (∀ (s : State),
    let trips (c : Instr) (n : Nat) : Prop := ∃ t, exec c s = .next t ∧ Trips n s t
    let tripsAt (c : Instr) (n d : Nat) : Prop := s.chip.tick < 2 ^ 64 → d < 2 ^ 64 → ∃ t, exec c s = .next t ∧ Trips n s t ∧ t.chip.tick = max s.chip.tick d
    let calm (c : Instr) : Prop := ∃ t, exec c s = .next t ∧ t.safety.state = s.safety.state ∧ t.safety.causes = s.safety.causes ∧
      t.safety.safeN = s.safety.safeN ∧ t.streams = s.streams ∧ t.dram = s.dram ∧ t.journal = s.journal
    let rails : List (Rail × Nat × Nat) := [(.vddCore, 750, 30), (.vddPll, 750, 30), (.vddSram, 850, 30), (.vddDdrphy, 1050, 30),
          (.vddqDdr, 500, 30), (.vddSerdes, 1200, 30), (.vddIo, 1800, 50)]
    let checked (c e : Nat) : State := s.modCore c (fun x => { x with castDone := x.castDone.filter (fun q => q ≠ e) })
    let hot (m : Int) : Prop := (if s.chip.industrial then 105000 else 100000) < m
    (s.safety.state = 1 →
      (∀ k, trips (.lockstep k) 0) ∧ (∀ p, trips (.sramScrub p true) 1) ∧
      (∀ k ppm, 50000 < ppm.natAbs → trips (.clock k ppm) 8) ∧
      (∀ r uv, ∀ mv tol : Nat, (r, mv, tol) ∈ rails → mv * 1000 * tol < (uv - (mv : Int) * 1000).natAbs * 1000 → trips (.voltage r uv) 9) ∧
      (∀ m : Int, hot m → trips (.temperatureSample m) 10) ∧
      (∀ c e ok, s.isFenced c = false → e ∈ (s.core c).castDone → ok = false ∨ castMatch s c e = false →
        ∃ t, exec (.proofCastCheck c e ok) s = .next t ∧ Trips 3 (checked c e) t) ∧
      (∀ c e a, c ∈ castCores s → tfind (s.core c).castAt e = some a → tripsAt (.proofCastInterval c e) 3 (a + 8001)) ∧
      (∀ n don b h p d, pictureFor (s.stream n) don.toNat h = some p → watched s n p = true → b < bandCount (s.stream n).cfg p.h →
        p.line < trigLineOf s n p b → lineDue s n p b = some d → tripsAt (.lposStall n ⟨don, h⟩ b) 4 d) ∧
      (∀ n don b h p d, (s.stream n).cfg.codec ≠ 2 → pictureFor (s.stream n) don.toNat h = some p → watched s n p = true →
        b < bandCount (s.stream n).cfg p.h → bandOpen s n p.don b = true ∨ tfind p.fired b = none ∧
          (((picSched s n p).bind (schedOf s)).bind (fun t => trigOf t false n b)).isSome = true →
        recordDue s n p b = some d → tripsAt (.recordLate n ⟨don, h⟩ b) 5 d) ∧
      (∀ n don b h d r, (s.stream n).cfg.codec = 2 → tfind (s.stream n).blockTicks don.toNat = some d → s.active = some r →
        maskBit s.safety.mask n = true → bound s n = true → (s.stream n).catchup = false → (s.stream n).replayFrom = none →
        bandOpen s n don.toNat 0 = true ∨ donLt don.toNat (s.stream n).firedBlocks = false → tripsAt (.recordLate n ⟨don, h⟩ b) 5 (d + lAudio s r n d))) ∧
    (∀ k ppm, ppm.natAbs ≤ 50000 → calm (.clock k ppm)) ∧ (∀ m : Int, ¬ hot m → calm (.temperatureSample m)) ∧
    (∀ r uv, ∀ mv tol : Nat, (r, mv, tol) ∈ rails → (uv - (mv : Int) * 1000).natAbs * 1000 ≤ mv * 1000 * tol → calm (.voltage r uv)) ∧
    (∀ k, s.safety.state = 0 → exec (.lockstep k) s = .next { s with safety := { s.safety with seen := tput s.safety.seen 0 (tget s.safety.seen 0 0 + 1) } }) ∧
    (∀ p m, s.safety.state = 2 → s.safety.first = some m → s.safety.tripTick ≠ s.chip.tick → ∃ t, exec (.sramScrub p true) s = .next t ∧
      t.safety = { s.safety with causes := s.safety.causes ||| 2, first := some m } ∧ t.streams = s.streams ∧ t.hostMem = s.hostMem) ∧
    (∀ p, exec (.sramScrub p false) s = .next s) ∧ (∀ c e ok, s.isFenced c = true ∨ e ∉ (s.core c).castDone → exec (.proofCastCheck c e ok) s = .next s) ∧
    (∀ c e, s.isFenced c = false → e ∈ (s.core c).castDone → castMatch s c e = true → exec (.proofCastCheck c e true) s = .next (checked c e))) ∧
  (∀ (c e a : Nat) (r : SchedRef) (t : Schedule) (s : State), s.active = some r → activeSched s = some t → tfind (s.core c).castAt e = some a →
    s.chip.tick < 2 ^ 64 → a + 6000 < 2 ^ 64 →
    (s.safety.state = 1 → c ∈ castCores s → (s.core c).castRunning.contains e = false →
      ∃ u new, exec (.proofCastDue c e) s = .next u ∧ u.chip.tick = max s.chip.tick (a + 6000) ∧ u.runs = s.runs ++ new ∧
        new.map (·.niche) = castNiches t c e ∧
        (∀ x ∈ new, x.cast = some (c, e) ∧ x.ref = r ∧ (x.st = .ready ↔ setEdges t (castNiches t c e) x.niche = 0)) ∧
        (u.core c).castRunning = e :: (s.core c).castRunning ∧ (∀ k, k ≠ c → u.core k = s.core k) ∧ u.streams = s.streams ∧ u.safety = s.safety) ∧
    (s.safety.state ≠ 1 → exec (.proofCastDue c e) s = .next s))

/-! ### Observation (16_observation.md) -/

/-- COUNTER_FREEZE triggers a freeze at the end of its tick and returns T_f, or releases one; it resets no counter (R362-R364). COUNTER_READ writes
as many of the 6,697 entries of its image as the buffer holds; with CLEAR it resets the counters to what was counted since the tick began and inverts
EPOCH (R361). CLIENT_STATS returns a client's accounts at the start of the tick, or the frozen ones, and when asked clears them but for what was
counted since (10 R247, R248). -/
def Obligations.CountersRead : Prop :=
  ∀ (j : Nat) (e : JEntry) (s : State),
    (Runs s j 0x80 e →
      (bit (e.param 0) 0 = true → s.obs.freeze = none →
        exec (.counterFreeze j) s = .next (finish j stOk [0xFFFFFFFF, 0xFFFFFFFF] (beginCmd e s))) ∧
      (∀ f, bit (e.param 0) 0 = true → s.obs.freeze = some f → exec (.counterFreeze j) s = .next (finish j stOk [w32 f.tf, hi32 f.tf]
          { beginCmd e s with
            obs := { (beginCmd e s).obs with freeze := none, sources := s.obs.tickTrig, trigger := decide (s.obs.tickTrig ≠ 0) } })) ∧
      (bit (e.param 0) 0 = false → s.obs.freeze = none → ∃ v, exec (.counterFreeze j) s =
          .next (finish j stOk [w32 (s.chip.tick + 1), hi32 (s.chip.tick + 1)] v) ∧ v.obs.freeze = none ∧
        v.obs.trigger = true ∧ v.obs.sources = s.obs.sources ||| 1 ∧ v.obs.ctrs = s.obs.ctrs ∧ v.obs.epoch = s.obs.epoch ∧ v.streams = s.streams) ∧
      (∀ f, bit (e.param 0) 0 = false → s.obs.freeze = some f → ∃ v, exec (.counterFreeze j) s = .next (finish j stOk [w32 f.tf, hi32 f.tf] v) ∧
        v.obs.freeze = some f ∧ v.obs.trigger = s.obs.trigger ∧ v.obs.sources = s.obs.sources ||| 1 ||| 8 ∧ v.obs.ctrs = s.obs.ctrs ∧
        v.obs.epoch = s.obs.epoch ∧ v.streams = s.streams)) ∧
    (Runs s j 0x81 e → (counterImage s).length = 6697 ∧ ∃ k v, k ≤ 6697 ∧
      exec (.counterRead j) s = .next (finish j (if k = 6697 then stOk else stTruncated) [w32 ((counterImage s).take k).flatten.length] v) ∧
      v.hostMem = mwrite s.hostMem (e.param64 0) ((counterImage s).take k).flatten ∧ ((counterImage s).take k).flatten.length ≤ (e.param 2).toNat ∧
      (k < 6697 → (e.param 2).toNat < ((counterImage s).take (k + 1)).flatten.length) ∧
      (bit (e.param 3) 0 = true → v.obs.epoch = !s.obs.epoch ∧ ∀ i, tget v.obs.ctrs i 0 =
        (match tfind s.obs.ctrs i with | some n => (n + 2 ^ 48 - tget s.obs.ctrs0 i 0) % 2 ^ 48 | none => 0)) ∧
      (bit (e.param 3) 0 = false → v.obs.ctrs = s.obs.ctrs ∧ v.obs.epoch = s.obs.epoch) ∧
      v.streams = s.streams ∧ v.sessions = s.sessions ∧ v.dram = s.dram ∧ v.safety = s.safety) ∧
    (Runs s j 0x83 e →
      let a := tget s.obs.accounts0 e.ctx Account.reset
      let b := tget (beginCmd e s).obs.accountsTick e.ctx Account.reset
      let shown := match s.obs.freeze with | some f => tget f.accounts e.ctx Account.reset | none => a
      ∃ v, exec (.clientStats j) s = .next (finish j stOk [w32 shown.wait, hi32 shown.wait, w32 shown.preempt, w32 shown.commands] v) ∧
        v.obs.freeze = s.obs.freeze ∧ v.obs.ctrs = s.obs.ctrs ∧ v.streams = s.streams ∧
        (bit (e.param 0) 0 = false → v = beginCmd e s) ∧
        (bit (e.param 0) 0 = true → tget v.obs.accounts e.ctx Account.reset = b ∧
          tget v.obs.accounts0 e.ctx Account.reset = { wait := 0, preempt := 0, commands := 0 } ∧
          ∀ k, k ≠ e.ctx → tget v.obs.accounts k Account.reset = tget (beginCmd e s).obs.accounts k Account.reset))

/-- TRACE_CONFIG with settings in range puts them in force and restarts the ring at offset 0; out of range it completes with BAD_PARAMETER (R366).
COUNTER_SAMPLE emits a core's active cycles each SAMPLE_PERIOD ticks (Table 16.6). TRACE_DRAIN writes at most 2 KiB of the oldest buffer, as much as
the ring has room for, and then the tail write-back (R368). PICTURE_TAP writes a selected picture behind its event, waits for ring room, and counts
one dropped that cannot start within T_frame (R371). -/
def Obligations.TraceAndTap : Prop :=
  ∀ (s : State),
    let c := s.obs.trace
    (∀ j e, Runs s j 0x82 e →
      (traceOk s (traceOf e) = false → exec (.traceConfig j) s = .next (finish j stBadParam [] (beginCmd e s))) ∧
      (traceOk s (traceOf e) = true → ∃ v, exec (.traceConfig j) s = .next (finish j stOk [] v) ∧ v.obs.trace = traceOf e ∧ v.obs.bufs = [] ∧
        v.obs.lost = [] ∧ v.obs.wr = 0 ∧ v.obs.head = 0 ∧ v.obs.tapDropped = 0 ∧ v.obs.ctrs = s.obs.ctrs ∧ v.streams = s.streams ∧ v.dram = s.dram ∧
        v.safety = s.safety ∧ (∀ k, k < 16 → tget v.obs.sampled k 0 = s.chip.tick) ∧ (c.mode = 0 → v.hostMem = s.hostMem))) ∧
    (∀ k, (c.period = 0 ∨ c.mode ≠ 1) → exec (.counterSample k) s = .next s) ∧
    (∀ k, c.period ≠ 0 → c.mode = 1 →
      let d := max s.chip.tick (tget s.obs.sampled k 0 + c.period)
      let n := (tget s.obs.ctrs (8 + 32 * k) 0 + tget s.obs.ctrs (8 + 32 * k + 1) 0) % 2 ^ 48
      d < 2 ^ 64 → ∃ t, exec (.counterSample k) s = .next t ∧ t.chip.tick = d ∧ tget t.obs.sampled k 0 = d ∧ t.streams = s.streams ∧
        (k < 16 → maskBit c.coreMask k = true → maskBit c.classMask 10 = true → tget s.obs.lost k (0, 0) = (0, 0) →
          evBytes (tget s.obs.bufs k []) + 32 ≤ 65536 →
          tget t.obs.bufs k [] = tget s.obs.bufs k [] ++ [[dw [(0x0B, 31, 24), (k, 23, 16), (0xFFFF, 15, 0)], w32 d, hi32 d, dw [(0xFFFFFF, 23, 0)], 0,
            dw [(0xFFF, 31, 20)], w32 n, dw [(b2n s.obs.epoch, 16, 16), (n / 2 ^ 32, 15, 0)]]])) ∧
    (∀ b h, c.mode = 0 ∨ oldestBuf s b = false ∨ s.pcie.d3 = true → exec (.traceDrain b h) s = .next s) ∧
    (∀ b h, c.mode ≠ 0 → oldestBuf s b = true → s.pcie.d3 = false →
      let buf := tget s.obs.bufs b []
      let u := readHead (evBytes (takeEvents 2048 buf).1) h s
      let es := takeEvents (min 2048 (traceRoom u.obs)) buf
      (evBytes es.1 = 0 → exec (.traceDrain b h) s = .next u) ∧
      (0 < evBytes es.1 → s.obs.trigger = false ∨ b ≠ 16 → ∃ t g, exec (.traceDrain b h) s = .next t ∧
        t.obs.wr = (s.obs.wr + (es.1.flatMap wordsBytes).length) % c.size ∧ tget t.obs.bufs b [] = es.2 ++ g ∧ (s.obs.lost = [] → g = []) ∧
        t.obs.head = u.obs.head ∧
        t.hostMem = (hostWords c.tailWb [w32 t.obs.wr, 0] (ringWrite c.ring c.size s.obs.wr (es.1.flatMap wordsBytes) s)).hostMem ∧
        t.streams = s.streams ∧ t.dram = s.dram ∧ t.safety = s.safety)) ∧
    (∀ don h p w, c.tapEn = true → s.pcie.d3 = false → don.toNat % c.tapEvery = 0 →
      (s.stream c.tapSlot).pics.find? (fun q => q.don = don.toNat) = some p → p.tapped = false → p.full = true →
      let body := tapPayload p
      let u := readHead (body.length + 32) h s
      let late : Prop := tapDue (s.stream c.tapSlot) p < tapStart body.length s
      let marked (t : State) : Prop := (t.stream c.tapSlot).pics = (s.stream c.tapSlot).pics.map (fun q => if q.don = p.don then { q with tapped := true } else q) ∧
        (∀ n, n ≠ c.tapSlot → t.stream n = s.stream n) ∧ t.dram = s.dram ∧ t.safety = s.safety
      (¬ late → traceRoom u.obs < body.length + 32 → exec (.pictureTap don w h) s = .next u) ∧
      (¬ late → body.length + 32 ≤ traceRoom u.obs → ∃ t, exec (.pictureTap don w h) s = .next t ∧ marked t ∧ t.obs.tapDropped = 0 ∧
        let sent := match w with | none => body | some k => body.take k ++ List.replicate (body.length - k) 0
        let cut := match w with | none => 0 | some k => if k < body.length then 2 ^ 31 else 0
        t.hostMem = (hostWords c.tailWb [w32 t.obs.wr, 0] (ringWrite c.ring c.size s.obs.wr (wordsBytes (eventWords 1 false t.chip.tick 0x0F 0x20 c.tapSlot
          0xFFFFFF don.toNat 0xFFF body.length (cut + s.obs.tapDropped)) ++ sent) s)).hostMem) ∧
      (late → ∃ t, exec (.pictureTap don w h) s = .next t ∧ marked t ∧ t.obs.tapDropped = (s.obs.tapDropped + 1) % 2 ^ 31 ∧ t.hostMem = s.hostMem ∧
        tget t.obs.ctrs (ctrSlot c.tapSlot 12) 0 = (tget s.obs.ctrs (ctrSlot c.tapSlot 12) 0 + 1) % 2 ^ 48)) ∧
    (∀ don w h, c.tapEn = false ∨ s.pcie.d3 = true ∨ don.toNat % c.tapEvery ≠ 0 ∨
      (∀ p, (s.stream c.tapSlot).pics.find? (fun q => q.don = don.toNat) = some p → p.tapped = true ∨ p.full = false) → exec (.pictureTap don w h) s = .next s)

/-- IMPRESSION_READ writes as many items of the Impression, failure log or copy that PARAM3 names as the buffer holds, on a host ring and on an active
maintenance port (R374, R375; 03 R44); with none named so it completes with BAD_PARAMETER, and with an uncorrectable sector in it with
ECC_UNCORRECTABLE (11 R266). IMPRESSION_WRITTEN moves the oldest capture into the store, sets its cause and requests the reset it precedes (15 R341,
R342). -/
def Obligations.Impressions : Prop :=
  ∀ (s : State),
    let cut (l : List (List Byte)) (room k : Nat) : Prop := k ≤ l.length ∧ (l.take k).flatten.length ≤ room ∧
      (k < l.length → room < (l.take (k + 1)).flatten.length)
    (∀ j e, Runs s j 0x93 e →
      (readTarget s (e.param 3).toNat = none → exec (.impressionRead (.journal j)) s = .next (finish j stBadParam [] (beginCmd e s))) ∧
      (∀ l, readTarget s (e.param 3).toNat = some l →
        (impBad s (e.param 3).toNat l = true → exec (.impressionRead (.journal j)) s = .next (finish j stEcc [] (beginCmd e s))) ∧
        (impBad s (e.param 3).toNat l = false → ∃ k v, cut l (e.param 2).toNat k ∧
          exec (.impressionRead (.journal j)) s = .next (finish j (if k = l.length then stOk else stTruncated) [w32 (l.take k).flatten.length] v) ∧
          v.hostMem = mwrite s.hostMem (e.param64 0) (l.take k).flatten ∧ v.recov = s.recov ∧ v.streams = s.streams ∧ v.dram = s.dram ∧
          v.safety = s.safety))) ∧
    (∀ (pkt : List Word), s.pcie.d3 = true → exec (.impressionRead (.maintenance pkt)) s = .next s) ∧
    (∀ (pkt : List Word), maintenanceUp s = true → s.pcie.d3 = false → sharedUsed s < Config.journalShared → fld (pkt.getD 0 0) 7 0 = 0x93 → fld (pkt.getD 0 0) 25 24 = 0 →
      fld (pkt.getD 2 0) 15 0 = 0 → bit (pkt.getD 3 0) 7 = false →
      let ix := (pkt.getD 7 0).toNat
      let answers (t : State) (st : Nat) : Prop := exec (.impressionRead (.maintenance pkt)) s = .next t ∧
        (∃ c, t.mntCpl = some c ∧ c.status = st ∧ c.asn = s.mntAsn + 1 ∧ c.final = true) ∧ t.recov = s.recov ∧ t.streams = s.streams
      (readTarget s ix = none → ∃ t, answers t stBadParam ∧ t.hostMem = s.hostMem) ∧
      (∀ l, readTarget s ix = some l → (impBad s ix l = true → ∃ t, answers t stEcc ∧ t.hostMem = s.hostMem) ∧
        (impBad s ix l = false → ∃ k t, cut l (pkt.getD 6 0).toNat k ∧ answers t (if k = l.length then stOk else stTruncated) ∧
          t.hostMem = mwrite s.hostMem (join64 (pkt.getD 4 0) (pkt.getD 5 0)) (l.take k).flatten))) ∧
    (∃ l, readTarget s 0xFFFFFFFF = some l ∧ l.length = 256 ∧ ∀ x ∈ l, x.length = 64) ∧
    (∀ k, k < 4 → readTarget s (0x80000000 + k) = (tfind s.recov.copies k).map impEntries) ∧
    (∀ n i, 0 < n → n < 2 ^ 31 → heldImp s n = some i → readTarget s n = some (impEntries i)) ∧
    (s.chip.fatal = true ∨ s.recov.captures = [] → exec .impressionWritten s = .next s) ∧
    (∀ i code n rest, s.chip.fatal = false → s.recov.captures = (i, code, n) :: rest → ∃ t, exec .impressionWritten s = .next t ∧
      t.recov.captures = rest ∧ tfind t.recov.store (if i.incident = 1 then 0 else 1 + (i.incident - 2) % 127) = some i ∧
      t.pcie.cause.getLsbD 18 = true ∧ t.streams = s.streams ∧ t.hostMem = s.hostMem ∧ t.dram = s.dram ∧
      (s.recov.incs.any (fun x => x.1 = i.incident) = true → resetting s code n = false →
        t.recov.requests = s.recov.requests ++ [(code, n, s.chip.tick)]) ∧
      (s.recov.incs.any (fun x => x.1 = i.incident) = false ∨ resetting s code n = true → t.recov.requests = s.recov.requests))

/-! ### Hangs and resets (15_recovery.md) -/

/-- RESET_ENGINE, RESET_CORE and RESET_COMPUTE request the reset of their unit, or join one requested or in progress, and wait for its end; one of a
fenced core completes with CORE_FENCED, one accepted during a compute-domain reset waits for its end without a reset of
its own (15 R338). A requested reset begins: an engine's clears
its accumulator bank and no other, a core's clears all its accumulators and absorbs its engines' resets, the compute domain's clears scratchpads and
accumulators of the unfenced cores and takes every Niche out of work (15 R343, R344, R350, Table 15.5). -/
def Obligations.ResetsCommandedAndBegun : Prop :=
  (∀ (j : Nat) (e : JEntry) (s : State),
    let busy : Prop := s.recov.domainAt.isSome = true ∨ domainRequested s = true
    let begun (c : Instr) (code n : Nat) : Prop :=
      (e.during = false → ∃ t, exec c s = .next t ∧ t.journal = (beginCmd e s).journal ∧
        t.recov.waiters = s.recov.waiters ++ [{ j := j, start := s.chip.tick, code := code, unit := n, during := false }] ∧
        t.runs = s.runs ∧ t.streams = s.streams ∧ t.cores = s.cores ∧ t.dram = s.dram ∧ t.hostMem = s.hostMem ∧
        (resetting s code n = false → t.recov.requests = s.recov.requests ++ [(code, n, s.chip.tick)]) ∧
        (resetting s code n = true → t.recov.requests = s.recov.requests ∧ t.safety = s.safety)) ∧
      (e.during = true → busy → ∃ t, exec c s = .next t ∧ t.journal = (beginCmd e s).journal ∧ t.recov.requests = s.recov.requests ∧
        t.recov.waiters = s.recov.waiters ++ [{ j := j, start := s.chip.tick, code := 3, unit := 0, during := true }] ∧ t.safety = s.safety) ∧
      (e.during = true → ¬ busy → exec c s = .next (finish j stOk [0] (beginCmd e s)))
    (Runs s j 0x90 e → (s.isFenced (e.ctx / 4) = true → exec (.resetEngine j) s = .next (finish j stFenced [] (beginCmd e s))) ∧
      (s.isFenced (e.ctx / 4) = false → begun (.resetEngine j) 1 e.ctx)) ∧
    (Runs s j 0x91 e → (s.isFenced e.ctx = true → exec (.resetCore j) s = .next (finish j stFenced [] (beginCmd e s))) ∧
      (s.isFenced e.ctx = false → begun (.resetCore j) 2 e.ctx)) ∧
    (Runs s j 0x92 e → begun (.resetCompute j) 3 0)) ∧
  (∀ (s : State), live s = true → domainUp s = true →
    (∀ c e d, e < 4 → requested s 1 (4 * c + e) = some d → (s.core c).resetAt = none → ∃ t, exec (.engineReset c e) s = .next t ∧
      tfind (t.core c).engineReset e = some d ∧ requested t 1 (4 * c + e) = none ∧
      (∀ k, tget (t.core c).acc k 0 = if k / 49152 = e then 0 else tget (s.core c).acc k 0) ∧ ∀ k, k ≠ c → (t.core k).acc = (s.core k).acc) ∧
    (∀ c d, requested s 2 c = some d → ∃ t, exec (.coreReset c) s = .next t ∧ (t.core c).resetAt = some d ∧ (t.core c).acc = [] ∧
      (t.core c).engineReset = [] ∧ (t.core c).weights = none ∧ (∀ e, e < 4 → requested t 1 (4 * c + e) = none) ∧
      ∀ k, k ≠ c → (t.core k).acc = (s.core k).acc) ∧
    (∀ d, requested s 3 0 = some d → ∃ t, exec .computeReset s = .next t ∧ t.recov.domainAt = some d ∧ t.recov.requests = [] ∧ t.runs = [] ∧
      t.recov.xchgs = [] ∧ computeUp t = false ∧ (∀ c, c < 16 → s.isFenced c = false → (t.core c).spad = [] ∧ (t.core c).acc = [] ∧
        (t.core c).resetAt = none) ∧ t.tracks = s.tracks ∧ (∀ n, (t.session n).tCtx = (s.session n).tCtx ∧
        (t.session n).pos = (s.session n).pos ∧ (t.session n).pages = (s.session n).pages ∧
        ((s.session n).work = none → t.session n = s.session n)) ∧ t.dram = s.dram ∧ t.safety = s.safety ∧ t.journal = s.journal ∧
      t.hostMem = s.hostMem) ∧
    (∀ c e, requested s 1 (4 * c + e) = none → exec (.engineReset c e) s = .next s) ∧ (∀ c, requested s 2 c = none → exec (.coreReset c) s = .next s) ∧
    (requested s 3 0 = none → exec .computeReset s = .next s))

/-- A reset that passes within its bound (50 µs, 200 µs, 2 ms) ends with its unit in service and completes the command that waits for it; work that it
stopped sends its layers again (12 Table 12.7). One that
fails or overruns escalates: an engine's to its core, a core's first failure to the compute domain, its second to fencing, the domain's to FATAL, as
does a domain reset that leaves no core; an open incident inside the unit is carried on, else one begins (15 R336-R338, R345, R347, R351). -/
def Obligations.ResetsEnd : Prop :=
  ∀ (s : State), live s = true →
    let escalates (c : Instr) (code n code2 n2 : Nat) : Prop :=
      ((∀ x ∈ s.recov.incs, inside x.2 (code, n) = false) → ∃ t i, exec c s = .next t ∧ t.recov.captures = s.recov.captures ++ [(i, code2, n2)] ∧
        t.recov.incidents = s.recov.incidents + 1 ∧ i.condition = 8 ∧ i.finalUnit = code2) ∧
      ((∃ x ∈ s.recov.incs, inside x.2 (code, n) = true) → ∃ t, exec c s = .next t ∧ resetting t code2 n2 = true ∧
        t.recov.incs = s.recov.incs.map (fun x => if inside x.2 (code, n) then (x.1, code2, n2) else x) ∧ t.recov.incidents = s.recov.incidents)
    let fatal (c : Instr) : Prop := ∃ t, exec c s = .next t ∧ t.chip.fatal = true ∧ t.chip.faultN = false ∧ live t = false ∧ t.pcie.cause.getLsbD 20 = true ∧
      (s.safety.state = 1 → maskBit t.safety.causes 14 = true ∧ t.safety.safeN = false)
    let completes (c : Instr) (code n : Nat) : Prop := ∀ w, s.recov.waiters = [w] → w.code = code → w.unit = n →
      ∃ v again, exec c s = .next (layersAgain again (finish w.j stOk [w32 (if w.during then 0 else s.chip.tick - w.start)] v)) ∧ v.recov.waiters = []
    (∀ c e d, e < 4 → engineEnding s c e = some d →
      (s.chip.tick ≤ d + 50 → (s.recov.waiters = [] → ∃ t, exec (.engineResetEnd c e true) s = .next t ∧ tfind (t.core c).engineReset e = none ∧
          (∀ k, k ≠ c → t.core k = s.core k) ∧ t.streams = s.streams ∧ t.hostMem = s.hostMem ∧ t.journal = s.journal) ∧
        (s.isFenced c = false → completes (.engineResetEnd c e true) 1 (4 * c + e)) ∧ escalates (.engineResetEnd c e false) 1 (4 * c + e) 2 c) ∧
      (d + 50 < s.chip.tick → ∀ b, exec (.engineResetEnd c e b) s = .next s) ∧ escalates (.engineResetTimeout c e) 1 (4 * c + e) 2 c) ∧
    (∀ c d, coreEnding s c = some d →
      let fences (k : Instr) : Prop := ∃ t, exec k s = .next t ∧ t.isFenced c = true ∧ (t.core c).failed = (s.core c).failed + 1 ∧
        (t.core c).weights = none ∧ ∀ k, k ≠ c → t.isFenced k = s.isFenced k
      (s.chip.tick ≤ d + 200 → (s.recov.waiters = [] → ∃ t, exec (.coreResetEnd c true) s = .next t ∧ (t.core c).resetAt = none ∧
          (t.core c).failed = (s.core c).failed ∧ (∀ k, k ≠ c → t.core k = s.core k) ∧ t.streams = s.streams ∧ t.journal = s.journal) ∧
        (s.isFenced c = false → completes (.coreResetEnd c true) 2 c)) ∧
      (d + 200 < s.chip.tick → ∀ b, exec (.coreResetEnd c b) s = .next s) ∧
      ((s.core c).failed = 0 → (s.chip.tick ≤ d + 200 → escalates (.coreResetEnd c false) 2 c 3 0) ∧ escalates (.coreResetTimeout c) 2 c 3 0) ∧
      (1 ≤ (s.core c).failed → (s.chip.tick ≤ d + 200 → fences (.coreResetEnd c false)) ∧ fences (.coreResetTimeout c))) ∧
    (∀ d, s.recov.domainAt = some d →
      let lost (f g : List Nat) (c : Nat) : Prop := s.isFenced c = true ∨ c ∈ f ∧ (1 ≤ (s.core c).failed ∨ c ∈ g)
      (s.chip.tick ≤ d + 2000 → (∃ c, c < 16 ∧ ¬ lost [] [] c) →
        (s.active = none → s.noSched = false → s.openSlots = [] → s.dram.bad = [] → s.recov.waiters = [] → (∀ x ∈ s.sessions, x.2.work = none) →
          ∃ t, exec (.computeResetEnd [] [] [] [] []) s = .next t ∧ t.recov.domainAt = none ∧ t.chip.fenced = s.chip.fenced ∧ t.journal = s.journal ∧
            t.sessions = s.sessions ∧ t.hostMem = s.hostMem) ∧
        completes (.computeResetEnd [] [] [] [] []) 3 0) ∧
      (∀ f g a b k, s.chip.tick ≤ d + 2000 → (∃ c, c < 16 ∧ ¬ lost f g c) → ∃ t, exec (.computeResetEnd f g a b k) s = .next t ∧
        t.recov.domainAt = none ∧ t.chip.fatal = false ∧ ∀ c, c < 16 → (t.isFenced c = true ↔ lost f g c)) ∧
      (∀ f g a b k, s.chip.tick ≤ d + 2000 → (∀ c, c < 16 → lost f g c) → fatal (.computeResetEnd f g a b k)) ∧
      (∀ f g a b k, d + 2000 < s.chip.tick → exec (.computeResetEnd f g a b k) s = .next s) ∧ fatal .computeResetTimeout)

/-- A Niche whose count exceeds its limit, one of a best-effort job among them, an exchange not landed after 100 µs, an entropy engine that decoded no bin
for 1 ms while a bound stream had data pending and room, a row unfinished after 2 ms and a tile row after 200 µs are hangs: an Impression is captured that
precedes the reset of the engine, core or compute domain, and a hang of the record writer sets FATAL; a second engine of a core within 50 µs of the first
joins its incident, and the core is reset (15 R338-R341, Tables 15.1, 15.2). Which row an engine works on is the model's choice (log 142). -/
def Obligations.HangsCaptured : Prop :=
  ∀ (s : State), takesWork s = true → s.recov.captures = [] → s.recov.requests = [] → s.chip.tick < 2 ^ 64 →
    let caught (c : Instr) (cond code unit code2 n2 d : Nat) : Prop := d < 2 ^ 64 → ∃ t i, exec c s = .next t ∧
      t.recov.captures = [(i, code2, n2)] ∧ i.condition = cond ∧ i.unitCode = code ∧ i.unit = unit ∧ i.detect = max s.chip.tick d ∧ i.outcome = 3 ∧
      t.recov.incidents = s.recov.incidents + 1 ∧ i.incident = t.recov.incidents ∧ t.chip.tick = max s.chip.tick d ∧ t.runs = s.runs ∧
      t.streams = s.streams ∧ t.hostMem = s.hostMem
    let hung (u : UnitId) (d : Nat) : Prop := unitDown s u = false →
      (∀ c e i, u = .mx c e → e < 4 → d < 2 ^ 64 → i ∈ s.recov.store.map (·.2) → i.condition = 1 → i.finalUnit = 1 → i.unit / 4 = c →
        i.unit ≠ 4 * c + e → max s.chip.tick d ≤ i.detect + 50 → ∃ t, exec (.nicheWatchdog u) s = .next t ∧ t.recov.captures = [] ∧
          t.recov.incidents = s.recov.incidents ∧ t.recov.requests = [(2, c, max s.chip.tick d)] ∧ t.runs = s.runs) ∧
      (∀ c e, u = .mx c e → e < 4 → (∀ i ∈ s.recov.store, i.2.detect + 50 < max s.chip.tick d) →
        caught (.nicheWatchdog u) 1 1 (4 * c + e) 1 (4 * c + e) d) ∧
      (∀ c, u = .vx c → caught (.nicheWatchdog u) 2 2 c 2 c d) ∧
      (u = .out → ∃ t, exec (.nicheWatchdog u) s = .next t ∧ t.chip.fatal = true ∧ t.chip.faultN = false) ∧
      (u = .tae ∨ (∃ k, u = .shp k ∨ u = .enc k) → caught (.nicheWatchdog u) 6 3 (unitIx u) 3 0 d)
    (∀ u x, running s u = some x → unitOf (runNiche s x) = u → hung u (x.startAt + (runNiche s x).wdog + 1)) ∧
    (∀ u b n, running s u = none → beOn s u = some b → jobNiche s b = some n → b.running = some u → hung u (b.runAt + b.pausedTicks + n.wdog + 1)) ∧
    (∀ c x, s.recov.xchgs.find? (fun x => x.sender = c) = some x → (s.core c).resetAt = none → caught (.xchgHang c) 3 2 c 2 c (x.since + 100)) ∧
    (∀ e n k last, (n, k) ∈ binsDue s e → (∀ x ∈ binsDue s e, k ≤ x.2) →
      (∀ m ∈ s.openSlots, (s.stream m).engine = e → (s.stream m).binAt ≤ last) → (∃ m ∈ s.openSlots, (s.stream m).engine = e ∧ (s.stream m).binAt = last) →
      caught (.entropyHang e) 4 3 e 3 0 (max k last + 1000)) ∧
    (∀ e n, rowOf s e = some n → caught (.reconHang e) 5 3 e 3 0 ((s.stream n).rowStart + 2000)) ∧
    (∀ u n k p b d rest, stripDue s u = (n, k, p, b, d) :: rest → caught (.stripRowHang u) 6 3 u 3 0 (d + 200)) ∧
    (∀ e n k, (n, k) ∈ binsDue s e → (s.stream n).engine = e ∧ bound s n = true ∧ binFull (s.stream n) = false ∧
      ∃ t, pendingTick s n = some t ∧ k = max t (s.stream n).roomAt)
end

