-- ==== Sys2Proof/Laws/Table.lean ====
section
/-! SUPPORT. Laws of sparse tables and byte memories: reading after writing, and the canonical form. -/

namespace Sys2Proof.Laws

open Sys2Proof.Machine

variable {α : Type}

/-- Reading the key just written gives the value. -/
@[simp] theorem tget_tput_same (t : Tab α) (k : Nat) (v d : α) : tget (tput t k v) k d = v := by
  induction t with
  | nil => simp [tput, tget]
  | cons e r ih =>
    obtain ⟨k', v'⟩ := e
    by_cases h : k = k'
    · simp [tput, tget, h]
    · by_cases h2 : k < k'
      · simp [tput, tget, h, h2]
      · simp [tput, tget, h, h2, Ne.symm h, ih]

/-- Writing a key leaves every other key alone. -/
theorem tget_tput_other (t : Tab α) {k m : Nat} (v d : α) (hm : m ≠ k) : tget (tput t k v) m d = tget t m d := by
  induction t with
  | nil => simp [tput, tget, Ne.symm hm]
  | cons e r ih =>
    obtain ⟨k', v'⟩ := e
    by_cases h : k = k'
    · subst h; simp [tput, tget, Ne.symm hm]
    · by_cases h2 : k < k'
      · simp [tput, tget, h, h2, Ne.symm hm]
      · simp only [tput, h, h2, if_false, tget, ih]

@[simp] theorem tfind_tput_same (t : Tab α) (k : Nat) (v : α) : tfind (tput t k v) k = some v := by
  induction t with
  | nil => simp [tput, tfind]
  | cons e r ih =>
    obtain ⟨k', v'⟩ := e
    by_cases h : k = k'
    · simp [tput, tfind, h]
    · by_cases h2 : k < k'
      · simp [tput, tfind, h, h2]
      · simp [tput, tfind, h, h2, Ne.symm h, ih]

theorem tfind_tput_other (t : Tab α) {k m : Nat} (v : α) (hm : m ≠ k) : tfind (tput t k v) m = tfind t m := by
  induction t with
  | nil => simp [tput, tfind, Ne.symm hm]
  | cons e r ih =>
    obtain ⟨k', v'⟩ := e
    by_cases h : k = k'
    · subst h; simp [tput, tfind, Ne.symm hm]
    · by_cases h2 : k < k'
      · simp [tput, tfind, h, h2, Ne.symm hm]
      · simp only [tput, h, h2, if_false, tfind, ih]

/-- Reading with a default is the listed entry or the default. -/
theorem tget_eq_tfind (t : Tab α) (k : Nat) (d : α) : tget t k d = (tfind t k).getD d := by
  induction t with
  | nil => rfl
  | cons e r ih =>
    obtain ⟨k', v⟩ := e
    by_cases h : k' = k <;> simp [tget, tfind, h, ih]

/-! ### Byte memories -/

/-- A weaker lower bound keeps the canonical form. -/
theorem canonFrom_mono {lo lo' : Nat} {m : Mem} (h : lo' ≤ lo) (hm : canonFrom lo m = true) : canonFrom lo' m = true := by
  cases m with
  | nil => rfl
  | cons e r =>
    obtain ⟨a, b⟩ := e
    simp only [canonFrom, Bool.and_eq_true, decide_eq_true_eq] at hm ⊢
    exact ⟨⟨by omega, hm.1.2⟩, hm.2⟩

/-- Below the bound of a canonical memory every byte reads 0. -/
theorem mget_below {lo : Nat} {m : Mem} (hm : canonFrom lo m = true) {a : Nat} (h : a < lo) : mget m a = 0 := by
  induction m generalizing lo with
  | nil => rfl
  | cons e r ih =>
    obtain ⟨a', b⟩ := e
    simp only [canonFrom, Bool.and_eq_true, decide_eq_true_eq] at hm
    have hne : a' ≠ a := by omega
    simpa [mget, tget, hne] using ih hm.2 (by omega)

theorem canonFrom_tput {lo a : Nat} {b : Byte} {m : Mem} (hm : canonFrom lo m = true) (ha : lo ≤ a) (hb : b ≠ 0) :
    canonFrom lo (tput m a b) = true := by
  induction m generalizing lo with
  | nil => simpa [tput, canonFrom, ha] using hb
  | cons e r ih =>
    obtain ⟨a', b'⟩ := e
    simp only [canonFrom, Bool.and_eq_true, decide_eq_true_eq] at hm
    by_cases h : a = a'
    · subst h; simpa [tput, canonFrom, ha, hm.2] using hb
    · by_cases h2 : a < a'
      · simp only [tput, h, if_false, h2, if_true, canonFrom, Bool.and_eq_true, decide_eq_true_eq]
        exact ⟨⟨ha, hb⟩, ⟨by omega, hm.1.2⟩, hm.2⟩
      · simp only [tput, h, h2, if_false, canonFrom, Bool.and_eq_true, decide_eq_true_eq]
        exact ⟨hm.1, ih hm.2 (by omega)⟩

theorem canonFrom_mdel {lo a : Nat} {m : Mem} (hm : canonFrom lo m = true) : canonFrom lo (mdel m a) = true := by
  induction m generalizing lo with
  | nil => rfl
  | cons e r ih =>
    obtain ⟨a', b'⟩ := e
    have hm' := hm
    simp only [canonFrom, Bool.and_eq_true, decide_eq_true_eq] at hm
    by_cases h : a = a'
    · simpa [mdel, h] using canonFrom_mono (by omega) hm.2
    · by_cases h2 : a < a'
      · simpa [mdel, h, h2] using hm'
      · simp only [mdel, h, h2, if_false, canonFrom, Bool.and_eq_true, decide_eq_true_eq]
        exact ⟨hm.1, ih hm.2⟩

/-- A byte write keeps the canonical form. -/
theorem wf_mput {m : Mem} (hm : Memory.wf m = true) (a : Nat) (b : Byte) : Memory.wf (mput m a b) = true := by
  unfold mput Memory.wf
  split
  · exact canonFrom_mdel hm
  · exact canonFrom_tput hm (Nat.zero_le a) ‹_›

/-- Writing bytes keeps the canonical form. -/
theorem wf_mwrite {m : Mem} (hm : Memory.wf m = true) (a : Nat) (bs : List Byte) : Memory.wf (mwrite m a bs) = true := by
  induction bs generalizing m a with
  | nil => exact hm
  | cons b bs ih => exact ih (wf_mput hm a b) (a + 1)

theorem mget_mdel_other {m : Mem} {a x : Nat} (hx : x ≠ a) : mget (mdel m a) x = mget m x := by
  induction m with
  | nil => rfl
  | cons e r ih =>
    obtain ⟨a', b'⟩ := e
    by_cases h : a = a'
    · subst h; simp [mdel, mget, tget, Ne.symm hx]
    · by_cases h2 : a < a'
      · simp [mdel, h, h2]
      · simp only [mget] at ih
        simp only [mdel, h, h2, if_false, mget, tget, ih]

theorem mget_mdel_same {lo : Nat} {m : Mem} (hm : canonFrom lo m = true) (a : Nat) : mget (mdel m a) a = 0 := by
  induction m generalizing lo with
  | nil => rfl
  | cons e r ih =>
    obtain ⟨a', b'⟩ := e
    have hm' := hm
    simp only [canonFrom, Bool.and_eq_true, decide_eq_true_eq] at hm
    by_cases h : a = a'
    · subst h; simpa [mdel] using mget_below hm.2 (Nat.lt_succ_self a)
    · by_cases h2 : a < a'
      · simpa [mdel, h, h2] using mget_below (canonFrom_mono (Nat.le_refl _) (by
          simp only [canonFrom, Bool.and_eq_true, decide_eq_true_eq]; exact ⟨⟨Nat.le_refl a', hm.1.2⟩, hm.2⟩)) h2
      · have := ih hm.2
        simp only [mget] at this
        simp only [mdel, h, h2, if_false, mget, tget, Ne.symm h, this]

/-- A byte write leaves every other byte alone. -/
theorem mget_mput_other (m : Mem) {a x : Nat} (b : Byte) (hx : x ≠ a) : mget (mput m a b) x = mget m x := by
  unfold mput
  split
  · exact mget_mdel_other hx
  · exact tget_tput_other m b 0 hx

/-- A byte just written reads back. -/
theorem mget_mput_same {m : Mem} (hm : Memory.wf m = true) (a : Nat) (b : Byte) : mget (mput m a b) a = b := by
  unfold mput
  split
  · next h => rw [h]; exact mget_mdel_same hm a
  · exact tget_tput_same m a b 0

/-- Writing bytes leaves every address outside them alone. -/
theorem mget_mwrite_outside (m : Mem) {a x : Nat} (bs : List Byte) (hx : x < a ∨ a + bs.length ≤ x) :
    mget (mwrite m a bs) x = mget m x := by
  induction bs generalizing m a with
  | nil => rfl
  | cons b bs ih =>
    simp only [List.length_cons] at hx
    rw [mwrite, ih (mput m a b) (a := a + 1) (by omega), mget_mput_other m b (by omega)]

/-- Bytes just written read back. -/
theorem mget_mwrite_inside {m : Mem} (hm : Memory.wf m = true) (a : Nat) (bs : List Byte) (i : Nat) (hi : i < bs.length) :
    mget (mwrite m a bs) (a + i) = bs[i] := by
  induction bs generalizing m a i with
  | nil => simp at hi
  | cons b bs ih =>
    cases i with
    | zero =>
      rw [mwrite, mget_mwrite_outside _ bs (by omega)]
      exact mget_mput_same hm a b
    | succ i =>
      have := ih (wf_mput hm a b) (a + 1) i (by simpa using hi)
      rw [mwrite, show a + (i + 1) = a + 1 + i by omega, this]; rfl

end Sys2Proof.Laws
end

