-- ==== Sys2Proof/Laws/State.lean ====
section
/-! SUPPORT. One lemma per field of the state per accessor: an update of one table leaves every other field alone, and reads back. -/

namespace Sys2Proof.Laws

open Sys2Proof.Machine

variable (s : State)

/-! ### setQueue -/

@[simp] theorem setQueue_pending (q : Nat) (x : HostQueue) : (s.setQueue q x).pending = s.pending := rfl
@[simp] theorem setQueue_free (q : Nat) (x : HostQueue) : (s.setQueue q x).free = s.free := rfl
@[simp] theorem setQueue_chip (q : Nat) (x : HostQueue) : (s.setQueue q x).chip = s.chip := rfl
@[simp] theorem setQueue_pcie (q : Nat) (x : HostQueue) : (s.setQueue q x).pcie = s.pcie := rfl
@[simp] theorem setQueue_outq (q : Nat) (x : HostQueue) : (s.setQueue q x).outq = s.outq := rfl
@[simp] theorem setQueue_hostMem (q : Nat) (x : HostQueue) : (s.setQueue q x).hostMem = s.hostMem := rfl
@[simp] theorem setQueue_journal (q : Nat) (x : HostQueue) : (s.setQueue q x).journal = s.journal := rfl
@[simp] theorem setQueue_jpos (q : Nat) (x : HostQueue) : (s.setQueue q x).jpos = s.jpos := rfl
@[simp] theorem setQueue_jlast (q : Nat) (x : HostQueue) : (s.setQueue q x).jlast = s.jlast := rfl
@[simp] theorem setQueue_sport (q : Nat) (x : HostQueue) : (s.setQueue q x).sport = s.sport := rfl
@[simp] theorem setQueue_ringAsn (q : Nat) (x : HostQueue) : (s.setQueue q x).ringAsn = s.ringAsn := rfl
@[simp] theorem setQueue_mntAsn (q : Nat) (x : HostQueue) : (s.setQueue q x).mntAsn = s.mntAsn := rfl
@[simp] theorem setQueue_mntCpl (q : Nat) (x : HostQueue) : (s.setQueue q x).mntCpl = s.mntCpl := rfl
@[simp] theorem setQueue_streams (q : Nat) (x : HostQueue) : (s.setQueue q x).streams = s.streams := rfl
@[simp] theorem setQueue_pool (q : Nat) (x : HostQueue) : (s.setQueue q x).pool = s.pool := rfl
@[simp] theorem setQueue_sessions (q : Nat) (x : HostQueue) : (s.setQueue q x).sessions = s.sessions := rfl
@[simp] theorem setQueue_maquettes (q : Nat) (x : HostQueue) : (s.setQueue q x).maquettes = s.maquettes := rfl
@[simp] theorem setQueue_armatures (q : Nat) (x : HostQueue) : (s.setQueue q x).armatures = s.armatures := rfl
@[simp] theorem setQueue_active (q : Nat) (x : HostQueue) : (s.setQueue q x).active = s.active := rfl
@[simp] theorem setQueue_noSched (q : Nat) (x : HostQueue) : (s.setQueue q x).noSched = s.noSched := rfl
@[simp] theorem setQueue_runs (q : Nat) (x : HostQueue) : (s.setQueue q x).runs = s.runs := rfl
@[simp] theorem setQueue_marks (q : Nat) (x : HostQueue) : (s.setQueue q x).marks = s.marks := rfl
@[simp] theorem setQueue_jobs (q : Nat) (x : HostQueue) : (s.setQueue q x).jobs = s.jobs := rfl
@[simp] theorem setQueue_stages (q : Nat) (x : HostQueue) : (s.setQueue q x).stages = s.stages := rfl
@[simp] theorem setQueue_stageNext (q : Nat) (x : HostQueue) : (s.setQueue q x).stageNext = s.stageNext := rfl
@[simp] theorem setQueue_packs (q : Nat) (x : HostQueue) : (s.setQueue q x).packs = s.packs := rfl
@[simp] theorem setQueue_cores (q : Nat) (x : HostQueue) : (s.setQueue q x).cores = s.cores := rfl
@[simp] theorem setQueue_tracks (q : Nat) (x : HostQueue) : (s.setQueue q x).tracks = s.tracks := rfl
@[simp] theorem setQueue_embs (q : Nat) (x : HostQueue) : (s.setQueue q x).embs = s.embs := rfl
@[simp] theorem setQueue_dram (q : Nat) (x : HostQueue) : (s.setQueue q x).dram = s.dram := rfl
@[simp] theorem setQueue_link (q : Nat) (x : HostQueue) : (s.setQueue q x).link = s.link := rfl
@[simp] theorem setQueue_safety (q : Nat) (x : HostQueue) : (s.setQueue q x).safety = s.safety := rfl
@[simp] theorem setQueue_obs (q : Nat) (x : HostQueue) : (s.setQueue q x).obs = s.obs := rfl
@[simp] theorem setQueue_recov (q : Nat) (x : HostQueue) : (s.setQueue q x).recov = s.recov := rfl

/-! ### setOring -/

@[simp] theorem setOring_pending (o : Nat) (x : OutRing) : (s.setOring o x).pending = s.pending := rfl
@[simp] theorem setOring_free (o : Nat) (x : OutRing) : (s.setOring o x).free = s.free := rfl
@[simp] theorem setOring_chip (o : Nat) (x : OutRing) : (s.setOring o x).chip = s.chip := rfl
@[simp] theorem setOring_pcie (o : Nat) (x : OutRing) : (s.setOring o x).pcie = s.pcie := rfl
@[simp] theorem setOring_hq (o : Nat) (x : OutRing) : (s.setOring o x).hq = s.hq := rfl
@[simp] theorem setOring_hostMem (o : Nat) (x : OutRing) : (s.setOring o x).hostMem = s.hostMem := rfl
@[simp] theorem setOring_journal (o : Nat) (x : OutRing) : (s.setOring o x).journal = s.journal := rfl
@[simp] theorem setOring_jpos (o : Nat) (x : OutRing) : (s.setOring o x).jpos = s.jpos := rfl
@[simp] theorem setOring_jlast (o : Nat) (x : OutRing) : (s.setOring o x).jlast = s.jlast := rfl
@[simp] theorem setOring_sport (o : Nat) (x : OutRing) : (s.setOring o x).sport = s.sport := rfl
@[simp] theorem setOring_ringAsn (o : Nat) (x : OutRing) : (s.setOring o x).ringAsn = s.ringAsn := rfl
@[simp] theorem setOring_mntAsn (o : Nat) (x : OutRing) : (s.setOring o x).mntAsn = s.mntAsn := rfl
@[simp] theorem setOring_mntCpl (o : Nat) (x : OutRing) : (s.setOring o x).mntCpl = s.mntCpl := rfl
@[simp] theorem setOring_streams (o : Nat) (x : OutRing) : (s.setOring o x).streams = s.streams := rfl
@[simp] theorem setOring_pool (o : Nat) (x : OutRing) : (s.setOring o x).pool = s.pool := rfl
@[simp] theorem setOring_sessions (o : Nat) (x : OutRing) : (s.setOring o x).sessions = s.sessions := rfl
@[simp] theorem setOring_maquettes (o : Nat) (x : OutRing) : (s.setOring o x).maquettes = s.maquettes := rfl
@[simp] theorem setOring_armatures (o : Nat) (x : OutRing) : (s.setOring o x).armatures = s.armatures := rfl
@[simp] theorem setOring_active (o : Nat) (x : OutRing) : (s.setOring o x).active = s.active := rfl
@[simp] theorem setOring_noSched (o : Nat) (x : OutRing) : (s.setOring o x).noSched = s.noSched := rfl
@[simp] theorem setOring_runs (o : Nat) (x : OutRing) : (s.setOring o x).runs = s.runs := rfl
@[simp] theorem setOring_marks (o : Nat) (x : OutRing) : (s.setOring o x).marks = s.marks := rfl
@[simp] theorem setOring_jobs (o : Nat) (x : OutRing) : (s.setOring o x).jobs = s.jobs := rfl
@[simp] theorem setOring_stages (o : Nat) (x : OutRing) : (s.setOring o x).stages = s.stages := rfl
@[simp] theorem setOring_stageNext (o : Nat) (x : OutRing) : (s.setOring o x).stageNext = s.stageNext := rfl
@[simp] theorem setOring_packs (o : Nat) (x : OutRing) : (s.setOring o x).packs = s.packs := rfl
@[simp] theorem setOring_cores (o : Nat) (x : OutRing) : (s.setOring o x).cores = s.cores := rfl
@[simp] theorem setOring_tracks (o : Nat) (x : OutRing) : (s.setOring o x).tracks = s.tracks := rfl
@[simp] theorem setOring_embs (o : Nat) (x : OutRing) : (s.setOring o x).embs = s.embs := rfl
@[simp] theorem setOring_dram (o : Nat) (x : OutRing) : (s.setOring o x).dram = s.dram := rfl
@[simp] theorem setOring_link (o : Nat) (x : OutRing) : (s.setOring o x).link = s.link := rfl
@[simp] theorem setOring_safety (o : Nat) (x : OutRing) : (s.setOring o x).safety = s.safety := rfl
@[simp] theorem setOring_obs (o : Nat) (x : OutRing) : (s.setOring o x).obs = s.obs := rfl
@[simp] theorem setOring_recov (o : Nat) (x : OutRing) : (s.setOring o x).recov = s.recov := rfl

/-! ### setStream -/

@[simp] theorem setStream_pending (n : Nat) (x : Stream) : (s.setStream n x).pending = s.pending := rfl
@[simp] theorem setStream_free (n : Nat) (x : Stream) : (s.setStream n x).free = s.free := rfl
@[simp] theorem setStream_chip (n : Nat) (x : Stream) : (s.setStream n x).chip = s.chip := rfl
@[simp] theorem setStream_pcie (n : Nat) (x : Stream) : (s.setStream n x).pcie = s.pcie := rfl
@[simp] theorem setStream_hq (n : Nat) (x : Stream) : (s.setStream n x).hq = s.hq := rfl
@[simp] theorem setStream_outq (n : Nat) (x : Stream) : (s.setStream n x).outq = s.outq := rfl
@[simp] theorem setStream_hostMem (n : Nat) (x : Stream) : (s.setStream n x).hostMem = s.hostMem := rfl
@[simp] theorem setStream_journal (n : Nat) (x : Stream) : (s.setStream n x).journal = s.journal := rfl
@[simp] theorem setStream_jpos (n : Nat) (x : Stream) : (s.setStream n x).jpos = s.jpos := rfl
@[simp] theorem setStream_jlast (n : Nat) (x : Stream) : (s.setStream n x).jlast = s.jlast := rfl
@[simp] theorem setStream_sport (n : Nat) (x : Stream) : (s.setStream n x).sport = s.sport := rfl
@[simp] theorem setStream_ringAsn (n : Nat) (x : Stream) : (s.setStream n x).ringAsn = s.ringAsn := rfl
@[simp] theorem setStream_mntAsn (n : Nat) (x : Stream) : (s.setStream n x).mntAsn = s.mntAsn := rfl
@[simp] theorem setStream_mntCpl (n : Nat) (x : Stream) : (s.setStream n x).mntCpl = s.mntCpl := rfl
@[simp] theorem setStream_pool (n : Nat) (x : Stream) : (s.setStream n x).pool = s.pool := rfl
@[simp] theorem setStream_sessions (n : Nat) (x : Stream) : (s.setStream n x).sessions = s.sessions := rfl
@[simp] theorem setStream_maquettes (n : Nat) (x : Stream) : (s.setStream n x).maquettes = s.maquettes := rfl
@[simp] theorem setStream_armatures (n : Nat) (x : Stream) : (s.setStream n x).armatures = s.armatures := rfl
@[simp] theorem setStream_active (n : Nat) (x : Stream) : (s.setStream n x).active = s.active := rfl
@[simp] theorem setStream_noSched (n : Nat) (x : Stream) : (s.setStream n x).noSched = s.noSched := rfl
@[simp] theorem setStream_runs (n : Nat) (x : Stream) : (s.setStream n x).runs = s.runs := rfl
@[simp] theorem setStream_marks (n : Nat) (x : Stream) : (s.setStream n x).marks = s.marks := rfl
@[simp] theorem setStream_jobs (n : Nat) (x : Stream) : (s.setStream n x).jobs = s.jobs := rfl
@[simp] theorem setStream_stages (n : Nat) (x : Stream) : (s.setStream n x).stages = s.stages := rfl
@[simp] theorem setStream_stageNext (n : Nat) (x : Stream) : (s.setStream n x).stageNext = s.stageNext := rfl
@[simp] theorem setStream_packs (n : Nat) (x : Stream) : (s.setStream n x).packs = s.packs := rfl
@[simp] theorem setStream_cores (n : Nat) (x : Stream) : (s.setStream n x).cores = s.cores := rfl
@[simp] theorem setStream_tracks (n : Nat) (x : Stream) : (s.setStream n x).tracks = s.tracks := rfl
@[simp] theorem setStream_embs (n : Nat) (x : Stream) : (s.setStream n x).embs = s.embs := rfl
@[simp] theorem setStream_dram (n : Nat) (x : Stream) : (s.setStream n x).dram = s.dram := rfl
@[simp] theorem setStream_link (n : Nat) (x : Stream) : (s.setStream n x).link = s.link := rfl
@[simp] theorem setStream_safety (n : Nat) (x : Stream) : (s.setStream n x).safety = s.safety := rfl
@[simp] theorem setStream_obs (n : Nat) (x : Stream) : (s.setStream n x).obs = s.obs := rfl
@[simp] theorem setStream_recov (n : Nat) (x : Stream) : (s.setStream n x).recov = s.recov := rfl

/-! ### modStream -/

@[simp] theorem modStream_pending (n : Nat) (f : Stream → Stream) : (s.modStream n f).pending = s.pending := rfl
@[simp] theorem modStream_free (n : Nat) (f : Stream → Stream) : (s.modStream n f).free = s.free := rfl
@[simp] theorem modStream_chip (n : Nat) (f : Stream → Stream) : (s.modStream n f).chip = s.chip := rfl
@[simp] theorem modStream_pcie (n : Nat) (f : Stream → Stream) : (s.modStream n f).pcie = s.pcie := rfl
@[simp] theorem modStream_hq (n : Nat) (f : Stream → Stream) : (s.modStream n f).hq = s.hq := rfl
@[simp] theorem modStream_outq (n : Nat) (f : Stream → Stream) : (s.modStream n f).outq = s.outq := rfl
@[simp] theorem modStream_hostMem (n : Nat) (f : Stream → Stream) : (s.modStream n f).hostMem = s.hostMem := rfl
@[simp] theorem modStream_journal (n : Nat) (f : Stream → Stream) : (s.modStream n f).journal = s.journal := rfl
@[simp] theorem modStream_jpos (n : Nat) (f : Stream → Stream) : (s.modStream n f).jpos = s.jpos := rfl
@[simp] theorem modStream_jlast (n : Nat) (f : Stream → Stream) : (s.modStream n f).jlast = s.jlast := rfl
@[simp] theorem modStream_sport (n : Nat) (f : Stream → Stream) : (s.modStream n f).sport = s.sport := rfl
@[simp] theorem modStream_ringAsn (n : Nat) (f : Stream → Stream) : (s.modStream n f).ringAsn = s.ringAsn := rfl
@[simp] theorem modStream_mntAsn (n : Nat) (f : Stream → Stream) : (s.modStream n f).mntAsn = s.mntAsn := rfl
@[simp] theorem modStream_mntCpl (n : Nat) (f : Stream → Stream) : (s.modStream n f).mntCpl = s.mntCpl := rfl
@[simp] theorem modStream_pool (n : Nat) (f : Stream → Stream) : (s.modStream n f).pool = s.pool := rfl
@[simp] theorem modStream_sessions (n : Nat) (f : Stream → Stream) : (s.modStream n f).sessions = s.sessions := rfl
@[simp] theorem modStream_maquettes (n : Nat) (f : Stream → Stream) : (s.modStream n f).maquettes = s.maquettes := rfl
@[simp] theorem modStream_armatures (n : Nat) (f : Stream → Stream) : (s.modStream n f).armatures = s.armatures := rfl
@[simp] theorem modStream_active (n : Nat) (f : Stream → Stream) : (s.modStream n f).active = s.active := rfl
@[simp] theorem modStream_noSched (n : Nat) (f : Stream → Stream) : (s.modStream n f).noSched = s.noSched := rfl
@[simp] theorem modStream_runs (n : Nat) (f : Stream → Stream) : (s.modStream n f).runs = s.runs := rfl
@[simp] theorem modStream_marks (n : Nat) (f : Stream → Stream) : (s.modStream n f).marks = s.marks := rfl
@[simp] theorem modStream_jobs (n : Nat) (f : Stream → Stream) : (s.modStream n f).jobs = s.jobs := rfl
@[simp] theorem modStream_stages (n : Nat) (f : Stream → Stream) : (s.modStream n f).stages = s.stages := rfl
@[simp] theorem modStream_stageNext (n : Nat) (f : Stream → Stream) : (s.modStream n f).stageNext = s.stageNext := rfl
@[simp] theorem modStream_packs (n : Nat) (f : Stream → Stream) : (s.modStream n f).packs = s.packs := rfl
@[simp] theorem modStream_cores (n : Nat) (f : Stream → Stream) : (s.modStream n f).cores = s.cores := rfl
@[simp] theorem modStream_tracks (n : Nat) (f : Stream → Stream) : (s.modStream n f).tracks = s.tracks := rfl
@[simp] theorem modStream_embs (n : Nat) (f : Stream → Stream) : (s.modStream n f).embs = s.embs := rfl
@[simp] theorem modStream_dram (n : Nat) (f : Stream → Stream) : (s.modStream n f).dram = s.dram := rfl
@[simp] theorem modStream_link (n : Nat) (f : Stream → Stream) : (s.modStream n f).link = s.link := rfl
@[simp] theorem modStream_safety (n : Nat) (f : Stream → Stream) : (s.modStream n f).safety = s.safety := rfl
@[simp] theorem modStream_obs (n : Nat) (f : Stream → Stream) : (s.modStream n f).obs = s.obs := rfl
@[simp] theorem modStream_recov (n : Nat) (f : Stream → Stream) : (s.modStream n f).recov = s.recov := rfl

/-! ### setSession -/

@[simp] theorem setSession_pending (n : Nat) (x : Session) : (s.setSession n x).pending = s.pending := rfl
@[simp] theorem setSession_free (n : Nat) (x : Session) : (s.setSession n x).free = s.free := rfl
@[simp] theorem setSession_chip (n : Nat) (x : Session) : (s.setSession n x).chip = s.chip := rfl
@[simp] theorem setSession_pcie (n : Nat) (x : Session) : (s.setSession n x).pcie = s.pcie := rfl
@[simp] theorem setSession_hq (n : Nat) (x : Session) : (s.setSession n x).hq = s.hq := rfl
@[simp] theorem setSession_outq (n : Nat) (x : Session) : (s.setSession n x).outq = s.outq := rfl
@[simp] theorem setSession_hostMem (n : Nat) (x : Session) : (s.setSession n x).hostMem = s.hostMem := rfl
@[simp] theorem setSession_journal (n : Nat) (x : Session) : (s.setSession n x).journal = s.journal := rfl
@[simp] theorem setSession_jpos (n : Nat) (x : Session) : (s.setSession n x).jpos = s.jpos := rfl
@[simp] theorem setSession_jlast (n : Nat) (x : Session) : (s.setSession n x).jlast = s.jlast := rfl
@[simp] theorem setSession_sport (n : Nat) (x : Session) : (s.setSession n x).sport = s.sport := rfl
@[simp] theorem setSession_ringAsn (n : Nat) (x : Session) : (s.setSession n x).ringAsn = s.ringAsn := rfl
@[simp] theorem setSession_mntAsn (n : Nat) (x : Session) : (s.setSession n x).mntAsn = s.mntAsn := rfl
@[simp] theorem setSession_mntCpl (n : Nat) (x : Session) : (s.setSession n x).mntCpl = s.mntCpl := rfl
@[simp] theorem setSession_streams (n : Nat) (x : Session) : (s.setSession n x).streams = s.streams := rfl
@[simp] theorem setSession_pool (n : Nat) (x : Session) : (s.setSession n x).pool = s.pool := rfl
@[simp] theorem setSession_maquettes (n : Nat) (x : Session) : (s.setSession n x).maquettes = s.maquettes := rfl
@[simp] theorem setSession_armatures (n : Nat) (x : Session) : (s.setSession n x).armatures = s.armatures := rfl
@[simp] theorem setSession_active (n : Nat) (x : Session) : (s.setSession n x).active = s.active := rfl
@[simp] theorem setSession_noSched (n : Nat) (x : Session) : (s.setSession n x).noSched = s.noSched := rfl
@[simp] theorem setSession_runs (n : Nat) (x : Session) : (s.setSession n x).runs = s.runs := rfl
@[simp] theorem setSession_marks (n : Nat) (x : Session) : (s.setSession n x).marks = s.marks := rfl
@[simp] theorem setSession_jobs (n : Nat) (x : Session) : (s.setSession n x).jobs = s.jobs := rfl
@[simp] theorem setSession_stages (n : Nat) (x : Session) : (s.setSession n x).stages = s.stages := rfl
@[simp] theorem setSession_stageNext (n : Nat) (x : Session) : (s.setSession n x).stageNext = s.stageNext := rfl
@[simp] theorem setSession_packs (n : Nat) (x : Session) : (s.setSession n x).packs = s.packs := rfl
@[simp] theorem setSession_cores (n : Nat) (x : Session) : (s.setSession n x).cores = s.cores := rfl
@[simp] theorem setSession_tracks (n : Nat) (x : Session) : (s.setSession n x).tracks = s.tracks := rfl
@[simp] theorem setSession_embs (n : Nat) (x : Session) : (s.setSession n x).embs = s.embs := rfl
@[simp] theorem setSession_dram (n : Nat) (x : Session) : (s.setSession n x).dram = s.dram := rfl
@[simp] theorem setSession_link (n : Nat) (x : Session) : (s.setSession n x).link = s.link := rfl
@[simp] theorem setSession_safety (n : Nat) (x : Session) : (s.setSession n x).safety = s.safety := rfl
@[simp] theorem setSession_obs (n : Nat) (x : Session) : (s.setSession n x).obs = s.obs := rfl
@[simp] theorem setSession_recov (n : Nat) (x : Session) : (s.setSession n x).recov = s.recov := rfl

/-! ### modSession -/

@[simp] theorem modSession_pending (n : Nat) (f : Session → Session) : (s.modSession n f).pending = s.pending := rfl
@[simp] theorem modSession_free (n : Nat) (f : Session → Session) : (s.modSession n f).free = s.free := rfl
@[simp] theorem modSession_chip (n : Nat) (f : Session → Session) : (s.modSession n f).chip = s.chip := rfl
@[simp] theorem modSession_pcie (n : Nat) (f : Session → Session) : (s.modSession n f).pcie = s.pcie := rfl
@[simp] theorem modSession_hq (n : Nat) (f : Session → Session) : (s.modSession n f).hq = s.hq := rfl
@[simp] theorem modSession_outq (n : Nat) (f : Session → Session) : (s.modSession n f).outq = s.outq := rfl
@[simp] theorem modSession_hostMem (n : Nat) (f : Session → Session) : (s.modSession n f).hostMem = s.hostMem := rfl
@[simp] theorem modSession_journal (n : Nat) (f : Session → Session) : (s.modSession n f).journal = s.journal := rfl
@[simp] theorem modSession_jpos (n : Nat) (f : Session → Session) : (s.modSession n f).jpos = s.jpos := rfl
@[simp] theorem modSession_jlast (n : Nat) (f : Session → Session) : (s.modSession n f).jlast = s.jlast := rfl
@[simp] theorem modSession_sport (n : Nat) (f : Session → Session) : (s.modSession n f).sport = s.sport := rfl
@[simp] theorem modSession_ringAsn (n : Nat) (f : Session → Session) : (s.modSession n f).ringAsn = s.ringAsn := rfl
@[simp] theorem modSession_mntAsn (n : Nat) (f : Session → Session) : (s.modSession n f).mntAsn = s.mntAsn := rfl
@[simp] theorem modSession_mntCpl (n : Nat) (f : Session → Session) : (s.modSession n f).mntCpl = s.mntCpl := rfl
@[simp] theorem modSession_streams (n : Nat) (f : Session → Session) : (s.modSession n f).streams = s.streams := rfl
@[simp] theorem modSession_pool (n : Nat) (f : Session → Session) : (s.modSession n f).pool = s.pool := rfl
@[simp] theorem modSession_maquettes (n : Nat) (f : Session → Session) : (s.modSession n f).maquettes = s.maquettes := rfl
@[simp] theorem modSession_armatures (n : Nat) (f : Session → Session) : (s.modSession n f).armatures = s.armatures := rfl
@[simp] theorem modSession_active (n : Nat) (f : Session → Session) : (s.modSession n f).active = s.active := rfl
@[simp] theorem modSession_noSched (n : Nat) (f : Session → Session) : (s.modSession n f).noSched = s.noSched := rfl
@[simp] theorem modSession_runs (n : Nat) (f : Session → Session) : (s.modSession n f).runs = s.runs := rfl
@[simp] theorem modSession_marks (n : Nat) (f : Session → Session) : (s.modSession n f).marks = s.marks := rfl
@[simp] theorem modSession_jobs (n : Nat) (f : Session → Session) : (s.modSession n f).jobs = s.jobs := rfl
@[simp] theorem modSession_stages (n : Nat) (f : Session → Session) : (s.modSession n f).stages = s.stages := rfl
@[simp] theorem modSession_stageNext (n : Nat) (f : Session → Session) : (s.modSession n f).stageNext = s.stageNext := rfl
@[simp] theorem modSession_packs (n : Nat) (f : Session → Session) : (s.modSession n f).packs = s.packs := rfl
@[simp] theorem modSession_cores (n : Nat) (f : Session → Session) : (s.modSession n f).cores = s.cores := rfl
@[simp] theorem modSession_tracks (n : Nat) (f : Session → Session) : (s.modSession n f).tracks = s.tracks := rfl
@[simp] theorem modSession_embs (n : Nat) (f : Session → Session) : (s.modSession n f).embs = s.embs := rfl
@[simp] theorem modSession_dram (n : Nat) (f : Session → Session) : (s.modSession n f).dram = s.dram := rfl
@[simp] theorem modSession_link (n : Nat) (f : Session → Session) : (s.modSession n f).link = s.link := rfl
@[simp] theorem modSession_safety (n : Nat) (f : Session → Session) : (s.modSession n f).safety = s.safety := rfl
@[simp] theorem modSession_obs (n : Nat) (f : Session → Session) : (s.modSession n f).obs = s.obs := rfl
@[simp] theorem modSession_recov (n : Nat) (f : Session → Session) : (s.modSession n f).recov = s.recov := rfl

/-! ### setCore -/

@[simp] theorem setCore_pending (c : Nat) (x : Core) : (s.setCore c x).pending = s.pending := rfl
@[simp] theorem setCore_free (c : Nat) (x : Core) : (s.setCore c x).free = s.free := rfl
@[simp] theorem setCore_chip (c : Nat) (x : Core) : (s.setCore c x).chip = s.chip := rfl
@[simp] theorem setCore_pcie (c : Nat) (x : Core) : (s.setCore c x).pcie = s.pcie := rfl
@[simp] theorem setCore_hq (c : Nat) (x : Core) : (s.setCore c x).hq = s.hq := rfl
@[simp] theorem setCore_outq (c : Nat) (x : Core) : (s.setCore c x).outq = s.outq := rfl
@[simp] theorem setCore_hostMem (c : Nat) (x : Core) : (s.setCore c x).hostMem = s.hostMem := rfl
@[simp] theorem setCore_journal (c : Nat) (x : Core) : (s.setCore c x).journal = s.journal := rfl
@[simp] theorem setCore_jpos (c : Nat) (x : Core) : (s.setCore c x).jpos = s.jpos := rfl
@[simp] theorem setCore_jlast (c : Nat) (x : Core) : (s.setCore c x).jlast = s.jlast := rfl
@[simp] theorem setCore_sport (c : Nat) (x : Core) : (s.setCore c x).sport = s.sport := rfl
@[simp] theorem setCore_ringAsn (c : Nat) (x : Core) : (s.setCore c x).ringAsn = s.ringAsn := rfl
@[simp] theorem setCore_mntAsn (c : Nat) (x : Core) : (s.setCore c x).mntAsn = s.mntAsn := rfl
@[simp] theorem setCore_mntCpl (c : Nat) (x : Core) : (s.setCore c x).mntCpl = s.mntCpl := rfl
@[simp] theorem setCore_streams (c : Nat) (x : Core) : (s.setCore c x).streams = s.streams := rfl
@[simp] theorem setCore_pool (c : Nat) (x : Core) : (s.setCore c x).pool = s.pool := rfl
@[simp] theorem setCore_sessions (c : Nat) (x : Core) : (s.setCore c x).sessions = s.sessions := rfl
@[simp] theorem setCore_maquettes (c : Nat) (x : Core) : (s.setCore c x).maquettes = s.maquettes := rfl
@[simp] theorem setCore_armatures (c : Nat) (x : Core) : (s.setCore c x).armatures = s.armatures := rfl
@[simp] theorem setCore_active (c : Nat) (x : Core) : (s.setCore c x).active = s.active := rfl
@[simp] theorem setCore_noSched (c : Nat) (x : Core) : (s.setCore c x).noSched = s.noSched := rfl
@[simp] theorem setCore_runs (c : Nat) (x : Core) : (s.setCore c x).runs = s.runs := rfl
@[simp] theorem setCore_marks (c : Nat) (x : Core) : (s.setCore c x).marks = s.marks := rfl
@[simp] theorem setCore_jobs (c : Nat) (x : Core) : (s.setCore c x).jobs = s.jobs := rfl
@[simp] theorem setCore_stages (c : Nat) (x : Core) : (s.setCore c x).stages = s.stages := rfl
@[simp] theorem setCore_stageNext (c : Nat) (x : Core) : (s.setCore c x).stageNext = s.stageNext := rfl
@[simp] theorem setCore_packs (c : Nat) (x : Core) : (s.setCore c x).packs = s.packs := rfl
@[simp] theorem setCore_tracks (c : Nat) (x : Core) : (s.setCore c x).tracks = s.tracks := rfl
@[simp] theorem setCore_embs (c : Nat) (x : Core) : (s.setCore c x).embs = s.embs := rfl
@[simp] theorem setCore_dram (c : Nat) (x : Core) : (s.setCore c x).dram = s.dram := rfl
@[simp] theorem setCore_link (c : Nat) (x : Core) : (s.setCore c x).link = s.link := rfl
@[simp] theorem setCore_safety (c : Nat) (x : Core) : (s.setCore c x).safety = s.safety := rfl
@[simp] theorem setCore_obs (c : Nat) (x : Core) : (s.setCore c x).obs = s.obs := rfl
@[simp] theorem setCore_recov (c : Nat) (x : Core) : (s.setCore c x).recov = s.recov := rfl

/-! ### modCore -/

@[simp] theorem modCore_pending (c : Nat) (f : Core → Core) : (s.modCore c f).pending = s.pending := rfl
@[simp] theorem modCore_free (c : Nat) (f : Core → Core) : (s.modCore c f).free = s.free := rfl
@[simp] theorem modCore_chip (c : Nat) (f : Core → Core) : (s.modCore c f).chip = s.chip := rfl
@[simp] theorem modCore_pcie (c : Nat) (f : Core → Core) : (s.modCore c f).pcie = s.pcie := rfl
@[simp] theorem modCore_hq (c : Nat) (f : Core → Core) : (s.modCore c f).hq = s.hq := rfl
@[simp] theorem modCore_outq (c : Nat) (f : Core → Core) : (s.modCore c f).outq = s.outq := rfl
@[simp] theorem modCore_hostMem (c : Nat) (f : Core → Core) : (s.modCore c f).hostMem = s.hostMem := rfl
@[simp] theorem modCore_journal (c : Nat) (f : Core → Core) : (s.modCore c f).journal = s.journal := rfl
@[simp] theorem modCore_jpos (c : Nat) (f : Core → Core) : (s.modCore c f).jpos = s.jpos := rfl
@[simp] theorem modCore_jlast (c : Nat) (f : Core → Core) : (s.modCore c f).jlast = s.jlast := rfl
@[simp] theorem modCore_sport (c : Nat) (f : Core → Core) : (s.modCore c f).sport = s.sport := rfl
@[simp] theorem modCore_ringAsn (c : Nat) (f : Core → Core) : (s.modCore c f).ringAsn = s.ringAsn := rfl
@[simp] theorem modCore_mntAsn (c : Nat) (f : Core → Core) : (s.modCore c f).mntAsn = s.mntAsn := rfl
@[simp] theorem modCore_mntCpl (c : Nat) (f : Core → Core) : (s.modCore c f).mntCpl = s.mntCpl := rfl
@[simp] theorem modCore_streams (c : Nat) (f : Core → Core) : (s.modCore c f).streams = s.streams := rfl
@[simp] theorem modCore_pool (c : Nat) (f : Core → Core) : (s.modCore c f).pool = s.pool := rfl
@[simp] theorem modCore_sessions (c : Nat) (f : Core → Core) : (s.modCore c f).sessions = s.sessions := rfl
@[simp] theorem modCore_maquettes (c : Nat) (f : Core → Core) : (s.modCore c f).maquettes = s.maquettes := rfl
@[simp] theorem modCore_armatures (c : Nat) (f : Core → Core) : (s.modCore c f).armatures = s.armatures := rfl
@[simp] theorem modCore_active (c : Nat) (f : Core → Core) : (s.modCore c f).active = s.active := rfl
@[simp] theorem modCore_noSched (c : Nat) (f : Core → Core) : (s.modCore c f).noSched = s.noSched := rfl
@[simp] theorem modCore_runs (c : Nat) (f : Core → Core) : (s.modCore c f).runs = s.runs := rfl
@[simp] theorem modCore_marks (c : Nat) (f : Core → Core) : (s.modCore c f).marks = s.marks := rfl
@[simp] theorem modCore_jobs (c : Nat) (f : Core → Core) : (s.modCore c f).jobs = s.jobs := rfl
@[simp] theorem modCore_stages (c : Nat) (f : Core → Core) : (s.modCore c f).stages = s.stages := rfl
@[simp] theorem modCore_stageNext (c : Nat) (f : Core → Core) : (s.modCore c f).stageNext = s.stageNext := rfl
@[simp] theorem modCore_packs (c : Nat) (f : Core → Core) : (s.modCore c f).packs = s.packs := rfl
@[simp] theorem modCore_tracks (c : Nat) (f : Core → Core) : (s.modCore c f).tracks = s.tracks := rfl
@[simp] theorem modCore_embs (c : Nat) (f : Core → Core) : (s.modCore c f).embs = s.embs := rfl
@[simp] theorem modCore_dram (c : Nat) (f : Core → Core) : (s.modCore c f).dram = s.dram := rfl
@[simp] theorem modCore_link (c : Nat) (f : Core → Core) : (s.modCore c f).link = s.link := rfl
@[simp] theorem modCore_safety (c : Nat) (f : Core → Core) : (s.modCore c f).safety = s.safety := rfl
@[simp] theorem modCore_obs (c : Nat) (f : Core → Core) : (s.modCore c f).obs = s.obs := rfl
@[simp] theorem modCore_recov (c : Nat) (f : Core → Core) : (s.modCore c f).recov = s.recov := rfl

/-! ### setPart -/

@[simp] theorem setPart_pending (k : Nat) (x : Part) : (s.setPart k x).pending = s.pending := rfl
@[simp] theorem setPart_free (k : Nat) (x : Part) : (s.setPart k x).free = s.free := rfl
@[simp] theorem setPart_chip (k : Nat) (x : Part) : (s.setPart k x).chip = s.chip := rfl
@[simp] theorem setPart_pcie (k : Nat) (x : Part) : (s.setPart k x).pcie = s.pcie := rfl
@[simp] theorem setPart_hq (k : Nat) (x : Part) : (s.setPart k x).hq = s.hq := rfl
@[simp] theorem setPart_outq (k : Nat) (x : Part) : (s.setPart k x).outq = s.outq := rfl
@[simp] theorem setPart_hostMem (k : Nat) (x : Part) : (s.setPart k x).hostMem = s.hostMem := rfl
@[simp] theorem setPart_journal (k : Nat) (x : Part) : (s.setPart k x).journal = s.journal := rfl
@[simp] theorem setPart_jpos (k : Nat) (x : Part) : (s.setPart k x).jpos = s.jpos := rfl
@[simp] theorem setPart_jlast (k : Nat) (x : Part) : (s.setPart k x).jlast = s.jlast := rfl
@[simp] theorem setPart_sport (k : Nat) (x : Part) : (s.setPart k x).sport = s.sport := rfl
@[simp] theorem setPart_ringAsn (k : Nat) (x : Part) : (s.setPart k x).ringAsn = s.ringAsn := rfl
@[simp] theorem setPart_mntAsn (k : Nat) (x : Part) : (s.setPart k x).mntAsn = s.mntAsn := rfl
@[simp] theorem setPart_mntCpl (k : Nat) (x : Part) : (s.setPart k x).mntCpl = s.mntCpl := rfl
@[simp] theorem setPart_streams (k : Nat) (x : Part) : (s.setPart k x).streams = s.streams := rfl
@[simp] theorem setPart_pool (k : Nat) (x : Part) : (s.setPart k x).pool = s.pool := rfl
@[simp] theorem setPart_sessions (k : Nat) (x : Part) : (s.setPart k x).sessions = s.sessions := rfl
@[simp] theorem setPart_maquettes (k : Nat) (x : Part) : (s.setPart k x).maquettes = s.maquettes := rfl
@[simp] theorem setPart_armatures (k : Nat) (x : Part) : (s.setPart k x).armatures = s.armatures := rfl
@[simp] theorem setPart_active (k : Nat) (x : Part) : (s.setPart k x).active = s.active := rfl
@[simp] theorem setPart_noSched (k : Nat) (x : Part) : (s.setPart k x).noSched = s.noSched := rfl
@[simp] theorem setPart_runs (k : Nat) (x : Part) : (s.setPart k x).runs = s.runs := rfl
@[simp] theorem setPart_marks (k : Nat) (x : Part) : (s.setPart k x).marks = s.marks := rfl
@[simp] theorem setPart_jobs (k : Nat) (x : Part) : (s.setPart k x).jobs = s.jobs := rfl
@[simp] theorem setPart_stages (k : Nat) (x : Part) : (s.setPart k x).stages = s.stages := rfl
@[simp] theorem setPart_stageNext (k : Nat) (x : Part) : (s.setPart k x).stageNext = s.stageNext := rfl
@[simp] theorem setPart_packs (k : Nat) (x : Part) : (s.setPart k x).packs = s.packs := rfl
@[simp] theorem setPart_cores (k : Nat) (x : Part) : (s.setPart k x).cores = s.cores := rfl
@[simp] theorem setPart_tracks (k : Nat) (x : Part) : (s.setPart k x).tracks = s.tracks := rfl
@[simp] theorem setPart_embs (k : Nat) (x : Part) : (s.setPart k x).embs = s.embs := rfl
@[simp] theorem setPart_link (k : Nat) (x : Part) : (s.setPart k x).link = s.link := rfl
@[simp] theorem setPart_safety (k : Nat) (x : Part) : (s.setPart k x).safety = s.safety := rfl
@[simp] theorem setPart_obs (k : Nat) (x : Part) : (s.setPart k x).obs = s.obs := rfl
@[simp] theorem setPart_recov (k : Nat) (x : Part) : (s.setPart k x).recov = s.recov := rfl

/-! ### setChanQ -/

@[simp] theorem setChanQ_pending (ch : Nat) (q : ChanQ) : (s.setChanQ ch q).pending = s.pending := rfl
@[simp] theorem setChanQ_free (ch : Nat) (q : ChanQ) : (s.setChanQ ch q).free = s.free := rfl
@[simp] theorem setChanQ_chip (ch : Nat) (q : ChanQ) : (s.setChanQ ch q).chip = s.chip := rfl
@[simp] theorem setChanQ_pcie (ch : Nat) (q : ChanQ) : (s.setChanQ ch q).pcie = s.pcie := rfl
@[simp] theorem setChanQ_hq (ch : Nat) (q : ChanQ) : (s.setChanQ ch q).hq = s.hq := rfl
@[simp] theorem setChanQ_outq (ch : Nat) (q : ChanQ) : (s.setChanQ ch q).outq = s.outq := rfl
@[simp] theorem setChanQ_hostMem (ch : Nat) (q : ChanQ) : (s.setChanQ ch q).hostMem = s.hostMem := rfl
@[simp] theorem setChanQ_journal (ch : Nat) (q : ChanQ) : (s.setChanQ ch q).journal = s.journal := rfl
@[simp] theorem setChanQ_jpos (ch : Nat) (q : ChanQ) : (s.setChanQ ch q).jpos = s.jpos := rfl
@[simp] theorem setChanQ_jlast (ch : Nat) (q : ChanQ) : (s.setChanQ ch q).jlast = s.jlast := rfl
@[simp] theorem setChanQ_sport (ch : Nat) (q : ChanQ) : (s.setChanQ ch q).sport = s.sport := rfl
@[simp] theorem setChanQ_ringAsn (ch : Nat) (q : ChanQ) : (s.setChanQ ch q).ringAsn = s.ringAsn := rfl
@[simp] theorem setChanQ_mntAsn (ch : Nat) (q : ChanQ) : (s.setChanQ ch q).mntAsn = s.mntAsn := rfl
@[simp] theorem setChanQ_mntCpl (ch : Nat) (q : ChanQ) : (s.setChanQ ch q).mntCpl = s.mntCpl := rfl
@[simp] theorem setChanQ_streams (ch : Nat) (q : ChanQ) : (s.setChanQ ch q).streams = s.streams := rfl
@[simp] theorem setChanQ_pool (ch : Nat) (q : ChanQ) : (s.setChanQ ch q).pool = s.pool := rfl
@[simp] theorem setChanQ_sessions (ch : Nat) (q : ChanQ) : (s.setChanQ ch q).sessions = s.sessions := rfl
@[simp] theorem setChanQ_maquettes (ch : Nat) (q : ChanQ) : (s.setChanQ ch q).maquettes = s.maquettes := rfl
@[simp] theorem setChanQ_armatures (ch : Nat) (q : ChanQ) : (s.setChanQ ch q).armatures = s.armatures := rfl
@[simp] theorem setChanQ_active (ch : Nat) (q : ChanQ) : (s.setChanQ ch q).active = s.active := rfl
@[simp] theorem setChanQ_noSched (ch : Nat) (q : ChanQ) : (s.setChanQ ch q).noSched = s.noSched := rfl
@[simp] theorem setChanQ_runs (ch : Nat) (q : ChanQ) : (s.setChanQ ch q).runs = s.runs := rfl
@[simp] theorem setChanQ_marks (ch : Nat) (q : ChanQ) : (s.setChanQ ch q).marks = s.marks := rfl
@[simp] theorem setChanQ_jobs (ch : Nat) (q : ChanQ) : (s.setChanQ ch q).jobs = s.jobs := rfl
@[simp] theorem setChanQ_stages (ch : Nat) (q : ChanQ) : (s.setChanQ ch q).stages = s.stages := rfl
@[simp] theorem setChanQ_stageNext (ch : Nat) (q : ChanQ) : (s.setChanQ ch q).stageNext = s.stageNext := rfl
@[simp] theorem setChanQ_packs (ch : Nat) (q : ChanQ) : (s.setChanQ ch q).packs = s.packs := rfl
@[simp] theorem setChanQ_cores (ch : Nat) (q : ChanQ) : (s.setChanQ ch q).cores = s.cores := rfl
@[simp] theorem setChanQ_tracks (ch : Nat) (q : ChanQ) : (s.setChanQ ch q).tracks = s.tracks := rfl
@[simp] theorem setChanQ_embs (ch : Nat) (q : ChanQ) : (s.setChanQ ch q).embs = s.embs := rfl
@[simp] theorem setChanQ_link (ch : Nat) (q : ChanQ) : (s.setChanQ ch q).link = s.link := rfl
@[simp] theorem setChanQ_safety (ch : Nat) (q : ChanQ) : (s.setChanQ ch q).safety = s.safety := rfl
@[simp] theorem setChanQ_obs (ch : Nat) (q : ChanQ) : (s.setChanQ ch q).obs = s.obs := rfl
@[simp] theorem setChanQ_recov (ch : Nat) (q : ChanQ) : (s.setChanQ ch q).recov = s.recov := rfl

/-! ### setChan -/

@[simp] theorem setChan_pending (c k : Nat) (x : Chan) : (s.setChan c k x).pending = s.pending := rfl
@[simp] theorem setChan_free (c k : Nat) (x : Chan) : (s.setChan c k x).free = s.free := rfl
@[simp] theorem setChan_chip (c k : Nat) (x : Chan) : (s.setChan c k x).chip = s.chip := rfl
@[simp] theorem setChan_pcie (c k : Nat) (x : Chan) : (s.setChan c k x).pcie = s.pcie := rfl
@[simp] theorem setChan_hq (c k : Nat) (x : Chan) : (s.setChan c k x).hq = s.hq := rfl
@[simp] theorem setChan_outq (c k : Nat) (x : Chan) : (s.setChan c k x).outq = s.outq := rfl
@[simp] theorem setChan_hostMem (c k : Nat) (x : Chan) : (s.setChan c k x).hostMem = s.hostMem := rfl
@[simp] theorem setChan_journal (c k : Nat) (x : Chan) : (s.setChan c k x).journal = s.journal := rfl
@[simp] theorem setChan_jpos (c k : Nat) (x : Chan) : (s.setChan c k x).jpos = s.jpos := rfl
@[simp] theorem setChan_jlast (c k : Nat) (x : Chan) : (s.setChan c k x).jlast = s.jlast := rfl
@[simp] theorem setChan_sport (c k : Nat) (x : Chan) : (s.setChan c k x).sport = s.sport := rfl
@[simp] theorem setChan_ringAsn (c k : Nat) (x : Chan) : (s.setChan c k x).ringAsn = s.ringAsn := rfl
@[simp] theorem setChan_mntAsn (c k : Nat) (x : Chan) : (s.setChan c k x).mntAsn = s.mntAsn := rfl
@[simp] theorem setChan_mntCpl (c k : Nat) (x : Chan) : (s.setChan c k x).mntCpl = s.mntCpl := rfl
@[simp] theorem setChan_streams (c k : Nat) (x : Chan) : (s.setChan c k x).streams = s.streams := rfl
@[simp] theorem setChan_pool (c k : Nat) (x : Chan) : (s.setChan c k x).pool = s.pool := rfl
@[simp] theorem setChan_sessions (c k : Nat) (x : Chan) : (s.setChan c k x).sessions = s.sessions := rfl
@[simp] theorem setChan_maquettes (c k : Nat) (x : Chan) : (s.setChan c k x).maquettes = s.maquettes := rfl
@[simp] theorem setChan_armatures (c k : Nat) (x : Chan) : (s.setChan c k x).armatures = s.armatures := rfl
@[simp] theorem setChan_active (c k : Nat) (x : Chan) : (s.setChan c k x).active = s.active := rfl
@[simp] theorem setChan_noSched (c k : Nat) (x : Chan) : (s.setChan c k x).noSched = s.noSched := rfl
@[simp] theorem setChan_runs (c k : Nat) (x : Chan) : (s.setChan c k x).runs = s.runs := rfl
@[simp] theorem setChan_marks (c k : Nat) (x : Chan) : (s.setChan c k x).marks = s.marks := rfl
@[simp] theorem setChan_jobs (c k : Nat) (x : Chan) : (s.setChan c k x).jobs = s.jobs := rfl
@[simp] theorem setChan_stages (c k : Nat) (x : Chan) : (s.setChan c k x).stages = s.stages := rfl
@[simp] theorem setChan_stageNext (c k : Nat) (x : Chan) : (s.setChan c k x).stageNext = s.stageNext := rfl
@[simp] theorem setChan_packs (c k : Nat) (x : Chan) : (s.setChan c k x).packs = s.packs := rfl
@[simp] theorem setChan_cores (c k : Nat) (x : Chan) : (s.setChan c k x).cores = s.cores := rfl
@[simp] theorem setChan_tracks (c k : Nat) (x : Chan) : (s.setChan c k x).tracks = s.tracks := rfl
@[simp] theorem setChan_embs (c k : Nat) (x : Chan) : (s.setChan c k x).embs = s.embs := rfl
@[simp] theorem setChan_link (c k : Nat) (x : Chan) : (s.setChan c k x).link = s.link := rfl
@[simp] theorem setChan_safety (c k : Nat) (x : Chan) : (s.setChan c k x).safety = s.safety := rfl
@[simp] theorem setChan_obs (c k : Nat) (x : Chan) : (s.setChan c k x).obs = s.obs := rfl
@[simp] theorem setChan_recov (c k : Nat) (x : Chan) : (s.setChan c k x).recov = s.recov := rfl

/-! ### setLport -/

@[simp] theorem setLport_pending (p : Nat) (x : LPort) : (s.setLport p x).pending = s.pending := rfl
@[simp] theorem setLport_free (p : Nat) (x : LPort) : (s.setLport p x).free = s.free := rfl
@[simp] theorem setLport_chip (p : Nat) (x : LPort) : (s.setLport p x).chip = s.chip := rfl
@[simp] theorem setLport_pcie (p : Nat) (x : LPort) : (s.setLport p x).pcie = s.pcie := rfl
@[simp] theorem setLport_hq (p : Nat) (x : LPort) : (s.setLport p x).hq = s.hq := rfl
@[simp] theorem setLport_outq (p : Nat) (x : LPort) : (s.setLport p x).outq = s.outq := rfl
@[simp] theorem setLport_hostMem (p : Nat) (x : LPort) : (s.setLport p x).hostMem = s.hostMem := rfl
@[simp] theorem setLport_journal (p : Nat) (x : LPort) : (s.setLport p x).journal = s.journal := rfl
@[simp] theorem setLport_jpos (p : Nat) (x : LPort) : (s.setLport p x).jpos = s.jpos := rfl
@[simp] theorem setLport_jlast (p : Nat) (x : LPort) : (s.setLport p x).jlast = s.jlast := rfl
@[simp] theorem setLport_sport (p : Nat) (x : LPort) : (s.setLport p x).sport = s.sport := rfl
@[simp] theorem setLport_ringAsn (p : Nat) (x : LPort) : (s.setLport p x).ringAsn = s.ringAsn := rfl
@[simp] theorem setLport_mntAsn (p : Nat) (x : LPort) : (s.setLport p x).mntAsn = s.mntAsn := rfl
@[simp] theorem setLport_mntCpl (p : Nat) (x : LPort) : (s.setLport p x).mntCpl = s.mntCpl := rfl
@[simp] theorem setLport_streams (p : Nat) (x : LPort) : (s.setLport p x).streams = s.streams := rfl
@[simp] theorem setLport_pool (p : Nat) (x : LPort) : (s.setLport p x).pool = s.pool := rfl
@[simp] theorem setLport_sessions (p : Nat) (x : LPort) : (s.setLport p x).sessions = s.sessions := rfl
@[simp] theorem setLport_maquettes (p : Nat) (x : LPort) : (s.setLport p x).maquettes = s.maquettes := rfl
@[simp] theorem setLport_armatures (p : Nat) (x : LPort) : (s.setLport p x).armatures = s.armatures := rfl
@[simp] theorem setLport_active (p : Nat) (x : LPort) : (s.setLport p x).active = s.active := rfl
@[simp] theorem setLport_noSched (p : Nat) (x : LPort) : (s.setLport p x).noSched = s.noSched := rfl
@[simp] theorem setLport_runs (p : Nat) (x : LPort) : (s.setLport p x).runs = s.runs := rfl
@[simp] theorem setLport_marks (p : Nat) (x : LPort) : (s.setLport p x).marks = s.marks := rfl
@[simp] theorem setLport_jobs (p : Nat) (x : LPort) : (s.setLport p x).jobs = s.jobs := rfl
@[simp] theorem setLport_stages (p : Nat) (x : LPort) : (s.setLport p x).stages = s.stages := rfl
@[simp] theorem setLport_stageNext (p : Nat) (x : LPort) : (s.setLport p x).stageNext = s.stageNext := rfl
@[simp] theorem setLport_packs (p : Nat) (x : LPort) : (s.setLport p x).packs = s.packs := rfl
@[simp] theorem setLport_cores (p : Nat) (x : LPort) : (s.setLport p x).cores = s.cores := rfl
@[simp] theorem setLport_tracks (p : Nat) (x : LPort) : (s.setLport p x).tracks = s.tracks := rfl
@[simp] theorem setLport_embs (p : Nat) (x : LPort) : (s.setLport p x).embs = s.embs := rfl
@[simp] theorem setLport_dram (p : Nat) (x : LPort) : (s.setLport p x).dram = s.dram := rfl
@[simp] theorem setLport_safety (p : Nat) (x : LPort) : (s.setLport p x).safety = s.safety := rfl
@[simp] theorem setLport_obs (p : Nat) (x : LPort) : (s.setLport p x).obs = s.obs := rfl
@[simp] theorem setLport_recov (p : Nat) (x : LPort) : (s.setLport p x).recov = s.recov := rfl

/-! ### Reading back -/

@[simp] theorem queue_setQueue (q : Nat) (x : HostQueue) : (s.setQueue q x).queue q = x := tget_tput_same _ _ _ _
theorem queue_setQueue_other {q m : Nat} (x : HostQueue) (h : m ≠ q) : (s.setQueue q x).queue m = s.queue m := tget_tput_other _ _ _ h
@[simp] theorem oring_setOring (o : Nat) (x : OutRing) : (s.setOring o x).oring o = x := tget_tput_same _ _ _ _
theorem oring_setOring_other {o m : Nat} (x : OutRing) (h : m ≠ o) : (s.setOring o x).oring m = s.oring m := tget_tput_other _ _ _ h
@[simp] theorem stream_setStream (n : Nat) (x : Stream) : (s.setStream n x).stream n = x := tget_tput_same _ _ _ _
theorem stream_setStream_other {n m : Nat} (x : Stream) (h : m ≠ n) : (s.setStream n x).stream m = s.stream m := tget_tput_other _ _ _ h
@[simp] theorem stream_modStream (n : Nat) (f : Stream → Stream) : (s.modStream n f).stream n = f (s.stream n) := tget_tput_same _ _ _ _
theorem stream_modStream_other {n m : Nat} (f : Stream → Stream) (h : m ≠ n) : (s.modStream n f).stream m = s.stream m :=
  tget_tput_other _ _ _ h
@[simp] theorem session_setSession (n : Nat) (x : Session) : (s.setSession n x).session n = x := tget_tput_same _ _ _ _
theorem session_setSession_other {n m : Nat} (x : Session) (h : m ≠ n) : (s.setSession n x).session m = s.session m :=
  tget_tput_other _ _ _ h
@[simp] theorem session_modSession (n : Nat) (f : Session → Session) : (s.modSession n f).session n = f (s.session n) := tget_tput_same _ _ _ _
theorem session_modSession_other {n m : Nat} (f : Session → Session) (h : m ≠ n) : (s.modSession n f).session m = s.session m :=
  tget_tput_other _ _ _ h
@[simp] theorem core_setCore (c : Nat) (x : Core) : (s.setCore c x).core c = x := tget_tput_same _ _ _ _
theorem core_setCore_other {c m : Nat} (x : Core) (h : m ≠ c) : (s.setCore c x).core m = s.core m := tget_tput_other _ _ _ h
@[simp] theorem core_modCore (c : Nat) (f : Core → Core) : (s.modCore c f).core c = f (s.core c) := tget_tput_same _ _ _ _
theorem core_modCore_other {c m : Nat} (f : Core → Core) (h : m ≠ c) : (s.modCore c f).core m = s.core m := tget_tput_other _ _ _ h
@[simp] theorem part_setPart (k : Nat) (x : Part) : (s.setPart k x).part k = x := tget_tput_same _ _ _ _
theorem part_setPart_other {k m : Nat} (x : Part) (h : m ≠ k) : (s.setPart k x).part m = s.part m := tget_tput_other _ _ _ h
@[simp] theorem chan_setChan (c k : Nat) (x : Chan) : (s.setChan c k x).chan c k = x := tget_tput_same _ _ _ _
@[simp] theorem chanQ_setChanQ (ch : Nat) (q : ChanQ) : (s.setChanQ ch q).chanQ ch = q := tget_tput_same _ _ _ _
theorem chanQ_setChanQ_other {ch m : Nat} (q : ChanQ) (h : m ≠ ch) : (s.setChanQ ch q).chanQ m = s.chanQ m := tget_tput_other _ _ _ h
@[simp] theorem lport_setLport (p : Nat) (x : LPort) : (s.setLport p x).lport p = x := tget_tput_same _ _ _ _
theorem lport_setLport_other {p q : Nat} (x : LPort) (h : q ≠ p) : (s.setLport p x).lport q = s.lport q := tget_tput_other _ _ _ h

end Sys2Proof.Laws
end

