-- ==== Sys2Proof/Laws/Ops.lean ====
section
/-! SUPPORT. What the shared operations can do, said once: completions, counters, interrupts, trace events and link packets change only what
goes out of the part, and a command that may run runs its body. -/

namespace Sys2Proof.Laws

open Sys2Proof.Machine

theorem kept_pending {s t : State} (h : kept t = kept s) : t.pending = s.pending := congrArg (·.pending) h
theorem kept_free {s t : State} (h : kept t = kept s) : t.free = s.free := congrArg (·.free) h
theorem kept_chip {s t : State} (h : kept t = kept s) : t.chip = s.chip := congrArg (·.chip) h
theorem kept_outq {s t : State} (h : kept t = kept s) : t.outq = s.outq := congrArg (·.outq) h
theorem kept_jpos {s t : State} (h : kept t = kept s) : t.jpos = s.jpos := congrArg (·.jpos) h
theorem kept_sport {s t : State} (h : kept t = kept s) : t.sport = s.sport := congrArg (·.sport) h
theorem kept_ringAsn {s t : State} (h : kept t = kept s) : t.ringAsn = s.ringAsn := congrArg (·.ringAsn) h
theorem kept_mntAsn {s t : State} (h : kept t = kept s) : t.mntAsn = s.mntAsn := congrArg (·.mntAsn) h
theorem kept_streams {s t : State} (h : kept t = kept s) : t.streams = s.streams := congrArg (·.streams) h
theorem kept_sessions {s t : State} (h : kept t = kept s) : t.sessions = s.sessions := congrArg (·.sessions) h
theorem kept_maquettes {s t : State} (h : kept t = kept s) : t.maquettes = s.maquettes := congrArg (·.maquettes) h
theorem kept_armatures {s t : State} (h : kept t = kept s) : t.armatures = s.armatures := congrArg (·.armatures) h
theorem kept_active {s t : State} (h : kept t = kept s) : t.active = s.active := congrArg (·.active) h
theorem kept_noSched {s t : State} (h : kept t = kept s) : t.noSched = s.noSched := congrArg (·.noSched) h
theorem kept_runs {s t : State} (h : kept t = kept s) : t.runs = s.runs := congrArg (·.runs) h
theorem kept_marks {s t : State} (h : kept t = kept s) : t.marks = s.marks := congrArg (·.marks) h
theorem kept_jobs {s t : State} (h : kept t = kept s) : t.jobs = s.jobs := congrArg (·.jobs) h
theorem kept_stages {s t : State} (h : kept t = kept s) : t.stages = s.stages := congrArg (·.stages) h
theorem kept_stageNext {s t : State} (h : kept t = kept s) : t.stageNext = s.stageNext := congrArg (·.stageNext) h
theorem kept_packs {s t : State} (h : kept t = kept s) : t.packs = s.packs := congrArg (·.packs) h
theorem kept_cores {s t : State} (h : kept t = kept s) : t.cores = s.cores := congrArg (·.cores) h
theorem kept_tracks {s t : State} (h : kept t = kept s) : t.tracks = s.tracks := congrArg (·.tracks) h
theorem kept_embs {s t : State} (h : kept t = kept s) : t.embs = s.embs := congrArg (·.embs) h
theorem kept_dram {s t : State} (h : kept t = kept s) : t.dram = s.dram := congrArg (·.dram) h
theorem kept_safety {s t : State} (h : kept t = kept s) : t.safety = s.safety := congrArg (·.safety) h
theorem kept_recov {s t : State} (h : kept t = kept s) : t.recov = s.recov := congrArg (·.recov) h
theorem kept_d3 {s t : State} (h : kept t = kept s) : t.pcie.d3 = s.pcie.d3 := congrArg (·.pcie.d3) h
theorem kept_mask {s t : State} (h : kept t = kept s) : t.pcie.mask = s.pcie.mask := congrArg (·.pcie.mask) h
theorem kept_disable {s t : State} (h : kept t = kept s) : t.pcie.disable = s.pcie.disable := congrArg (·.pcie.disable) h
theorem kept_holdoff {s t : State} (h : kept t = kept s) : t.pcie.holdoff = s.pcie.holdoff := congrArg (·.pcie.holdoff) h
theorem kept_rdata {s t : State} (h : kept t = kept s) : t.pcie.rdata = s.pcie.rdata := congrArg (·.pcie.rdata) h
theorem kept_flrCount {s t : State} (h : kept t = kept s) : t.pcie.flrCount = s.pcie.flrCount := congrArg (·.pcie.flrCount) h
theorem kept_accessErrors {s t : State} (h : kept t = kept s) : t.pcie.accessErrors = s.pcie.accessErrors := congrArg (·.pcie.accessErrors) h
theorem kept_role {s t : State} (h : kept t = kept s) : t.link.role = s.link.role := congrArg (·.link.role) h
theorem kept_linkChip {s t : State} (h : kept t = kept s) : t.link.chip = s.link.chip := congrArg (·.link.chip) h
theorem kept_pool {s t : State} (h : kept t = kept s) : t.pool = s.pool := congrArg (·.pool) h
theorem kept_jlast {s t : State} (h : kept t = kept s) : t.jlast = s.jlast := congrArg (·.jlast) h
theorem kept_lport {s t : State} (h : kept t = kept s) {p : Nat} (hp : p < 4) : (t.lport p).kept = (s.lport p).kept := by
  have h' : [0, 1, 2, 3].map (fun p => (p, (t.lport p).kept)) = [0, 1, 2, 3].map (fun p => (p, (s.lport p).kept)) :=
    congrArg (·.link.ports) h
  simp only [List.map_cons, List.map_nil, List.cons.injEq, Prod.mk.injEq, true_and, and_true] at h'
  obtain ⟨h0, h1, h2, h3⟩ := h'
  match p, hp with
  | 0, _ => exact h0
  | 1, _ => exact h1
  | 2, _ => exact h2
  | 3, _ => exact h3
theorem kept_route {s t : State} (h : kept t = kept s) : t.link.route = s.link.route := congrArg (·.link.route) h
theorem kept_incarnation {s t : State} (h : kept t = kept s) : t.link.incarnation = s.link.incarnation := congrArg (·.link.incarnation) h
theorem kept_highest {s t : State} (h : kept t = kept s) : t.link.highest = s.link.highest := congrArg (·.link.highest) h
theorem kept_ctrs {s t : State} (h : kept t = kept s) : t.obs.ctrs = s.obs.ctrs := congrArg (·.obs.ctrs) h
theorem kept_epoch {s t : State} (h : kept t = kept s) : t.obs.epoch = s.obs.epoch := congrArg (·.obs.epoch) h
theorem kept_freeze {s t : State} (h : kept t = kept s) : t.obs.freeze = s.obs.freeze := congrArg (·.obs.freeze) h
theorem kept_trigOut {s t : State} (h : kept t = kept s) : t.obs.trigOut = s.obs.trigOut := congrArg (·.obs.trigOut) h
theorem kept_trace {s t : State} (h : kept t = kept s) : t.obs.trace = s.obs.trace := congrArg (·.obs.trace) h

/-- A loop keeps what each of its rounds keeps. -/
theorem forAll_kept {α : Type} (l : List α) (f : α → State → State) (hf : ∀ a s, kept (f a s) = kept s) (s : State) :
    kept (forAll l f s) = kept s := by
  induction l generalizing s with
  | nil => rfl
  | cons a l ih => exact (ih (f a s)).trans (hf a s)

@[simp] theorem account_kept (cl : Nat) (f : Account → Account) (s : State) : kept (account cl f s) = kept s := rfl
@[simp] theorem hostWrite_kept (a : Nat) (bs : List Byte) (s : State) : kept (hostWrite a bs s) = kept s := rfl
@[simp] theorem hostWords_kept (a : Nat) (ws : List Word) (s : State) : kept (hostWords a ws s) = kept s := rfl
@[simp] theorem setQueue_kept (q : Nat) (x : HostQueue) (s : State) : kept (s.setQueue q x) = kept s := rfl
@[simp] theorem modEntry_kept (j : Nat) (f : JEntry → JEntry) (s : State) : kept (modEntry j f s) = kept s := rfl

/-- A port replaced by one that differs in waiting packets and credits alone. -/
theorem setLport_kept (p : Nat) (x : LPort) (s : State) (h : x.kept = (s.lport p).kept) : kept (s.setLport p x) = kept s := by
  have hl (q : Nat) : ((s.setLport p x).lport q).kept = (s.lport q).kept := by
    by_cases hq : q = p
    · subst hq
      rw [← h]
      simp [State.setLport, State.lport]
    · simp [State.setLport, State.lport, tget_tput_other _ _ _ hq]
  unfold kept
  simp only [hl]
  rfl

@[simp] theorem creditFree_kept (p k : Nat) (s : State) : kept (creditFree p k s) = kept s := setLport_kept _ _ _ rfl
@[simp] theorem creditBack_kept (p : Nat) (k : LinkPkt) (s : State) : kept (creditBack p k s) = kept s := creditFree_kept _ _ _

@[simp] theorem sendAt_kept (p k : Nat) (s : State) : kept (sendAt p k s) = kept s := by
  unfold sendAt
  dsimp only
  split
  · rfl
  · split
    · exact (creditFree_kept _ _ _).trans (setLport_kept p _ s rfl)
    · exact setLport_kept p _ s rfl

@[simp] theorem drainPort_kept (n p : Nat) (s : State) : kept (drainPort n p s) = kept s := by
  induction n generalizing s with
  | zero => rfl
  | succ n ih =>
    unfold drainPort
    split
    · rfl
    · split
      · rfl
      · exact (ih _).trans (sendAt_kept _ _ _)

@[simp] theorem linkTx_kept (p : Nat) (i : Option (Nat × Nat)) (k : LinkPkt) (s : State) : kept (linkTx p i k s) = kept s :=
  (drainPort_kept _ _ _).trans (setLport_kept p _ s rfl)

@[simp] theorem beginCmd_kept (e : JEntry) (s : State) : kept (beginCmd e s) = kept s := rfl

/-- Both branches keep. -/
theorem kept_ite {c : Prop} [Decidable c] {a b s : State} (ha : kept a = kept s) (hb : kept b = kept s) :
    kept (if c then a else b) = kept s := by
  by_cases h : c
  · rw [if_pos h]; exact ha
  · rw [if_neg h]; exact hb

@[simp] theorem inta_kept (s : State) : kept (inta s) = kept s := by
  unfold inta
  repeat' split
  all_goals rfl

@[simp] theorem setCause_kept (k : Nat) (s : State) : kept (setCause k s) = kept s := (inta_kept _).trans rfl

@[simp] theorem emit_kept (kind src ctx niche don band a0 a1 : Nat) (s : State) : kept (emit kind src ctx niche don band a0 a1 s) = kept s := by
  unfold emit
  exact kept_ite rfl (kept_ite rfl (kept_ite rfl ((setCause_kept _ _).trans rfl)))

@[simp] theorem sendControl_kept (dest type : Nat) (aux aux2 : Word) (s : State) : kept (sendControl dest type aux aux2 s) = kept s := by
  unfold sendControl
  split
  · rfl
  · exact linkTx_kept _ _ _ _

@[simp] theorem sendSeq_kept (dest cls type ctx gen : Nat) (aux aux2 : Word) (data : List Word) (s : State) :
    kept (sendSeq dest cls type ctx gen aux aux2 data s) = kept s := by
  unfold sendSeq
  dsimp only
  repeat' split
  · rfl
  · rfl
  · exact (linkTx_kept _ _ _ _).trans rfl

@[simp] theorem postHost_kept (q : Nat) (first irq : Bool) (c : Cpl) (s : State) : kept (postHost q first irq c s) = kept s := by
  unfold postHost
  dsimp only
  split
  · exact (setCause_kept _ _).trans rfl
  · rfl

@[simp] theorem postAll_kept (q : Nat) (irq : Bool) (k : Nat) (cs : List Cpl) (s : State) : kept (postAll q irq k cs s) = kept s := by
  induction cs generalizing k s with
  | nil => rfl
  | cons c cs ih => exact (ih _ _).trans (postHost_kept _ _ _ _ s)

@[simp] theorem flushEntries_kept (q : Nat) (ok : Bool) (done l : List JEntry) (s : State) : kept (flushEntries q ok done l s) = kept s := by
  induction l generalizing ok done s with
  | nil => rfl
  | cons e es ih =>
    unfold flushEntries
    dsimp only
    repeat' split
    all_goals simp [ih]

@[simp] theorem flush_kept (s : State) : kept (flush s) = kept s := by
  unfold flush
  split
  · rfl
  · simp

/-- Producing a completion keeps it all. -/
@[simp] theorem produce_kept (j : Nat) (c : Cpl) (s : State) : kept (produce j c s) = kept s := by
  unfold produce
  split
  · rfl
  · dsimp only
    split
    · exact (flush_kept _).trans rfl
    · rfl
    · rfl
    · split
      · rfl
      · exact (sendSeq_kept _ _ _ _ _ _ _ _ _).trans rfl

@[simp] theorem finish_kept (j st : Nat) (r : List Word) (s : State) : kept (finish j st r s) = kept s := by
  unfold finish
  split
  · rfl
  · exact produce_kept _ _ s

@[simp] theorem finishCtx_kept (j st gen ctx : Nat) (r : List Word) (s : State) : kept (finishCtx j st gen ctx r s) = kept s := by
  unfold finishCtx
  split
  · rfl
  · exact produce_kept _ _ s

@[simp] theorem interim_kept (j st gen : Nat) (s : State) : kept (interim j st gen s) = kept s := by
  unfold interim
  split
  · rfl
  · exact produce_kept _ _ s

@[simp] theorem writeImage_kept (j addr len : Nat) (l : List (List Byte)) (b : Bool) (s : State) : kept (writeImage j addr len l b s) = kept s :=
  (finish_kept _ _ _ _).trans rfl

@[simp] theorem beginCmd_link (e : JEntry) (s : State) : (beginCmd e s).link = s.link := rfl
@[simp] theorem beginCmd_hostMem (e : JEntry) (s : State) : (beginCmd e s).hostMem = s.hostMem := rfl
@[simp] theorem beginCmd_pcie (e : JEntry) (s : State) : (beginCmd e s).pcie = s.pcie := rfl

/-! ### What interrupts, trace events and trips change -/

/-- INTA moves its own level and the tick of its last release. -/
theorem inta_shape (s : State) : ∃ a d, inta s = { s with pcie := { s.pcie with asserted := a, deassertAt := d } } := by
  unfold inta
  repeat' split
  all_goals exact ⟨_, _, rfl⟩

/-- A cause sets its bit and may move INTA. -/
theorem setCause_shape (k : Nat) (s : State) :
    ∃ r a d, setCause k s = { s with pcie := { s.pcie with cause := s.pcie.cause ||| w32 (2 ^ k), recent := r, asserted := a, deassertAt := d } } := by
  obtain ⟨a, d, h⟩ := inta_shape { s with pcie := { s.pcie with cause := s.pcie.cause ||| w32 (2 ^ k), recent := (s.now, recentCauses s ||| w32 (2 ^ k)) } }
  exact ⟨_, a, d, h⟩

/-- Both branches have a property. -/
theorem of_ite {P : State → Prop} {c : Prop} [Decidable c] {a b : State} (ha : P a) (hb : P b) : P (if c then a else b) := by
  split <;> assumption

/-- A trace event changes the trace buffers, and INTA with its causes where it tells of losses. -/
theorem emit_shape (kind src ctx niche don band a0 a1 : Nat) (s : State) : ∃ b l c r a d, emit kind src ctx niche don band a0 a1 s =
    { s with obs := { s.obs with bufs := b, lost := l }, pcie := { s.pcie with cause := c, recent := r, asserted := a, deassertAt := d } } := by
  let P : State → Prop := fun t => ∃ b l c r a d, t =
    { s with obs := { s.obs with bufs := b, lost := l }, pcie := { s.pcie with cause := c, recent := r, asserted := a, deassertAt := d } }
  have h : P (emit kind src ctx niche don band a0 a1 s) := by
    unfold emit
    refine of_ite ⟨_, _, _, _, _, _, rfl⟩ (of_ite ⟨_, _, _, _, _, _, rfl⟩ (of_ite ⟨_, _, _, _, _, _, rfl⟩ ?_))
    obtain ⟨r, a, d, h⟩ := setCause_shape 21 { s with obs := { s.obs with bufs := _, lost := _ } }
    exact ⟨_, _, _, r, a, d, h⟩
  exact h

/-- A change of the safety state changes nothing else but INTA with its causes. -/
theorem setSafety_shape (f : Safety) (s : State) :
    ∃ c r a d, setSafety f s = { s with safety := f, pcie := { s.pcie with cause := c, recent := r, asserted := a, deassertAt := d } } := by
  unfold setSafety
  dsimp only
  by_cases h : f.word = s.safety.word
  · rw [if_pos h]
    exact ⟨_, _, _, _, rfl⟩
  · rw [if_neg h]
    obtain ⟨r, a, d, k⟩ := setCause_shape 17 { s with safety := f }
    exact ⟨_, r, a, d, k⟩

/-- A detected cause changes the safety state, INTA with its causes, and the freeze trigger. -/
theorem detect_shape (n : Nat) (s : State) : ∃ f c r a d x y z, detect n s =
    { s with safety := f, pcie := { s.pcie with cause := c, recent := r, asserted := a, deassertAt := d }, obs := { s.obs with sources := x, trigger := y, tickTrig := z } } := by
  unfold detect
  dsimp only
  split
  · generalize ({ s.safety with state := 2, causes := _, first := _, tripTick := _, trips := _, safeN := false } : Safety) = f
    obtain ⟨c, r, a, d, h⟩ := setSafety_shape f s
    rw [h]
    exact ⟨_, _, _, _, _, _, _, _, rfl⟩
  · generalize ({ s.safety with causes := _, first := _ } : Safety) = f
    obtain ⟨c, r, a, d, h⟩ := setSafety_shape f s
    rw [h]
    exact ⟨_, _, _, _, _, _, _, _, rfl⟩
  · exact ⟨_, _, _, _, _, _, _, _, rfl⟩

/-! ### Commands -/

/-- The command at `j` may begin and passes the checks that come before its own parameters: its body runs. -/
theorem runCmd_body {j op : Nat} {s : State} {e : JEntry} (he : s.entry? j = some e) (hb : mayBegin s j op = true)
    (hc : staticCheck s.link.chip e = none) (body : JEntry → State → State) : runCmd j op s body = body e (beginCmd e s) := by
  simp only [runCmd, withCmd, hb, if_true, he, beginCmd_link, hc]

/-- A command that may not begin changes nothing. -/
theorem runCmd_waits {j op : Nat} {s : State} (hb : mayBegin s j op = false) (body : JEntry → State → State) : runCmd j op s body = s := by
  simp [runCmd, withCmd, hb]

/-- A command that fails those checks completes with their status. -/
theorem runCmd_rejects {j op st : Nat} {s : State} {e : JEntry} (he : s.entry? j = some e) (hb : mayBegin s j op = true)
    (hc : staticCheck s.link.chip e = some st) (body : JEntry → State → State) : runCmd j op s body = finish j st [] (beginCmd e s) := by
  simp only [runCmd, withCmd, hb, if_true, he, beginCmd_link, hc]

end Sys2Proof.Laws
end

