-- ==== Sys2Proof/Laws/SoundOps.lean ====
section
/-! SUPPORT. Every operation keeps a sound state sound, and leaves SAFE_n low where it is low: what completions, records, interrupts and journalling keep. One lemma per operation. -/

namespace Sys2Proof.Laws

open Sys2Proof Sys2Proof.Machine

/-- A sound state, with SAFE_n low unless `β`. -/
def good (β : Bool) (s : State) : Bool := sound s && (β || !s.safety.safeN)

/-- What `good` reads of a state. -/
def okV (β : Bool) (hm dc : Mem) (t st : Nat) (n : Bool) : Bool :=
  Memory.wf hm && Memory.wf dc && decide (t < 2 ^ 64) && decide (st ≤ 2) && (!n || decide (st = 1)) && (β || !n)

theorem good_okV (β : Bool) (s : State) : good β s = okV β s.hostMem s.dram.cells s.chip.tick s.safety.state s.safety.safeN := by
  simp [good, sound, memOk, clockOk, safetyOk, okV, Bool.and_assoc]

theorem good_mk (β : Bool) x0 x1 x2 x3 x4 x5 x6 x7 x8 x9 x10 x11 x12 x13 x14 x15 x16 x17 x18 x19 x20 x21 x22 x23 x24 x25 x26 x27 x28 x29 x30 x31 x32 x33 x34 :
    good β (State.mk x0 x1 x2 x3 x4 x5 x6 x7 x8 x9 x10 x11 x12 x13 x14 x15 x16 x17 x18 x19 x20 x21 x22 x23 x24 x25 x26 x27 x28 x29 x30 x31 x32 x33 x34) =
    okV β (State.mk x0 x1 x2 x3 x4 x5 x6 x7 x8 x9 x10 x11 x12 x13 x14 x15 x16 x17 x18 x19 x20 x21 x22 x23 x24 x25 x26 x27 x28 x29 x30 x31 x32 x33 x34).hostMem
      (State.mk x0 x1 x2 x3 x4 x5 x6 x7 x8 x9 x10 x11 x12 x13 x14 x15 x16 x17 x18 x19 x20 x21 x22 x23 x24 x25 x26 x27 x28 x29 x30 x31 x32 x33 x34).dram.cells
      (State.mk x0 x1 x2 x3 x4 x5 x6 x7 x8 x9 x10 x11 x12 x13 x14 x15 x16 x17 x18 x19 x20 x21 x22 x23 x24 x25 x26 x27 x28 x29 x30 x31 x32 x33 x34).chip.tick
      (State.mk x0 x1 x2 x3 x4 x5 x6 x7 x8 x9 x10 x11 x12 x13 x14 x15 x16 x17 x18 x19 x20 x21 x22 x23 x24 x25 x26 x27 x28 x29 x30 x31 x32 x33 x34).safety.state
      (State.mk x0 x1 x2 x3 x4 x5 x6 x7 x8 x9 x10 x11 x12 x13 x14 x15 x16 x17 x18 x19 x20 x21 x22 x23 x24 x25 x26 x27 x28 x29 x30 x31 x32 x33 x34).safety.safeN :=
  good_okV β _

theorem okV_of {β : Bool} (x : State) (h : good β x = true) :
    okV β x.hostMem x.dram.cells x.chip.tick x.safety.state x.safety.safeN = true := (good_okV β x) ▸ h

theorem good_iff (β : Bool) (s : State) : good β s = true ↔
    Memory.wf s.hostMem = true ∧ Memory.wf s.dram.cells = true ∧ s.chip.tick < 2 ^ 64 ∧ s.safety.state ≤ 2 ∧
    (s.safety.safeN = true → s.safety.state = 1 ∧ β = true) := by
  rw [good_okV]
  simp only [okV, Bool.and_eq_true, decide_eq_true_eq, Bool.or_eq_true, Bool.not_eq_true']
  constructor
  · rintro ⟨⟨⟨⟨⟨h1, h2⟩, h3⟩, h4⟩, h5⟩, h6⟩
    refine ⟨h1, h2, h3, h4, fun h => ?_⟩
    rw [h] at h5 h6
    simpa using And.intro h5 h6
  · rintro ⟨h1, h2, h3, h4, h5⟩
    refine ⟨⟨⟨⟨⟨h1, h2⟩, h3⟩, h4⟩, ?_⟩, ?_⟩ <;> cases e : s.safety.safeN <;> simp_all

theorem foldl_good {β : Bool} {α : Type} (l : List α) (f : State → α → State) (hf : ∀ s a, good β s = true → good β (f s a) = true) (s : State)
 (h : good β s = true) : good β (l.foldl f s) = true := by
  induction l generalizing s with
  | nil => exact h
  | cons a l ih => exact ih _ (hf s a h)

theorem forAll_good {β : Bool} {α : Type} (l : List α) (f : α → State → State) (hf : ∀ a s, good β s = true → good β (f a s) = true) (s : State)
 (h : good β s = true) : good β (forAll l f s) = true := foldl_good l _ (fun s a => hf a s) s h

theorem accrue_good {β : Bool} (n : Nat) (s : State) (h : good β s = true) : good β (accrue n s) = true := by
  rw [good_iff] at h ⊢
  exact ⟨h.1, h.2.1, Nat.mod_lt _ (by decide), h.2.2.2⟩

theorem hostWrite_good {β : Bool} (a : Nat) (bs : List Byte) (s : State) (h : good β s = true) : good β (hostWrite a bs s) = true := by
  rw [good_iff] at h ⊢
  exact ⟨wf_mwrite h.1 _ _, h.2⟩

theorem good_ite {β : Bool} {c : Prop} [Decidable c] {x y : State} (hx : good β x = true) (hy : good β y = true) :
    good β (if c then x else y) = true := by
  split <;> assumption

theorem cells_good {β : Bool} (x : State) (m : Mem) (bad : List Nat) (h : good β x = true) (hm : Memory.wf m = true) :
    good β { x with dram := { x.dram with cells := m, bad := bad } } = true := by
  rw [good_iff] at h ⊢
  exact ⟨h.1, hm, h.2.2⟩

theorem wf_storeLine {m : Mem} (h : Memory.wf m = true) (a : Nat) (l : List (Option Byte)) : Memory.wf (storeLine m a l) = true := by
  induction l generalizing m a with
  | nil => exact h
  | cons o l ih =>
    cases o with
    | none => exact ih h _
    | some b => exact ih (wf_mput h _ _) _

theorem wf_ite {c : Prop} [Decidable c] {x y : Mem} (hx : Memory.wf x = true) (hy : Memory.wf y = true) : Memory.wf (if c then x else y) = true := by
  split <;> assumption

theorem wf_storeWhere (p : Nat → Bool) {m : Mem} (h : Memory.wf m = true) (a : Nat) (l : List Byte) : Memory.wf (storeWhere p a l m) = true := by
  induction l generalizing m a with
  | nil => exact h
  | cons b l ih => exact ih (wf_ite (wf_mput h _ _) h) _

theorem wf_bar2Store (s : State) {m : Mem} (h : Memory.wf m = true) (a : Nat) (l : List Byte) : Memory.wf (bar2Store s a l m) = true :=
  wf_storeWhere _ h a l

theorem pcie_good {β : Bool} (s : State) (p : Pcie) (h : good β s = true) : good β { s with pcie := p } = true :=
  (good_iff β _).mpr ((good_iff β s).mp h)

theorem canonFrom_filter (p : Nat × Byte → Bool) {lo : Nat} {m : Mem} (h : canonFrom lo m = true) : canonFrom lo (m.filter p) = true := by
  induction m generalizing lo with
  | nil => rfl
  | cons e m ih =>
    obtain ⟨a, b⟩ := e
    simp only [canonFrom, Bool.and_eq_true, decide_eq_true_eq] at h
    rw [List.filter_cons]
    split
    · simp only [canonFrom, Bool.and_eq_true, decide_eq_true_eq]
      exact ⟨h.1, ih h.2⟩
    · exact canonFrom_mono (Nat.le_succ_of_le h.1.1) (ih h.2)

theorem wf_filter (p : Nat × Byte → Bool) {m : Mem} (h : Memory.wf m = true) : Memory.wf (m.filter p) = true := canonFrom_filter p h

theorem wf_regionWrite (l : List Alloc) (off : Nat) (bs : List Byte) {m : Mem} (h : Memory.wf m = true) : Memory.wf (regionWrite l off bs m) = true := by
  induction l generalizing off bs m with
  | nil => exact h
  | cons a as ih =>
    unfold regionWrite
    split
    · exact ih _ _ h
    · exact ih _ _ (wf_mwrite h _ _)

theorem wf_regionClear (l : List Alloc) {m : Mem} (h : Memory.wf m = true) : Memory.wf (regionClear l m) = true := wf_filter _ h

theorem dram_good {β : Bool} (s : State) (d : Dram) (h : good β s = true) (hm : Memory.wf d.cells = true) : good β { s with dram := d } = true := by
  rw [good_iff] at h ⊢
  exact ⟨h.1, hm, h.2.2⟩

theorem wf_initEcc (d : Dram) (h : Memory.wf d.cells = true) : Memory.wf (initEcc d).cells = true := by
  unfold initEcc
  exact wf_filter _ h

theorem initParts_cells (d : Dram) : (initParts d).cells = d.cells := by
  unfold initParts
  rfl

theorem wf_foldl {α : Type} (l : List α) (f : Mem → α → Mem) (hf : ∀ m a, Memory.wf m = true → Memory.wf (f m a) = true) {m : Mem}
 (h : Memory.wf m = true) : Memory.wf (l.foldl f m) = true := by
  induction l generalizing m with
  | nil => exact h
  | cons a l ih => exact ih (hf m a h)

theorem State_setQueue_good {β : Bool} (s : State) (q : Nat) (x : HostQueue) (h_s : good β s = true) : good β (State.setQueue s q x) = true := by
  unfold State.setQueue
  repeat' first | (with_reducible assumption) | (simp only [good_mk]; with_reducible refine okV_of _ ?_)

theorem State_setOring_good {β : Bool} (s : State) (o : Nat) (x : OutRing) (h_s : good β s = true) : good β (State.setOring s o x) = true := by
  unfold State.setOring
  repeat' first | (with_reducible assumption) | (simp only [good_mk]; with_reducible refine okV_of _ ?_)

theorem State_setStream_good {β : Bool} (s : State) (n : Nat) (x : Stream) (h_s : good β s = true) : good β (State.setStream s n x) = true := by
  unfold State.setStream
  repeat' first | (with_reducible assumption) | (simp only [good_mk]; with_reducible refine okV_of _ ?_)

theorem State_modStream_good {β : Bool} (s : State) (n : Nat) (f : Stream → Stream) (h_s : good β s = true) :
    good β (State.modStream s n f) = true := by
  unfold State.modStream
  repeat' first | (with_reducible assumption) | (with_reducible apply State_setStream_good)

theorem State_setSession_good {β : Bool} (s : State) (n : Nat) (x : Session) (h_s : good β s = true) : good β (State.setSession s n x) = true := by
  unfold State.setSession
  repeat' first | (with_reducible assumption) | (simp only [good_mk]; with_reducible refine okV_of _ ?_)

theorem State_modSession_good {β : Bool} (s : State) (n : Nat) (f : Session → Session) (h_s : good β s = true) :
    good β (State.modSession s n f) = true := by
  unfold State.modSession
  repeat' first | (with_reducible assumption) | (with_reducible apply State_setSession_good)

theorem State_setCore_good {β : Bool} (s : State) (c : Nat) (x : Core) (h_s : good β s = true) : good β (State.setCore s c x) = true := by
  unfold State.setCore
  repeat' first | (with_reducible assumption) | (simp only [good_mk]; with_reducible refine okV_of _ ?_)

theorem State_modCore_good {β : Bool} (s : State) (c : Nat) (f : Core → Core) (h_s : good β s = true) : good β (State.modCore s c f) = true := by
  unfold State.modCore
  repeat' first | (with_reducible assumption) | (with_reducible apply State_setCore_good)

theorem State_setPart_good {β : Bool} (s : State) (k : Nat) (x : Part) (h_s : good β s = true) : good β (State.setPart s k x) = true := by
  unfold State.setPart
  dsimp only
  repeat' first | (with_reducible assumption) | (simp only [good_mk]; with_reducible refine okV_of _ ?_)

theorem State_setChan_good {β : Bool} (s : State) (c : Nat) (k : Nat) (x : Chan) (h_s : good β s = true) :
    good β (State.setChan s c k x) = true := by
  unfold State.setChan
  dsimp only
  repeat' first | (with_reducible assumption) | (simp only [good_mk]; with_reducible refine okV_of _ ?_)

theorem count_good {β : Bool} (key : Nat) (k : Nat) (s : State) (h_s : good β s = true) : good β (count key k s) = true := by
  unfold count
  dsimp only
  repeat' first | (with_reducible assumption) | (simp only [good_mk]; with_reducible refine okV_of _ ?_)

theorem account_good {β : Bool} (cl : Nat) (f : Account → Account) (s : State) (h_s : good β s = true) : good β (account cl f s) = true := by
  unfold account
  dsimp only
  repeat' first | (with_reducible assumption) | (simp only [good_mk]; with_reducible refine okV_of _ ?_)

theorem inta_good {β : Bool} (s : State) (h_s : good β s = true) : good β (inta s) = true := by
  unfold inta
  dsimp only
  repeat' first | (with_reducible assumption) | (simp only [good_mk]; with_reducible refine okV_of _ ?_) | intro _ | split

theorem setCause_good {β : Bool} (k : Nat) (s : State) (h_s : good β s = true) : good β (setCause k s) = true := by
  unfold setCause
  dsimp only
  repeat' first | (with_reducible assumption) | (simp only [good_mk]; with_reducible refine okV_of _ ?_) | (with_reducible apply inta_good)

theorem emit_good {β : Bool} (kind : Nat) (src : Nat) (ctx : Nat) (niche : Nat) (don : Nat) (band : Nat) (a0 : Nat) (a1 : Nat) (s : State) (h_s :
    good β s = true) :
    good β (emit kind src ctx niche don band a0 a1 s) = true := by
  unfold emit
  dsimp only
  repeat' first
    | (with_reducible assumption) | (simp only [good_mk]; with_reducible refine okV_of _ ?_) | (with_reducible apply setCause_good) | intro _
    | split

theorem freezeTrigger_good {β : Bool} (k : Nat) (s : State) (h_s : good β s = true) : good β (freezeTrigger k s) = true := by
  unfold freezeTrigger
  dsimp only
  repeat' first | (with_reducible assumption) | (simp only [good_mk]; with_reducible refine okV_of _ ?_)

theorem tickOne_good {β : Bool} (s : State) (h_s : good β s = true) : good β (tickOne s) = true := by
  unfold tickOne
  dsimp only
  repeat' first
    | (with_reducible assumption) | (simp only [good_mk]; with_reducible refine okV_of _ ?_) | (with_reducible apply accrue_good)
    | (with_reducible apply emit_good) | intro _ | split

theorem advance_good {β : Bool} (n : Nat) (s : State) (h_s : good β s = true) : good β (advance n s) = true := by
  unfold advance
  dsimp only
  repeat' first
    | (with_reducible assumption) | (simp only [good_mk]; with_reducible refine okV_of _ ?_) | (with_reducible apply tickOne_good)
    | (with_reducible apply accrue_good) | intro _ | split

theorem advanceTo_good {β : Bool} (t : Nat) (s : State) (h_s : good β s = true) : good β (advanceTo t s) = true := by
  unfold advanceTo
  repeat' first | (with_reducible assumption) | (with_reducible apply advance_good)

theorem setSafety_good {β : Bool} (f : Safety) (s : State) (hf : f.state ≤ 2) (hn : f.safeN = true → f.state = 1 ∧ β = true) (h : good β s = true) :
    good β (setSafety f s) = true := by
  have k : good β { s with safety := f } = true := by
    rw [good_iff] at h ⊢
    exact ⟨h.1, h.2.1, h.2.2.1, hf, hn⟩
  unfold setSafety
  dsimp only
  split
  · exact k
  · exact setCause_good _ _ k

theorem detect_good {β : Bool} (n : Nat) (s : State) (h : good β s = true) : good β (detect n s) = true := by
  have hh := (good_iff β s).mp h
  unfold detect
  dsimp only
  split
  · exact freezeTrigger_good _ _ (setSafety_good _ _ (by simp) (by simp) h)
  · exact setSafety_good _ _ hh.2.2.2.1 hh.2.2.2.2 h
  · rw [good_iff]
    exact hh

theorem hostWords_good {β : Bool} (a : Nat) (ws : List Word) (s : State) (h_s : good β s = true) : good β (hostWords a ws s) = true := by
  unfold hostWords
  repeat' first | (with_reducible assumption) | (with_reducible apply hostWrite_good)

theorem modEntry_good {β : Bool} (j : Nat) (f : JEntry → JEntry) (s : State) (h_s : good β s = true) : good β (modEntry j f s) = true := by
  unfold modEntry
  repeat' first | (with_reducible assumption) | (simp only [good_mk]; with_reducible refine okV_of _ ?_)

theorem postHost_good {β : Bool} (q : Nat) (first : Bool) (irq : Bool) (c : Cpl) (s : State) (h_s : good β s = true) :
    good β (postHost q first irq c s) = true := by
  unfold postHost
  dsimp only
  repeat' first
    | (with_reducible assumption) | (with_reducible apply hostWords_good) | (with_reducible apply State_setQueue_good)
    | (with_reducible apply setCause_good) | intro _ | split

theorem postAll_good {β : Bool} (q : Nat) (irq : Bool) (k : Nat) (cs : List Cpl) (s : State) (h : good β s = true) :
    good β (postAll q irq k cs s) = true := by
  induction cs generalizing k s with
  | nil => exact h
  | cons c cs ih => exact ih _ _ (postHost_good _ _ _ _ s h)

theorem flushEntries_good {β : Bool} (q : Nat) (ok : Bool) (done l : List JEntry) (s : State) (h : good β s = true) :
    good β (flushEntries q ok done l s) = true := by
  induction l generalizing ok done s with
  | nil => exact (good_iff β _).mpr ((good_iff β s).mp h)
  | cons e es ih =>
    unfold flushEntries
    dsimp only
    repeat' first | assumption | (with_reducible apply ih) | (with_reducible apply account_good) | (with_reducible apply postAll_good) | split

theorem flush_good {β : Bool} (s : State) (h_s : good β s = true) : good β (flush s) = true := by
  unfold flush
  dsimp only
  repeat' first | (with_reducible assumption) | (with_reducible apply flushEntries_good) | intro _ | split

theorem State_setLport_good {β : Bool} (s : State) (p : Nat) (x : LPort) (h_s : good β s = true) : good β (State.setLport s p x) = true := by
  unfold State.setLport
  dsimp only
  repeat' first | (with_reducible assumption) | (simp only [good_mk]; with_reducible refine okV_of _ ?_)

theorem creditFree_good {β : Bool} (port : Nat) (k : Nat) (s : State) (h_s : good β s = true) : good β (creditFree port k s) = true := by
  unfold creditFree
  dsimp only
  repeat' first | (with_reducible assumption) | (with_reducible apply State_setLport_good)

theorem creditBack_good {β : Bool} (port : Nat) (p : LinkPkt) (s : State) (h_s : good β s = true) : good β (creditBack port p s) = true :=
  creditFree_good _ _ _ h_s

theorem sendAt_good {β : Bool} (port : Nat) (k : Nat) (s : State) (h_s : good β s = true) : good β (sendAt port k s) = true := by
  unfold sendAt
  dsimp only
  repeat' first
    | (with_reducible assumption) | (simp only [good_mk]; with_reducible refine okV_of _ ?_) | (with_reducible apply State_setLport_good)
    | (with_reducible apply creditFree_good) | intro _ | split

theorem drainPort_good {β : Bool} (n p : Nat) (s : State) (h : good β s = true) : good β (drainPort n p s) = true := by
  induction n generalizing s with
  | zero => exact h
  | succ n ih =>
    unfold drainPort
    repeat' first | assumption | (with_reducible apply ih) | (with_reducible apply sendAt_good) | split

theorem linkTx_good {β : Bool} (port : Nat) (from_ : Option (Nat × Nat)) (p : LinkPkt) (s : State) (h_s : good β s = true) :
    good β (linkTx port from_ p s) = true := by
  unfold linkTx
  dsimp only
  repeat' first | (with_reducible assumption) | (with_reducible apply drainPort_good) | (with_reducible apply State_setLport_good)

theorem sendControl_good {β : Bool} (dest : Nat) (type : Nat) (aux : Word) (aux2 : Word) (s : State) (h_s : good β s = true) :
    good β (sendControl dest type aux aux2 s) = true := by
  unfold sendControl
  repeat' first | (with_reducible assumption) | (with_reducible apply linkTx_good) | intro _ | split

theorem sendSeq_good {β : Bool} (dest : Nat) (cls : Nat) (type : Nat) (ctx : Nat) (gen : Nat) (aux : Word) (aux2 : Word) (data : List Word) (s : State) (h_s :
    good β s = true) :
    good β (sendSeq dest cls type ctx gen aux aux2 data s) = true := by
  unfold sendSeq
  dsimp only
  repeat' first
    | (with_reducible assumption) | (simp only [good_mk]; with_reducible refine okV_of _ ?_) | (with_reducible apply linkTx_good) | intro _
    | split

theorem sendCpl_good {β : Bool} (chip : Nat) (cls : Nat) (oj : Nat) (c : Cpl) (s : State) (h_s : good β s = true) :
    good β (sendCpl chip cls oj c s) = true := by
  unfold sendCpl
  repeat' first | (with_reducible assumption) | (with_reducible apply sendSeq_good)

theorem produce_good {β : Bool} (j : Nat) (c : Cpl) (s : State) (h_s : good β s = true) : good β (produce j c s) = true := by
  unfold produce
  dsimp only
  repeat' first
    | (with_reducible assumption) | (simp only [good_mk]; with_reducible refine okV_of _ ?_) | (with_reducible apply modEntry_good)
    | (with_reducible apply flush_good) | (with_reducible apply account_good) | (with_reducible apply sendCpl_good) | intro _ | split

theorem finish_good {β : Bool} (j : Nat) (status : Nat) (r : List Word) (s : State) (h_s : good β s = true) :
    good β (finish j status r s) = true := by
  unfold finish
  repeat' first | (with_reducible assumption) | (with_reducible apply produce_good) | intro _ | split

theorem finishCtx_good {β : Bool} (j : Nat) (status : Nat) (gen : Nat) (ctx : Nat) (r : List Word) (s : State) (h_s : good β s = true) :
    good β (finishCtx j status gen ctx r s) = true := by
  unfold finishCtx
  repeat' first | (with_reducible assumption) | (with_reducible apply produce_good) | intro _ | split

theorem interim_good {β : Bool} (j : Nat) (status : Nat) (gen : Nat) (s : State) (h_s : good β s = true) :
    good β (interim j status gen s) = true := by
  unfold interim
  repeat' first | (with_reducible assumption) | (with_reducible apply produce_good) | intro _ | split

theorem beginCmd_good {β : Bool} (e : JEntry) (s : State) (h_s : good β s = true) : good β (beginCmd e s) = true := by
  unfold beginCmd
  repeat' first | (with_reducible assumption) | (with_reducible apply account_good) | (with_reducible apply modEntry_good)

theorem withCmd_good {β : Bool} (j : Nat) (op : Nat) (s : State) (body : JEntry → State → State) (hbody : ∀ v0 v1, good β v1 = true → good β (body v0 v1) = true) (h_s :
    good β s = true) :
    good β (withCmd j op s body) = true := by
  unfold withCmd
  repeat' first | (with_reducible assumption) | (with_reducible apply beginCmd_good) | (with_reducible apply hbody) | intro _ | split

theorem ringWrite_good {β : Bool} (base : Nat) (size : Nat) (off : Nat) (bs : List Byte) (s : State) (h_s : good β s = true) :
    good β (ringWrite base size off bs s) = true := by
  unfold ringWrite
  dsimp only
  repeat' first | (with_reducible assumption) | (with_reducible apply hostWrite_good)

theorem tailWriteBack_good {β : Bool} (o : Nat) (s : State) (h_s : good β s = true) : good β (tailWriteBack o s) = true := by
  unfold tailWriteBack
  dsimp only
  repeat' first
    | (with_reducible assumption) | (with_reducible apply hostWords_good) | (with_reducible apply State_setOring_good)
    | (with_reducible apply emit_good) | (with_reducible apply setCause_good) | intro _ | split

theorem coalesce_good {β : Bool} (o : Nat) (s : State) (h_s : good β s = true) : good β (coalesce o s) = true := by
  unfold coalesce
  dsimp only
  repeat' first | (with_reducible assumption) | (with_reducible apply tailWriteBack_good) | intro _ | split

theorem beginHold_good {β : Bool} (o : Nat) (full : Bool) (s : State) (h_s : good β s = true) : good β (beginHold o full s) = true := by
  unfold beginHold
  dsimp only
  repeat' first
    | (with_reducible assumption) | (with_reducible apply setCause_good) | (with_reducible apply State_setOring_good)
    | (with_reducible apply detect_good) | intro _ | split

theorem placeRec_good {β : Bool} (o : Nat) (b : BuiltRec) (s : State) (h_s : good β s = true) : good β (placeRec o b s) = true := by
  unfold placeRec
  dsimp only
  repeat' first
    | (with_reducible assumption) | (with_reducible apply ringWrite_good) | (with_reducible apply State_setOring_good)
    | (with_reducible apply emit_good) | (with_reducible apply coalesce_good)

theorem putRec_good {β : Bool} (o : Nat) (b : BuiltRec) (s : State) (h_s : good β s = true) : good β (putRec o b s) = true := by
  unfold putRec
  dsimp only
  repeat' first
    | (with_reducible assumption) | (with_reducible apply placeRec_good) | (with_reducible apply beginHold_good)
    | (with_reducible apply State_setOring_good) | intro _ | split

theorem releaseHeld_good {β : Bool} (fuel o : Nat) (s : State) (h : good β s = true) : good β (releaseHeld fuel o s) = true := by
  induction fuel generalizing s with
  | zero => exact h
  | succ n ih =>
    unfold releaseHeld
    dsimp only
    repeat' first
      | assumption | (with_reducible apply ih) | (with_reducible apply placeRec_good) | (with_reducible apply setCause_good)
      | (with_reducible apply State_setOring_good) | split

theorem issueTo_good {β : Bool} (o : Nat) (last : Bool) (r : RecordReq) (s : State) (h_s : good β s = true) :
    good β (issueTo o last r s) = true := by
  unfold issueTo
  dsimp only
  repeat' first
    | (with_reducible assumption) | (with_reducible apply State_modSession_good) | (with_reducible apply State_modStream_good)
    | (with_reducible apply putRec_good) | intro _ | split

theorem streamEvent_good {β : Bool} (slot : Nat) (event : Nat) (status : Nat) (detail : Nat) (s : State) (h_s : good β s = true) :
    good β (streamEvent slot event status detail s) = true := by
  unfold streamEvent
  dsimp only
  repeat' first | (with_reducible assumption) | (with_reducible apply emit_good) | (with_reducible apply issueTo_good)

theorem runCmd_good {β : Bool} (j : Nat) (op : Nat) (s : State) (body : JEntry → State → State) (hbody : ∀ v0 v1, good β v1 = true → good β (body v0 v1) = true) (h_s :
    good β s = true) :
    good β (runCmd j op s body) = true := by
  unfold runCmd
  repeat' first
    | (with_reducible assumption) | (with_reducible apply withCmd_good) | (with_reducible apply finish_good) | (with_reducible apply hbody)
    | intro _ | split

theorem writeImage_good {β : Bool} (j : Nat) (addr : Nat) (len : Nat) (entries : List (List Byte)) (entriesResult : Bool) (s : State) (h_s :
    good β s = true) :
    good β (writeImage j addr len entries entriesResult s) = true := by
  unfold writeImage
  dsimp only
  repeat' first | (with_reducible assumption) | (with_reducible apply hostWrite_good) | (with_reducible apply finish_good)

theorem takePcie_good {β : Bool} (n : Nat) (s : State) (h_s : good β s = true) : good β (takePcie n s) = true := by
  unfold takePcie
  dsimp only
  repeat' first | (with_reducible assumption) | (simp only [good_mk]; with_reducible refine okV_of _ ?_) | (with_reducible apply advance_good)

theorem takeDram_good {β : Bool} (n : Nat) (s : State) (h_s : good β s = true) : good β (takeDram n s) = true := by
  unfold takeDram
  dsimp only
  repeat' first | (with_reducible assumption) | (simp only [good_mk]; with_reducible refine okV_of _ ?_) | (with_reducible apply advance_good)

theorem countCe_good {β : Bool} (a : Nat) (s : State) (h_s : good β s = true) : good β (countCe a s) = true := by
  unfold countCe
  dsimp only
  repeat' first | (with_reducible assumption) | (with_reducible apply State_setChan_good)

theorem countUe_good {β : Bool} (a : Nat) (s : State) (h_s : good β s = true) : good β (countUe a s) = true := by
  unfold countUe
  dsimp only
  repeat' first | (with_reducible assumption) | (with_reducible apply State_setChan_good)

theorem countRepair_good {β : Bool} (a : Nat) (s : State) (h_s : good β s = true) : good β (countRepair a s) = true := by
  unfold countRepair
  dsimp only
  repeat' first | (with_reducible assumption) | (with_reducible apply State_setChan_good)

theorem eccRead_good {β : Bool} (a : Nat) (c : EccCond) (serves : Bool) (s : State) (h : good β s = true) : good β (eccRead a c serves s) = true := by
  have hb : good β { s with dram := { s.dram with bad := (a / 32) :: s.dram.bad.filter (fun x => x ≠ a / 32) } } = true := (good_iff β _).mpr ((good_iff β s).mp h)
  unfold eccRead
  refine good_ite h ?_
  cases c with
  | clean => exact h
  | single => exact countCe_good _ _ h
  | double => exact good_ite (detect_good _ _ (countUe_good _ _ hb)) (countUe_good _ _ hb)

theorem mirrorUe_good {β : Bool} (b : Bool) (a : Nat) (s : State) (h_s : good β s = true) : good β (mirrorUe b a s) = true := by
  unfold mirrorUe
  dsimp only
  repeat' first
    | (with_reducible assumption) | (simp only [good_mk]; with_reducible refine okV_of _ ?_) | (with_reducible apply countUe_good)
    | (with_reducible apply countRepair_good) | intro _ | split

theorem takeBuf_good {β : Bool} {p : Nat} {ecc : Bool} {s t : State} {o : Option Alloc} (h : good β s = true) (e : takeBuf p ecc s = (o, t)) :
    good β t = true := by
  have hh := (good_iff β s).mp h
  unfold takeBuf at e
  dsimp only at e
  split at e
  · cases e
    exact (good_iff β _).mpr hh
  · cases e
    exact (good_iff β _).mpr hh

theorem clearValid_good (a : Nat) (d : Dram) (h : Memory.wf d.cells = true) : Memory.wf (clearValid a d).cells = true := by
  unfold clearValid
  split
  · exact wf_mput h _ _
  · exact h

theorem freeBuf_good {β : Bool} (a : Alloc) (s : State) (h : good β s = true) : good β (freeBuf a s) = true := by
  have hs := State_setPart_good s (partKey a.pool a.ecc) ((s.part (partKey a.pool a.ecc)).give
    ((a.addr - partBase s.dram a.pool a.ecc) / partStride a.pool a.ecc)) h
  exact dram_good _ _ hs (clearValid_good _ _ ((good_iff β _).mp hs).2.1)

theorem takePlan_good {β : Bool} {ecc : Bool} {l : List Nat} {got : List Alloc} {s t : State} {o : Option (List Alloc)} (h : good β s = true)
    (e : takePlan ecc l got s = (o, t)) : good β t = true := by
  induction l generalizing got s with
  | nil => cases e; exact h
  | cons p ps ih =>
    unfold takePlan at e
    split at e
    · exact ih (takeBuf_good h ‹_›) e
    · cases e
      exact forAll_good _ _ (fun a s k => freeBuf_good _ _ k) _ (takeBuf_good h ‹_›)

theorem takeRun_good {β : Bool} {n : Nat} {s t : State} {o : Option Alloc} (h : good β s = true) (e : takeRun n s = (o, t)) : good β t = true := by
  have hh := (good_iff β s).mp h
  unfold takeRun at e
  dsimp only at e
  split at e
  · cases e; exact h
  · cases e
    exact (good_iff β _).mpr hh

theorem freeRun_good {β : Bool} (a : Alloc) (s : State) (h_s : good β s = true) : good β (freeRun a s) = true := by
  unfold freeRun
  dsimp only
  repeat' first | (with_reducible assumption) | (simp only [good_mk]; with_reducible refine okV_of _ ?_)

theorem release_good {β : Bool} (a : Alloc) (s : State) (h_s : good β s = true) : good β (release a s) = true := by
  unfold release
  dsimp only
  repeat' first
    | (with_reducible assumption) | (simp only [good_mk]; with_reducible refine okV_of _ ?_) | (with_reducible apply freeRun_good)
    | (with_reducible apply freeBuf_good) | (with_reducible apply detect_good) | (with_reducible apply State_setPart_good) | intro _ | split

theorem allocPool_good {β : Bool} {ecc : Bool} {n : Nat} {s t : State} {o : Option (List Alloc)} (h :
    good β s = true) (e : allocPool ecc n s = (o, t)) :
    good β t = true := takePlan_good h e

theorem allocAll_good {β : Bool} {safety ecc : Bool} {l : List Nat} {got : List (List Alloc)} {s t : State} {o : Option (List (List Alloc))}
 (h : good β s = true) (e : allocAll safety ecc l got s = (o, t)) : good β t = true := by
  induction l generalizing got s with
  | nil => cases e; exact h
  | cons n ns ih =>
    have hr : ∀ {o : Option (List Alloc)} {t : State}, (if safety then (match takeRun n s with | (some a, s) => (some [a], s) | (none, s) => (none, s))
             else allocPool ecc n s) = (o, t) → good β t = true := by
      intro o t e
      split at e
      · split at e <;> (cases e; exact takeRun_good h ‹_›)
      · exact allocPool_good h e
    unfold allocAll at e
    dsimp only at e
    split at e
    · exact ih (hr ‹_›) e
    · cases e
      exact forAll_good _ _ (fun a s k => release_good _ _ k) _ (hr ‹_›)

theorem allocAll_snd_good {β : Bool} (safety ecc : Bool) (l : List Nat) (got : List (List Alloc)) (s : State) (h : good β s = true) :
    good β (allocAll safety ecc l got s).2 = true := allocAll_good h rfl

theorem setRfm_good {β : Bool} (n : Nat) (s : State) (h_s : good β s = true) : good β (setRfm n s) = true := by
  unfold setRfm
  dsimp only
  repeat' first | (with_reducible assumption) | (simp only [good_mk]; with_reducible refine okV_of _ ?_) | intro _ | split

theorem repartition_good {β : Bool} (sh : List (Nat × Nat)) (m : Nat) (s : State) (h : good β s = true) : good β (repartition sh m s) = true := by
  unfold repartition
  exact dram_good _ _ h (wf_initEcc _ (by rw [initParts_cells]; exact ((good_iff β s).mp h).2.1))

theorem doPoolConfig_good {β : Bool} (j : Nat) (s : State) (h_s : good β s = true) : good β (doPoolConfig j s) = true := by
  unfold doPoolConfig
  dsimp only
  repeat' first
    | (with_reducible assumption) | (with_reducible apply runCmd_good) | (with_reducible apply finish_good) | (with_reducible apply setRfm_good)
    | (with_reducible apply repartition_good) | intro _ | split

theorem doPoolStatus_good {β : Bool} (j : Nat) (s : State) (h_s : good β s = true) : good β (doPoolStatus j s) = true := by
  unfold doPoolStatus
  dsimp only
  repeat' first
    | (with_reducible assumption) | (simp only [good_mk]; with_reducible refine okV_of _ ?_) | (with_reducible apply runCmd_good)
    | (with_reducible apply writeImage_good) | intro _

theorem doPoolRefill_good {β : Bool} (k : Nat) (bad : Option Nat) (s : State) (h_s : good β s = true) : good β (doPoolRefill k bad s) = true := by
  unfold doPoolRefill
  dsimp only
  repeat' first | (with_reducible assumption) | (with_reducible apply eccRead_good) | (with_reducible apply State_setPart_good) | intro _ | split

theorem doRefcountIncrement_good {β : Bool} (addr : Nat) (s : State) (h : good β s = true) : good β (doRefcountIncrement addr s) = true := by
  have h0 := (good_iff β s).mp h
  unfold doRefcountIncrement
  cases tfind s.dram.refs addr with
  | none => exact h
  | some n =>
    refine good_ite ?_ (dram_good s _ h h0.2.1)
    cases partitionAt s.dram addr with
    | none => exact h
    | some pe => exact dram_good _ _ (State_setPart_good s _ _ h) h0.2.1

theorem releaseShare_good {β : Bool} (addr : Nat) (s : State) (h : good β s = true) : good β (releaseShare addr s) = true := by
  have h0 := ((good_iff β s).mp h).2.1
  have hr (a : Alloc) : good β (release a { s with dram := dropReader addr s.dram }) = true := by
    refine release_good _ _ (dram_good _ _ h ?_)
    unfold dropReader
    exact h0
  unfold releaseShare
  generalize partitionAt s.dram addr = o
  cases o with
  | none => exact h
  | some pe => exact good_ite h (hr _)

theorem State_setChanQ_good {β : Bool} (s : State) (ch : Nat) (q : ChanQ) (h_s : good β s = true) : good β (State.setChanQ s ch q) = true := by
  unfold State.setChanQ
  dsimp only
  repeat' first | (with_reducible assumption) | (simp only [good_mk]; with_reducible refine okV_of _ ?_)

theorem queueRead_good {β : Bool} (line : Nat) (lc : Bool) (s : State) (ch : Nat) (h_s : good β s = true) :
    good β (queueRead line lc s ch) = true := by
  unfold queueRead
  dsimp only
  repeat' first | (with_reducible assumption) | (with_reducible apply State_setChanQ_good) | intro _ | split

theorem queueWrite_good {β : Bool} (line : Nat) (lc : Bool) (bs : List (Option Byte)) (s : State) (ch : Nat) (h : good β s = true) :
    good β (queueWrite line lc bs s ch) = true := by
  unfold queueWrite
  refine good_ite h ?_
  exact dram_good _ _ (State_setChanQ_good _ _ _ h) (wf_storeLine ((good_iff β s).mp h).2.1 _ _)

theorem manageRow_good {β : Bool} (ch : Nat) (bank : Nat) (s : State) (h_s : good β s = true) : good β (manageRow ch bank s) = true := by
  unfold manageRow
  dsimp only
  repeat' first
    | (with_reducible assumption) | (with_reducible apply State_setChan_good) | (with_reducible apply State_setChanQ_good) | intro _ | split

theorem activateRow_good {β : Bool} (ch : Nat) (row : Nat) (lastRow : Bool) (s : State) (h_s : good β s = true) :
    good β (activateRow ch row lastRow s) = true := by
  unfold activateRow
  dsimp only
  repeat' first
    | (with_reducible assumption) | (simp only [good_mk]; with_reducible refine okV_of _ ?_) | (with_reducible apply State_setChan_good)
    | intro _ | split

theorem openRowOf_good {β : Bool} (ch : Nat) (act : Option (Nat × Nat × Bool)) (s : State) (h_s : good β s = true) :
    good β (openRowOf ch act s) = true := by
  unfold openRowOf
  dsimp only
  repeat' first
    | (with_reducible assumption) | (with_reducible apply manageRow_good) | (with_reducible apply activateRow_good)
    | (with_reducible apply State_setChanQ_good) | intro _ | split

theorem serveRead_good {β : Bool} (ch : Nat) (r : DramReq) (ecc : EccCond × EccCond) (sn : Bool) (s : State) (h_s : good β s = true) :
    good β (serveRead ch r ecc sn s) = true := by
  unfold serveRead
  dsimp only
  repeat' first
    | (with_reducible assumption) | (with_reducible apply forAll_good) | (with_reducible apply eccRead_good)
    | (with_reducible apply State_setChanQ_good) | intro _

end Sys2Proof.Laws
end

