-- ==== Sys2Proof/Laws/SoundHost.lean ====
section
/-! SUPPORT. Every operation keeps a sound state sound, and leaves SAFE_n low where it is low: pools, links, the endpoint, safety and pins. One lemma per operation. -/

namespace Sys2Proof.Laws

open Sys2Proof Sys2Proof.Machine

theorem serveWrite_good {β : Bool} (r : DramReq) (ecc : EccCond × EccCond) (sn : Bool) (s : State) (h_s : good β s = true) :
    good β (serveWrite r ecc sn s) = true := by
  unfold serveWrite
  dsimp only
  repeat' first
    | (with_reducible assumption) | (simp only [good_mk]; with_reducible refine okV_of _ ?_) | (with_reducible apply forAll_good)
    | (with_reducible apply eccRead_good) | intro _

theorem serveReq_good {β : Bool} (ch : Nat) (pick : Nat) (ecc : EccCond × EccCond) (act : Option (Nat × Nat × Bool)) (sn : Bool) (s : State) (h_s : good β s = true) :
    good β (serveReq ch pick ecc act sn s) = true := by
  unfold serveReq
  dsimp only
  repeat' first
    | (with_reducible assumption) | (with_reducible apply State_setChanQ_good) | (with_reducible apply openRowOf_good)
    | (with_reducible apply serveRead_good) | (with_reducible apply serveWrite_good) | intro _ | split

theorem doDramRequest_good {β : Bool} (ch : Nat) (a : DramAction) (s : State) (h_s : good β s = true) : good β (doDramRequest ch a s) = true := by
  unfold doDramRequest
  repeat' first
    | (with_reducible assumption) | (with_reducible apply queueRead_good) | (with_reducible apply queueWrite_good)
    | (with_reducible apply serveReq_good) | intro _ | split

theorem doPatrolScrub_good {β : Bool} (sector : Nat) (c : EccCond) (s : State) (h : good β s = true) : good β (doPatrolScrub sector c s) = true := by
  have key (a : Nat) (e : EccCond) (o : Option Bool) : good β (o.elim (eccRead a e false s) (fun b => mirrorUe b a s)) = true := by
    cases o with
    | none =>
      rw [Option.elim_none]
      exact eccRead_good _ _ _ _ h
    | some b =>
      rw [Option.elim_some]
      exact mirrorUe_good _ _ _ h
  exact key _ _ _

theorem doDriftCheck_good {β : Bool} (ch : Nat) (rank : Nat) (rd : Int) (wr : Int) (s : State) (h_s : good β s = true) :
    good β (doDriftCheck ch rank rd wr s) = true := by
  unfold doDriftCheck
  dsimp only
  repeat' first | (with_reducible assumption) | (with_reducible apply State_setChan_good) | intro _ | split

theorem applyDrift_good {β : Bool} (ch : Nat) (rank : Nat) (s : State) (h_s : good β s = true) : good β (applyDrift ch rank s) = true := by
  unfold applyDrift
  dsimp only
  repeat' first | (with_reducible assumption) | (with_reducible apply State_setChan_good) | intro _ | split

theorem doAllBankRefresh_good {β : Bool} (ch : Nat) (s : State) (h_s : good β s = true) : good β (doAllBankRefresh ch s) = true := by
  unfold doAllBankRefresh
  dsimp only
  repeat' first | (with_reducible assumption) | (with_reducible apply applyDrift_good) | (with_reducible apply State_setChanQ_good)

theorem inOrder_good {β : Bool} (place : Fin 6) (s : State) (h_s : good β s = true) : good β (inOrder place s) = true := by
  unfold inOrder
  dsimp only
  repeat' first
    | (with_reducible assumption) | (simp only [good_mk]; with_reducible refine okV_of _ ?_) | (with_reducible apply advance_good) | intro _
    | split

theorem maintenance_good {β : Bool} (pkt : List Word) (s : State) (body : JEntry → State → Nat × List Word × State)
 (hb : ∀ e s, good β s = true → good β (body e s).2.2 = true) (h : good β s = true) : good β (maintenance pkt s body) = true := by
  have hh := (good_iff β _).mp (inOrder_good 5 s h)
  unfold maintenance
  refine good_ite h ?_
  exact account_good _ _ _ ((good_iff β _).mpr ((good_iff β _).mp (hb _ _ ((good_iff β { inOrder 5 s with jpos := (inOrder 5 s).jpos + 1, mntAsn := (inOrder 5 s).mntAsn + 1 }).mpr hh))))

theorem doDramTrainStep_good {β : Bool} (pkt : List Word) (sw : Sweep) (s : State) (h_s : good β s = true) :
    good β (doDramTrainStep pkt sw s) = true := by
  unfold doDramTrainStep
  dsimp only
  repeat' first
    | (with_reducible assumption) | (simp only [good_mk]; with_reducible refine okV_of _ ?_) | (with_reducible apply maintenance_good)
    | (with_reducible apply State_setChan_good) | (with_reducible apply foldl_good) | intro _ | split

theorem dramWrite_good {β : Bool} (a : Nat) (bs : List Byte) (s : State) (h : good β s = true) : good β (dramWrite a bs s) = true := by
  have hh := (good_iff β s).mp h
  exact (good_iff β _).mpr ⟨hh.1, wf_mwrite hh.2.1 _ _, hh.2.2⟩

theorem writeHeaders_good {β : Bool} (n : Nat) (s : State) (h : good β s = true) : good β (writeHeaders n s) = true := by
  have hh := (good_iff β s).mp h
  exact (good_iff β _).mpr ⟨hh.1, wf_regionWrite _ _ _ hh.2.1, hh.2.2⟩

theorem dropPages_good {β : Bool} (n : Nat) (s : State) (h_s : good β s = true) : good β (dropPages n s) = true := by
  unfold dropPages
  dsimp only
  repeat' first
    | (with_reducible assumption) | (simp only [good_mk]; with_reducible refine okV_of _ ?_) | (with_reducible apply forAll_good)
    | (with_reducible apply release_good) | (with_reducible apply State_modSession_good)

theorem rejectClose_good {β : Bool} (j : Nat) (st : Nat) (n : Bool × Nat) (s : State) (h_s : good β s = true) :
    good β (rejectClose j st n s) = true := by
  unfold rejectClose
  dsimp only
  repeat' first
    | (with_reducible assumption) | (with_reducible apply finish_good) | (with_reducible apply State_modSession_good)
    | (with_reducible apply State_modStream_good) | intro _ | split

theorem setDeferred_good {β : Bool} (n : Bool × Nat) (j : Nat) (s : State) (h_s : good β s = true) : good β (setDeferred n j s) = true := by
  unfold setDeferred
  repeat' first
    | (with_reducible assumption) | (with_reducible apply State_modSession_good) | (with_reducible apply State_modStream_good) | intro _ | split

theorem journalWrite_good {β : Bool} (e : JEntry) (s : State) (h_s : good β s = true) : good β (journalWrite e s) = true := by
  unfold journalWrite
  repeat' first | (with_reducible assumption) | (simp only [good_mk]; with_reducible refine okV_of _ ?_)

theorem journalAct_good {β : Bool} (act : Early) (e : JEntry) (s : State) (h_s : good β s = true) : good β (journalAct act e s) = true := by
  unfold journalAct
  repeat' first
    | (with_reducible assumption) | (with_reducible apply finish_good) | (with_reducible apply interim_good)
    | (with_reducible apply setDeferred_good) | (with_reducible apply modEntry_good) | intro _ | split

theorem journalEntry_good {β : Bool} (e : JEntry) (s : State) (h_s : good β s = true) : good β (journalEntry e s) = true := by
  unfold journalEntry
  repeat' first | (with_reducible assumption) | (with_reducible apply journalAct_good) | (with_reducible apply journalWrite_good)

theorem headWriteBack_good {β : Bool} (q : Nat) (units : Nat) (asn : Word) (ok : Bool) (s : State) (h_s : good β s = true) :
    good β (headWriteBack q units asn ok s) = true := by
  unfold headWriteBack
  dsimp only
  repeat' first | (with_reducible assumption) | (with_reducible apply State_setQueue_good) | (with_reducible apply hostWords_good)

theorem acceptHost_good {β : Bool} (q : Nat) (words : List Word) (data : List Byte) (ok : Bool) (s : State) (h_s : good β s = true) :
    good β (acceptHost q words data ok s) = true := by
  unfold acceptHost
  dsimp only
  repeat' first
    | (with_reducible assumption) | (with_reducible apply inOrder_good) | (with_reducible apply journalAct_good)
    | (with_reducible apply headWriteBack_good) | (with_reducible apply journalWrite_good)

theorem acceptAll_good {β : Bool} (q : Nat) (l : List SlotRead) (s : State) (h : good β s = true) : good β (acceptAll q l s) = true := by
  induction l generalizing s with
  | nil => exact h
  | cons r rs ih => exact good_ite (ih _ (acceptHost_good _ _ _ _ _ h)) h

theorem doCommandAccept_good {β : Bool} (r0 : List SlotRead) (r1 : List SlotRead) (s : State) (h_s : good β s = true) :
    good β (doCommandAccept r0 r1 s) = true := by
  unfold doCommandAccept
  repeat' first | (with_reducible assumption) | (with_reducible apply acceptAll_good)

theorem doNop_good {β : Bool} (j : Nat) (s : State) (h_s : good β s = true) : good β (doNop j s) = true := by
  unfold doNop
  repeat' first | (with_reducible assumption) | (with_reducible apply runCmd_good) | (with_reducible apply finish_good) | intro _

theorem doFence_good {β : Bool} (j : Nat) (s : State) (h_s : good β s = true) : good β (doFence j s) = true := by
  unfold doFence
  repeat' first | (with_reducible assumption) | (with_reducible apply runCmd_good) | (with_reducible apply finish_good) | intro _ | split

theorem doForeign_good {β : Bool} (j : Nat) (s : State) (h_s : good β s = true) : good β (doForeign j s) = true := by
  unfold doForeign
  repeat' first | (with_reducible assumption) | (with_reducible apply withCmd_good) | (with_reducible apply finish_good) | intro _ | split

theorem doMaintenanceForeign_good {β : Bool} (pkt : List Word) (s : State) (h_s : good β s = true) : good β (doMaintenanceForeign pkt s) = true := by
  unfold doMaintenanceForeign
  dsimp only
  repeat' first | (with_reducible assumption) | (with_reducible apply maintenance_good) | intro _ | split

theorem setPort_good {β : Bool} (p : Nat) (x : LPort) (s : State) (h_s : good β s = true) : good β (setPort p x s) = true := by
  unfold setPort
  dsimp only
  repeat' first | (with_reducible assumption) | (with_reducible apply State_setLport_good) | (with_reducible apply setCause_good) | intro _ | split

theorem forward_good {β : Bool} (port : Nat) (pk : LinkPkt) (s : State) (h_s : good β s = true) : good β (forward port pk s) = true := by
  unfold forward
  dsimp only
  repeat' first
    | (with_reducible assumption) | (with_reducible apply count_good) | (with_reducible apply creditBack_good)
    | (with_reducible apply linkTx_good) | intro _ | split

theorem sendOn_good {β : Bool} (pk : LinkPkt) (s : State) (h_s : good β s = true) : good β (sendOn pk s) = true := by
  unfold sendOn
  repeat' first | (with_reducible assumption) | (with_reducible apply linkTx_good) | intro _ | split

theorem requeue_good {β : Bool} (q : LinkPkt × Option (Nat × Nat)) (s : State) (h_s : good β s = true) : good β (requeue q s) = true := by
  unfold requeue
  dsimp only
  repeat' first | (with_reducible assumption) | (with_reducible apply sendOn_good) | (with_reducible apply forward_good) | intro _ | split

theorem portFault_good {β : Bool} (p : Nat) (s : State) (h_s : good β s = true) : good β (portFault p s) = true := by
  unfold portFault
  dsimp only
  repeat' first
    | (with_reducible assumption) | (simp only [good_mk]; with_reducible refine okV_of _ ?_) | (with_reducible apply count_good)
    | (with_reducible apply setPort_good) | (with_reducible apply forAll_good) | (with_reducible apply requeue_good)
    | (with_reducible apply foldl_good) | intro _ | split

theorem dropShadow_good {β : Bool} (n : Nat) (s : State) (h_s : good β s = true) : good β (dropShadow n s) = true := by
  unfold dropShadow
  dsimp only
  repeat' first | (with_reducible assumption) | (with_reducible apply dropPages_good) | (with_reducible apply State_setSession_good)

theorem closeShadows_good {β : Bool} (chip : Nat) (s : State) (h_s : good β s = true) : good β (closeShadows chip s) = true := by
  unfold closeShadows
  repeat' first | (with_reducible assumption) | (with_reducible apply forAll_good) | (with_reducible apply dropShadow_good) | intro _

theorem losePeer_good {β : Bool} (chip : Nat) (n : Nat) (s : State) (h_s : good β s = true) : good β (losePeer chip n s) = true := by
  unfold losePeer
  dsimp only
  repeat' first
    | (with_reducible assumption) | (simp only [good_mk]; with_reducible refine okV_of _ ?_) | (with_reducible apply State_modSession_good)
    | (with_reducible apply finish_good) | intro _ | split

theorem loseSpread_good {β : Bool} (chip : Nat) (s : State) (h_s : good β s = true) : good β (loseSpread chip s) = true := by
  unfold loseSpread
  repeat' first | (with_reducible assumption) | (with_reducible apply forAll_good) | (with_reducible apply losePeer_good)

theorem seeIncarnation_good {β : Bool} (chip : Nat) (inc : Word) (s : State) (h_s : good β s = true) :
    good β (seeIncarnation chip inc s) = true := by
  unfold seeIncarnation
  dsimp only
  repeat' first
    | (with_reducible assumption) | (simp only [good_mk]; with_reducible refine okV_of _ ?_) | (with_reducible apply forAll_good)
    | (with_reducible apply finish_good) | (with_reducible apply loseSpread_good) | (with_reducible apply closeShadows_good) | intro _ | split

theorem resendKept_good {β : Bool} (s : State) (h_s : good β s = true) : good β (resendKept s) = true := by
  unfold resendKept
  dsimp only
  repeat' first | (with_reducible assumption) | (with_reducible apply forAll_good) | (with_reducible apply sendCpl_good) | intro _ | split

theorem doTrainingComplete_good {β : Bool} (p : Nat) (r : TrainEnd) (s : State) (h_s : good β s = true) :
    good β (doTrainingComplete p r s) = true := by
  unfold doTrainingComplete
  dsimp only
  repeat' first
    | (with_reducible assumption) | (with_reducible apply setPort_good) | (with_reducible apply resendKept_good)
    | (with_reducible apply seeIncarnation_good) | intro _ | split

theorem doPortTrainRetry_good {β : Bool} (p : Nat) (s : State) (h_s : good β s = true) : good β (doPortTrainRetry p s) = true := by
  unfold doPortTrainRetry
  dsimp only
  repeat' first | (with_reducible assumption) | (with_reducible apply setPort_good) | intro _ | split

theorem doCodewordReceive_good {β : Bool} (p : Nat) (corrected : Bool) (ok : Bool) (credits : List Nat) (s : State) (h_s : good β s = true) :
    good β (doCodewordReceive p corrected ok credits s) = true := by
  unfold doCodewordReceive
  dsimp only
  repeat' first
    | (with_reducible assumption) | (with_reducible apply count_good) | (with_reducible apply drainPort_good)
    | (with_reducible apply setPort_good) | (with_reducible apply portFault_good) | intro _ | split

theorem crcGate_good {β : Bool} (port : Nat) (pk : LinkPkt) (s : State) (body : State → State) (hbody : ∀ v0, good β v0 = true → good β (body v0) = true) (h_s :
    good β s = true) :
    good β (crcGate port pk s body) = true := by
  unfold crcGate
  repeat' first
    | (with_reducible assumption) | (with_reducible apply count_good) | (with_reducible apply creditBack_good) | (with_reducible apply hbody)
    | intro _ | split

theorem doAckSend_good {β : Bool} (chip : Nat) (cls : Nat) (s : State) (h_s : good β s = true) : good β (doAckSend chip cls s) = true := by
  unfold doAckSend
  dsimp only
  repeat' first
    | (with_reducible assumption) | (simp only [good_mk]; with_reducible refine okV_of _ ?_) | (with_reducible apply linkTx_good) | intro _
    | split

theorem seqGate_good {β : Bool} (port : Nat) (pk : LinkPkt) (s : State) (body : State → State) (hbody : ∀ v0, good β v0 = true → good β (body v0) = true) (h_s :
    good β s = true) :
    good β (seqGate port pk s body) = true := by
  unfold seqGate
  dsimp only
  repeat' first
    | (with_reducible assumption) | (simp only [good_mk]; with_reducible refine okV_of _ ?_) | (with_reducible apply crcGate_good)
    | (with_reducible apply doAckSend_good) | (with_reducible apply hbody) | intro _ | split

theorem doCommand_good {β : Bool} (port : Nat) (pk : LinkPkt) (s : State) (h_s : good β s = true) : good β (doCommand port pk s) = true := by
  unfold doCommand
  dsimp only
  repeat' first
    | (with_reducible assumption) | (simp only [good_mk]; with_reducible refine okV_of _ ?_) | (with_reducible apply seqGate_good)
    | (with_reducible apply sendControl_good) | (with_reducible apply sendCpl_good) | (with_reducible apply inOrder_good)
    | (with_reducible apply journalEntry_good) | intro _ | split

theorem doAccept_good {β : Bool} (port : Nat) (pk : LinkPkt) (s : State) (h_s : good β s = true) : good β (doAccept port pk s) = true := by
  unfold doAccept
  repeat' first
    | (with_reducible assumption) | (with_reducible apply crcGate_good) | (with_reducible apply modEntry_good)
    | (with_reducible apply State_modSession_good) | intro _ | split

theorem answerColl_good {β : Bool} (chip : Nat) (pos : Word) (status : Nat) (pages : Nat) (s : State) (h_s : good β s = true) :
    good β (answerColl chip pos status pages s) = true := by
  unfold answerColl
  dsimp only
  repeat' first | (with_reducible assumption) | (with_reducible apply State_modSession_good) | intro _ | split

theorem doRefuse_good {β : Bool} (port : Nat) (pk : LinkPkt) (s : State) (h_s : good β s = true) : good β (doRefuse port pk s) = true := by
  unfold doRefuse
  repeat' first
    | (with_reducible assumption) | (with_reducible apply crcGate_good) | (with_reducible apply finish_good)
    | (with_reducible apply answerColl_good) | intro _ | split

theorem staleGate_good {β : Bool} (pk : LinkPkt) (s : State) (body : State → State) (hbody : ∀ v0, good β v0 = true → good β (body v0) = true) (h_s :
    good β s = true) :
    good β (staleGate pk s body) = true := by
  unfold staleGate
  repeat' first | (with_reducible assumption) | (with_reducible apply sendControl_good) | (with_reducible apply hbody) | intro _ | split

theorem doCompletion_good {β : Bool} (port : Nat) (pk : LinkPkt) (s : State) (h_s : good β s = true) : good β (doCompletion port pk s) = true := by
  unfold doCompletion
  dsimp only
  repeat' first
    | (with_reducible assumption) | (with_reducible apply seqGate_good) | (with_reducible apply staleGate_good)
    | (with_reducible apply answerColl_good) | (with_reducible apply produce_good) | intro _ | split

theorem doScatter_good {β : Bool} (port : Nat) (pk : LinkPkt) (s : State) (h_s : good β s = true) : good β (doScatter port pk s) = true := by
  unfold doScatter
  dsimp only
  repeat' first
    | (with_reducible assumption) | (simp only [good_mk]; with_reducible refine okV_of _ ?_) | (with_reducible apply seqGate_good)
    | (with_reducible apply staleGate_good) | (with_reducible apply sendSeq_good) | intro _ | split

theorem scatterLayer_good {β : Bool} (n : Nat) (layer : Nat) (s : State) (h_s : good β s = true) : good β (scatterLayer n layer s) = true := by
  unfold scatterLayer
  dsimp only
  repeat' first
    | (with_reducible assumption) | (simp only [good_mk]; with_reducible refine okV_of _ ?_) | (with_reducible apply State_modSession_good)
    | (with_reducible apply forAll_good) | (with_reducible apply sendSeq_good) | intro _

theorem sendLayers_good {β : Bool} (n : Nat) (s : State) (h_s : good β s = true) : good β (sendLayers n s) = true := by
  unfold sendLayers
  dsimp only
  repeat' first
    | (with_reducible assumption) | (with_reducible apply State_modSession_good) | (with_reducible apply scatterLayer_good) | intro _ | split

theorem layersAgain_good {β : Bool} (hit : UnitId → Bool) (s : State) (h_s : good β s = true) : good β (layersAgain hit s) = true := by
  unfold layersAgain
  repeat' first | (with_reducible assumption) | (with_reducible apply forAll_good) | (with_reducible apply sendLayers_good)

theorem doGather_good {β : Bool} (port : Nat) (pk : LinkPkt) (s : State) (h_s : good β s = true) : good β (doGather port pk s) = true := by
  unfold doGather
  dsimp only
  repeat' first
    | (with_reducible assumption) | (with_reducible apply seqGate_good) | (with_reducible apply staleGate_good)
    | (with_reducible apply State_modSession_good) | (with_reducible apply scatterLayer_good) | intro _ | split

theorem doStale_good {β : Bool} (port : Nat) (pk : LinkPkt) (s : State) (h_s : good β s = true) : good β (doStale port pk s) = true := by
  unfold doStale
  repeat' first | (with_reducible assumption) | (with_reducible apply crcGate_good) | (with_reducible apply count_good) | intro _

theorem doAck_good {β : Bool} (port : Nat) (pk : LinkPkt) (s : State) (h_s : good β s = true) : good β (doAck port pk s) = true := by
  unfold doAck
  dsimp only
  repeat' first
    | (with_reducible assumption) | (simp only [good_mk]; with_reducible refine okV_of _ ?_) | (with_reducible apply crcGate_good)
    | (with_reducible apply seeIncarnation_good) | (with_reducible apply forAll_good) | (with_reducible apply sendOn_good) | intro _

theorem doFlrNotice_good {β : Bool} (port : Nat) (pk : LinkPkt) (s : State) (h_s : good β s = true) : good β (doFlrNotice port pk s) = true := by
  unfold doFlrNotice
  repeat' first
    | (with_reducible assumption) | (with_reducible apply count_good) | (with_reducible apply creditBack_good)
    | (with_reducible apply portFault_good) | (with_reducible apply closeShadows_good) | intro _ | split

theorem doLinkPacketForward_good {β : Bool} (port : Nat) (pk : LinkPkt) (s : State) (h_s : good β s = true) :
    good β (doLinkPacketForward port pk s) = true := by
  unfold doLinkPacketForward
  repeat' first | (with_reducible assumption) | (with_reducible apply forward_good) | intro _ | split

theorem pathFailure_good {β : Bool} (chip : Nat) (cls : Nat) (s : State) (h_s : good β s = true) : good β (pathFailure chip cls s) = true := by
  unfold pathFailure
  dsimp only
  repeat' first
    | (with_reducible assumption) | (simp only [good_mk]; with_reducible refine okV_of _ ?_) | (with_reducible apply forAll_good)
    | (with_reducible apply State_modSession_good) | (with_reducible apply finish_good) | intro _

theorem doRetransmit_good {β : Bool} (chip : Nat) (cls : Nat) (s : State) (h_s : good β s = true) : good β (doRetransmit chip cls s) = true := by
  unfold doRetransmit
  dsimp only
  repeat' first
    | (with_reducible assumption) | (simp only [good_mk]; with_reducible refine okV_of _ ?_) | (with_reducible apply pathFailure_good)
    | (with_reducible apply forAll_good) | (with_reducible apply sendOn_good) | intro _ | split

theorem configPort_good {β : Bool} (c : LinkWord) (p : Nat) (s : State) (h_s : good β s = true) : good β (configPort c p s) = true := by
  unfold configPort
  dsimp only
  repeat' first | (with_reducible assumption) | (with_reducible apply setPort_good) | (with_reducible apply portFault_good) | intro _ | split

theorem applyLink_good {β : Bool} (c : LinkWord) (s : State) (h_s : good β s = true) : good β (applyLink c s) = true := by
  unfold applyLink
  dsimp only
  repeat' first
    | (with_reducible assumption) | (simp only [good_mk]; with_reducible refine okV_of _ ?_) | (with_reducible apply forAll_good)
    | (with_reducible apply configPort_good)

theorem bringUp_good {β : Bool} (ports : List (Nat × TrainEnd)) (s : State) (h_s : good β s = true) : good β (bringUp ports s) = true := by
  unfold bringUp
  repeat' first | (with_reducible assumption) | (with_reducible apply forAll_good) | (with_reducible apply doTrainingComplete_good) | intro _ | split

theorem doLinkConfig_good {β : Bool} (j : Nat) (ups : List (Nat × TrainEnd)) (s : State) (h : good β s = true) :
    good β (doLinkConfig j ups s) = true := by
  refine runCmd_good _ _ _ _ (fun e t ht => ?_) h
  exact good_ite (finish_good _ _ _ _ ht) (good_ite (finish_good _ _ _ _ ht) (finish_good _ _ _ _ (bringUp_good _ _ (applyLink_good _ _ ht))))

theorem doRouteSet_good {β : Bool} (j : Nat) (s : State) (h_s : good β s = true) : good β (doRouteSet j s) = true := by
  unfold doRouteSet
  dsimp only
  repeat' first
    | (with_reducible assumption) | (simp only [good_mk]; with_reducible refine okV_of _ ?_) | (with_reducible apply runCmd_good)
    | (with_reducible apply resendKept_good) | (with_reducible apply finish_good) | intro _ | split

theorem linkBoot_good {β : Bool} (s : State) (h : good β s = true) : good β (linkBoot s) = true := by
  have k : ∀ c, good β (applyLink c s) = true := fun c => applyLink_good _ _ h
  unfold linkBoot
  dsimp only
  split
  · exact k _
  · exact good_ite ((good_iff β _).mpr ((good_iff β _).mp (k _))) (k _)

theorem forwardCmd_good {β : Bool} (e : JEntry) (s : State) (h_s : good β s = true) : good β (forwardCmd e s) = true := by
  unfold forwardCmd
  dsimp only
  repeat' first
    | (with_reducible assumption) | (with_reducible apply finish_good) | (with_reducible apply modEntry_good)
    | (with_reducible apply sendSeq_good) | intro _ | split

theorem uncorLog_good {β : Bool} (k : Nat) (header : List Word) (s : State) (h_s : good β s = true) : good β (uncorLog k header s) = true := by
  unfold uncorLog
  dsimp only
  repeat' first | (with_reducible assumption) | (simp only [good_mk]; with_reducible refine okV_of _ ?_) | intro _ | split

theorem corLog_good {β : Bool} (k : Nat) (s : State) (h_s : good β s = true) : good β (corLog k s) = true := by
  unfold corLog
  dsimp only
  repeat' first | (with_reducible assumption) | (simp only [good_mk]; with_reducible refine okV_of _ ?_)

theorem aerLog_good {β : Bool} (e : AerError) (header : List Word) (s : State) (h_s : good β s = true) : good β (aerLog e header s) = true := by
  unfold aerLog
  repeat' first | (with_reducible assumption) | (with_reducible apply corLog_good) | (with_reducible apply uncorLog_good) | intro _ | split

theorem barRefused_good {β : Bool} (s : State) (h_s : good β s = true) : good β (barRefused s) = true := by
  unfold barRefused
  dsimp only
  repeat' first | (with_reducible assumption) | (simp only [good_mk]; with_reducible refine okV_of _ ?_) | (with_reducible apply aerLog_good)

theorem barAccess_good {β : Bool} (s : State) (body : State → State) (hbody : ∀ v0, good β v0 = true → good β (body v0) = true) (h_s :
    good β s = true) :
    good β (barAccess s body) = true := by
  unfold barAccess
  repeat' first | (with_reducible assumption) | (with_reducible apply barRefused_good) | (with_reducible apply hbody) | intro _ | split

theorem answer_good {β : Bool} (r : List Byte × State) (h : good β r.2 = true) : good β (answer r) = true := pcie_good _ _ h

theorem queueConfigErr_good {β : Bool} (q : Nat) (s : State) (h_s : good β s = true) : good β (queueConfigErr q s) = true := by
  unfold queueConfigErr
  dsimp only
  repeat' first | (with_reducible assumption) | (with_reducible apply State_setQueue_good) | (with_reducible apply setCause_good) | intro _ | split

theorem outConfigErr_good {β : Bool} (o : Nat) (s : State) (h_s : good β s = true) : good β (outConfigErr o s) = true := by
  unfold outConfigErr
  dsimp only
  repeat' first | (with_reducible assumption) | (with_reducible apply State_setOring_good) | (with_reducible apply setCause_good) | intro _ | split

theorem cmdRingTail_good {β : Bool} (q : Nat) (v : Nat) (s : State) (h_s : good β s = true) : good β (cmdRingTail q v s) = true := by
  unfold cmdRingTail
  dsimp only
  repeat' first | (with_reducible assumption) | (with_reducible apply State_setQueue_good) | (with_reducible apply setCause_good) | intro _ | split

theorem cplRingHead_good {β : Bool} (q : Nat) (v : Nat) (s : State) (h_s : good β s = true) : good β (cplRingHead q v s) = true := by
  unfold cplRingHead
  dsimp only
  repeat' first
    | (with_reducible assumption) | (with_reducible apply State_setQueue_good) | (with_reducible apply queueConfigErr_good) | intro _ | split

theorem ringEnSet_good {β : Bool} (q : Nat) (s : State) (h_s : good β s = true) : good β (ringEnSet q s) = true := by
  unfold ringEnSet
  dsimp only
  repeat' first
    | (with_reducible assumption) | (with_reducible apply queueConfigErr_good) | (with_reducible apply State_setQueue_good) | intro _ | split

theorem ringEnClear_good {β : Bool} (q : Nat) (s : State) (h_s : good β s = true) : good β (ringEnClear q s) = true := by
  unfold ringEnClear
  dsimp only
  repeat' first | (with_reducible assumption) | (with_reducible apply State_setQueue_good)

theorem outRingEnSet_good {β : Bool} (o : Nat) (s : State) (h_s : good β s = true) : good β (outRingEnSet o s) = true := by
  unfold outRingEnSet
  dsimp only
  repeat' first
    | (with_reducible assumption) | (with_reducible apply outConfigErr_good) | (with_reducible apply releaseHeld_good)
    | (with_reducible apply State_setOring_good) | intro _ | split

theorem outRingEnClear_good {β : Bool} (o : Nat) (s : State) (h_s : good β s = true) : good β (outRingEnClear o s) = true := by
  unfold outRingEnClear
  dsimp only
  repeat' first
    | (with_reducible assumption) | (with_reducible apply State_setOring_good) | (with_reducible apply detect_good)
    | (with_reducible apply tailWriteBack_good) | intro _ | split

theorem outRingHead_good {β : Bool} (o : Nat) (v : Nat) (s : State) (h_s : good β s = true) : good β (outRingHead o v s) = true := by
  unfold outRingHead
  dsimp only
  repeat' first
    | (with_reducible assumption) | (with_reducible apply State_setOring_good) | (with_reducible apply outConfigErr_good) | intro _ | split

theorem outCoal_good {β : Bool} (o : Nat) (v : Word) (s : State) (h_s : good β s = true) : good β (outCoal o v s) = true := by
  unfold outCoal
  dsimp only
  repeat' first
    | (with_reducible assumption) | (with_reducible apply outConfigErr_good) | (with_reducible apply State_setOring_good) | intro _ | split

theorem outCoalBytes_good {β : Bool} (o : Nat) (v : Word) (s : State) (h_s : good β s = true) : good β (outCoalBytes o v s) = true := by
  unfold outCoalBytes
  dsimp only
  repeat' first
    | (with_reducible assumption) | (with_reducible apply outConfigErr_good) | (with_reducible apply State_setOring_good) | intro _ | split

theorem intxCause_good {β : Bool} (w : IntxWrite) (s : State) (h_s : good β s = true) : good β (intxCause w s) = true := by
  unfold intxCause
  dsimp only
  repeat' first | (with_reducible assumption) | (simp only [good_mk]; with_reducible refine okV_of _ ?_) | (with_reducible apply inta_good)

theorem queueWriteReg_good {β : Bool} (q : Nat) (off : Nat) (v : Word) (s : State) (h_s : good β s = true) :
    good β (queueWriteReg q off v s) = true := by
  unfold queueWriteReg
  dsimp only
  repeat' first
    | (with_reducible assumption) | (with_reducible apply State_setQueue_good) | (with_reducible apply ringEnSet_good)
    | (with_reducible apply ringEnClear_good) | (with_reducible apply cmdRingTail_good) | (with_reducible apply cplRingHead_good) | intro _
    | split

theorem outWriteReg_good {β : Bool} (o : Nat) (off : Nat) (v : Word) (s : State) (h_s : good β s = true) :
    good β (outWriteReg o off v s) = true := by
  unfold outWriteReg
  dsimp only
  repeat' first
    | (with_reducible assumption) | (with_reducible apply State_setOring_good) | (with_reducible apply outCoal_good)
    | (with_reducible apply outCoalBytes_good) | (with_reducible apply outRingEnSet_good) | (with_reducible apply outRingEnClear_good)
    | (with_reducible apply outRingHead_good) | intro _ | split

theorem globalWriteReg_good {β : Bool} (off : Nat) (v : Word) (s : State) (h_s : good β s = true) : good β (globalWriteReg off v s) = true := by
  unfold globalWriteReg
  dsimp only
  repeat' first
    | (with_reducible assumption) | (simp only [good_mk]; with_reducible refine okV_of _ ?_) | (with_reducible apply intxCause_good)
    | (with_reducible apply inta_good) | intro _ | split

theorem regWrite_good {β : Bool} (off : Nat) (v : Word) (s : State) (h : good β s = true) : good β (regWrite off v s) = true := by
  unfold regWrite
  exact good_ite (globalWriteReg_good _ _ _ h) (good_ite (queueWriteReg_good _ _ _ _ h) (good_ite (queueWriteReg_good _ _ _ _ h)
    (good_ite (outWriteReg_good _ _ _ _ h) h)))

theorem bar0Write_good {β : Bool} (off : Nat) (v : Word) (be : Nat) (s : State) (h_s : good β s = true) : good β (bar0Write off v be s) = true := by
  unfold bar0Write
  dsimp only
  repeat' first
    | (with_reducible assumption) | (simp only [good_mk]; with_reducible refine okV_of _ ?_) | (with_reducible apply barAccess_good)
    | (with_reducible apply regWrite_good) | intro _ | split

theorem readDw_good {β : Bool} (off : Nat) (s : State) (h : good β s = true) : good β (readDw off s).2 = true := by
  unfold readDw
  exact good_ite (pcie_good _ _ h) (good_ite (pcie_good _ _ h) (good_ite (State_setOring_good _ _ _ h) h))

theorem shares_good {β : Bool} (l : List Nat) (s : State) (h : good β s = true) : good β (forAll l releaseShare s) = true :=
  forAll_good _ _ (fun _ _ hs => releaseShare_good _ _ hs) _ h

theorem wf_storeWrite (l : List Alloc) (off : Nat) (bs : List Byte) {m : Mem} (h : Memory.wf m = true) : Memory.wf (storeWrite l off bs m) = true := by
  unfold storeWrite
  exact wf_ite (wf_foldl _ _ (fun _ _ hm => wf_regionWrite _ _ _ hm) h) (wf_regionWrite _ _ _ h)

theorem readDws_good {β : Bool} (off n : Nat) (s : State) (h : good β s = true) : good β (readDws off n s).2 = true := by
  induction n generalizing off s with
  | zero => exact h
  | succ n ih => exact ih _ _ (readDw_good _ _ h)

theorem bar0Read_good {β : Bool} (off len : Nat) (s : State) (h : good β s = true) : good β (answer (bar0Read off len s)) = true :=
  answer_good _ (readDws_good _ _ _ h)

theorem doTickLo_good {β : Bool} (s : State) (h : good β s = true) : good β (doTickLo s) = true :=
  barAccess_good _ _ (fun _ ht => bar0Read_good _ _ _ ht) h

theorem doOutFullTicksLo_good {β : Bool} (o : Nat) (s : State) (h : good β s = true) : good β (doOutFullTicksLo o s) = true :=
  barAccess_good _ _ (fun _ ht => bar0Read_good _ _ _ ht) h

theorem doAccessErrors_good {β : Bool} (s : State) (h : good β s = true) : good β (doAccessErrors s) = true :=
  barAccess_good _ _ (fun _ ht => bar0Read_good _ _ _ ht) h

theorem configWrite_good {β : Bool} (r : ConfigReg) (v : Word) (be : Nat) (s : State) (h_s : good β s = true) :
    good β (configWrite r v be s) = true := by
  unfold configWrite
  dsimp only
  repeat' first
    | (with_reducible assumption) | (simp only [good_mk]; with_reducible refine okV_of _ ?_) | (with_reducible apply inta_good) | intro _ | split

theorem doRegisterWrite_good {β : Bool} (r : RegAt) (v : Word) (be : Nat) (s : State) (h_s : good β s = true) :
    good β (doRegisterWrite r v be s) = true := by
  unfold doRegisterWrite
  repeat' first | (with_reducible assumption) | (with_reducible apply bar0Write_good) | (with_reducible apply configWrite_good) | intro _ | split

theorem doBar2Read_good {β : Bool} (off len : Nat) (ecc : List EccCond) (s : State) (h : good β s = true) :
    good β (doBar2Read off len ecc s) = true := by
  refine barAccess_good _ _ (fun t ht => ?_) h
  refine good_ite (barRefused_good _ ht) ?_
  exact pcie_good _ _ (forAll_good _ _ (fun x u hu => eccRead_good _ _ _ _ hu) _ ht)

theorem doBar2Write_good {β : Bool} (off : Nat) (bs : List Byte) (s : State) (h : good β s = true) : good β (doBar2Write off bs s) = true := by
  refine barAccess_good _ _ (fun t ht => ?_) h
  refine good_ite (barRefused_good _ ht) (forAll_good _ _ (fun x u hu => eccRead_good _ _ _ _ hu) _ ?_)
  have hh := (good_iff β t).mp ht
  exact (good_iff β _).mpr ⟨hh.1, wf_bar2Store _ hh.2.1 _ _, hh.2.2⟩

theorem doIntxHoldoffExpiry_good {β : Bool} (s : State) (h_s : good β s = true) : good β (doIntxHoldoffExpiry s) = true := by
  unfold doIntxHoldoffExpiry
  repeat' first | (with_reducible assumption) | (with_reducible apply inta_good) | (with_reducible apply advanceTo_good) | intro _ | split

theorem doInterruptDisable_good {β : Bool} (v : Bool) (s : State) (h_s : good β s = true) : good β (doInterruptDisable v s) = true := by
  unfold doInterruptDisable
  repeat' first | (with_reducible assumption) | (with_reducible apply configWrite_good) | intro _ | split

theorem doD3hotEntry_good {β : Bool} (s : State) (h_s : good β s = true) : good β (doD3hotEntry s) = true := by
  unfold doD3hotEntry
  dsimp only
  repeat' first | (with_reducible assumption) | (simp only [good_mk]; with_reducible refine okV_of _ ?_) | intro _ | split

theorem doD0Return_good {β : Bool} (s : State) (h : good β s = true) : good β (doD0Return s) = true := by
  unfold doD0Return
  refine good_ite ?_ h
  refine forAll_good _ _ (fun o t ht => ?_) _ (inta_good _ (flush_good _ ((good_iff β _).mpr ((good_iff β s).mp h))))
  exact good_ite (good_ite (State_setOring_good _ _ _ ht) (tailWriteBack_good _ _ ht)) ht

theorem doAerError_good {β : Bool} (e : AerError) (header : List Word) (s : State) (h_s : good β s = true) :
    good β (doAerError e header s) = true := by
  unfold doAerError
  repeat' first | (with_reducible assumption) | (with_reducible apply aerLog_good) | intro _ | split

theorem readFailed_good {β : Bool} (q : Nat) (s : State) (h_s : good β s = true) : good β (readFailed q s) = true := by
  unfold readFailed
  dsimp only
  repeat' first
    | (with_reducible assumption) | (with_reducible apply count_good) | (with_reducible apply State_setQueue_good)
    | (with_reducible apply queueConfigErr_good) | intro _ | split

theorem readLog_good {β : Bool} (c : ReadCause) (header : List Word) (s : State) (h_s : good β s = true) : good β (readLog c header s) = true := by
  unfold readLog
  repeat' first | (with_reducible assumption) | (with_reducible apply aerLog_good) | intro _ | split

theorem doHostReadFail_good {β : Bool} (r : ReadFail) (s : State) (h_s : good β s = true) : good β (doHostReadFail r s) = true := by
  unfold doHostReadFail
  dsimp only
  repeat' first
    | (with_reducible assumption) | (with_reducible apply readFailed_good) | (with_reducible apply readLog_good)
    | (with_reducible apply acceptHost_good) | (with_reducible apply finish_good) | (with_reducible apply withCmd_good) | intro _ | split

end Sys2Proof.Laws
end

