-- ==== Sys2Proof/Laws/SoundStreams.lean ====
section
/-! SUPPORT. Every operation keeps a sound state sound, and leaves SAFE_n low where it is low: pictures and streams. One lemma per operation. -/

namespace Sys2Proof.Laws

open Sys2Proof Sys2Proof.Machine

theorem removeAll_good {β : Bool} (s : State) (h : good β s = true) : good β (removeAll s) = true := by
  have hh := (good_iff β s).mp h
  exact (good_iff β _).mpr ⟨hh.1, wf_regionClear _ hh.2.1, hh.2.2.1, by simp [removeAll], by simp [removeAll]⟩

theorem linkFlr_good {β : Bool} (s : State) (h_s : good β s = true) : good β (linkFlr s) = true := by
  unfold linkFlr
  dsimp only
  repeat' first
    | (with_reducible assumption) | (simp only [good_mk]; with_reducible refine okV_of _ ?_) | (with_reducible apply forAll_good) | intro _

theorem clearRegs_good {β : Bool} (s : State) (h_s : good β s = true) : good β (clearRegs s) = true := by
  unfold clearRegs
  dsimp only
  repeat' first | (with_reducible assumption) | (simp only [good_mk]; with_reducible refine okV_of _ ?_)

theorem flrRun_good {β : Bool} (hung : Bool) (s : State) (h_s : good β s = true) : good β (flrRun hung s) = true := by
  unfold flrRun
  dsimp only
  repeat' first
    | (with_reducible assumption) | (simp only [good_mk]; with_reducible refine okV_of _ ?_) | (with_reducible apply clearRegs_good)
    | (with_reducible apply removeAll_good) | (with_reducible apply linkFlr_good) | (with_reducible apply linkBoot_good) | intro _ | split

theorem flr_good {β : Bool} (hung : Bool) (s : State) (h_s : good β s = true) : good β (flr hung s) = true := by
  unfold flr
  dsimp only
  repeat' first
    | (with_reducible assumption) | (simp only [good_mk]; with_reducible refine okV_of _ ?_) | (with_reducible apply flrRun_good)
    | (with_reducible apply clearRegs_good) | (with_reducible apply removeAll_good) | (with_reducible apply linkFlr_good) | intro _ | split

theorem resetTrip_good {β : Bool} (hit : Bool) (s : State) (h_s : good β s = true) : good β (resetTrip hit s) = true := by
  unfold resetTrip
  repeat' first | (with_reducible assumption) | (with_reducible apply detect_good) | intro _ | split

theorem modPic_good {β : Bool} (n : Nat) (don : Nat) (f : Picture → Picture) (s : State) (h_s : good β s = true) :
    good β (modPic n don f s) = true := by
  unfold modPic
  repeat' first | (with_reducible assumption) | (with_reducible apply State_modStream_good)

theorem swapToVariant_good {β : Bool} (c : Nat) (s : State) (h_s : good β s = true) : good β (swapToVariant c s) = true := by
  unfold swapToVariant
  dsimp only
  repeat' first
    | (with_reducible assumption) | (simp only [good_mk]; with_reducible refine okV_of _ ?_) | (with_reducible apply detect_good) | intro _
    | split

theorem fence_good {β : Bool} (c : Nat) (s : State) (h_s : good β s = true) : good β (fence c s) = true := by
  unfold fence
  dsimp only
  repeat' first
    | (with_reducible assumption) | (simp only [good_mk]; with_reducible refine okV_of _ ?_) | (with_reducible apply State_modCore_good)
    | (with_reducible apply swapToVariant_good) | (with_reducible apply setCause_good)

theorem doSafetyStatus_good {β : Bool} (j : Nat) (s : State) (h_s : good β s = true) : good β (doSafetyStatus j s) = true := by
  unfold doSafetyStatus
  repeat' first | (with_reducible assumption) | (with_reducible apply runCmd_good) | (with_reducible apply finish_good) | intro _

theorem doSafetyHeartbeat_good {β : Bool} (j : Nat) (s : State) (h_s : good β s = true) : good β (doSafetyHeartbeat j s) = true := by
  unfold doSafetyHeartbeat
  repeat' first | (with_reducible assumption) | (with_reducible apply runCmd_good) | (with_reducible apply finish_good) | intro _

theorem doHbMissed_good {β : Bool} (s : State) (h_s : good β s = true) : good β (doHbMissed s) = true := by
  unfold doHbMissed
  dsimp only
  repeat' first
    | (with_reducible assumption) | (simp only [good_mk]; with_reducible refine okV_of _ ?_) | (with_reducible apply advanceTo_good)
    | (with_reducible apply detect_good) | intro _ | split

theorem ackSafety_good {β : Bool} (ack : Word) (s : State) (h_s : good β s = true) : good β (ackSafety ack s) = true := by
  unfold ackSafety
  dsimp only
  repeat' first
    | (with_reducible assumption) | (simp only [good_mk]; with_reducible refine okV_of _ ?_) | (with_reducible apply forAll_good)
    | (with_reducible apply account_good) | intro _

theorem notePresent_good {β : Bool} (k : Nat) (cause : Nat) (now : Bool) (s : State) (h_s : good β s = true) :
    good β (notePresent k cause now s) = true := by
  unfold notePresent
  dsimp only
  repeat' first
    | (with_reducible assumption) | (simp only [good_mk]; with_reducible refine okV_of _ ?_) | (with_reducible apply detect_good) | intro _
    | split

theorem doVoltage_good {β : Bool} (r : Rail) (uv : Int) (s : State) (h_s : good β s = true) : good β (doVoltage r uv s) = true := by
  unfold doVoltage
  dsimp only
  repeat' first | (with_reducible assumption) | (with_reducible apply notePresent_good)

theorem doClock_good {β : Bool} (k : Nat) (ppm : Int) (s : State) (h_s : good β s = true) : good β (doClock k ppm s) = true := by
  unfold doClock
  repeat' first | (with_reducible assumption) | (with_reducible apply notePresent_good)

theorem doTemperatureSample_good {β : Bool} (milliC : Int) (s : State) (h_s : good β s = true) : good β (doTemperatureSample milliC s) = true := by
  unfold doTemperatureSample
  dsimp only
  repeat' first | (with_reducible assumption) | (simp only [good_mk]; with_reducible refine okV_of _ ?_) | (with_reducible apply notePresent_good)

theorem doSramScrub_good {β : Bool} (ue : Bool) (s : State) (h_s : good β s = true) : good β (doSramScrub ue s) = true := by
  unfold doSramScrub
  repeat' first | (with_reducible assumption) | (with_reducible apply detect_good) | intro _ | split

theorem doProofCastDue_good {β : Bool} (c : Nat) (e : Nat) (s : State) (h_s : good β s = true) : good β (doProofCastDue c e s) = true := by
  unfold doProofCastDue
  dsimp only
  repeat' first
    | (with_reducible assumption) | (simp only [good_mk]; with_reducible refine okV_of _ ?_) | (with_reducible apply advanceTo_good)
    | (with_reducible apply State_modCore_good) | intro _ | split

theorem doProofCastCheck_good {β : Bool} (c : Nat) (e : Nat) (ok : Bool) (s : State) (h_s : good β s = true) :
    good β (doProofCastCheck c e ok s) = true := by
  unfold doProofCastCheck
  dsimp only
  repeat' first | (with_reducible assumption) | (with_reducible apply State_modCore_good) | (with_reducible apply detect_good) | intro _ | split

theorem doProofCastInterval_good {β : Bool} (c : Nat) (e : Nat) (s : State) (h_s : good β s = true) : good β (doProofCastInterval c e s) = true := by
  unfold doProofCastInterval
  dsimp only
  repeat' first | (with_reducible assumption) | (with_reducible apply advanceTo_good) | (with_reducible apply detect_good) | intro _ | split

theorem refresh_good {β : Bool} (s : State) (h_s : good β s = true) : good β (refresh s) = true := by
  unfold refresh
  repeat' first | (with_reducible assumption) | (simp only [good_mk]; with_reducible refine okV_of _ ?_)

theorem modRun_good {β : Bool} (x : Run) (f : Run → Run) (s : State) (h_s : good β s = true) : good β (modRun x f s) = true := by
  unfold modRun
  repeat' first | (with_reducible assumption) | (simp only [good_mk]; with_reducible refine okV_of _ ?_)

theorem skipFrom_good {β : Bool} (x : Run) (status : Nat) (wide : Bool) (s : State) (h_s : good β s = true) :
    good β (skipFrom x status wide s) = true := by
  unfold skipFrom
  dsimp only
  repeat' first
    | (with_reducible assumption) | (simp only [good_mk]; with_reducible refine okV_of _ ?_) | (with_reducible apply refresh_good) | intro _
    | split

theorem inheritSkip_good {β : Bool} (x : Run) (s : State) (h_s : good β s = true) : good β (inheritSkip x s) = true := by
  unfold inheritSkip
  dsimp only
  repeat' first
    | (with_reducible assumption) | (simp only [good_mk]; with_reducible refine okV_of _ ?_) | (with_reducible apply skipFrom_good) | intro _
    | split

theorem releaseNiches_good {β : Bool} (ref : SchedRef) (first : Nat) (cnt : Nat) (owner : Nat) (seq : Bool) (don : Nat) (band : Nat) (s : State) (h_s :
    good β s = true) :
    good β (releaseNiches ref first cnt owner seq don band s) = true := by
  unfold releaseNiches
  dsimp only
  repeat' first
    | (with_reducible assumption) | (simp only [good_mk]; with_reducible refine okV_of _ ?_) | (with_reducible apply refresh_good)
    | (with_reducible apply forAll_good) | (with_reducible apply inheritSkip_good) | intro _ | split

theorem dropRuns_good {β : Bool} (n : Nat) (don : Nat) (s : State) (h_s : good β s = true) : good β (dropRuns n don s) = true := by
  unfold dropRuns
  repeat' first | (with_reducible assumption) | (simp only [good_mk]; with_reducible refine okV_of _ ?_)

theorem statusRecord_good {β : Bool} (n : Nat) (p : Picture) (s : State) (h_s : good β s = true) : good β (statusRecord n p s) = true := by
  unfold statusRecord
  dsimp only
  repeat' first
    | (with_reducible assumption) | (simp only [good_mk]; with_reducible refine okV_of _ ?_) | (with_reducible apply count_good)
    | (with_reducible apply issueTo_good) | intro _ | split

theorem writeStatus_good {β : Bool} (n : Nat) (p : Picture) (s : State) (h_s : good β s = true) : good β (writeStatus n p s) = true := by
  unfold writeStatus
  repeat' first | (with_reducible assumption) | (with_reducible apply modPic_good) | (with_reducible apply statusRecord_good)

theorem sweepPics_good {β : Bool} (n : Nat) (s : State) (h_s : good β s = true) : good β (sweepPics n s) = true := by
  unfold sweepPics
  dsimp only
  repeat' first
    | (with_reducible assumption) | (with_reducible apply State_setStream_good) | (with_reducible apply forAll_good)
    | (with_reducible apply dropRuns_good) | intro _

theorem feedSessions_good {β : Bool} (slot : Nat) (o : OutputData) (flags : Nat) (entries : List (List Byte)) (s : State) (h_s : good β s = true) :
    good β (feedSessions slot o flags entries s) = true := by
  unfold feedSessions
  repeat' first
    | (with_reducible assumption) | (with_reducible apply forAll_good) | (with_reducible apply count_good)
    | (with_reducible apply State_modSession_good) | intro _ | split

theorem placeLate_good {β : Bool} (n : Nat) (r : LateRec) (s : State) (h_s : good β s = true) : good β (placeLate n r s) = true := by
  unfold placeLate
  dsimp only
  repeat' first | (with_reducible assumption) | (with_reducible apply issueTo_good) | (with_reducible apply feedSessions_good) | intro _ | split

theorem placeDue_good {β : Bool} (n fuel : Nat) (s : State) (h : good β s = true) : good β (placeDue n fuel s) = true := by
  induction fuel generalizing s with
  | zero => exact h
  | succ k ih =>
    unfold placeDue
    split
    · exact ih _ (placeLate_good _ _ _ (State_modStream_good _ _ _ h))
    · split
      · exact good_ite (ih _ (writeStatus_good _ _ _ h)) h
      · split
        · exact ih _ (State_modStream_good _ _ _ (statusRecord_good _ _ _ h))
        · exact h

theorem settle_good {β : Bool} (n : Nat) (s : State) (h_s : good β s = true) : good β (settle n s) = true := by
  unfold settle
  dsimp only
  repeat' first | (with_reducible assumption) | (with_reducible apply sweepPics_good) | (with_reducible apply placeDue_good)

theorem doOutCoalExpiry_good {β : Bool} (o : Nat) (s : State) (h_s : good β s = true) : good β (doOutCoalExpiry o s) = true := by
  unfold doOutCoalExpiry
  dsimp only
  repeat' first | (with_reducible assumption) | (with_reducible apply tailWriteBack_good) | (with_reducible apply advanceTo_good) | intro _ | split

theorem doHeldRecordRelease_good {β : Bool} (o : Nat) (s : State) (h_s : good β s = true) : good β (doHeldRecordRelease o s) = true := by
  unfold doHeldRecordRelease
  repeat' first | (with_reducible assumption) | (with_reducible apply releaseHeld_good)

theorem setPool_good {β : Bool} (s : State) (h_s : good β s = true) : good β (setPool s) = true := by
  unfold setPool
  repeat' first | (with_reducible assumption) | (simp only [good_mk]; with_reducible refine okV_of _ ?_)

theorem admitStream_good {β : Bool} (j : Nat) (n : Nat) (c : StreamCfg) (s : State) (h_s : good β s = true) :
    good β (admitStream j n c s) = true := by
  unfold admitStream
  dsimp only
  repeat' first
    | (with_reducible assumption) | (with_reducible apply finish_good) | (refine allocAll_good ?_ (by assumption))
    | (with_reducible apply setPool_good) | (with_reducible apply State_setStream_good) | (with_reducible apply detect_good)
    | (with_reducible apply finishCtx_good) | intro _ | split

theorem openStream_good {β : Bool} (j : Nat) (e : JEntry) (s : State) (h_s : good β s = true) : good β (openStream j e s) = true := by
  unfold openStream
  dsimp only
  repeat' first | (with_reducible assumption) | (with_reducible apply finish_good) | (with_reducible apply admitStream_good) | intro _ | split

theorem doStreamOpen_good {β : Bool} (j : Nat) (s : State) (h_s : good β s = true) : good β (doStreamOpen j s) = true := by
  unfold doStreamOpen
  repeat' first | (with_reducible assumption) | (with_reducible apply runCmd_good) | (with_reducible apply openStream_good)

theorem release108_good {β : Bool} (n : Nat) (t : Nat) (s : State) (h_s : good β s = true) : good β (release108 n t s) = true := by
  unfold release108
  repeat' first | (with_reducible assumption) | (with_reducible apply State_modStream_good)

theorem makeRoom_good {β : Bool} (n : Nat) (len : Nat) (t : Nat) (s : State) (h_s : good β s = true) : good β (makeRoom n len t s) = true := by
  unfold makeRoom
  dsimp only
  repeat' first
    | (with_reducible assumption) | (with_reducible apply release108_good) | (with_reducible apply State_setStream_good)
    | (with_reducible apply streamEvent_good) | (with_reducible apply State_modStream_good) | intro _ | split

theorem doRetentionRelease_good {β : Bool} (n : Nat) (s : State) (h_s : good β s = true) : good β (doRetentionRelease n s) = true := by
  unfold doRetentionRelease
  repeat' first | (with_reducible assumption) | (with_reducible apply release108_good) | intro _ | split

theorem doRetentionShortEnd_good {β : Bool} (n : Nat) (s : State) (h_s : good β s = true) : good β (doRetentionShortEnd n s) = true := by
  unfold doRetentionShortEnd
  dsimp only
  repeat' first | (with_reducible assumption) | (with_reducible apply advanceTo_good) | (with_reducible apply State_modStream_good) | intro _ | split

theorem doStreamFeed_good {β : Bool} (j : Nat) (s : State) (h_s : good β s = true) : good β (doStreamFeed j s) = true := by
  unfold doStreamFeed
  dsimp only
  repeat' first
    | (with_reducible assumption) | (with_reducible apply runCmd_good) | (with_reducible apply finish_good)
    | (with_reducible apply State_modStream_good) | (with_reducible apply makeRoom_good) | (with_reducible apply streamEvent_good) | intro _
    | split

theorem storeRetune_good {β : Bool} (n : Nat) (t : Nat) (c : StreamCfg) (s : State) (h_s : good β s = true) :
    good β (storeRetune n t c s) = true := by
  unfold storeRetune
  dsimp only
  repeat' first | (with_reducible assumption) | (with_reducible apply State_modStream_good)

theorem doStreamRetune_good {β : Bool} (j : Nat) (s : State) (h_s : good β s = true) : good β (doStreamRetune j s) = true := by
  unfold doStreamRetune
  dsimp only
  repeat' first
    | (with_reducible assumption) | (with_reducible apply runCmd_good) | (with_reducible apply finish_good) | (with_reducible apply detect_good)
    | (with_reducible apply setPool_good) | (with_reducible apply storeRetune_good) | (refine allocAll_good ?_ (by assumption))
    | (with_reducible apply forAll_good) | (with_reducible apply release_good) | (with_reducible apply State_modStream_good) | intro _ | split

theorem beginClose_good {β : Bool} (j : Nat) (n : Nat) (flush : Bool) (s : State) (h_s : good β s = true) :
    good β (beginClose j n flush s) = true := by
  unfold beginClose
  dsimp only
  repeat' first
    | (with_reducible assumption) | (with_reducible apply detect_good) | (with_reducible apply State_modStream_good)
    | (with_reducible apply flush_good) | (with_reducible apply interim_good) | intro _ | split

theorem doStreamClose_good {β : Bool} (j : Nat) (s : State) (h_s : good β s = true) : good β (doStreamClose j s) = true := by
  unfold doStreamClose
  repeat' first
    | (with_reducible assumption) | (with_reducible apply runCmd_good) | (with_reducible apply rejectClose_good)
    | (with_reducible apply beginClose_good) | intro _ | split

theorem passFeeds_good {β : Bool} (n : Nat) (s : State) (h_s : good β s = true) : good β (passFeeds n s) = true := by
  unfold passFeeds
  repeat' first | (with_reducible assumption) | (with_reducible apply State_modStream_good)

theorem tsDiscard_good {β : Bool} (n : Nat) (s : State) (h_s : good β s = true) : good β (tsDiscard n s) = true := by
  unfold tsDiscard
  repeat' first | (with_reducible assumption) | (with_reducible apply count_good)

theorem enterReject_good {β : Bool} (n : Nat) (status : Nat) (s : State) (h_s : good β s = true) : good β (enterReject n status s) = true := by
  unfold enterReject
  repeat' first
    | (with_reducible assumption) | (with_reducible apply streamEvent_good) | (with_reducible apply State_modStream_good) | intro _ | split

theorem takeSection_good {β : Bool} (n : Nat) (pid : Nat) (sec : List Byte) (s : State) (h_s : good β s = true) :
    good β (takeSection n pid sec s) = true := by
  unfold takeSection
  dsimp only
  repeat' first
    | (with_reducible assumption) | (with_reducible apply State_modStream_good) | (with_reducible apply enterReject_good) | intro _ | split

theorem takePsi_good {β : Bool} (n : Nat) (p : TsPacket) (pl : List Byte) (s : State) (h_s : good β s = true) :
    good β (takePsi n p pl s) = true := by
  unfold takePsi
  dsimp only
  repeat' first
    | (with_reducible assumption) | (with_reducible apply State_modStream_good) | (with_reducible apply forAll_good)
    | (with_reducible apply takeSection_good)

theorem takeVideo_good {β : Bool} (n : Nat) (f : FeedChunk) (p : TsPacket) (pl : List Byte) (s : State) (h_s : good β s = true) :
    good β (takeVideo n f p pl s) = true := by
  unfold takeVideo
  dsimp only
  repeat' first | (with_reducible assumption) | (with_reducible apply State_modStream_good) | intro _ | split

theorem tsGap_good {β : Bool} (n : Nat) (p : TsPacket) (s : State) (h_s : good β s = true) : good β (tsGap n p s) = true := by
  unfold tsGap
  dsimp only
  repeat' first
    | (with_reducible assumption) | (with_reducible apply State_modStream_good) | (with_reducible apply streamEvent_good) | intro _ | split

theorem tsScrambled_good {β : Bool} (n : Nat) (s : State) (h_s : good β s = true) : good β (tsScrambled n s) = true := by
  unfold tsScrambled
  dsimp only
  repeat' first
    | (with_reducible assumption) | (with_reducible apply tsDiscard_good) | (with_reducible apply State_modStream_good)
    | (with_reducible apply streamEvent_good) | intro _ | split

theorem takeVideoPacket_good {β : Bool} (n : Nat) (f : FeedChunk) (p : TsPacket) (pl : List Byte) (s : State) (h_s : good β s = true) :
    good β (takeVideoPacket n f p pl s) = true := by
  unfold takeVideoPacket
  dsimp only
  repeat' first
    | (with_reducible assumption) | (with_reducible apply tsScrambled_good) | (with_reducible apply tsGap_good)
    | (with_reducible apply State_modStream_good) | (with_reducible apply takeVideo_good) | intro _ | split

theorem takePacket_good {β : Bool} (n : Nat) (f : FeedChunk) (p : TsPacket) (s : State) (h_s : good β s = true) :
    good β (takePacket n f p s) = true := by
  unfold takePacket
  dsimp only
  repeat' first
    | (with_reducible assumption) | (with_reducible apply tsDiscard_good) | (with_reducible apply State_modStream_good)
    | (with_reducible apply takeVideoPacket_good) | (with_reducible apply tsScrambled_good) | (with_reducible apply takePsi_good) | intro _
    | split

theorem doTsPacket_good {β : Bool} (n : Nat) (s : State) (h_s : good β s = true) : good β (doTsPacket n s) = true := by
  unfold doTsPacket
  dsimp only
  repeat' first
    | (with_reducible assumption) | (with_reducible apply passFeeds_good) | (with_reducible apply takePacket_good)
    | (with_reducible apply State_setStream_good) | intro _ | split

theorem warVideo_good {β : Bool} (n : Nat) (f : FeedChunk) (h : Nat → Word) (payload : List Byte) (size : Nat) (s : State) (h_s : good β s = true) :
    good β (warVideo n f h payload size s) = true := by
  unfold warVideo
  dsimp only
  repeat' first | (with_reducible assumption) | (with_reducible apply State_modStream_good) | intro _ | split

theorem writePcm_good {β : Bool} (n : Nat) (t : Nat) (zeros : Bool) (bs : List Byte) (s : State) (h_s : good β s = true) :
    good β (writePcm n t zeros bs s) = true := by
  unfold writePcm
  dsimp only
  repeat' first
    | (with_reducible assumption) | (with_reducible apply State_setStream_good) | (with_reducible apply count_good)
    | (with_reducible apply foldl_good) | intro _ | split

theorem warAudio_good {β : Bool} (n : Nat) (t : Nat) (h : Nat → Word) (payload : List Byte) (s : State) (h_s : good β s = true) :
    good β (warAudio n t h payload s) = true := by
  unfold warAudio
  dsimp only
  repeat' first
    | (with_reducible assumption) | (with_reducible apply State_modStream_good) | (with_reducible apply streamEvent_good)
    | (with_reducible apply writePcm_good) | intro _ | split

theorem takeRecord_good {β : Bool} (n : Nat) (f : FeedChunk) (rec : List Byte) (s : State) (h_s : good β s = true) :
    good β (takeRecord n f rec s) = true := by
  unfold takeRecord
  dsimp only
  repeat' first
    | (with_reducible assumption) | (with_reducible apply State_modStream_good) | (with_reducible apply streamEvent_good)
    | (with_reducible apply warAudio_good) | (with_reducible apply warVideo_good) | intro _ | split

theorem doWarRecord_good {β : Bool} (n : Nat) (s : State) (h_s : good β s = true) : good β (doWarRecord n s) = true := by
  unfold doWarRecord
  dsimp only
  repeat' first
    | (with_reducible assumption) | (with_reducible apply passFeeds_good) | (with_reducible apply takeRecord_good)
    | (with_reducible apply State_setStream_good) | intro _ | split

theorem beginBatch_good {β : Bool} (d : ShpDesc) (k : Nat) (c : Nat) (owner : Nat) (don : Nat) (band : Nat) (s : State) (h_s : good β s = true) :
    good β (beginBatch d k c owner don band s) = true := by
  unfold beginBatch
  dsimp only
  repeat' first | (with_reducible assumption) | (simp only [good_mk]; with_reducible refine okV_of _ ?_) | (with_reducible apply State_modCore_good)

theorem writeJob_good {β : Bool} (d : ShpDesc) (pic : Picture) (k : Nat) (don : Nat) (band : Nat) (owner : Nat) (b : TileJob) (s : State) (h_s : good β s = true) :
    good β (writeJob d pic k don band owner b s) = true := by
  unfold writeJob
  dsimp only
  repeat' first | (with_reducible assumption) | (with_reducible apply beginBatch_good) | (with_reducible apply State_modCore_good) | intro _ | split

theorem writeJobs_good {β : Bool} (d : ShpDesc) (pic : Picture) (k don band owner : Nat) (l : List TileJob) (s : State) (h : good β s = true) :
    good β (writeJobs d pic k don band owner l s).1 = true := by
  induction l generalizing s with
  | nil => exact h
  | cons b bs ih =>
    unfold writeJobs
    split
    · exact ih _ (writeJob_good _ _ _ _ _ _ _ _ h)
    · exact h

theorem doShpTileRow_good {β : Bool} (n : Nat) (k : Nat) (s : State) (h_s : good β s = true) : good β (doShpTileRow n k s) = true := by
  unfold doShpTileRow
  dsimp only
  repeat' first
    | (with_reducible assumption) | (with_reducible apply writeJobs_good) | (with_reducible apply refresh_good)
    | (with_reducible apply modPic_good) | intro _ | split

theorem runShp_good {β : Bool} (x : Run) (e : NicheEntry) (w : Bool) (s : State) (h : good β s = true) : good β (runShp x e w s).1 = true := by
  unfold runShp
  dsimp only
  split
  · exact h
  · split
    · exact h
    · exact modRun_good _ _ _ (writeJobs_good _ _ _ _ _ _ _ _ h)

theorem discardAu_good {β : Bool} (n : Nat) (id : Nat) (status : Nat) (s : State) (h_s : good β s = true) :
    good β (discardAu n id status s) = true := by
  unfold discardAu
  repeat' first | (with_reducible assumption) | (with_reducible apply count_good) | (with_reducible apply State_modStream_good)

theorem endTurn_good {β : Bool} (n : Nat) (past : Bool) (s : State) (h_s : good β s = true) : good β (endTurn n past s) = true := by
  unfold endTurn
  dsimp only
  repeat' first
    | (with_reducible assumption) | (simp only [good_mk]; with_reducible refine okV_of _ ?_) | (with_reducible apply State_modStream_good)
    | intro _ | split

theorem beginPicture_good {β : Bool} (n : Nat) (a : Au) (i : AuInfo) (s : State) (h_s : good β s = true) : good β (beginPicture n a i s) = true := by
  unfold beginPicture
  dsimp only
  repeat' first | (with_reducible assumption) | (with_reducible apply State_setStream_good)

theorem replayPicture_good {β : Bool} (n : Nat) (d : Nat) (a : Au) (i : AuInfo) (s : State) (h_s : good β s = true) :
    good β (replayPicture n d a i s) = true := by
  unfold replayPicture
  dsimp only
  repeat' first | (with_reducible assumption) | (with_reducible apply State_setStream_good)

theorem markConcealed_good {β : Bool} (n : Nat) (don : Nat) (s : State) (h_s : good β s = true) : good β (markConcealed n don s) = true := by
  unfold markConcealed
  dsimp only
  repeat' first | (with_reducible assumption) | (with_reducible apply modPic_good) | (with_reducible apply State_modStream_good)

theorem decodeSeg_good {β : Bool} (n : Nat) (don : Nat) (a : Au) (g : SegInfo) (s : State) (h_s : good β s = true) :
    good β (decodeSeg n don a g s) = true := by
  unfold decodeSeg
  dsimp only
  repeat' first
    | (with_reducible assumption) | (with_reducible apply modPic_good) | (with_reducible apply State_modStream_good)
    | (with_reducible apply markConcealed_good) | intro _ | split

theorem judge_good {β : Bool} (n : Nat) (don : Nat) (t : Nat) (s : State) (h_s : good β s = true) : good β (judge n don t s) = true := by
  unfold judge
  dsimp only
  repeat' first | (with_reducible assumption) | (with_reducible apply modPic_good) | (with_reducible apply State_modStream_good) | intro _ | split

theorem finishAu_good {β : Bool} (n : Nat) (don : Nat) (id : Nat) (s : State) (h_s : good β s = true) : good β (finishAu n don id s) = true := by
  unfold finishAu
  dsimp only
  repeat' first
    | (with_reducible assumption) | (with_reducible apply State_modStream_good) | (with_reducible apply modPic_good)
    | (with_reducible apply markConcealed_good) | (with_reducible apply judge_good) | intro _ | split

theorem leaveReject_good {β : Bool} (n : Nat) (s : State) (h_s : good β s = true) : good β (leaveReject n s) = true := by
  unfold leaveReject
  dsimp only
  repeat' first
    | (with_reducible assumption) | (with_reducible apply streamEvent_good) | (with_reducible apply State_modStream_good) | intro _ | split

theorem enterState_good {β : Bool} (n : Nat) (status : Nat) (s : State) (h_s : good β s = true) : good β (enterState n status s) = true := by
  unfold enterState
  dsimp only
  repeat' first
    | (with_reducible assumption) | (with_reducible apply streamEvent_good) | (with_reducible apply State_modStream_good)
    | (with_reducible apply enterReject_good) | intro _ | split

theorem decodeAu_good {β : Bool} (n : Nat) (a : Au) (i : AuInfo) (s : State) (h_s : good β s = true) : good β (decodeAu n a i s) = true := by
  unfold decodeAu
  dsimp only
  repeat' first
    | (with_reducible assumption) | (with_reducible apply leaveReject_good) | (with_reducible apply replayPicture_good)
    | (with_reducible apply beginPicture_good) | (with_reducible apply modPic_good) | (with_reducible apply endTurn_good)
    | (with_reducible apply forAll_good) | (with_reducible apply decodeSeg_good) | (with_reducible apply State_modStream_good)
    | (with_reducible apply finishAu_good) | intro _ | split

theorem storeRow_good {β : Bool} (n don row : Nat) (s : State) (h : good β s = true) : good β (storeRow n don row s) = true := by
  unfold storeRow
  dsimp only
  split
  · exact h
  · exact forAll_good _ _ (fun l t ht => dram_good t _ ht (wf_storeWrite _ _ _ ((good_iff β t).mp ht).2.1)) _ h

theorem fixPicture_good {β : Bool} (n : Nat) (don : Nat) (s : State) (h_s : good β s = true) : good β (fixPicture n don s) = true := by
  unfold fixPicture
  dsimp only
  repeat' first
    | (with_reducible assumption) | (with_reducible apply State_modStream_good) | (with_reducible apply modPic_good)
    | (with_reducible apply count_good) | intro _ | split

theorem startPicture_good {β : Bool} (n : Nat) (don : Nat) (s : State) (h_s : good β s = true) : good β (startPicture n don s) = true := by
  unfold startPicture
  dsimp only
  repeat' first | (with_reducible assumption) | (with_reducible apply modPic_good) | (with_reducible apply State_modStream_good)

theorem reconRow_good {β : Bool} (n : Nat) (p : Picture) (r : RowData) (s : State) (h_s : good β s = true) : good β (reconRow n p r s) = true := by
  unfold reconRow
  dsimp only
  repeat' first
    | (with_reducible assumption) | (with_reducible apply startPicture_good) | (with_reducible apply modPic_good)
    | (with_reducible apply storeRow_good) | (with_reducible apply setPool_good) | (with_reducible apply fixPicture_good)
    | (with_reducible apply State_modStream_good) | (with_reducible apply settle_good) | intro _ | split

theorem noteRow_good {β : Bool} (n : Nat) (before : Bool) (s : State) (h_s : good β s = true) : good β (noteRow n before s) = true := by
  unfold noteRow
  repeat' first | (with_reducible assumption) | (with_reducible apply State_modStream_good) | intro _ | split

theorem doEntropyDecode_good {β : Bool} (n : Nat) (i : AuInfo) (s : State) (h_s : good β s = true) : good β (doEntropyDecode n i s) = true := by
  unfold doEntropyDecode
  dsimp only
  repeat' first
    | (with_reducible assumption) | (with_reducible apply discardAu_good) | (with_reducible apply enterState_good)
    | (with_reducible apply noteRow_good) | (with_reducible apply settle_good) | (with_reducible apply decodeAu_good) | intro _ | split

theorem servePool_good {β : Bool} (n : Nat) (samples : Nat) (s : State) (h_s : good β s = true) : good β (servePool n samples s) = true := by
  unfold servePool
  dsimp only
  repeat' first | (with_reducible assumption) | (simp only [good_mk]; with_reducible refine okV_of _ ?_)

theorem doRowReconstructed_good {β : Bool} (n : Nat) (r : RowData) (s : State) (h_s : good β s = true) :
    good β (doRowReconstructed n r s) = true := by
  unfold doRowReconstructed
  dsimp only
  repeat' first
    | (with_reducible assumption) | (with_reducible apply State_modStream_good) | (with_reducible apply reconRow_good)
    | (with_reducible apply servePool_good) | intro _ | split

theorem doStripFeedResume_good {β : Bool} (n : Nat) (s : State) (h_s : good β s = true) : good β (doStripFeedResume n s) = true := by
  unfold doStripFeedResume
  dsimp only
  repeat' first | (with_reducible assumption) | (with_reducible apply State_modStream_good) | intro _ | split

theorem fireBand_good {β : Bool} (n : Nat) (p : Picture) (r : SchedRef) (e : TrigEntry) (b : Nat) (s : State) (h_s : good β s = true) :
    good β (fireBand n p r e b s) = true := by
  unfold fireBand
  dsimp only
  repeat' first
    | (with_reducible assumption) | (with_reducible apply modPic_good) | (with_reducible apply emit_good)
    | (with_reducible apply streamEvent_good) | (with_reducible apply State_modStream_good) | (with_reducible apply settle_good)
    | (with_reducible apply releaseNiches_good) | intro _ | split

theorem doBandTrigger_good {β : Bool} (n : Nat) (s : State) (h_s : good β s = true) : good β (doBandTrigger n s) = true := by
  unfold doBandTrigger
  repeat' first | (with_reducible assumption) | (with_reducible apply fireBand_good) | intro _ | split

theorem sweepBlocks_good {β : Bool} (n : Nat) (s : State) (h_s : good β s = true) : good β (sweepBlocks n s) = true := by
  unfold sweepBlocks
  dsimp only
  repeat' first
    | (with_reducible assumption) | (with_reducible apply placeDue_good) | (with_reducible apply forAll_good) | (with_reducible apply dropRuns_good)
    | (with_reducible apply State_modStream_good)

theorem doAudioBlockTrigger_good {β : Bool} (n : Nat) (s : State) (h_s : good β s = true) : good β (doAudioBlockTrigger n s) = true := by
  unfold doAudioBlockTrigger
  dsimp only
  repeat' first
    | (with_reducible assumption) | (with_reducible apply State_modStream_good) | (with_reducible apply sweepBlocks_good)
    | (with_reducible apply count_good) | (with_reducible apply emit_good) | (with_reducible apply releaseNiches_good) | intro _ | split

theorem markLate_good {β : Bool} (n : Nat) (p : Picture) (head : AuInfo) (b : Nat) (s : State) (h_s : good β s = true) :
    good β (markLate n p head b s) = true := by
  unfold markLate
  dsimp only
  repeat' first | (with_reducible assumption) | (with_reducible apply modPic_good) | (with_reducible apply State_modStream_good) | intro _ | split

theorem makeLate_good {β : Bool} (n : Nat) (p : Picture) (head : AuInfo) (b : Nat) (s : State) (h_s : good β s = true) :
    good β (makeLate n p head b s) = true := by
  unfold makeLate
  dsimp only
  repeat' first
    | (with_reducible assumption) | (with_reducible apply count_good) | (with_reducible apply markLate_good)
    | (with_reducible apply streamEvent_good) | (with_reducible apply State_modStream_good) | (with_reducible apply settle_good) | intro _ | split

theorem doDecodeLate_good {β : Bool} (n : Nat) (don : Word) (head : AuInfo) (s : State) (h_s : good β s = true) :
    good β (doDecodeLate n don head s) = true := by
  unfold doDecodeLate
  dsimp only
  repeat' first | (with_reducible assumption) | (with_reducible apply makeLate_good) | (with_reducible apply advanceTo_good) | intro _ | split

theorem doLposStall_good {β : Bool} (n : Nat) (don : Word) (band : Nat) (head : AuInfo) (s : State) (h_s : good β s = true) :
    good β (doLposStall n don band head s) = true := by
  unfold doLposStall
  repeat' first | (with_reducible assumption) | (with_reducible apply detect_good) | (with_reducible apply advanceTo_good) | intro _ | split

theorem audioLate_good {β : Bool} (n : Nat) (k : Nat) (s : State) (h_s : good β s = true) : good β (audioLate n k s) = true := by
  unfold audioLate
  dsimp only
  repeat' first | (with_reducible assumption) | (with_reducible apply detect_good) | (with_reducible apply advanceTo_good) | intro _ | split

theorem doRecordLate_good {β : Bool} (n : Nat) (don : Word) (band : Nat) (head : AuInfo) (s : State) (h_s : good β s = true) :
    good β (doRecordLate n don band head s) = true := by
  unfold doRecordLate
  dsimp only
  repeat' first
    | (with_reducible assumption) | (with_reducible apply audioLate_good) | (with_reducible apply detect_good)
    | (with_reducible apply advanceTo_good) | intro _ | split

theorem applyMxOn_good {β : Bool} (c : Nat) (masked : Nat → Nat → Bool) (wt : Mem → Mem) (d : MxDesc) (s : State) (h_s : good β s = true) :
    good β (applyMxOn c masked wt d s) = true := by
  unfold applyMxOn
  dsimp only
  repeat' first | (with_reducible assumption) | (with_reducible apply State_modCore_good) | (with_reducible apply count_good)

theorem applyMx_good {β : Bool} (c : Nat) (d : MxDesc) (s : State) (h : good β s = true) : good β (applyMx c d s) = true :=
  count_good _ _ _ (count_good _ _ _ (count_good _ _ _ (count_good _ _ _ (State_modCore_good _ _ _ h))))

theorem applyVxOn_good {β : Bool} (c : Nat) (pad : Nat → Bool) (wt : Mem → Mem) (d : VxDesc) (s : State) (h_s : good β s = true) :
    good β (applyVxOn c pad wt d s) = true := by
  unfold applyVxOn
  dsimp only
  repeat' first | (with_reducible assumption) | (with_reducible apply State_modCore_good) | (with_reducible apply count_good)

theorem applyVx_good {β : Bool} (c : Nat) (d : VxDesc) (s : State) (h : good β s = true) : good β (applyVx c d s) = true :=
  count_good _ _ _ (count_good _ _ _ (count_good _ _ _ (count_good _ _ _ (State_modCore_good _ _ _ h))))

theorem runCastNiche_good {β : Bool} (n : NicheEntry) (s : State) (h_s : good β s = true) : good β (runCastNiche n s) = true := by
  unfold runCastNiche
  repeat' first | (with_reducible assumption) | (with_reducible apply applyVx_good) | (with_reducible apply applyMx_good) | intro _ | split

theorem runCast_good {β : Bool} (t : Schedule) (c : Nat) (e : Nat) (s : State) (h_s : good β s = true) : good β (runCast t c e s) = true := by
  unfold runCast
  dsimp only
  repeat' first
    | (with_reducible assumption) | (with_reducible apply forAll_good) | (with_reducible apply runCastNiche_good)
    | (with_reducible apply State_modCore_good) | intro _

theorem runCasts_good {β : Bool} (s : State) (h : good β s = true) : good β (runCasts s).1 = true := by
  unfold runCasts
  split
  · exact h
  · split
    · exact h
    · exact forAll_good _ _ (fun _ _ hs => runCast_good _ _ _ _ hs) _ h

theorem doSafetyArm_good (j : Nat) (p : Bool) (s : State) (h : good true s = true) : good true (doSafetyArm j p s) = true := by
  refine runCmd_good _ _ _ _ (fun e t ht => ?_) h
  have hc := runCasts_good t ht
  refine good_ite (finish_good _ _ _ _ ht) (good_ite (finish_good _ _ _ _ hc) (finish_good _ _ _ _ (setSafety_good _ _ ?_ ?_ hc)))
  · exact Nat.le_succ 1
  · exact fun _ => ⟨rfl, rfl⟩

theorem doSafetyClear_good (j : Nat) (p : Bool) (during : Nat) (s : State) (h : good true s = true) :
    good true (doSafetyClear j p during s) = true := by
  refine runCmd_good _ _ _ _ (fun e t ht => ?_) h
  have k : good true (forAll (maskList during 18) detect t) = true := forAll_good _ _ (fun n s hs => detect_good n s hs) _ ht
  have hc := runCasts_good _ k
  refine good_ite (finish_good _ _ _ _ k) (good_ite (finish_good _ _ _ _ (setSafety_good _ _ ?_ ?_ k)) (good_ite (finish_good _ _ _ _ hc)
    (finish_good _ _ _ _ (setSafety_good _ _ ?_ ?_ hc))))
  · exact Nat.zero_le 2
  · intro e; cases e
  · exact Nat.le_succ 1
  · exact fun _ => ⟨rfl, rfl⟩

theorem judgeHeartbeat_good {β : Bool} (e : JEntry) (ch : Word) (s : State) (h_s : good β s = true) : good β (judgeHeartbeat e ch s) = true := by
  unfold judgeHeartbeat
  dsimp only
  repeat' first
    | (with_reducible assumption) | (simp only [good_mk]; with_reducible refine okV_of _ ?_) | (with_reducible apply detect_good) | intro _ | split

end Sys2Proof.Laws
end

