-- ==== Sys2Proof/Laws/SoundWork.lean ====
section
/-! SUPPORT. Every operation keeps a sound state sound, and leaves SAFE_n low where it is low: Armatures, Niches, sequence models, tracks, observation. One lemma per operation. -/

namespace Sys2Proof.Laws

open Sys2Proof Sys2Proof.Machine

theorem acceptSafety_good {β : Bool} (seq : Nat) (ws : List Word) (ch : Word) (s : State) (h_s : good β s = true) :
    good β (acceptSafety seq ws ch s) = true := by
  unfold acceptSafety
  dsimp only
  repeat' first
    | (with_reducible assumption) | (simp only [good_mk]; with_reducible refine okV_of _ ?_) | (with_reducible apply inOrder_good)
    | (with_reducible apply journalEntry_good) | (with_reducible apply judgeHeartbeat_good)

theorem answerPrev_good {β : Bool} (w : Bool) (s : State) (h : good β s = true) : good β (answerPrev w s).2.2.2 = true := by
  unfold answerPrev
  split <;> try exact h
  split
  · exact h
  · split
    · exact h
    · exact acceptSafety_good _ _ _ _ h

theorem pendPacket_good {β : Bool} (seq : Nat) (ws : List Word) (shown : Word) (s : State) (h_s : good β s = true) :
    good β (pendPacket seq ws shown s) = true := by
  unfold pendPacket
  dsimp only
  repeat' first | (with_reducible assumption) | (simp only [good_mk]; with_reducible refine okV_of _ ?_)

theorem takeRequest_good {β : Bool} (ws : List Word) (shown : Word) (s : State) (h_s : good β s = true) :
    good β (takeRequest ws shown s) = true := by
  unfold takeRequest
  dsimp only
  repeat' first
    | (with_reducible assumption) | (simp only [good_mk]; with_reducible refine okV_of _ ?_) | (with_reducible apply ackSafety_good)
    | (with_reducible apply pendPacket_good) | intro _ | split

theorem doSafetyFrame_good {β : Bool} (x : SpiFrame) (s : State) (h : good β s = true) : good β (doSafetyFrame x s) = true := by
  unfold doSafetyFrame
  dsimp only
  refine good_ite h (good_ite ((good_iff β _).mpr ((good_iff β s).mp h)) (good_ite ((good_iff β _).mpr ((good_iff β s).mp h)) ?_))
  refine takeRequest_good _ _ _ ?_
  exact (good_iff β _).mpr ((good_iff β _).mp (answerPrev_good x.written s h))

theorem countRecord_good {β : Bool} (n don band : Nat) (s : State) (h : good β s = true) : good β (countRecord n don band s).2 = true := by
  unfold countRecord
  dsimp only
  repeat' first | (with_reducible assumption) | (with_reducible apply modPic_good) | (with_reducible apply State_modStream_good) | split

theorem bandRecord_good {β : Bool} (n : Nat) (last : Bool) (r : RecordReq) (feed : Option OutputData) (s : State) (h : good β s = true) :
    good β (bandRecord n last r feed s) = true := by
  have hc := countRecord_good n r.don.toNat r.band s h
  unfold bandRecord
  exact good_ite hc (good_ite (placeLate_good _ _ _ hc) (State_modStream_good _ _ _ hc))

theorem writeOutput_good {β : Bool} (slot : Nat) (don : Nat) (band : Nat) (status : Nat) (safe : Bool) (lastRec : Bool) (o : OutputData) (s : State) (h_s : good β s = true) :
    good β (writeOutput slot don band status safe lastRec o s) = true := by
  unfold writeOutput
  dsimp only
  repeat' first | (with_reducible assumption) | (with_reducible apply forAll_good) | (with_reducible apply bandRecord_good) | intro _

theorem modWork_good {β : Bool} (n : Nat) (f : SeqWork → SeqWork) (s : State) (h_s : good β s = true) : good β (modWork n f s) = true := by
  unfold modWork
  repeat' first | (with_reducible assumption) | (with_reducible apply State_modSession_good)

theorem endUnit_good {β : Bool} (n : Nat) (status : Nat) (s : State) (h_s : good β s = true) : good β (endUnit n status s) = true := by
  unfold endUnit
  repeat' first | (with_reducible assumption) | (with_reducible apply modWork_good)

theorem traceStart_good {β : Bool} (u : UnitId) (r : Run) (order : Nat) (s : State) (h_s : good β s = true) :
    good β (traceStart u r order s) = true := by
  unfold traceStart
  repeat' first | (with_reducible assumption) | (with_reducible apply emit_good)

theorem traceEnd_good {β : Bool} (u : UnitId) (ctx : Nat) (niche : Nat) (don : Nat) (band : Nat) (status : Nat) (s : State) (h_s : good β s = true) :
    good β (traceEnd u ctx niche don band status s) = true := by
  unfold traceEnd
  repeat' first | (with_reducible assumption) | (simp only [good_mk]; with_reducible refine okV_of _ ?_) | (with_reducible apply emit_good)

theorem takeF_good {β : Bool} (u : UnitId) (s : State) (h_s : good β s = true) : good β (takeF u s) = true := by
  unfold takeF
  repeat' first | (with_reducible assumption) | (with_reducible apply State_modCore_good) | intro _ | split

theorem runForwardable_good {β : Bool} (j : Nat) (op : Nat) (s : State) (body : JEntry → State → State) (hbody : ∀ v0 v1, good β v1 = true → good β (body v0 v1) = true) (h_s :
    good β s = true) :
    good β (runForwardable j op s body) = true := by
  unfold runForwardable
  repeat' first
    | (with_reducible assumption) | (with_reducible apply forwardCmd_good) | (with_reducible apply runCmd_good) | (with_reducible apply hbody)
    | intro _ | split

theorem doTensorRun_good {β : Bool} (j : Nat) (s : State) (h_s : good β s = true) : good β (doTensorRun j s) = true := by
  unfold doTensorRun
  repeat' first
    | (with_reducible assumption) | (simp only [good_mk]; with_reducible refine okV_of _ ?_) | (with_reducible apply runForwardable_good)
    | (with_reducible apply finish_good) | intro _ | split

theorem modJob_good {β : Bool} (b : BeJob) (f : BeJob → BeJob) (s : State) (h_s : good β s = true) : good β (modJob b f s) = true := by
  unfold modJob
  repeat' first | (with_reducible assumption) | (simp only [good_mk]; with_reducible refine okV_of _ ?_)

theorem endJob_good {β : Bool} (b : BeJob) (status : Nat) (s : State) (h_s : good β s = true) : good β (endJob b status s) = true := by
  unfold endJob
  dsimp only
  repeat' first
    | (with_reducible assumption) | (simp only [good_mk]; with_reducible refine okV_of _ ?_) | (with_reducible apply endUnit_good)
    | (with_reducible apply finish_good) | intro _ | split

theorem accountJob_good {β : Bool} (b : BeJob) (f : Account → Account) (s : State) (h_s : good β s = true) : good β (accountJob b f s) = true := by
  unfold accountJob
  repeat' first | (with_reducible assumption) | (with_reducible apply account_good) | intro _ | split

theorem countPreempt_good {β : Bool} (b : BeJob) (s : State) (h_s : good β s = true) : good β (countPreempt b s) = true := by
  unfold countPreempt
  dsimp only
  repeat' first
    | (with_reducible assumption) | (with_reducible apply modJob_good) | (with_reducible apply count_good)
    | (with_reducible apply accountJob_good) | intro _ | split

theorem restartNiche_good {β : Bool} (b : BeJob) (s : State) (h_s : good β s = true) : good β (restartNiche b s) = true := by
  unfold restartNiche
  repeat' first | (with_reducible assumption) | (with_reducible apply countPreempt_good) | (with_reducible apply modJob_good) | intro _ | split

theorem restartJob_good {β : Bool} (b : BeJob) (s : State) (h_s : good β s = true) : good β (restartJob b s) = true := by
  unfold restartJob
  repeat' first | (with_reducible assumption) | (with_reducible apply modJob_good)

theorem stopWork_good {β : Bool} (u : UnitId) (n : Nat) (s : State) (h_s : good β s = true) : good β (stopWork u n s) = true := by
  unfold stopWork
  repeat' first | (with_reducible assumption) | (with_reducible apply State_modSession_good)

theorem restartUnit_good {β : Bool} (b : BeJob) (s : State) (h_s : good β s = true) : good β (restartUnit b s) = true := by
  unfold restartUnit
  dsimp only
  repeat' first | (with_reducible assumption) | (with_reducible apply stopWork_good) | (with_reducible apply modJob_good) | intro _ | split

theorem abortJob_good {β : Bool} (b : BeJob) (status : Nat) (s : State) (h_s : good β s = true) : good β (abortJob b status s) = true := by
  unfold abortJob
  repeat' first
    | (with_reducible assumption) | (with_reducible apply endJob_good) | (with_reducible apply restartUnit_good)
    | (with_reducible apply modJob_good) | (with_reducible apply restartNiche_good) | intro _ | split

theorem swapCore_good {β : Bool} (old : Nat → Region) (c : Nat) (s : State) (h_s : good β s = true) : good β (swapCore old c s) = true := by
  unfold swapCore
  dsimp only
  repeat' first
    | (with_reducible assumption) | (with_reducible apply State_modCore_good) | (with_reducible apply forAll_good)
    | (with_reducible apply modJob_good) | (with_reducible apply restartNiche_good) | (with_reducible apply restartJob_good) | intro _ | split

theorem setResident_good {β : Bool} (c : Nat) (w : Nat × Nat) (s : State) (h_s : good β s = true) : good β (setResident c w s) = true := by
  unfold setResident
  dsimp only
  repeat' first | (with_reducible assumption) | (with_reducible apply forAll_good) | (with_reducible apply State_modCore_good) | intro _ | split

theorem noteWait_good {β : Bool} (b : BeJob) (k : Nat) (s : State) (h_s : good β s = true) : good β (noteWait b k s) = true := by
  unfold noteWait
  repeat' first | (with_reducible assumption) | (with_reducible apply State_modSession_good) | intro _ | split

theorem takeJob_good {β : Bool} (c : Nat) (u : UnitId) (b : BeJob) (s : State) (h_s : good β s = true) : good β (takeJob c u b s) = true := by
  unfold takeJob
  dsimp only
  repeat' first
    | (with_reducible assumption) | (with_reducible apply setResident_good) | (with_reducible apply noteWait_good)
    | (with_reducible apply accountJob_good) | (with_reducible apply modJob_good) | (with_reducible apply takeF_good) | intro _ | split

theorem placeJob_good {β : Bool} (c : Nat) (u : UnitId) (b : BeJob) (n : OpNiche) (s : State) (h_s : good β s = true) :
    good β (placeJob c u b n s) = true := by
  unfold placeJob
  dsimp only
  repeat' first
    | (with_reducible assumption) | (with_reducible apply emit_good) | (with_reducible apply takeJob_good) | (with_reducible apply traceEnd_good)
    | (with_reducible apply count_good) | (with_reducible apply endJob_good) | intro _ | split

theorem resumeJob_good {β : Bool} (u : UnitId) (b : BeJob) (s : State) (h_s : good β s = true) : good β (resumeJob u b s) = true := by
  unfold resumeJob
  dsimp only
  repeat' first
    | (with_reducible assumption) | (with_reducible apply modJob_good) | (with_reducible apply takeF_good) | (with_reducible apply emit_good)

theorem doBeGap_good {β : Bool} (u : UnitId) (s : State) (h_s : good β s = true) : good β (doBeGap u s) = true := by
  unfold doBeGap
  dsimp only
  repeat' first
    | (with_reducible assumption) | (with_reducible apply resumeJob_good) | (with_reducible apply forAll_good)
    | (with_reducible apply endJob_good) | (with_reducible apply placeJob_good) | intro _ | split

theorem doBePause_good {β : Bool} (u : UnitId) (tilesDone : Nat) (s : State) (h_s : good β s = true) : good β (doBePause u tilesDone s) = true := by
  unfold doBePause
  dsimp only
  repeat' first
    | (with_reducible assumption) | (with_reducible apply countPreempt_good) | (with_reducible apply modJob_good)
    | (with_reducible apply emit_good) | intro _ | split

theorem sendCollective_good {β : Bool} (n : Nat) (kind : Nat) (ps : List Word) (peer : Nat) (s : State) (h_s : good β s = true) :
    good β (sendCollective n kind ps peer s) = true := by
  unfold sendCollective
  dsimp only
  repeat' first
    | (with_reducible assumption) | (simp only [good_mk]; with_reducible refine okV_of _ ?_) | (with_reducible apply State_modSession_good)
    | (with_reducible apply sendSeq_good)

theorem sendUnit_good {β : Bool} (n : Nat) (kind : Nat) (positions : Nat) (s : State) (h_s : good β s = true) :
    good β (sendUnit n kind positions s) = true := by
  unfold sendUnit
  dsimp only
  repeat' first
    | (with_reducible assumption) | (with_reducible apply State_modSession_good) | (with_reducible apply forAll_good)
    | (with_reducible apply sendCollective_good) | (with_reducible apply scatterLayer_good) | intro _ | split

theorem writeKv_good {β : Bool} (n : Nat) (pos : Nat) (r : KvRow) (s : State) (h_s : good β s = true) : good β (writeKv n pos r s) = true := by
  unfold writeKv
  dsimp only
  repeat' first | (with_reducible assumption) | (with_reducible apply dramWrite_good) | intro _ | split

theorem writeRows_good {β : Bool} (n : Nat) (l : List (List KvRow)) (s : State) (h_s : good β s = true) : good β (writeRows n l s) = true := by
  unfold writeRows
  repeat' first | (with_reducible assumption) | (with_reducible apply forAll_good) | (with_reducible apply writeKv_good) | intro _

theorem commitRows_good {β : Bool} (n : Nat) (k : Nat) (s : State) (h_s : good β s = true) : good β (commitRows n k s) = true := by
  unfold commitRows
  repeat' first | (with_reducible assumption) | (with_reducible apply writeHeaders_good) | (with_reducible apply State_modSession_good)

theorem slideTimes_good {β : Bool} (n m : Nat) (s : State) (h : good β s = true) : good β (slideTimes n m s) = true := by
  induction m generalizing s with
  | zero => exact h
  | succ m ih => exact ih _ (State_modSession_good _ _ _ h)

theorem slideIf_good {β : Bool} (n k : Nat) (s : State) (h : good β s = true) : good β (slideIf n k s).2 = true := by
  unfold slideIf
  dsimp only
  generalize (if (s.session n).slide = true then slidesFor (s.session n).tMax k (s.session n).tCtx else 0) = m
  split
  · exact h
  · exact writeHeaders_good _ _ (slideTimes_good _ _ _ h)

theorem admitSession_good {β : Bool} (j : Nat) (n : Nat) (client : Nat) (a : SeqArgs) (m : MaqEntry) (be : Bool) (lane : Option (Nat × Nat)) (s : State) (h_s :
    good β s = true) :
    good β (admitSession j n client a m be lane s) = true := by
  unfold admitSession
  dsimp only
  repeat' first
    | (with_reducible assumption) | (refine allocAll_good ?_ (by assumption)) | (with_reducible apply finish_good)
    | (with_reducible apply writeHeaders_good) | (with_reducible apply State_setSession_good) | (with_reducible apply finishCtx_good)
    | (with_reducible apply forAll_good) | (with_reducible apply sendCollective_good) | (with_reducible apply State_modSession_good) | intro _
    | split

theorem cancelOpen_good {β : Bool} (j : Nat) (n : Nat) (s : State) (h_s : good β s = true) : good β (cancelOpen j n s) = true := by
  unfold cancelOpen
  dsimp only
  repeat' first
    | (with_reducible assumption) | (with_reducible apply forAll_good) | (with_reducible apply sendCollective_good)
    | (with_reducible apply dropPages_good) | (with_reducible apply finish_good) | (with_reducible apply State_setSession_good)

theorem finishOpen_good {β : Bool} (j : Nat) (n : Nat) (s : State) (h_s : good β s = true) : good β (finishOpen j n s) = true := by
  unfold finishOpen
  dsimp only
  repeat' first
    | (with_reducible assumption) | (with_reducible apply cancelOpen_good) | (with_reducible apply finishCtx_good)
    | (with_reducible apply State_modSession_good) | intro _ | split

theorem openChecks_good {β : Bool} (j : Nat) (n : Nat) (e : JEntry) (s : State) (h_s : good β s = true) : good β (openChecks j n e s) = true := by
  unfold openChecks
  dsimp only
  repeat' first | (with_reducible assumption) | (with_reducible apply finish_good) | (with_reducible apply admitSession_good) | intro _ | split

theorem openSession_good {β : Bool} (j : Nat) (e : JEntry) (s : State) (h_s : good β s = true) : good β (openSession j e s) = true := by
  unfold openSession
  dsimp only
  repeat' first | (with_reducible assumption) | (with_reducible apply finish_good) | (with_reducible apply openChecks_good) | intro _ | split

theorem doSeqOpen_good {β : Bool} (j : Nat) (s : State) (h_s : good β s = true) : good β (doSeqOpen j s) = true := by
  unfold doSeqOpen
  repeat' first
    | (with_reducible assumption) | (with_reducible apply finishOpen_good) | (with_reducible apply runCmd_good)
    | (with_reducible apply openSession_good) | intro _ | split

theorem endWork_good {β : Bool} (n : Nat) (status : Nat) (s : State) (h_s : good β s = true) : good β (endWork n status s) = true := by
  unfold endWork
  dsimp only
  repeat' first
    | (with_reducible assumption) | (simp only [good_mk]; with_reducible refine okV_of _ ?_) | (with_reducible apply State_modSession_good)
    | (with_reducible apply finish_good) | intro _ | split

theorem queueUnit_good {β : Bool} (n : Nat) (s : State) (h_s : good β s = true) : good β (queueUnit n s) = true := by
  unfold queueUnit
  dsimp only
  repeat' first
    | (with_reducible assumption) | (simp only [good_mk]; with_reducible refine okV_of _ ?_) | (with_reducible apply modWork_good) | intro _
    | split

theorem beginUnit_good {β : Bool} (n kind k : Nat) (s : State) (h : good β s = true) : good β (beginUnit n kind k s) = true :=
  queueUnit_good _ _ (modWork_good _ _ _ (slideIf_good _ _ _ (sendUnit_good _ _ _ _ h)))

theorem nextUnit_good {β : Bool} (n : Nat) (s : State) (h_s : good β s = true) : good β (nextUnit n s) = true := by
  unfold nextUnit
  dsimp only
  repeat' first
    | (with_reducible assumption) | (with_reducible apply beginUnit_good) | (with_reducible apply modWork_good)
    | (with_reducible apply endWork_good) | intro _ | split

theorem takeRows_good {β : Bool} (n : Nat) (rows : List (List KvRow)) (s : State) (h_s : good β s = true) : good β (takeRows n rows s) = true := by
  unfold takeRows
  repeat' first | (with_reducible assumption) | (with_reducible apply modWork_good) | (with_reducible apply writeRows_good)

theorem abandonUnit_good {β : Bool} (n : Nat) (w : SeqWork) (s : State) (h_s : good β s = true) : good β (abandonUnit n w s) = true := by
  unfold abandonUnit
  dsimp only
  repeat' first
    | (with_reducible assumption) | (simp only [good_mk]; with_reducible refine okV_of _ ?_) | (with_reducible apply issueTo_good)
    | (with_reducible apply endWork_good) | intro _ | split

theorem commitChunk_good {β : Bool} (n : Nat) (r : AppendRun) (s : State) (h_s : good β s = true) : good β (commitChunk n r s) = true := by
  unfold commitChunk
  dsimp only
  repeat' first
    | (with_reducible assumption) | (with_reducible apply commitRows_good) | (with_reducible apply writeRows_good)
    | (with_reducible apply State_modSession_good) | (with_reducible apply nextUnit_good) | (with_reducible apply modWork_good)

theorem commitStep_good {β : Bool} (n : Nat) (w : SeqWork) (r : StepRun) (s : State) (h_s : good β s = true) :
    good β (commitStep n w r s) = true := by
  unfold commitStep
  dsimp only
  repeat' first
    | (with_reducible assumption) | (with_reducible apply commitRows_good) | (with_reducible apply writeRows_good)
    | (with_reducible apply State_modSession_good) | (with_reducible apply issueTo_good) | (with_reducible apply nextUnit_good)
    | (with_reducible apply modWork_good)

theorem runChunk_good {β : Bool} (n : Nat) (r : AppendRun) (s : State) (h_s : good β s = true) : good β (runChunk n r s) = true := by
  unfold runChunk
  dsimp only
  repeat' first
    | (with_reducible assumption) | (with_reducible apply abandonUnit_good) | (with_reducible apply commitChunk_good)
    | (with_reducible apply takeRows_good) | intro _ | split

theorem runSteps_good {β : Bool} (n : Nat) (l : List StepRun) (s : State) (h : good β s = true) : good β (runSteps n l s) = true := by
  induction l generalizing s with
  | nil =>
    unfold runSteps
    repeat' first | assumption | (with_reducible apply abandonUnit_good) | split
  | cons r l ih =>
    unfold runSteps
    dsimp only
    repeat' first
      | assumption | (with_reducible apply abandonUnit_good) | (with_reducible apply ih) | (with_reducible apply commitStep_good)
      | (with_reducible apply takeRows_good) | split

theorem beginWork_good {β : Bool} (n : Nat) (w : SeqWork) (s : State) (h_s : good β s = true) : good β (beginWork n w s) = true := by
  unfold beginWork
  repeat' first | (with_reducible assumption) | (with_reducible apply nextUnit_good) | (with_reducible apply State_modSession_good)

theorem whenUp_good {β : Bool} (s : State) (t : State) (h_s : good β s = true) (h_t : good β t = true) : good β (whenUp s t) = true := by
  unfold whenUp
  repeat' first | (with_reducible assumption) | intro _ | split

theorem beginAppend_good {β : Bool} (j : Nat) (e : JEntry) (s : State) (h_s : good β s = true) : good β (beginAppend j e s) = true := by
  unfold beginAppend
  dsimp only
  repeat' first
    | (with_reducible assumption) | (with_reducible apply count_good) | (with_reducible apply finish_good)
    | (with_reducible apply beginWork_good) | intro _ | split

theorem doSeqAppend_good {β : Bool} (j : Nat) (r : AppendRun) (s : State) (h_s : good β s = true) : good β (doSeqAppend j r s) = true := by
  unfold doSeqAppend
  repeat' first
    | (with_reducible assumption) | (with_reducible apply whenUp_good) | (with_reducible apply runChunk_good)
    | (with_reducible apply runCmd_good) | (with_reducible apply beginAppend_good) | intro _ | split

theorem beginStep_good {β : Bool} (j : Nat) (e : JEntry) (s : State) (h_s : good β s = true) : good β (beginStep j e s) = true := by
  unfold beginStep
  dsimp only
  repeat' first | (with_reducible assumption) | (with_reducible apply finish_good) | (with_reducible apply beginWork_good) | intro _ | split

theorem doSeqStep_good {β : Bool} (j : Nat) (runs : List StepRun) (s : State) (h : good β s = true) : good β (doSeqStep j runs s) = true := by
  unfold doSeqStep
  split
  · exact whenUp_good _ _ h (runSteps_good _ _ _ h)
  · exact good_ite h (runForwardable_good _ _ _ _ (fun e t ht => beginStep_good _ _ _ ht) h)

theorem beginFed_good {β : Bool} (n : Nat) (s : State) (h_s : good β s = true) : good β (beginFed n s) = true := by
  unfold beginFed
  dsimp only
  repeat' first
    | (with_reducible assumption) | (with_reducible apply State_modSession_good) | (with_reducible apply count_good)
    | (with_reducible apply beginWork_good) | (with_reducible apply account_good) | intro _ | split

theorem goOnFed_good {β : Bool} (n : Nat) (r : AppendRun) (runs : List StepRun) (s : State) (h_s : good β s = true) :
    good β (goOnFed n r runs s) = true := by
  unfold goOnFed
  dsimp only
  repeat' first
    | (with_reducible assumption) | (with_reducible apply runSteps_good) | (with_reducible apply runChunk_good)
    | (with_reducible apply State_modSession_good) | intro _ | split

theorem doFedAppend_good {β : Bool} (n : Nat) (r : AppendRun) (runs : List StepRun) (s : State) (h_s : good β s = true) :
    good β (doFedAppend n r runs s) = true := by
  unfold doFedAppend
  repeat' first | (with_reducible assumption) | (with_reducible apply goOnFed_good) | (with_reducible apply beginFed_good) | intro _ | split

theorem doSeqClose_good {β : Bool} (j : Nat) (s : State) (h_s : good β s = true) : good β (doSeqClose j s) = true := by
  unfold doSeqClose
  dsimp only
  repeat' first
    | (with_reducible assumption) | (with_reducible apply runCmd_good) | (with_reducible apply rejectClose_good)
    | (with_reducible apply count_good) | (with_reducible apply State_modSession_good) | (with_reducible apply flush_good)
    | (with_reducible apply interim_good) | intro _ | split

theorem doSeqTrigger_good {β : Bool} (model : Nat) (group : Nat) (s : State) (h_s : good β s = true) :
    good β (doSeqTrigger model group s) = true := by
  unfold doSeqTrigger
  dsimp only
  repeat' first
    | (with_reducible assumption) | (simp only [good_mk]; with_reducible refine okV_of _ ?_) | (with_reducible apply forAll_good)
    | (with_reducible apply modWork_good) | (with_reducible apply emit_good) | (with_reducible apply releaseNiches_good) | intro _ | split

theorem shadowPlace_good {β : Bool} (j chip n : Nat) (e : JEntry) (m : MaqEntry) (r : Option (List (List Alloc)) × State) (h : good β r.2 = true) :
    good β (shadowPlace j chip n e m r) = true := by
  unfold shadowPlace
  split
  · exact finish_good _ _ _ _ h
  · exact finish_good _ _ _ _ (writeHeaders_good _ _ (State_setSession_good _ _ _ h))

theorem shadowOpen_good {β : Bool} (j chip : Nat) (e : JEntry) (s : State) (h : good β s = true) : good β (shadowOpen j chip e s) = true := by
  unfold shadowOpen
  cases modelEntry s (fld (e.param 1) 23 16) with
  | none => exact finish_good _ _ _ _ h
  | some m =>
    refine good_ite (finish_good _ _ _ _ h) ?_
    cases freeSession s with
    | none => exact finish_good _ _ _ _ h
    | some n => exact shadowPlace_good _ _ _ _ _ _ (allocAll_snd_good _ _ _ _ _ h)

theorem commitShadow_good {β : Bool} (n : Nat) (tCtx : Nat) (s : State) (h_s : good β s = true) : good β (commitShadow n tCtx s) = true := by
  unfold commitShadow
  dsimp only
  repeat' first
    | (with_reducible assumption) | (with_reducible apply commitRows_good) | (with_reducible apply State_modSession_good) | intro _ | split

theorem doCollective_good {β : Bool} (j : Nat) (rows : List (List KvRow)) (s : State) (h_s : good β s = true) :
    good β (doCollective j rows s) = true := by
  unfold doCollective
  dsimp only
  repeat' first
    | (with_reducible assumption) | (with_reducible apply runCmd_good) | (with_reducible apply finish_good)
    | (with_reducible apply shadowOpen_good) | (with_reducible apply commitShadow_good) | (with_reducible apply dropShadow_good)
    | (with_reducible apply State_modSession_good) | (with_reducible apply writeRows_good) | (with_reducible apply slideIf_good) | intro _ | split

theorem doMaquetteLoad_good {β : Bool} (j : Nat) (p : Package) (s : State) (h_s : good β s = true) : good β (doMaquetteLoad j p s) = true := by
  unfold doMaquetteLoad
  dsimp only
  repeat' first
    | (with_reducible assumption) | (simp only [good_mk]; with_reducible refine okV_of _ ?_) | (with_reducible apply runCmd_good)
    | (with_reducible apply finish_good) | (refine allocPool_good ?_ (by assumption)) | (with_reducible apply finishCtx_good) | intro _ | split

theorem doMaquetteDrop_good {β : Bool} (j : Nat) (s : State) (h_s : good β s = true) : good β (doMaquetteDrop j s) = true := by
  unfold doMaquetteDrop
  repeat' first
    | (with_reducible assumption) | (simp only [good_mk]; with_reducible refine okV_of _ ?_) | (with_reducible apply runCmd_good)
    | (with_reducible apply finish_good) | (with_reducible apply forAll_good) | (with_reducible apply release_good) | intro _ | split

theorem sweepArmatures_good {β : Bool} (s : State) (h_s : good β s = true) : good β (sweepArmatures s) = true := by
  unfold sweepArmatures
  dsimp only
  repeat' first
    | (with_reducible assumption) | (simp only [good_mk]; with_reducible refine okV_of _ ?_) | (with_reducible apply forAll_good)
    | (with_reducible apply release_good) | intro _

theorem shelve_good {β : Bool} (h : Nat) (s : State) (h_s : good β s = true) : good β (shelve h s) = true := by
  unfold shelve
  dsimp only
  repeat' first
    | (with_reducible assumption) | (simp only [good_mk]; with_reducible refine okV_of _ ?_) | (with_reducible apply sweepArmatures_good)
    | intro _ | split

theorem eccWrite_good {β : Bool} (l : List Alloc) (bs : List Byte) (s : State) (h : good β s = true) : good β (eccWrite l bs s) = true := by
  unfold eccWrite
  exact dram_good s _ h (wf_foldl _ _ (fun m x hm => wf_mput hm _ _) ((good_iff β s).mp h).2.1)

theorem writeTables_good {β : Bool} (t : Schedule) (bufs : List (List Alloc)) (s : State) (h_s : good β s = true) :
    good β (writeTables t bufs s) = true := by
  unfold writeTables
  repeat' first | (with_reducible assumption) | (with_reducible apply forAll_good) | (with_reducible apply eccWrite_good) | intro _

theorem writeArmature_good {β : Bool} (p : CommitPlan) (bufs : List (List Alloc)) (s : State) (h_s : good β s = true) :
    good β (writeArmature p bufs s) = true := by
  unfold writeArmature
  dsimp only
  repeat' first | (with_reducible assumption) | (with_reducible apply forAll_good) | (with_reducible apply writeTables_good) | intro _

theorem placeContents_good {β : Bool} (l : List (Nat × Nat × List Byte)) (s : State) (h_s : good β s = true) :
    good β (placeContents l s) = true := by
  unfold placeContents
  repeat' first | (with_reducible assumption) | (with_reducible apply forAll_good) | (with_reducible apply State_modCore_good) | intro _

theorem commitArmature_good {β : Bool} (j : Nat) (h : Nat) (e : JEntry) (block : List Word) (p : CommitPlan) (bufs : List (List Alloc)) (s : State) (h_s :
    good β s = true) :
    good β (commitArmature j h e block p bufs s) = true := by
  unfold commitArmature
  dsimp only
  repeat' first
    | (with_reducible assumption) | (simp only [good_mk]; with_reducible refine okV_of _ ?_) | (with_reducible apply shelve_good)
    | (with_reducible apply placeContents_good) | (with_reducible apply writeArmature_good) | (with_reducible apply hostWrite_good)
    | (with_reducible apply finishCtx_good)

theorem doArmatureCommit_good {β : Bool} (j : Nat) (block : List Word) (p : CommitPlan) (s : State) (h_s : good β s = true) :
    good β (doArmatureCommit j block p s) = true := by
  unfold doArmatureCommit
  repeat' first
    | (with_reducible assumption) | (with_reducible apply runCmd_good) | (with_reducible apply finish_good)
    | (refine allocAll_good ?_ (by assumption)) | (with_reducible apply commitArmature_good) | intro _ | split

theorem watchNewCores_good {β : Bool} (s : State) (h_s : good β s = true) : good β (watchNewCores s) = true := by
  unfold watchNewCores
  repeat' first | (with_reducible assumption) | (with_reducible apply forAll_good) | (with_reducible apply State_modCore_good) | intro _ | split

theorem unbindWork_good {β : Bool} (n : Nat) (s : State) (h_s : good β s = true) : good β (unbindWork n s) = true := by
  unfold unbindWork
  repeat' first | (with_reducible assumption) | (simp only [good_mk]; with_reducible refine okV_of _ ?_) | (with_reducible apply modWork_good)

theorem demote_good {β : Bool} (n : Nat) (s : State) (h_s : good β s = true) : good β (demote n s) = true := by
  unfold demote
  dsimp only
  repeat' first | (with_reducible assumption) | (with_reducible apply State_modSession_good) | (with_reducible apply queueUnit_good) | intro _ | split

theorem activate_good {β : Bool} (r : SchedRef) (s : State) (h_s : good β s = true) : good β (activate r s) = true := by
  unfold activate
  dsimp only
  repeat' first
    | (with_reducible assumption) | (simp only [good_mk]; with_reducible refine okV_of _ ?_) | (with_reducible apply forAll_good)
    | (with_reducible apply swapCore_good) | (with_reducible apply unbindWork_good) | (with_reducible apply watchNewCores_good)
    | (with_reducible apply demote_good)

theorem doArmatureSwap_good {β : Bool} (j : Nat) (s : State) (h_s : good β s = true) : good β (doArmatureSwap j s) = true := by
  unfold doArmatureSwap
  dsimp only
  repeat' first
    | (with_reducible assumption) | (with_reducible apply runCmd_good) | (with_reducible apply finish_good) | (with_reducible apply detect_good)
    | (with_reducible apply activate_good) | intro _ | split

theorem coverLast_good {β : Bool} (session : Bool) (ctx : Nat) (s : State) (h_s : good β s = true) : good β (coverLast session ctx s) = true := by
  unfold coverLast
  repeat' first | (with_reducible assumption) | (with_reducible apply forAll_good) | (with_reducible apply tailWriteBack_good) | intro _ | split

theorem retireTracks_good {β : Bool} (n : Nat) (s : State) (h_s : good β s = true) : good β (retireTracks n s) = true := by
  unfold retireTracks
  repeat' first | (with_reducible assumption) | (simp only [good_mk]; with_reducible refine okV_of _ ?_)

theorem freeStream_good {β : Bool} (n : Nat) (s : State) (h : good β s = true) : good β (freeStream n s) = true := by
  have hh := (good_iff β s).mp h
  unfold freeStream
  refine State_modStream_good _ _ _ (retireTracks_good _ _ (forAll_good _ _ (fun a t k => release_good _ _ k) _ ?_))
  exact (good_iff β _).mpr ⟨hh.1, wf_regionClear _ hh.2.1, hh.2.2⟩

theorem closeStream_good {β : Bool} (j : Nat) (n : Nat) (s : State) (h_s : good β s = true) : good β (closeStream j n s) = true := by
  unfold closeStream
  dsimp only
  repeat' first
    | (with_reducible assumption) | (simp only [good_mk]; with_reducible refine okV_of _ ?_) | (with_reducible apply State_setStream_good)
    | (with_reducible apply finishCtx_good) | (with_reducible apply setPool_good)

theorem stepClose_good {β : Bool} (j : Nat) (n : Nat) (c : CloseSt) (s : State) (h_s : good β s = true) : good β (stepClose j n c s) = true := by
  unfold stepClose
  dsimp only
  repeat' first
    | (with_reducible assumption) | (with_reducible apply coverLast_good) | (with_reducible apply freeStream_good)
    | (with_reducible apply closeStream_good) | intro _ | split

theorem endPages_good {β : Bool} (n : Nat) (s : State) (h_s : good β s = true) : good β (endPages n s) = true := by
  unfold endPages
  dsimp only
  repeat' first
    | (with_reducible assumption) | (with_reducible apply dropPages_good) | (with_reducible apply forAll_good)
    | (with_reducible apply sendCollective_good) | (with_reducible apply State_modSession_good)

theorem closeSession_good {β : Bool} (j : Nat) (n : Nat) (s : State) (h_s : good β s = true) : good β (closeSession j n s) = true := by
  unfold closeSession
  dsimp only
  repeat' first | (with_reducible assumption) | (with_reducible apply State_setSession_good) | (with_reducible apply finishCtx_good)

theorem stepSessionClose_good {β : Bool} (j : Nat) (n : Nat) (c : CloseSt) (s : State) (h_s : good β s = true) :
    good β (stepSessionClose j n c s) = true := by
  unfold stepSessionClose
  dsimp only
  repeat' first
    | (with_reducible assumption) | (with_reducible apply coverLast_good) | (with_reducible apply endPages_good)
    | (with_reducible apply closeSession_good) | intro _ | split

theorem doCloseFinal_good {β : Bool} (j : Nat) (s : State) (h_s : good β s = true) : good β (doCloseFinal j s) = true := by
  unfold doCloseFinal
  repeat' first | (with_reducible assumption) | (with_reducible apply stepSessionClose_good) | (with_reducible apply stepClose_good) | intro _ | split

theorem clearDeferred_good {β : Bool} (n : Bool × Nat) (s : State) (h_s : good β s = true) : good β (clearDeferred n s) = true := by
  unfold clearDeferred
  repeat' first
    | (with_reducible assumption) | (with_reducible apply State_modSession_good) | (with_reducible apply State_modStream_good) | intro _ | split

theorem endOpening_good {β : Bool} (j : Nat) (n : Bool × Nat) (s : State) (h_s : good β s = true) : good β (endOpening j n s) = true := by
  unfold endOpening
  repeat' first
    | (with_reducible assumption) | (with_reducible apply State_modSession_good) | (with_reducible apply State_modStream_good) | intro _ | split

theorem doDeferredOpenRun_good {β : Bool} (j : Nat) (s : State) (h_s : good β s = true) : good β (doDeferredOpenRun j s) = true := by
  unfold doDeferredOpenRun
  dsimp only
  repeat' first
    | (with_reducible assumption) | (with_reducible apply clearDeferred_good) | (with_reducible apply modEntry_good)
    | (with_reducible apply endOpening_good) | (with_reducible apply runCmd_good) | (with_reducible apply openSession_good)
    | (with_reducible apply openStream_good) | intro _ | split

theorem seqMx_good {β : Bool} (b : Batch) (c : Nat) (kv : Option (Nat × Nat × Bool)) (d : MxDesc) (s : State) (h_s : good β s = true) :
    good β (seqMx b c kv d s) = true := by
  unfold seqMx
  repeat' first | (with_reducible assumption) | (with_reducible apply applyMx_good) | (with_reducible apply applyMxOn_good) | intro _ | split

theorem seqVx_good {β : Bool} (b : Batch) (c : Nat) (kv : Option (Nat × Nat × Bool)) (d : VxDesc) (s : State) (h_s : good β s = true) :
    good β (seqVx b c kv d s) = true := by
  unfold seqVx
  repeat' first | (with_reducible assumption) | (with_reducible apply applyVxOn_good)

theorem doTrackConfig_good {β : Bool} (j : Nat) (s : State) (h_s : good β s = true) : good β (doTrackConfig j s) = true := by
  unfold doTrackConfig
  dsimp only
  repeat' first
    | (with_reducible assumption) | (with_reducible apply runCmd_good) | (with_reducible apply finish_good)
    | (with_reducible apply State_modStream_good) | intro _ | split

theorem doTrackQuery_good {β : Bool} (j : Nat) (s : State) (h_s : good β s = true) : good β (doTrackQuery j s) = true := by
  unfold doTrackQuery
  dsimp only
  repeat' first
    | (with_reducible assumption) | (with_reducible apply runCmd_good) | (with_reducible apply finish_good)
    | (with_reducible apply writeImage_good) | intro _ | split

theorem rerunGroup_good {β : Bool} (x : Run) (s : State) (h_s : good β s = true) : good β (rerunGroup x s) = true := by
  unfold rerunGroup
  dsimp only
  repeat' first
    | (with_reducible assumption) | (simp only [good_mk]; with_reducible refine okV_of _ ?_) | (with_reducible apply forAll_good)
    | (with_reducible apply stopWork_good) | (with_reducible apply refresh_good) | intro _

theorem abortRun_good {β : Bool} (x : Run) (status : Nat) (s : State) (h_s : good β s = true) : good β (abortRun x status s) = true := by
  unfold abortRun
  dsimp only
  repeat' first
    | (with_reducible assumption) | (simp only [good_mk]; with_reducible refine okV_of _ ?_) | (with_reducible apply rerunGroup_good)
    | (with_reducible apply skipFrom_good) | (with_reducible apply State_modCore_good) | intro _ | split

theorem faultRun_good {β : Bool} (x : Run) (status : Nat) (s : State) (h_s : good β s = true) : good β (faultRun x status s) = true := by
  unfold faultRun
  repeat' first | (with_reducible assumption) | (with_reducible apply abortRun_good) | (with_reducible apply skipFrom_good) | intro _ | split

theorem settleMarks_good {β : Bool} (u : UnitId) (w : Run) (g : List Run) (s : State) (h_s : good β s = true) :
    good β (settleMarks u w g s) = true := by
  unfold settleMarks
  dsimp only
  repeat' first
    | (with_reducible assumption) | (simp only [good_mk]; with_reducible refine okV_of _ ?_) | (with_reducible apply emit_good) | intro _ | split

theorem takeTrackCfg_good {β : Bool} (x : Run) (s : State) (h_s : good β s = true) : good β (takeTrackCfg x s) = true := by
  unfold takeTrackCfg
  dsimp only
  repeat' first | (with_reducible assumption) | (with_reducible apply modPic_good) | (with_reducible apply State_modStream_good) | intro _ | split

theorem runOut_good {β : Bool} (x : Run) (r : NicheResult) (s : State) (h_s : good β s = true) : good β (runOut x r s) = true := by
  unfold runOut
  dsimp only
  repeat' first | (with_reducible assumption) | (with_reducible apply forAll_good) | (with_reducible apply writeOutput_good) | intro _ | split

theorem writeBoxes_good {β : Bool} (x : Run) (r : NicheResult) (s : State) (h : good β s = true) : good β (writeBoxes x r s) = true := by
  unfold writeBoxes
  exact dram_good s _ h (wf_foldl _ _ (fun m b hm => wf_mwrite hm _ _) ((good_iff β s).mp h).2.1)

theorem noteCast_good {β : Bool} (x : Run) (n : NicheEntry) (s : State) (h_s : good β s = true) : good β (noteCast x n s) = true := by
  unfold noteCast
  dsimp only
  repeat' first
    | (with_reducible assumption) | (simp only [good_mk]; with_reducible refine okV_of _ ?_) | (with_reducible apply State_modCore_good)
    | intro _ | split

theorem sweepGroup_good {β : Bool} (x : Run) (s : State) (h_s : good β s = true) : good β (sweepGroup x s) = true := by
  unfold sweepGroup
  dsimp only
  repeat' first
    | (with_reducible assumption) | (simp only [good_mk]; with_reducible refine okV_of _ ?_) | (with_reducible apply forAll_good)
    | (with_reducible apply endUnit_good) | intro _ | split

end Sys2Proof.Laws
end

