-- ==== Sys2Proof/Laws/SoundRecovery.lean ====
section
/-! SUPPORT. Every operation keeps a sound state sound, and leaves SAFE_n low where it is low: Impressions, recovery, replay, start-up. One lemma per operation. -/

namespace Sys2Proof.Laws

open Sys2Proof Sys2Proof.Machine

theorem afterRun_good {β : Bool} (x : Run) (s : State) (h_s : good β s = true) : good β (afterRun x s) = true := by
  unfold afterRun
  dsimp only
  repeat' first
    | (with_reducible assumption) | (with_reducible apply refresh_good) | (with_reducible apply sweepGroup_good)
    | (with_reducible apply sweepBlocks_good) | (with_reducible apply settle_good) | intro _ | split

theorem startRun_good {β : Bool} (u : UnitId) (w : Run) (s : State) (h_s : good β s = true) : good β (startRun u w s) = true := by
  unfold startRun
  dsimp only
  repeat' first
    | (with_reducible assumption) | (with_reducible apply takeTrackCfg_good) | (with_reducible apply modRun_good)
    | (with_reducible apply takeF_good) | (with_reducible apply traceStart_good) | (with_reducible apply count_good)
    | (with_reducible apply detect_good) | (with_reducible apply afterRun_good) | (with_reducible apply traceEnd_good)
    | (with_reducible apply faultRun_good) | intro _ | split

theorem doNicheDispatch_good {β : Bool} (u : UnitId) (s : State) (h_s : good β s = true) : good β (doNicheDispatch u s) = true := by
  unfold doNicheDispatch
  repeat' first | (with_reducible assumption) | (with_reducible apply startRun_good) | (with_reducible apply settleMarks_good) | intro _ | split

theorem logTrk_good {β : Bool} (x : Run) (m : TrkMem) (s : State) (h_s : good β s = true) : good β (logTrk x m s) = true := by
  unfold logTrk
  dsimp only
  repeat' first | (with_reducible assumption) | (simp only [good_mk]; with_reducible refine okV_of _ ?_)

theorem handTrk_good {β : Bool} (s : State) (h_s : good β s = true) : good β (handTrk s) = true := by
  unfold handTrk
  dsimp only
  repeat' first | (with_reducible assumption) | (simp only [good_mk]; with_reducible refine okV_of _ ?_)

theorem settleTrk_good {β : Bool} (s : State) (h_s : good β s = true) : good β (settleTrk s) = true := by
  unfold settleTrk
  dsimp only
  repeat' first | (with_reducible assumption) | (simp only [good_mk]; with_reducible refine okV_of _ ?_) | intro _ | split

theorem runTrk_good {β : Bool} (x : Run) (n : NicheEntry) (s : State) (h_s : good β s = true) : good β (runTrk x n s) = true := by
  unfold runTrk
  dsimp only
  repeat' first
    | (with_reducible assumption) | (with_reducible apply modPic_good) | (with_reducible apply bandRecord_good) | (with_reducible apply logTrk_good)
    | (with_reducible apply settleTrk_good) | (with_reducible apply handTrk_good) | (with_reducible apply count_good) | intro _ | split

theorem stepOut_good {β : Bool} (x : Run) (r : NicheResult) (s : State) (h : good β s = true) : good β (stepOut x r s).1 = true := by
  have k := modRun_good x (fun q => { q with progress := 1 }) _ (runOut_good x r s h)
  unfold stepOut
  split
  · exact modRun_good _ _ _ h
  · split
    · exact h
    · dsimp only
      split
      · exact modRun_good _ _ _ k
      · exact k

theorem nicheEffect_good {β : Bool} (x : Run) (n : NicheEntry) (r : NicheResult) (s : State) (h : good β s = true) :
    good β (nicheEffect x n r s).1 = true := by
  unfold nicheEffect
  split
  · exact h
  · split
    · exact runShp_good _ _ _ _ h
    · exact writeBoxes_good _ _ _ (applyMx_good _ _ _ h)
    · exact writeBoxes_good _ _ _ (good_ite (seqMx_good _ _ _ _ _ h) (applyMx_good _ _ _ h))
    · exact writeBoxes_good _ _ _ (good_ite (seqVx_good _ _ _ _ _ h) (applyVx_good _ _ _ h))
    · exact runTrk_good _ _ _ h
    · exact h
    · exact stepOut_good _ _ _ h
    · exact h

theorem endRun_good {β : Bool} (u : UnitId) (x : Run) (n : NicheEntry) (s : State) (h_s : good β s = true) : good β (endRun u x n s) = true := by
  unfold endRun
  dsimp only
  repeat' first
    | (with_reducible assumption) | (simp only [good_mk]; with_reducible refine okV_of _ ?_) | (with_reducible apply count_good)
    | (with_reducible apply traceEnd_good) | (with_reducible apply modRun_good) | (with_reducible apply afterRun_good)
    | (with_reducible apply noteCast_good) | intro _ | split

theorem eccRun_good {β : Bool} (u : UnitId) (x : Run) (n : NicheEntry) (r : NicheResult) (s : State) (h_s : good β s = true) :
    good β (eccRun u x n r s) = true := by
  unfold eccRun
  dsimp only
  repeat' first
    | (with_reducible assumption) | (with_reducible apply detect_good) | (with_reducible apply endRun_good) | (with_reducible apply runTrk_good)
    | (with_reducible apply stepOut_good) | (with_reducible apply modRun_good) | (with_reducible apply afterRun_good)
    | (with_reducible apply traceEnd_good) | (with_reducible apply faultRun_good) | intro _ | split

theorem applyBe_good {β : Bool} (c : Nat) (u : UnitId) (b : BeJob) (n : OpNiche) (s : State) (h : good β s = true) :
    good β (applyBe c u b n s) = true := by
  unfold applyBe
  split
  · exact seqVx_good _ _ _ _ _ h
  · exact seqMx_good _ _ _ _ _ h
  · exact applyVx_good _ _ _ h
  · exact applyMx_good _ _ _ h

theorem writeJobOut_good {β : Bool} (b : BeJob) (r : NicheResult) (s : State) (h_s : good β s = true) : good β (writeJobOut b r s) = true := by
  unfold writeJobOut
  dsimp only
  repeat' first | (with_reducible assumption) | (with_reducible apply forAll_good) | (with_reducible apply dramWrite_good) | intro _ | split

theorem beComplete_good {β : Bool} (u : UnitId) (b : BeJob) (n : OpNiche) (r : NicheResult) (s : State) (h_s : good β s = true) :
    good β (beComplete u b n r s) = true := by
  unfold beComplete
  dsimp only
  repeat' first
    | (with_reducible assumption) | (with_reducible apply endJob_good) | (with_reducible apply traceEnd_good) | (with_reducible apply forAll_good)
    | (with_reducible apply releaseShare_good) | (with_reducible apply writeJobOut_good) | (with_reducible apply count_good)
    | (with_reducible apply applyBe_good) | (with_reducible apply modJob_good) | intro _ | split

theorem doNicheComplete_good {β : Bool} (u : UnitId) (r : NicheResult) (s : State) (h : good β s = true) :
    good β (doNicheComplete u r s) = true := by
  unfold doNicheComplete
  dsimp only
  repeat' first
    | (with_reducible assumption) | (with_reducible apply eccRun_good) | (with_reducible apply nicheEffect_good)
    | (with_reducible apply shares_good) | (with_reducible apply endRun_good) | (with_reducible apply beComplete_good) | intro _ | split

theorem landWrites_good {β : Bool} (ws : List (Nat × Nat × List Byte)) (s : State) (h_s : good β s = true) : good β (landWrites ws s) = true := by
  unfold landWrites
  repeat' first | (with_reducible assumption) | (with_reducible apply forAll_good) | (with_reducible apply State_modCore_good) | intro _ | split

theorem doXchgLand_good {β : Bool} (c : Nat) (dst : Nat) (s : State) (h_s : good β s = true) : good β (doXchgLand c dst s) = true := by
  unfold doXchgLand
  dsimp only
  repeat' first
    | (with_reducible assumption) | (simp only [good_mk]; with_reducible refine okV_of _ ?_) | (with_reducible apply landWrites_good)
    | (with_reducible apply afterRun_good) | (with_reducible apply abortRun_good) | (with_reducible apply modRun_good) | intro _ | split

theorem doEvidenceSlice_good {β : Bool} (u : Nat) (sl : SliceOut) (s : State) (h_s : good β s = true) : good β (doEvidenceSlice u sl s) = true := by
  unfold doEvidenceSlice
  dsimp only
  repeat' first
    | (with_reducible assumption) | (with_reducible apply bandRecord_good) | (with_reducible apply State_modStream_good)
    | (with_reducible apply modRun_good) | (with_reducible apply foldl_good) | intro _ | split

theorem doRecordWrite_good {β : Bool} (r : RecordReq) (s : State) (h_s : good β s = true) : good β (doRecordWrite r s) = true := by
  unfold doRecordWrite
  dsimp only
  repeat' first | (with_reducible assumption) | (with_reducible apply abandonUnit_good) | (with_reducible apply bandRecord_good) | intro _ | split

theorem doCounterFreeze_good {β : Bool} (j : Nat) (s : State) (h_s : good β s = true) : good β (doCounterFreeze j s) = true := by
  unfold doCounterFreeze
  dsimp only
  repeat' first
    | (with_reducible assumption) | (simp only [good_mk]; with_reducible refine okV_of _ ?_) | (with_reducible apply runCmd_good)
    | (with_reducible apply finish_good) | (with_reducible apply freezeTrigger_good) | intro _ | split

theorem writeObserved_good {β : Bool} (j : Nat) (addr : Nat) (len : Nat) (entries : List (List Byte)) (s : State) (h_s : good β s = true) :
    good β (writeObserved j addr len entries s) = true := by
  unfold writeObserved
  repeat' first | (with_reducible assumption) | (with_reducible apply writeImage_good) | (with_reducible apply takePcie_good)

theorem doCounterRead_good {β : Bool} (j : Nat) (s : State) (h_s : good β s = true) : good β (doCounterRead j s) = true := by
  unfold doCounterRead
  dsimp only
  repeat' first
    | (with_reducible assumption) | (simp only [good_mk]; with_reducible refine okV_of _ ?_) | (with_reducible apply runCmd_good)
    | (with_reducible apply writeObserved_good) | intro _ | split

theorem doClientStats_good {β : Bool} (j : Nat) (s : State) (h_s : good β s = true) : good β (doClientStats j s) = true := by
  unfold doClientStats
  dsimp only
  repeat' first
    | (with_reducible assumption) | (simp only [good_mk]; with_reducible refine okV_of _ ?_) | (with_reducible apply runCmd_good)
    | (with_reducible apply account_good) | (with_reducible apply finish_good) | intro _ | split

theorem doCounterSample_good {β : Bool} (c : Nat) (s : State) (h_s : good β s = true) : good β (doCounterSample c s) = true := by
  unfold doCounterSample
  dsimp only
  repeat' first
    | (with_reducible assumption) | (simp only [good_mk]; with_reducible refine okV_of _ ?_) | (with_reducible apply advanceTo_good)
    | (with_reducible apply emit_good) | intro _ | split

theorem readHead_good {β : Bool} (need : Nat) (headRead : Nat) (s : State) (h_s : good β s = true) : good β (readHead need headRead s) = true := by
  unfold readHead
  dsimp only
  repeat' first | (with_reducible assumption) | (simp only [good_mk]; with_reducible refine okV_of _ ?_) | intro _ | split

theorem traceWrite_good {β : Bool} (bs : List Byte) (s : State) (h_s : good β s = true) : good β (traceWrite bs s) = true := by
  unfold traceWrite
  dsimp only
  repeat' first
    | (with_reducible assumption) | (simp only [good_mk]; with_reducible refine okV_of _ ?_) | (with_reducible apply ringWrite_good)
    | (with_reducible apply hostWords_good)

theorem writeGaps_good {β : Bool} (b : Nat) (s : State) (h_s : good β s = true) : good β (writeGaps b s) = true := by
  unfold writeGaps
  dsimp only
  repeat' first
    | (with_reducible assumption) | (simp only [good_mk]; with_reducible refine okV_of _ ?_) | (with_reducible apply forAll_good)
    | (with_reducible apply setCause_good) | intro _ | split

theorem drainInto_good {β : Bool} (b : Nat) (n : Nat) (s : State) (h_s : good β s = true) : good β (drainInto b n s) = true := by
  unfold drainInto
  dsimp only
  repeat' first
    | (with_reducible assumption) | (simp only [good_mk]; with_reducible refine okV_of _ ?_) | (with_reducible apply traceWrite_good) | intro _
    | split

theorem doTraceDrain_good {β : Bool} (b : Nat) (headRead : Nat) (s : State) (h_s : good β s = true) : good β (doTraceDrain b headRead s) = true := by
  unfold doTraceDrain
  dsimp only
  repeat' first
    | (with_reducible assumption) | (with_reducible apply readHead_good) | (with_reducible apply writeGaps_good)
    | (with_reducible apply drainInto_good) | (with_reducible apply takePcie_good) | intro _ | split

theorem drainAll_good {β : Bool} (s : State) (h_s : good β s = true) : good β (drainAll s) = true := by
  unfold drainAll
  repeat' first | (with_reducible assumption) | (with_reducible apply forAll_good) | (with_reducible apply drainInto_good) | intro _ | split

theorem doTraceConfig_good {β : Bool} (j : Nat) (s : State) (h_s : good β s = true) : good β (doTraceConfig j s) = true := by
  unfold doTraceConfig
  dsimp only
  repeat' first
    | (with_reducible assumption) | (simp only [good_mk]; with_reducible refine okV_of _ ?_) | (with_reducible apply runCmd_good)
    | (with_reducible apply finish_good) | (with_reducible apply drainAll_good) | intro _ | split

theorem doPictureTap_good {β : Bool} (don : Word) (written : Option Nat) (headRead : Nat) (s : State) (h_s : good β s = true) :
    good β (doPictureTap don written headRead s) = true := by
  unfold doPictureTap
  dsimp only
  repeat' first
    | (with_reducible assumption) | (simp only [good_mk]; with_reducible refine okV_of _ ?_) | (with_reducible apply State_modStream_good)
    | (with_reducible apply readHead_good) | (with_reducible apply count_good) | (with_reducible apply takePcie_good)
    | (with_reducible apply takeDram_good) | (with_reducible apply traceWrite_good) | intro _ | split

theorem beginIncident_good {β : Bool} (h : Hang) (code : Nat) (unit : Nat) (s : State) (h_s : good β s = true) :
    good β (beginIncident h code unit s) = true := by
  unfold beginIncident
  dsimp only
  repeat' first | (with_reducible assumption) | (simp only [good_mk]; with_reducible refine okV_of _ ?_)

theorem modImp_good {β : Bool} (n : Nat) (f : Impression → Impression) (s : State) (h_s : good β s = true) : good β (modImp n f s) = true := by
  unfold modImp
  dsimp only
  repeat' first | (with_reducible assumption) | (simp only [good_mk]; with_reducible refine okV_of _ ?_)

theorem keepFlash_good {β : Bool} (i : Impression) (s : State) (h_s : good β s = true) : good β (keepFlash i s) = true := by
  unfold keepFlash
  dsimp only
  repeat' first | (with_reducible assumption) | (simp only [good_mk]; with_reducible refine okV_of _ ?_)

theorem settleInc_good {β : Bool} (n : Nat) (code : Nat) (outcome : Nat) (s : State) (h_s : good β s = true) :
    good β (settleInc n code outcome s) = true := by
  unfold settleInc
  dsimp only
  repeat' first
    | (with_reducible assumption) | (simp only [good_mk]; with_reducible refine okV_of _ ?_) | (with_reducible apply modImp_good)
    | (with_reducible apply keepFlash_good) | intro _ | split

theorem doImpressionRead_good {β : Bool} (src : TestSrc) (s : State) (h_s : good β s = true) : good β (doImpressionRead src s) = true := by
  unfold doImpressionRead
  dsimp only
  repeat' first
    | (with_reducible assumption) | (with_reducible apply runCmd_good) | (with_reducible apply finish_good)
    | (with_reducible apply writeObserved_good) | (with_reducible apply maintenance_good) | (with_reducible apply hostWrite_good)
    | (with_reducible apply takePcie_good) | intro _ | split

theorem pmbus_good {β : Bool} (s : State) (body : State → State) (hbody : ∀ v0, good β v0 = true → good β (body v0) = true) (h_s : good β s = true) :
    good β (pmbus s body) = true := by
  unfold pmbus
  repeat' first | (with_reducible assumption) | (with_reducible apply hbody) | intro _ | split

theorem pmAnswer_good {β : Bool} (bs : Option (List Byte)) (s : State) (h_s : good β s = true) : good β (pmAnswer bs s) = true := by
  unfold pmAnswer
  dsimp only
  repeat' first | (with_reducible assumption) | (simp only [good_mk]; with_reducible refine okV_of _ ?_)

theorem applyCap_good {β : Bool} (s : State) (h_s : good β s = true) : good β (applyCap s) = true := by
  unfold applyCap
  dsimp only
  repeat' first
    | (with_reducible assumption) | (simp only [good_mk]; with_reducible refine okV_of _ ?_) | (with_reducible apply emit_good) | intro _ | split

theorem doCapF_good {β : Bool} (w : Option Nat) (s : State) (h_s : good β s = true) : good β (doCapF w s) = true := by
  unfold doCapF
  dsimp only
  repeat' first
    | (with_reducible assumption) | (simp only [good_mk]; with_reducible refine okV_of _ ?_) | (with_reducible apply pmbus_good)
    | (with_reducible apply pmAnswer_good) | (with_reducible apply applyCap_good) | intro _ | split

theorem doCapPinF_good {β : Bool} (w : Option Nat) (s : State) (h_s : good β s = true) : good β (doCapPinF w s) = true := by
  unfold doCapPinF
  dsimp only
  repeat' first
    | (with_reducible assumption) | (simp only [good_mk]; with_reducible refine okV_of _ ?_) | (with_reducible apply pmbus_good)
    | (with_reducible apply pmAnswer_good) | (with_reducible apply applyCap_good) | intro _ | split

theorem doCapActive_good {β : Bool} (s : State) (h_s : good β s = true) : good β (doCapActive s) = true := by
  unfold doCapActive
  repeat' first | (with_reducible assumption) | (with_reducible apply pmbus_good) | (with_reducible apply pmAnswer_good) | intro _

theorem doOtWarn_good {β : Bool} (w : Option Nat) (s : State) (h_s : good β s = true) : good β (doOtWarn w s) = true := by
  unfold doOtWarn
  dsimp only
  repeat' first
    | (with_reducible assumption) | (simp only [good_mk]; with_reducible refine okV_of _ ?_) | (with_reducible apply pmbus_good)
    | (with_reducible apply pmAnswer_good) | intro _ | split

theorem doCapN_good {β : Bool} (level : Bool) (s : State) (h_s : good β s = true) : good β (doCapN level s) = true := by
  unfold doCapN
  dsimp only
  repeat' first | (with_reducible assumption) | (simp only [good_mk]; with_reducible refine okV_of _ ?_) | (with_reducible apply applyCap_good)

theorem doClearFaults_good {β : Bool} (s : State) (h_s : good β s = true) : good β (doClearFaults s) = true := by
  unfold doClearFaults
  dsimp only
  repeat' first
    | (with_reducible assumption) | (simp only [good_mk]; with_reducible refine okV_of _ ?_) | (with_reducible apply pmbus_good)
    | (with_reducible apply pmAnswer_good) | intro _

theorem doStatusTemperature_good {β : Bool} (s : State) (h_s : good β s = true) : good β (doStatusTemperature s) = true := by
  unfold doStatusTemperature
  repeat' first | (with_reducible assumption) | (with_reducible apply pmbus_good) | (with_reducible apply pmAnswer_good) | intro _

theorem doReadTemperature1_good {β : Bool} (s : State) (h_s : good β s = true) : good β (doReadTemperature1 s) = true := by
  unfold doReadTemperature1
  repeat' first | (with_reducible assumption) | (with_reducible apply pmbus_good) | (with_reducible apply pmAnswer_good) | intro _

theorem doPmbusRevision_good {β : Bool} (s : State) (h_s : good β s = true) : good β (doPmbusRevision s) = true := by
  unfold doPmbusRevision
  repeat' first | (with_reducible assumption) | (with_reducible apply pmbus_good) | (with_reducible apply pmAnswer_good)

theorem doThermtrip_good {β : Bool} (s : State) (h : good β s = true) : good β (doThermtrip s) = true := by
  have hh := (good_iff β s).mp h
  exact (good_iff β _).mpr ⟨hh.1, hh.2.1, hh.2.2.1, hh.2.2.2.1, by simp [doThermtrip]⟩

theorem doTrigIn_good {β : Bool} (s : State) (h_s : good β s = true) : good β (doTrigIn s) = true := by
  unfold doTrigIn
  repeat' first | (with_reducible assumption) | (with_reducible apply freezeTrigger_good) | intro _ | split

theorem requestReset_good {β : Bool} (code : Nat) (n : Nat) (s : State) (h_s : good β s = true) : good β (requestReset code n s) = true := by
  unfold requestReset
  dsimp only
  repeat' first
    | (with_reducible assumption) | (simp only [good_mk]; with_reducible refine okV_of _ ?_) | (with_reducible apply resetTrip_good) | intro _
    | split

theorem absorb_good {β : Bool} (code : Nat) (n : Nat) (s : State) (h_s : good β s = true) : good β (absorb code n s) = true := by
  unfold absorb
  dsimp only
  repeat' first | (with_reducible assumption) | (simp only [good_mk]; with_reducible refine okV_of _ ?_)

theorem traceReset_good {β : Bool} (code : Nat) (n : Nat) (s : State) (h_s : good β s = true) : good β (traceReset code n s) = true := by
  unfold traceReset
  repeat' first | (with_reducible assumption) | (with_reducible apply emit_good)

theorem setFatal_good {β : Bool} (s : State) (h_s : good β s = true) : good β (setFatal s) = true := by
  unfold setFatal
  dsimp only
  repeat' first
    | (with_reducible assumption) | (simp only [good_mk]; with_reducible refine okV_of _ ?_) | (with_reducible apply detect_good)
    | (with_reducible apply setCause_good) | (with_reducible apply uncorLog_good) | intro _ | split

theorem domainFatal_good {β : Bool} (s : State) (h_s : good β s = true) : good β (domainFatal s) = true := by
  unfold domainFatal
  repeat' first
    | (with_reducible assumption) | (with_reducible apply setFatal_good) | (with_reducible apply forAll_good)
    | (with_reducible apply settleInc_good) | intro _

theorem endWaiters_good {β : Bool} (code : Nat) (n : Nat) (s : State) (h_s : good β s = true) : good β (endWaiters code n s) = true := by
  unfold endWaiters
  dsimp only
  repeat' first
    | (with_reducible assumption) | (simp only [good_mk]; with_reducible refine okV_of _ ?_) | (with_reducible apply forAll_good)
    | (with_reducible apply finish_good) | intro _ | split

theorem endReset_good {β : Bool} (code : Nat) (n : Nat) (outcome : Nat) (s : State) (h_s : good β s = true) :
    good β (endReset code n outcome s) = true := by
  unfold endReset
  dsimp only
  repeat' first
    | (with_reducible assumption) | (with_reducible apply layersAgain_good) | (with_reducible apply endWaiters_good)
    | (with_reducible apply forAll_good) | (with_reducible apply settleInc_good) | intro _

theorem escalate_good {β : Bool} (code : Nat) (n : Nat) (code2 : Nat) (n2 : Nat) (s : State) (h_s : good β s = true) :
    good β (escalate code n code2 n2 s) = true := by
  unfold escalate
  dsimp only
  repeat' first
    | (with_reducible assumption) | (simp only [good_mk]; with_reducible refine okV_of _ ?_) | (with_reducible apply beginIncident_good)
    | (with_reducible apply requestReset_good) | (with_reducible apply forAll_good) | (with_reducible apply modImp_good) | intro _ | split

theorem stopUnit_good {β : Bool} (u : UnitId) (s : State) (h_s : good β s = true) : good β (stopUnit u s) = true := by
  unfold stopUnit
  dsimp only
  repeat' first
    | (with_reducible assumption) | (simp only [good_mk]; with_reducible refine okV_of _ ?_) | (with_reducible apply afterRun_good)
    | (with_reducible apply abortRun_good) | (with_reducible apply traceEnd_good) | (with_reducible apply forAll_good)
    | (with_reducible apply abortJob_good) | intro _ | split

theorem dropExchanges_good {β : Bool} (c : Nat) (s : State) (h_s : good β s = true) : good β (dropExchanges c s) = true := by
  unfold dropExchanges
  dsimp only
  repeat' first
    | (with_reducible assumption) | (simp only [good_mk]; with_reducible refine okV_of _ ?_) | (with_reducible apply forAll_good)
    | (with_reducible apply afterRun_good) | (with_reducible apply abortRun_good) | intro _

theorem doEngineReset_good {β : Bool} (c : Nat) (e : Nat) (s : State) (h_s : good β s = true) : good β (doEngineReset c e s) = true := by
  unfold doEngineReset
  dsimp only
  repeat' first
    | (with_reducible assumption) | (with_reducible apply absorb_good) | (with_reducible apply State_modCore_good)
    | (with_reducible apply stopUnit_good) | (with_reducible apply traceReset_good) | intro _ | split

theorem doEngineResetEnd_good {β : Bool} (c : Nat) (e : Nat) (pass : Bool) (s : State) (h_s : good β s = true) :
    good β (doEngineResetEnd c e pass s) = true := by
  unfold doEngineResetEnd
  repeat' first
    | (with_reducible assumption) | (with_reducible apply endReset_good) | (with_reducible apply State_modCore_good)
    | (with_reducible apply escalate_good) | intro _ | split

theorem doEngineResetTimeout_good {β : Bool} (c : Nat) (e : Nat) (s : State) (h_s : good β s = true) :
    good β (doEngineResetTimeout c e s) = true := by
  unfold doEngineResetTimeout
  repeat' first | (with_reducible assumption) | (with_reducible apply escalate_good) | (with_reducible apply advanceTo_good) | intro _ | split

theorem doCoreReset_good {β : Bool} (c : Nat) (s : State) (h : good β s = true) : good β (doCoreReset c s) = true := by
  unfold doCoreReset
  split
  · exact h
  · refine good_ite h ?_
    refine dropExchanges_good _ _ (forAll_good _ _ (fun u t k => stopUnit_good _ _ k) _ (traceReset_good _ _ _ ?_))
    exact (good_iff β _).mpr ((good_iff β _).mp (State_modCore_good _ c (fun k => { k with resetAt := some ‹Nat›, engineReset := [], acc := [], weights := none }) (absorb_good 2 c s h)))

theorem stopSchedules_good {β : Bool} (s : State) (h_s : good β s = true) : good β (stopSchedules s) = true := by
  unfold stopSchedules
  dsimp only
  repeat' first
    | (with_reducible assumption) | (simp only [good_mk]; with_reducible refine okV_of _ ?_) | (with_reducible apply forAll_good)
    | (with_reducible apply settle_good) | intro _ | split

theorem leaveCore_good {β : Bool} (c : Nat) (s : State) (h_s : good β s = true) : good β (leaveCore c s) = true := by
  unfold leaveCore
  dsimp only
  repeat' first
    | (with_reducible assumption) | (simp only [good_mk]; with_reducible refine okV_of _ ?_) | (with_reducible apply forAll_good)
    | (with_reducible apply afterRun_good) | (with_reducible apply skipFrom_good) | (with_reducible apply restartJob_good) | intro _ | split

theorem coreFailed_good {β : Bool} (c : Nat) (s : State) (h_s : good β s = true) : good β (coreFailed c s) = true := by
  unfold coreFailed
  dsimp only
  repeat' first
    | (with_reducible assumption) | (with_reducible apply State_modCore_good) | (with_reducible apply endReset_good)
    | (with_reducible apply leaveCore_good) | (with_reducible apply stopSchedules_good) | (with_reducible apply fence_good)
    | (with_reducible apply escalate_good) | intro _ | split

theorem doCoreResetEnd_good {β : Bool} (c : Nat) (pass : Bool) (s : State) (h_s : good β s = true) : good β (doCoreResetEnd c pass s) = true := by
  unfold doCoreResetEnd
  repeat' first
    | (with_reducible assumption) | (with_reducible apply endReset_good) | (with_reducible apply State_modCore_good)
    | (with_reducible apply coreFailed_good) | intro _ | split

theorem doCoreResetTimeout_good {β : Bool} (c : Nat) (s : State) (h_s : good β s = true) : good β (doCoreResetTimeout c s) = true := by
  unfold doCoreResetTimeout
  repeat' first | (with_reducible assumption) | (with_reducible apply coreFailed_good) | (with_reducible apply advanceTo_good) | intro _ | split

theorem hang_good {β : Bool} (h : Hang) (code : Nat) (n : Nat) (s : State) (h_s : good β s = true) : good β (hang h code n s) = true := by
  unfold hang
  repeat' first | (with_reducible assumption) | (with_reducible apply beginIncident_good) | intro _ | split

theorem joinHang_good {β : Bool} (n : Nat) (c : Nat) (s : State) (h_s : good β s = true) : good β (joinHang n c s) = true := by
  unfold joinHang
  dsimp only
  repeat' first
    | (with_reducible assumption) | (simp only [good_mk]; with_reducible refine okV_of _ ?_) | (with_reducible apply modImp_good)
    | (with_reducible apply requestReset_good) | intro _ | split

theorem engineHang_good {β : Bool} (h : Hang) (c : Nat) (e : Nat) (s : State) (h_s : good β s = true) : good β (engineHang h c e s) = true := by
  unfold engineHang
  repeat' first | (with_reducible assumption) | (with_reducible apply joinHang_good) | (with_reducible apply beginIncident_good) | intro _ | split

theorem answerHang_good {β : Bool} (u : UnitId) (h : Hang) (s : State) (h_s : good β s = true) : good β (answerHang u h s) = true := by
  unfold answerHang
  dsimp only
  repeat' first
    | (with_reducible assumption) | (simp only [good_mk]; with_reducible refine okV_of _ ?_) | (with_reducible apply engineHang_good)
    | (with_reducible apply hang_good) | (with_reducible apply setFatal_good) | intro _ | split

theorem doNicheWatchdog_good {β : Bool} (u : UnitId) (s : State) (h_s : good β s = true) : good β (doNicheWatchdog u s) = true := by
  unfold doNicheWatchdog
  dsimp only
  repeat' first
    | (with_reducible assumption) | (with_reducible apply advanceTo_good) | (with_reducible apply answerHang_good)
    | (with_reducible apply detect_good) | intro _ | split

theorem doXchgHang_good {β : Bool} (c : Nat) (s : State) (h_s : good β s = true) : good β (doXchgHang c s) = true := by
  unfold doXchgHang
  dsimp only
  repeat' first | (with_reducible assumption) | (with_reducible apply advanceTo_good) | (with_reducible apply hang_good) | intro _ | split

theorem streamHang_good {β : Bool} (cond : Nat) (unit : Nat) (slot : Nat) (don : Nat) (band : Nat) (s : State) (h_s : good β s = true) :
    good β (streamHang cond unit slot don band s) = true := by
  unfold streamHang
  repeat' first | (with_reducible assumption) | (with_reducible apply hang_good)

theorem doEntropyHang_good {β : Bool} (e : Nat) (s : State) (h_s : good β s = true) : good β (doEntropyHang e s) = true := by
  unfold doEntropyHang
  dsimp only
  repeat' first | (with_reducible assumption) | (with_reducible apply advanceTo_good) | (with_reducible apply streamHang_good) | intro _ | split

theorem doReconHang_good {β : Bool} (e : Nat) (s : State) (h_s : good β s = true) : good β (doReconHang e s) = true := by
  unfold doReconHang
  dsimp only
  repeat' first
    | (with_reducible assumption) | (with_reducible apply streamHang_good) | (with_reducible apply advanceTo_good)
    | (with_reducible apply foldl_good) | intro _ | split

theorem doStripRowHang_good {β : Bool} (u : Nat) (s : State) (h_s : good β s = true) : good β (doStripRowHang u s) = true := by
  unfold doStripRowHang
  dsimp only
  repeat' first | (with_reducible assumption) | (with_reducible apply advanceTo_good) | (with_reducible apply hang_good) | intro _ | split

theorem doImpressionWritten_good {β : Bool} (s : State) (h_s : good β s = true) : good β (doImpressionWritten s) = true := by
  unfold doImpressionWritten
  dsimp only
  repeat' first
    | (with_reducible assumption) | (simp only [good_mk]; with_reducible refine okV_of _ ?_) | (with_reducible apply setCause_good)
    | (with_reducible apply requestReset_good) | intro _ | split

theorem commandReset_good {β : Bool} (e : JEntry) (code : Nat) (n : Nat) (s : State) (h_s : good β s = true) :
    good β (commandReset e code n s) = true := by
  unfold commandReset
  dsimp only
  repeat' first
    | (with_reducible assumption) | (simp only [good_mk]; with_reducible refine okV_of _ ?_) | (with_reducible apply finish_good)
    | (with_reducible apply requestReset_good) | intro _ | split

theorem doResetEngine_good {β : Bool} (j : Nat) (s : State) (h_s : good β s = true) : good β (doResetEngine j s) = true := by
  unfold doResetEngine
  repeat' first
    | (with_reducible assumption) | (with_reducible apply runCmd_good) | (with_reducible apply finish_good)
    | (with_reducible apply commandReset_good) | intro _ | split

theorem doResetCore_good {β : Bool} (j : Nat) (s : State) (h_s : good β s = true) : good β (doResetCore j s) = true := by
  unfold doResetCore
  repeat' first
    | (with_reducible assumption) | (with_reducible apply runCmd_good) | (with_reducible apply finish_good)
    | (with_reducible apply commandReset_good) | intro _ | split

theorem doResetCompute_good {β : Bool} (j : Nat) (s : State) (h_s : good β s = true) : good β (doResetCompute j s) = true := by
  unfold doResetCompute
  repeat' first | (with_reducible assumption) | (with_reducible apply runCmd_good) | (with_reducible apply commandReset_good) | intro _

theorem markResume_good {β : Bool} (n : Nat) (s : State) (h_s : good β s = true) : good β (markResume n s) = true := by
  unfold markResume
  dsimp only
  repeat' first | (with_reducible assumption) | (with_reducible apply State_setStream_good) | (with_reducible apply foldl_good) | intro _ | split

theorem rewait_good {β : Bool} (n : Nat) (s : State) (h_s : good β s = true) : good β (rewait n s) = true := by
  unfold rewait
  dsimp only
  repeat' first | (with_reducible assumption) | (with_reducible apply account_good) | (with_reducible apply State_modSession_good) | intro _ | split

theorem restartUnits_good {β : Bool} (s : State) (h_s : good β s = true) : good β (restartUnits s) = true := by
  unfold restartUnits
  repeat' first
    | (with_reducible assumption) | (with_reducible apply forAll_good) | (with_reducible apply nextUnit_good) | (with_reducible apply rewait_good)
    | intro _

theorem doComputeReset_good {β : Bool} (s : State) (h_s : good β s = true) : good β (doComputeReset s) = true := by
  unfold doComputeReset
  dsimp only
  repeat' first
    | (with_reducible assumption) | (simp only [good_mk]; with_reducible refine okV_of _ ?_) | (with_reducible apply forAll_good)
    | (with_reducible apply markResume_good) | (with_reducible apply traceReset_good) | (with_reducible apply absorb_good)
    | (with_reducible apply State_modCore_good) | (with_reducible apply restartJob_good) | intro _ | split

theorem testCore_good {β : Bool} (first : List Nat) (second : List Nat) (c : Nat) (s : State) (h_s : good β s = true) :
    good β (testCore first second c s) = true := by
  unfold testCore
  dsimp only
  repeat' first | (with_reducible assumption) | (with_reducible apply fence_good) | (with_reducible apply State_modCore_good) | intro _ | split

theorem scanSector_good {β : Bool} (lostA lostB : List Nat) (k : Nat) (x : Bool × State) (h : good β x.2 = true) :
    good β (scanSector lostA lostB k x).2 = true := by
  unfold scanSector
  dsimp only
  split
  · exact h
  · split
    · refine countUe_good _ _ (countUe_good _ _ (dram_good _ _ h ((good_iff β _).mp h).2.1))
    · exact mirrorUe_good _ _ _ h

theorem scanAll_good {β : Bool} (lostA lostB l : List Nat) (x : Bool × State) (h : good β x.2 = true) :
    good β (l.foldl (fun x k => scanSector lostA lostB k x) x).2 = true := by
  induction l generalizing x with
  | nil => exact h
  | cons k l ih => exact ih _ (scanSector_good _ _ _ _ h)

theorem scanEntry_good {β : Bool} (lostA lostB : List Nat) (e : JEntry) (s : State) (h : good β s = true) :
    good β (scanEntry lostA lostB e s) = true := by
  have k := scanAll_good lostA lostB (entrySectors e) (false, s) h
  unfold scanEntry
  refine good_ite h (good_ite k (finish_good _ _ _ _ (detect_good _ _ ?_)))
  exact (good_iff β _).mpr ((good_iff β _).mp k)

theorem restartVideo_good {β : Bool} (n : Nat) (bad : Bool) (s : State) (h_s : good β s = true) : good β (restartVideo n bad s) = true := by
  unfold restartVideo
  dsimp only
  repeat' first | (with_reducible assumption) | (with_reducible apply State_setStream_good) | intro _ | split

theorem restartStream_good {β : Bool} (bad : List Nat) (n : Nat) (s : State) (h_s : good β s = true) : good β (restartStream bad n s) = true := by
  unfold restartStream
  repeat' first | (with_reducible assumption) | (with_reducible apply settle_good) | (with_reducible apply restartVideo_good) | intro _ | split

theorem recover_good {β : Bool} (bad : List Nat) (s : State) (h : good β s = true) : good β (recover bad s) = true := by
  have h1 := settleTrk_good s h
  unfold recover
  dsimp only
  refine forAll_good _ _ (fun _ _ hs => restartStream_good _ _ _ hs) _ ?_
  have hp (t : State) (ht : good β t = true) : good β (if bindsSafety t then runCasts t else (t, true)).1 = true := by
    split
    · exact runCasts_good _ ht
    · exact ht
  split
  · exact good_ite (hp _ (placeContents_good _ _ h1)) (detect_good _ _ (hp _ (placeContents_good _ _ h1)))
  · exact good_ite (hp _ h1) (detect_good _ _ (hp _ h1))

theorem doComputeResetEnd_good {β : Bool} (first : List Nat) (second : List Nat) (lostA : List Nat) (lostB : List Nat) (bad : List Nat) (s : State) (h_s : good β s = true) :
    good β (doComputeResetEnd first second lostA lostB bad s) = true := by
  unfold doComputeResetEnd
  dsimp only
  repeat' first
    | (with_reducible assumption) | (simp only [good_mk]; with_reducible refine okV_of _ ?_) | (with_reducible apply forAll_good)
    | (with_reducible apply testCore_good) | (with_reducible apply domainFatal_good) | (with_reducible apply stopSchedules_good)
    | (with_reducible apply restartUnits_good) | (with_reducible apply recover_good) | (with_reducible apply scanEntry_good)
    | (with_reducible apply endReset_good) | intro _ | split

theorem doComputeResetTimeout_good {β : Bool} (s : State) (h_s : good β s = true) : good β (doComputeResetTimeout s) = true := by
  unfold doComputeResetTimeout
  repeat' first | (with_reducible assumption) | (with_reducible apply domainFatal_good) | (with_reducible apply advanceTo_good) | intro _ | split

theorem powerOn_good {β : Bool} (s : State) (h : good β s = true) : good β (powerOn s) = true := by
  have hh := (good_iff β s).mp h
  exact (good_iff β _).mpr ⟨hh.1, rfl, by simp [powerOn, Chip.powerOn, Chip.reset], by simp [powerOn, Safety.reset], by simp [powerOn, Safety.reset]⟩

theorem stopAt_good {β : Bool} (step detail : Nat) (s : State) (h : good β s = true) : good β (stopAt step detail s) = true := by
  have hh := (good_iff β s).mp h
  exact (good_iff β _).mpr ⟨hh.1, hh.2.1, hh.2.2.1, hh.2.2.2.1, by simp [stopAt]⟩

theorem trainPcie_good {β : Bool} (b : BootInfo) (s : State) (h_s : good β s = true) : good β (trainPcie b s) = true := by
  unfold trainPcie
  dsimp only
  repeat' first | (with_reducible assumption) | (simp only [good_mk]; with_reducible refine okV_of _ ?_)

theorem sampleStraps_good {β : Bool} (b : BootInfo) (s : State) (h_s : good β s = true) : good β (sampleStraps b s) = true := by
  unfold sampleStraps
  dsimp only
  repeat' first | (with_reducible assumption) | (simp only [good_mk]; with_reducible refine okV_of _ ?_) | intro _ | split

theorem takeConfig_good {β : Bool} (b : BootInfo) (s : State) (h_s : good β s = true) : good β (takeConfig b s) = true := by
  unfold takeConfig
  dsimp only
  repeat' first | (with_reducible assumption) | (simp only [good_mk]; with_reducible refine okV_of _ ?_) | intro _ | split

theorem fenceBad_good {β : Bool} (bad : List Nat) (s : State) (h_s : good β s = true) : good β (fenceBad bad s) = true := by
  unfold fenceBad
  repeat' first
    | (with_reducible assumption) | (with_reducible apply forAll_good) | (with_reducible apply fence_good)
    | (with_reducible apply State_modCore_good) | intro _ | split

theorem lateFlr_good {β : Bool} (s : State) (h_s : good β s = true) : good β (lateFlr s) = true := by
  unfold lateFlr
  repeat' first | (with_reducible assumption) | (with_reducible apply flrRun_good) | intro _ | split

theorem takeHeld_good {β : Bool} (s : State) (h_s : good β s = true) : good β (takeHeld s) = true := by
  unfold takeHeld
  dsimp only
  repeat' first
    | (with_reducible assumption) | (simp only [good_mk]; with_reducible refine okV_of _ ?_) | (with_reducible apply forAll_good)
    | (with_reducible apply doDramTrainStep_good) | intro _

theorem finishBoot_good {β : Bool} (b : BootInfo) (version : Word) (s : State) (h_s : good β s = true) : good β (finishBoot b version s) = true := by
  unfold finishBoot
  dsimp only
  repeat' first
    | (with_reducible assumption) | (simp only [good_mk]; with_reducible refine okV_of _ ?_) | (with_reducible apply fenceBad_good)
    | (with_reducible apply stopAt_good) | (with_reducible apply bringUp_good) | (with_reducible apply linkBoot_good)
    | (with_reducible apply takeHeld_good) | (with_reducible apply lateFlr_good) | intro _ | split

theorem bootFrom_good {β : Bool} (b : BootInfo) (x y : ImageInfo) (s : State) (h : good β s = true) : good β (bootFrom b x y s) = true := by
  have hh := (good_iff β s).mp h
  have k : good β { s with dram := bootDram b (s.chip.powerOns + s.pcie.flrCount.toNat) } = true := (good_iff β _).mpr ⟨hh.1, rfl, hh.2.2⟩
  unfold bootFrom
  refine good_ite (stopAt_good _ _ _ h) ?_
  dsimp only
  split
  · exact stopAt_good _ _ _ k
  · exact good_ite (stopAt_good _ _ _ k) (finishBoot_good _ _ _ k)

theorem doStartUp_good {β : Bool} (b : BootInfo) (s : State) (h_s : good β s = true) : good β (doStartUp b s) = true := by
  unfold doStartUp
  dsimp only
  repeat' first
    | (with_reducible assumption) | (with_reducible apply takeConfig_good) | (with_reducible apply sampleStraps_good)
    | (with_reducible apply trainPcie_good) | (with_reducible apply bootFrom_good) | (with_reducible apply stopAt_good) | intro _ | split

theorem State_withFetchWord_good {β : Bool} (s : State) (nbits : Nat) (w : Nat) (h_s : good β s = true) :
    good β (State.withFetchWord s nbits w) = true := by
  unfold State.withFetchWord
  repeat' first | (with_reducible assumption) | (simp only [good_mk]; with_reducible refine okV_of _ ?_) | intro _ | split

end Sys2Proof.Laws
end

