-- ==== Sys2Proof/WellFormed.lean ====
section
/-! DEFINITION. Which commands are well formed: unit, ring, slot, port and channel numbers in the ranges of 01_architecture.md
Table 1.5, lists of the lengths the layouts fix. A command that is not well formed names no event the part can meet. -/

namespace Sys2Proof

/-- A unit of the part exists. -/
def UnitId.wf : UnitId → Bool
  | .mx c e => decide (c < 16) && decide (e < 4)
  | .vx c => decide (c < 16)
  | .shp u => decide (u < 4)
  | .enc u => decide (u < 2)
  | .tae => true
  | .out => true
  | .dec => true

/-- Slots read at a ring's head: none, or 1 to 4 whole units of 16 words (03_commands.md R55). -/
def SlotRead.wf (r : SlotRead) : Bool := decide (r.words.length % 16 = 0) && decide (r.words.length ≤ 64)

/-- A link packet's header fields lie in their widths and its data in 1,024 bytes (12_links.md R289, Table 12.4). -/
def LinkPkt.wf (p : LinkPkt) : Bool :=
  decide (p.dest < 64) && decide (p.src < 64) && decide (p.cls < 4) && decide (p.vc < 2) && decide (p.type < 256) &&
  decide (p.hops < 256) && decide (p.context < 65536) && decide (p.gen < 256) && decide (p.data.length ≤ 256)

/-- Where a host read fails. -/
def ReadAt.wf : ReadAt → Bool
  | .slot q => decide (q < 2)
  | .source q _ => decide (q < 2)
  | .command _ => true

/-- A register of the host exists: whole DWs of BAR0, base address registers 0-5, header DWs 0-3 (13_host_endpoint.md R301, R304). -/
def RegAt.wf : RegAt → Bool
  | .bar0 off => decide (off < 33554432) && decide (off % 4 = 0)
  | .config (.bar n) => decide (n < 6)
  | .config (.headerLog n) => decide (n < 4)
  | .config _ => true

/-- A requester of the part exists. -/
def Requester.wf : Requester → Bool
  | .core c => decide (c < 16)
  | _ => true

/-- A line has 64 bytes (11_memory.md R259). -/
def DramAction.wf : DramAction → Bool
  | .read w _ _ => w.wf
  | .write w _ _ b => w.wf && decide (b.length = 64)
  | .serve _ _ _ _ => true

/-- The command is well formed. -/
def Instr.wf : Instr → Bool
  | .commandAccept a b => a.all (·.wf) && b.all (·.wf)
  | .cmdRingTail q _ => decide (q < 2)
  | .cplRingHead q _ => decide (q < 2)
  | .ringEnSet q => decide (q < 2)
  | .ringEnClear q => decide (q < 2)
  | .outRingEnSet o => decide (o < 8)
  | .outRingEnClear o => decide (o < 8)
  | .outRingHead o _ => decide (o < 8)
  | .outCoal o _ => decide (o < 8)
  | .outCoalBytes o _ => decide (o < 8)
  | .outFullTicksLo o => decide (o < 8)
  | .registerWrite r _ be => r.wf && decide (be < 16)
  | .bar2Read off len e => decide (off + len ≤ 17179869184) && decide (e.length = (off % 32 + len + 31) / 32)
  | .bar2Write off bs => decide (off + bs.length ≤ 17179869184)
  | .hostReadFail r => r.place.wf && decide (r.header.length ≤ 4)
  | .outCoalExpiry o => decide (o < 8)
  | .recordWrite r => decide (r.context < 4096) && decide (r.type < 256) && decide (r.band < 4096)
  | .heldRecordRelease o => decide (o < 8)
  | .tsPacket n => decide (n < 128)
  | .warRecord n => decide (n < 128)
  | .retentionShortEnd n => decide (n < 128)
  | .retentionRelease n => decide (n < 128)
  | .entropyDecode n _ => decide (n < 128)
  | .rowReconstructed n _ => decide (n < 128)
  | .stripFeedResume n => decide (n < 128)
  | .bandTrigger n => decide (n < 128)
  | .audioBlockTrigger n => decide (n < 128)
  | .decodeLate n _ => decide (n < 128)
  | .shpTileRow n _ => decide (n < 128)
  | .nicheDispatch u => u.wf
  | .nicheComplete u _ => u.wf
  | .fedAppend n _ _ => decide (n < 4096)
  | .evidenceSlice u _ => decide (u < 2)
  | .xchgLand p => decide (p.1 < 16) && decide (p.2 < 16)
  | .beGap u => u.wf
  | .bePause u _ => u.wf
  | .nicheWatchdog u => u.wf
  | .xchgHang c => decide (c < 16)
  | .entropyHang e => decide (e < 8)
  | .reconHang e => decide (e < 8)
  | .stripRowHang u => decide (u < 4)
  | .engineReset c e => decide (c < 16) && decide (e < 4)
  | .engineResetEnd c e _ => decide (c < 16) && decide (e < 4)
  | .engineResetTimeout c e => decide (c < 16) && decide (e < 4)
  | .coreReset c => decide (c < 16)
  | .coreResetEnd c _ => decide (c < 16)
  | .coreResetTimeout c => decide (c < 16)
  | .computeResetEnd a b _ _ _ => a.all (fun c => decide (c < 16)) && b.all (fun c => decide (c < 16))
  | .safetyFrame x => decide (x.words.length ≤ 64)
  | .lockstep p => decide (p < 2)
  | .proofCastDue c e => decide (c < 16) && decide (e < 4)
  | .proofCastCheck c e _ => decide (c < 16) && decide (e < 4)
  | .proofCastInterval c e => decide (c < 16) && decide (e < 4)
  | .lposStall n _ _ => decide (n < 128)
  | .recordLate n _ _ => decide (n < 128)
  | .clock r _ => decide (r < 8)
  | .dramRequest ch a => decide (ch < 16) && a.wf
  | .driftCheck ch k _ _ => decide (ch < 16) && decide (k < 2)
  | .allBankRefresh ch => decide (ch < 16)
  | .poolRefill p _ => decide (p < 16)
  | .codewordReceive p _ _ => decide (p < 4)
  | .command p k => decide (p < 4) && k.wf
  | .accept p k => decide (p < 4) && k.wf
  | .refuse p k => decide (p < 4) && k.wf
  | .completion p k => decide (p < 4) && k.wf
  | .scatter p k => decide (p < 4) && k.wf
  | .gather p k => decide (p < 4) && k.wf
  | .stale p k => decide (p < 4) && k.wf
  | .ack p k => decide (p < 4) && k.wf
  | .flrNotice p k => decide (p < 4) && k.wf
  | .linkPacketForward p k => decide (p < 4) && k.wf
  | .ackSend chip cls => decide (chip < 64) && decide (cls < 4)
  | .retransmit chip cls => decide (chip < 64) && decide (cls < 4)
  | .portDown p => decide (p < 4)
  | .codewordTimeout p => decide (p < 4)
  | .portTrainRetry p => decide (p < 4)
  | .trainingComplete p _ => decide (p < 4)
  | .counterSample c => decide (c < 17)
  | .capF w => match w with | some n => decide (n < 65536) | none => true
  | .capPinF w => match w with | some n => decide (n < 65536) | none => true
  | .otWarn w => match w with | some n => decide (n < 65536) | none => true
  | .nop _ | .fence _ | .streamOpen _ | .streamClose _ | .streamFeed _ | .streamRetune _ | .maquetteLoad _ _ | .maquetteDrop _
  | .armatureCommit _ _ _ | .armatureSwap _ | .tensorRun _ | .seqOpen _ _ | .seqAppend _ _ | .seqStep _ _ | .seqClose _
  | .trackConfig _ | .trackQuery _ | .poolConfig _ | .poolStatus _ | .linkConfig _ _ | .routeSet _ | .collective _ _
  | .safetyArm _ _ | .safetyClear _ _ _ | .safetyStatus _ | .safetyHeartbeat _ | .counterFreeze _ | .counterRead _
  | .traceConfig _ | .clientStats _ | .resetEngine _ | .resetCore _ | .resetCompute _ | .impressionRead _
  | .dramTrainStep _ _ | .testOpcode _ | .closeFinal _ | .deferredOpenRun _ _ | .intxCause _ | .tickLo | .accessErrors
  | .intxHoldoffExpiry | .functionLevelReset _ | .hotReset _ | .d3hotEntry | .d0Return | .impressionWritten | .computeReset
  | .computeResetTimeout | .hbMissed | .voltage _ _ | .temperatureSample _ | .sramScrub _ _ | .patrolScrub _ _
  | .refcountIncrement _ | .trigIn | .traceDrain _ _ | .pictureTap _ _ _ | .capN _ | .clearFaults | .statusTemperature
  | .readTemperature1 | .pmbusRevision | .capActive | .thermtrip | .powerOnReset | .startUp _ | .interruptDisable _
  | .aerError _ _ | .seqTrigger _ _ _ => true

end Sys2Proof
end

