-- ==== Sys2Proof/Tests/Slice0.lean ====
section
/-! SUPPORT. Tests: ill-formed commands that the check refuses, values worked out from the manual's tables, and, for every statement with hypotheses,
a small state and operands that meet them, clause by clause. -/

namespace Sys2Proof.Tests

open Sys2Proof Sys2Proof.Machine

set_option Elab.async false

/-! ### Small states -/

/-- A running part with 4,096 MiB of DRAM per the population, every pool partition holding free buffers. -/
def tReady : State :=
  { State.reset with
    chip := { Chip.reset with phase := .ready, faultN := true }
    dram := { Dram.reset with
      capMib := 4096, parts := (List.range 16).map (fun k => (k, { Part.reset with total := 4096, ring := [(0, 4096)] })) } }

/-- A command journalled at position 1, waiting: opcode, extension units, generation, context, parameters. -/
def tEntry (port : Port) (op ext gen ctx : Nat) (ps : List Nat) : JEntry :=
  { jpos := 1, port := port, queue := 0, asn := 1, pkt := [dw [(op, 7, 0), (ext, 25, 24)], 0x77, dw [(gen, 23, 16), (ctx, 15, 0)], 0] ++ ps.map w32,
    data := [], tick := 0, st := .waiting, cpls := [], posted := 0, waited := 0, origin := none, fwd := none, began := none, client := 3,
    place := 0, during := false }

/-- The state with that one command in the journal. -/
def tAt (e : JEntry) (s : State) : State := { s with journal := [e], jpos := 1 }

/-- An open stream of generation 1 in slot `n`. -/
def tOpen (n : Nat) (x : Stream) (s : State) : State := s.setStream n { x with isOpen := true }

/-! ### Well-formedness -/

/-- Each range of `Instr.wf` refuses the first value outside it and takes the last inside. -/
theorem test_wf_units : (Instr.nicheDispatch (.mx 16 0)).wf = false ∧ (Instr.nicheDispatch (.mx 15 4)).wf = false ∧
    (Instr.nicheDispatch (.mx 15 3)).wf = true ∧ (Instr.beGap (.vx 16)).wf = false ∧ (Instr.bePause (.shp 4) 0).wf = false ∧
    (Instr.nicheWatchdog (.enc 2)).wf = false ∧ (Instr.nicheWatchdog .tae).wf = true ∧ (Instr.nicheWatchdog .out).wf = true ∧
    (Instr.nicheComplete (.vx 16) { outputs := [], eccFault := false, sram := false, boxes := [], released := [] }).wf = false ∧ (Instr.nicheDispatch .dec).wf = true := by decide

theorem test_wf_rings : (Instr.cmdRingTail 2 0).wf = false ∧ (Instr.cplRingHead 2 0).wf = false ∧ (Instr.ringEnSet 2).wf = false ∧
    (Instr.ringEnClear 2).wf = false ∧ (Instr.ringEnClear 1).wf = true ∧ (Instr.outRingEnSet 8).wf = false ∧ (Instr.outRingEnClear 8).wf = false ∧
    (Instr.outRingHead 8 0).wf = false ∧ (Instr.outCoal 8 0).wf = false ∧ (Instr.outCoalBytes 8 0).wf = false ∧ (Instr.outFullTicksLo 8).wf = false ∧
    (Instr.outCoalExpiry 8).wf = false ∧ (Instr.heldRecordRelease 8).wf = false ∧ (Instr.heldRecordRelease 7).wf = true := by decide

theorem test_wf_slots : (Instr.tsPacket 128).wf = false ∧ (Instr.warRecord 128).wf = false ∧ (Instr.retentionShortEnd 128).wf = false ∧
    (Instr.retentionRelease 128).wf = false ∧ (Instr.entropyDecode 128 default).wf = false ∧ (Instr.rowReconstructed 128 default).wf = false ∧
    (Instr.stripFeedResume 128).wf = false ∧ (Instr.bandTrigger 128).wf = false ∧ (Instr.audioBlockTrigger 128).wf = false ∧
    (Instr.decodeLate 128 default).wf = false ∧ (Instr.shpTileRow 128 0).wf = false ∧ (Instr.lposStall 128 default 0).wf = false ∧
    (Instr.recordLate 128 default 0).wf = false ∧ (Instr.fedAppend 4096 default []).wf = false ∧ (Instr.fedAppend 4095 default []).wf = true ∧
    (Instr.evidenceSlice 2 default).wf = false ∧ (Instr.recordWrite { (default : RecordReq) with band := 4096 }).wf = false ∧
    (Instr.recordWrite { (default : RecordReq) with type := 256 }).wf = false ∧
    (Instr.recordWrite { (default : RecordReq) with context := 4096 }).wf = false := by decide

theorem test_wf_cores : (Instr.xchgLand (16, 0)).wf = false ∧ (Instr.xchgLand (15, 16)).wf = false ∧ (Instr.xchgLand (15, 15)).wf = true ∧ (Instr.xchgHang 16).wf = false ∧ (Instr.entropyHang 8).wf = false ∧ (Instr.reconHang 8).wf = false ∧
    (Instr.stripRowHang 4).wf = false ∧ (Instr.engineReset 16 0).wf = false ∧ (Instr.engineResetEnd 0 4 true).wf = false ∧
    (Instr.engineResetTimeout 0 4).wf = false ∧ (Instr.coreReset 16).wf = false ∧ (Instr.coreResetEnd 16 true).wf = false ∧
    (Instr.coreResetTimeout 16).wf = false ∧ (Instr.computeResetEnd [16] [] [] [] []).wf = false ∧ (Instr.computeResetEnd [] [16] [] [] []).wf = false ∧
    (Instr.lockstep 2).wf = false ∧ (Instr.proofCastDue 16 0).wf = false ∧ (Instr.proofCastCheck 0 4 true).wf = false ∧
    (Instr.proofCastInterval 16 3).wf = false ∧ (Instr.counterSample 17).wf = false ∧ (Instr.counterSample 16).wf = true := by decide

theorem test_wf_memory : (Instr.dramRequest 16 (.read .tae 0 true)).wf = false ∧ (Instr.dramRequest 0 (.write .tae 0 true [])).wf = false ∧
    (Instr.dramRequest 0 (.read (.core 16) 0 true)).wf = false ∧ (Instr.dramRequest 0 (.read (.core 15) 0 true)).wf = true ∧
    (Instr.driftCheck 0 2 0 0).wf = false ∧ (Instr.driftCheck 16 0 0 0).wf = false ∧ (Instr.allBankRefresh 16).wf = false ∧
    (Instr.poolRefill 16 none).wf = false ∧ (Instr.registerWrite (.bar0 2) 0 15).wf = false ∧ (Instr.registerWrite (.bar0 33554432) 0 15).wf = false ∧
    (Instr.registerWrite (.bar0 33554428) 0 15).wf = true ∧ (Instr.registerWrite (.config (.bar 6)) 0 15).wf = false ∧
    (Instr.registerWrite (.config (.headerLog 4)) 0 15).wf = false ∧ (Instr.registerWrite (.config (.headerLog 3)) 0 15).wf = true ∧
    (Instr.registerWrite (.bar0 0) 0 16).wf = false ∧ (Instr.bar2Read 17179869184 1 [.clean]).wf = false ∧ (Instr.bar2Read 31 2 [.clean]).wf = false ∧
    (Instr.bar2Read 31 2 [.clean, .clean]).wf = true ∧
    (Instr.bar2Write 17179869184 [0]).wf = false ∧ (Instr.commandAccept [{ words := [0], data := [] }] []).wf = false ∧
    (Instr.commandAccept [] [{ words := List.replicate 80 0, data := [] }]).wf = false ∧ (Instr.commandAccept [] [{ words := List.replicate 64 0, data := [] }]).wf = true ∧
    (Instr.hostReadFail { place := .slot 2, cause := .timeout, header := [] }).wf = false ∧
    (Instr.hostReadFail { place := .source 2 [], cause := .ecrc, header := [] }).wf = false ∧
    (Instr.hostReadFail { place := .command 9, cause := .poisoned, header := [0, 0, 0, 0, 0] }).wf = false ∧
    (Instr.hostReadFail { place := .command 9, cause := .poisoned, header := [0, 0, 0, 0] }).wf = true := by decide

theorem test_wf_links : (Instr.portDown 4).wf = false ∧ (Instr.codewordTimeout 4).wf = false ∧ (Instr.portTrainRetry 4).wf = false ∧
    (Instr.trainingComplete 4 .failed).wf = false ∧ (Instr.codewordReceive 4 true (some [])).wf = false ∧ (Instr.command 4 default).wf = false ∧
    (Instr.ack 0 { (default : LinkPkt) with dest := 64 }).wf = false ∧ (Instr.accept 0 { (default : LinkPkt) with hops := 256 }).wf = false ∧
    (Instr.refuse 0 { (default : LinkPkt) with cls := 4 }).wf = false ∧ (Instr.stale 0 { (default : LinkPkt) with gen := 256 }).wf = false ∧
    (Instr.scatter 0 { (default : LinkPkt) with src := 64 }).wf = false ∧ (Instr.gather 0 { (default : LinkPkt) with vc := 2 }).wf = false ∧
    (Instr.completion 0 { (default : LinkPkt) with type := 256 }).wf = false ∧ (Instr.flrNotice 0 { (default : LinkPkt) with context := 65536 }).wf = false ∧
    (Instr.ackSend 64 0).wf = false ∧ (Instr.retransmit 0 4).wf = false ∧ (Instr.linkPacketForward 3 default).wf = true ∧
    (Instr.capF (some 65536)).wf = false ∧ (Instr.capPinF (some 65536)).wf = false ∧ (Instr.otWarn (some 65536)).wf = false ∧
    (Instr.clock 8 0).wf = false ∧ (Instr.safetyFrame { words := List.replicate 65 0, written := true }).wf = false := by decide

/-- The opcode table gives its rows no bits: no word spells a command. -/
theorem test_no_word (w : Nat) : decodeTableWord 32 w = none := rfl

/-! ### The queue and reset -/

theorem test_witness_StepRunsFrontCommand : ({ tReady with pending := [.tickLo, .trigIn] } : State).pending = .tickLo :: [.trigIn] := rfl

/-- An empty queue, without and with a freeze trigger in the tick. -/
theorem test_witness_EmptyQueueTicks : tReady.pending = [] ∧ tReady.obs.trigger = false ∧
    ({ tReady with obs := { Obs.reset with trigger := true } } : State).pending = [] := by decide +kernel

theorem test_witness_EveryStepKeepsSound : sound tReady = true ∧ ∃ t, step tReady = .next t ∧ sound t = true :=
  ⟨by decide +kernel, _, rfl, by decide +kernel⟩

/-- Tick 2^64 - 1 wraps to 0 (02 R34). -/
theorem test_tick_wraps : ∃ t, step { tReady with chip := { tReady.chip with tick := 2 ^ 64 - 1 } } = .next t ∧ t.chip.tick = 0 :=
  ⟨_, rfl, by decide +kernel⟩

/-! ### Start-up and pins -/

/-- The header of an image of KIND `kind`, security version 3 and version 7 (18 Table 18.5). -/
def tHeader (kind : Nat) : List Word := [dw [(0x5049, 31, 16), (1, 15, 8), (kind, 7, 0)], 1, 3, 7]

/-- A valid image of that header. -/
def tImage (kind : Nat) : ImageInfo := { header := tHeader kind, keyOk := true, signatureOk := true }

/-- Start-up of a sound part without boot configuration. -/
def tBoot : BootInfo :=
  { barSize := false, testEn := false, bootSrc := false, configA := [], configB := [], stageA := tImage 1, stageB := tImage 1, mainA := tImage 2,
    mainB := tImage 2, chanMib := 256, ranks := 1, uniform := true, trainFail := none, badCores := [], portsUp := [], pcieSpeed := 32, pcieWidth := 8,
    stepping := 0 }

/-- The good start, and one part that stops at each step: no image, capacities that differ, a training step that failed, another main version. -/
theorem test_witness_StartUpOutcomes :
    let first (b : BootInfo) := (bootOrder (sampleStraps b State.reset).chip.bootSrc b).find? (fun y => imageValid 0 1 y.1)
    let old := { tImage 2 with header := tHeader 2 |>.set 3 6 }
    State.reset.chip.phase = .starting ∧ State.reset.chip.minSvn = 0 ∧ bootPossible tBoot = true ∧ first tBoot = some (tImage 1, tImage 2) ∧
    populationOk tBoot = true ∧ tBoot.trainFail = none ∧ imageValid 0 2 (tImage 2) = true ∧ imageVersion (tImage 2) = imageVersion (tImage 1) ∧
    tBoot.badCores = [] ∧ State.reset.chip.fenced ≠ 0xFFFF ∧ State.reset.chip.flrPending = false ∧
    (let b := { tBoot with stageA := { tImage 1 with signatureOk := false }, stageB := { tImage 1 with keyOk := false } }
     bootPossible b = true ∧ first b = none) ∧
    (bootPossible { tBoot with uniform := false } = true ∧ populationOk { tBoot with uniform := false } = false) ∧
    (bootPossible { tBoot with trainFail := some (8, 0, 15) } = true ∧ populationOk { tBoot with trainFail := some (8, 0, 15) } = true) ∧
    (let b := { tBoot with mainA := old }
     bootPossible b = true ∧ first b = some (tImage 1, old) ∧ imageValid 0 2 old = true ∧ imageVersion old ≠ imageVersion (tImage 1)) := by decide +kernel

/-- The stage image of slot A has a security version below the fuses', so that of slot B runs (18 R387). -/
theorem test_second_image : (bootOrder false { tBoot with stageB := { tImage 1 with header := tHeader 1 |>.set 2 9 } }).map (fun x => imageValid 4 1 x.1) =
    [false, true] := by decide +kernel

theorem test_witness_FunctionLevelResetsAndPowerStates : tReady.chip.phase = .ready ∧
    ({ tReady with pcie := { Pcie.reset with d3 := true } } : State).pcie.d3 = true ∧
    ({ tReady with chip := { tReady.chip with phase := .stopped } } : State).chip.phase = .stopped := by decide +kernel

/-- A start-up that stopped at step 2 shows 0xFF020000 plus its detail in FW_VERSION (18 R390). -/
theorem test_stop_word : stopWord 2 1 = 0xFF020001 ∧ stopWord 3 0xF000 = 0xFF03F000 := by decide +kernel

/-- The ranges of OT_WARN and CAP_F end where Table 19.5 ends them. -/
theorem test_witness_PowerCapAndPins : tReady.chip.phase ≠ .thermal ∧ (128 ≤ 128 % 512 ∧ 128 % 512 ≤ 256) ∧ (256 % 512 ≤ 256) ∧
    (127 % 512 < 128 ∧ 256 < 257 % 512) ∧ (60 ≤ 60 ∧ 100 ≤ 100 ∧ 59 < 60 ∧ 100 < 101) ∧ tReady.obs.freeze = none ∧
    ({ tReady with obs := { Obs.reset with freeze := some default } } : State).obs.freeze.isSome = true ∧ State.reset.chip.phase ≠ .ready := by
  decide +kernel

/-- 25 degrees in LINEAR11 with exponent -3: mantissa 200 = 0x0C8, exponent 11101 (19 Table 19.5). -/
theorem test_linear11 : linear11 25000 = 0xE8C8 := by decide +kernel

/-- CAP_F above 256 is refused and keeps its value (19 R402). -/
theorem test_cap_refused : ∃ t, exec (.capF (some 257)) tReady = .next t ∧ t.chip.capF = 256 ∧ t.pcie.rdata = none :=
  ⟨_, rfl, by decide +kernel, by decide +kernel⟩

/-! ### The endpoint -/

/-- Queue 0 with rings of 64 and 128 entries, the tail at the last index and the head at 5. -/
def tQueue : HostQueue := { HostQueue.reset with cmdSize := 64, cplSize := 128, ringEn := true, tail := 63, head := 5, cplIndex := 127, cplHead := 100 }

theorem test_witness_HostRingRegisters :
    let s := tReady.setQueue 0 tQueue
    let h := s.queue 0
    barOpen s = true ∧ h.cmdSize.toNat = 64 ∧ h.cplSize.toNat = 128 ∧ (h.tail + 64 - h.head) % 64 ≤ (4 + 64 - h.head) % 64 ∧
      (5 + 64 - h.head) % 64 < (h.tail + 64 - h.head) % 64 ∧ (64 : Nat) ≤ (64 : Word).toNat % 2 ^ 16 ∧
      (127 + 128 - h.cplHead) % 128 ≤ (h.cplIndex + 128 - h.cplHead) % 128 ∧ (h.cplIndex + 128 - h.cplHead) % 128 < (0 + 128 - h.cplHead) % 128 ∧ (128 : Nat) ≤ (128 : Word).toNat % 2 ^ 16 ∧
      queueConfigOk { tQueue with ringEn := false } = true ∧ queueConfigOk { tQueue with ringEn := false, cmdSize := 32 } = false ∧
      h.badTail = false ∧ s.chip.phase = .ready := by decide +kernel

/-- RING_EN with a size of 32 sets CONFIG_ERR (13 R305). -/
theorem test_ring_en_refused : ∃ t, exec (.ringEnSet 0) (tReady.setQueue 0 { tQueue with ringEn := false, cmdSize := 32 }) = .next t ∧
    (t.queue 0).configErr = true ∧ (t.queue 0).ringEn = false := ⟨_, rfl, by decide +kernel, by decide +kernel⟩

/-- An output ring of 2^18 bytes. -/
def tRing : OutRing := { OutRing.reset with size := 18, tailWbLo := 0x9000 }

theorem test_witness_OutputRingRegisters :
    let s := tReady.setOring 7 tRing
    barOpen s = true ∧ (s.oring 7).ringEn = false ∧ (s.oring 7).held = [] ∧ outConfigOk (s.oring 7) = true ∧
      outConfigOk { tRing with size := 17 } = false ∧ (tReady.setOring 7 { tRing with ringEn := true } |>.oring 7).ringEn = true ∧
      (fld 0x3FFE0 25 0 % 32 = 0 ∧ fld 0x3FFE0 25 0 < tRing.bytes) ∧ ¬ fld 0x40000 25 0 < tRing.bytes ∧ (keep 4000 12 0).toNat ≤ 4000 ∧
      ¬ (keep 4001 12 0).toNat ≤ 4000 ∧ coalBytesOk (keep 0x100000 20 0) = true ∧ coalBytesOk (keep 0x100020 20 0) = false := by decide +kernel

/-- OUT_RING_HEAD at the ring's end is refused (13 Table 13.5). -/
theorem test_out_head_refused : ∃ t, exec (.outRingHead 7 0x40000) (tReady.setOring 7 tRing) = .next t ∧ (t.oring 7).configErr = true ∧
    (t.oring 7).head = 0 := ⟨_, rfl, by decide +kernel, by decide +kernel⟩

theorem test_witness_RegisterAccess : barOpen tReady = true ∧ (14 : Nat) ≠ 15 ∧ configOpen tReady = true := by decide +kernel

/-- BAR0 written with all ones reads its writable bits and the type (13 R301). -/
theorem test_bar0_sized : ∃ t, exec (.registerWrite (.config (.bar 0)) 0xFFFFFFFF 15) tReady = .next t ∧ configRead t (.bar 0) = 0xFE000004 :=
  ⟨_, rfl, by decide +kernel⟩

/-- A cause that hardware sets in the clock of the write stays 1, another bit written 1 clears (13 R307). -/
theorem test_cause_same_clock :
    let s := setCause 19 { tReady with pcie := { Pcie.reset with cause := 4 } }
    ∃ t, exec (.intxCause { v := 0x80004, same := 0x80000 }) s = .next t ∧ t.pcie.cause = 0x80000 := ⟨_, rfl, by decide +kernel⟩

/-- ACCESS_ERRORS reads its count and clears it (13 Table 13.3). -/
theorem test_access_errors : ∃ t, exec .accessErrors { tReady with pcie := { Pcie.reset with accessErrors := 5 } } = .next t ∧
    t.pcie.rdata = some [5, 0, 0, 0] ∧ t.pcie.accessErrors = 0 := ⟨_, rfl, by decide +kernel, by decide +kernel⟩

theorem test_witness_BarAccess : barOpen State.reset = false ∧ barOpen tReady = true ∧ bar2In tReady 0xFFFFFFFF [(1 : Byte)].length = true ∧
    bar2Addr tReady 64 + 1 ≤ spaceBytes tReady.dram ∧ Memory.wf tReady.dram.cells = true ∧ tReady.dram.bad = [] ∧
    bar2In tReady 0x100000000 1 = false ∧ bar2In tReady 0xFFFFFFFF 1 = true ∧
    (∀ c ∈ [EccCond.clean], c = .clean) ∧
    (let off := 100 * mib + 31
     [EccCond.clean, .double][1]? = some .double ∧ 1 < (bar2Addr tReady off % 32 + 2 + 31) / 32 ∧ bar2In tReady off 2 = true ∧
       bar2Addr tReady off + 2 ≤ spaceBytes tReady.dram ∧
       (placeOf tReady.dram (max (bar2Addr tReady off) (32 * (bar2Addr tReady off / 32 + 1)))).protected = true ∧
       bar2Masked tReady (max (bar2Addr tReady off) (32 * (bar2Addr tReady off / 32 + 1))) = false) := by decide +kernel

/-- A byte written through BAR2 into a plain partition is stored there (13 R303). -/
theorem test_bar2_write : bar2Discards tReady 0x3FFFFFFF = false ∧
    ∃ t, exec (.bar2Write 0x3FFFFFFF [0xAB]) tReady = .next t ∧ mget t.dram.cells 0x3FFFFFFF = 0xAB :=
  ⟨by decide +kernel, _, rfl, by decide +kernel⟩

theorem test_witness_InterruptsAndErrors :
    let s := { tReady with pcie := { Pcie.reset with cause := 4, mask := 4, holdoff := 10 } }
    let d := { s with pcie := { s.pcie with deassertAt := some 3 } }
    s.pcie.d3 = false ∧ s.pcie.cause &&& s.pcie.mask ≠ 0 ∧ s.pcie.deassertAt = none ∧ d.pcie.disable = false ∧ d.pcie.asserted = false ∧
      d.chip.tick ≤ 3 + d.pcie.holdoff.toNat ∧ 3 + d.pcie.holdoff.toNat < 2 ^ 64 ∧ tReady.chip.phase ≠ .thermal ∧
      (let q := tReady.setQueue 0 { tQueue with failRun := 7 }
       configOpen s = true ∧ bit d.pcie.command 10 = false ∧ bit d.pcie.uncorStatus d.pcie.firstError = false ∧ aerCorrectable .malformed = false ∧
       live q = true ∧ (q.queue 0).ringEn = true ∧ q.pcie.d3 = false ∧ 0 < slotsReady (q.queue 0) ∧ (q.queue 0).failRun < 8) := by decide +kernel

/-- The eighth failed slot read in a row sets CONFIG_ERR (13 R299). -/
theorem test_eighth_read_fails : ∃ t, exec (.hostReadFail { place := .slot 0, cause := .timeout, header := [] }) (tReady.setQueue 0 { tQueue with failRun := 7 }) = .next t ∧
    (t.queue 0).configErr = true ∧ bit t.pcie.uncorStatus 14 = true := ⟨_, rfl, by decide +kernel, by decide +kernel⟩

/-! ### Commands -/

theorem test_witness_NopFenceAndForeignOpcodes :
    (let e := tEntry .host 1 0 0 0 []; Runs (tAt e tReady) 1 1 e) ∧
    (let e := tEntry .host 2 0 0 0 []; Runs (tAt e tReady) 1 2 e ∧ fenceClear (tAt e tReady) e (bit (e.param 0) 0) = true) ∧
    (let e := { tEntry .host 2 0 0 0 [] with jpos := 2 }
     let s := { tReady with journal := [tEntry .host 1 0 0 0 [], e], jpos := 2 }
     s.entry? 2 = some e ∧ fenceClear s e (bit (e.param 0) 0) = false) ∧
    (let e := tEntry .host 0xF0 0 0 0 []; mayBegin (tAt e tReady) 1 e.opcode = true ∧ 0xF0 ≤ e.opcode) ∧
    (let e := tEntry .host 0x70 0 0 0 []; mayBegin (tAt e tReady) 1 e.opcode = true ∧ (opInfo e.opcode).map (·.allows e.port) = some false) ∧
    (let e := tEntry .host 0xEF 0 0 0 []; mayBegin (tAt e tReady) 1 e.opcode = true ∧ opInfo e.opcode = none) ∧
    (let s := { tReady with chip := { tReady.chip with testEn := true } }
     maintenanceUp s = true ∧ 0xF0 ≤ fld ((([0xF0] : List Word)).getD 0 0) 7 0 ∧ fld ((([0x01] : List Word)).getD 0 0) 7 0 < 0xF0 ∧
       (([0x01] : List Word).getD 0 0 = 1 ∧ sharedUsed s < Config.journalShared)) := by
  unfold Runs; decide +kernel

/-- Every shared entry of the journal in use. -/
theorem test_witness_NopFenceAndForeignOpcodes_full :
    let s := { tReady with chip := { tReady.chip with testEn := true }, journal := List.replicate 15808 (tEntry .host 1 0 0 0 []) }
    maintenanceUp s = true ∧ Config.journalShared ≤ sharedUsed s :=
  ⟨rfl, by rw [sharedUsed, List.filter_replicate_of_pos rfl, List.length_replicate]; exact Nat.le_refl _⟩

/-- FENCE counts only earlier commands of its own scope: the stop of the maintenance port is the only refusal. -/
theorem test_private_opcode_stops : exec (.testOpcode (.maintenance [0xF3])) { tReady with chip := { tReady.chip with testEn := true } } =
    .refused .privateTestOpcode := by rfl

theorem test_witness_CompletionsPosted :
    let e := { tEntry .host 1 0 0 0 [] with st := .running }
    let s := (tAt e tReady).setQueue 0 tQueue
    s.journal = [e] ∧ e.port = .host ∧ e.queue < 2 ∧ e.cpls = [] ∧ s.pcie.d3 = false ∧ s.chip.fatal = false ∧ Memory.wf s.hostMem = true ∧
      e.posted = 0 ∧ cplIndexOk s 0 ∧ cplIndexOk s 1 ∧ ({ e with jpos := 2 }).queue = e.queue ∧ e.jpos < ({ e with jpos := 2 }).jpos := by
  unfold cplIndexOk; decide +kernel

/-- The completion of the last entry of the ring inverts PHASE and wraps (03 R51). -/
theorem test_phase_inverts :
    let s := (tAt { tEntry .host 1 0 0 0 [] with st := .running } tReady).setQueue 0 tQueue
    ((finish 1 stOk [] s).queue 0).cplIndex = 0 ∧ ((finish 1 stOk [] s).queue 0).phase = false := by decide +kernel

theorem test_witness_InactiveMaintenancePort : tReady.chip.testEn = false ∧ strapsTaken tReady = true := by decide +kernel

/-- A NOP of one slot in queue 0. -/
def tSlot : SlotRead := { words := (tEntry .host 1 0 0 0 []).pkt ++ List.replicate 12 0, data := [] }

theorem test_witness_PacketAccepted :
    let s := tReady.setQueue 0 { tQueue with headWbLo := 0x5000 }
    canAccept s 0 tSlot.words = true ∧ canAccept tReady 0 tSlot.words = false ∧ canAccept tReady 1 [] = false ∧
      earlyCheck s { tEntry .host 1 0 0 0 [] with pkt := tSlot.words } = .proceed ∧ ¬ (s.jlast.1 = s.chip.tick ∧ (1 : Fin 6) < s.jlast.2) ∧
      (let t := { s with jlast := (s.chip.tick, 5) }
       canAccept t 0 tSlot.words = true ∧ t.jlast.1 = t.chip.tick ∧ (1 : Fin 6) < t.jlast.2) := by decide +kernel

/-- A packet accepted moves the device's head on by its slots (03 R50). -/
theorem test_accept : ∃ t, exec (.commandAccept [tSlot] []) (tReady.setQueue 0 { tQueue with headWbLo := 0x5000 }) = .next t ∧
    (t.queue 0).head = 6 ∧ t.journal.length = 1 ∧ mget t.hostMem 0x5000 = 6 := ⟨_, rfl, by decide +kernel, by decide +kernel, by decide +kernel⟩

/-! ### Streams -/

/-- A video stream of 64 by 64 samples, bands of 16 lines, the smallest values of every range of Table 4.1. -/
def tCfg : StreamCfg := StreamCfg.zero

/-- An access unit of retention, complete and an IRAP. -/
def tAu (id fed : Nat) (irap : Bool) : Au :=
  { id := id, bytes := [], size := 188, complete := some fed, fed := fed, pts := none, irap := irap, decoded := true, retShort := false, closed := true,
    gap := false, don := none, started := false, marks := [], taken := 0, noRef := false, late := none, reported := false }

/-- A picture of 64 by 64 samples with `rows` macroblock rows reconstructed, LINE at `line`. -/
def tPic (don rows line : Nat) : Picture :=
  { (default : Picture) with don := don, au := don, w := 64, h := 64, depth := 8, ctb := 16, rows := rows, line := line, segsDone := true, coded := List.range 16,
                             bPix := 1000000, deadline := 16, within := true }

/-- Parameters of STREAM_OPEN that name it. -/
def tOpenPs : List Nat := [0x01000000, 0x00400040, 1000000, 64000, 4000, 16, 100, 0x11FFF, 0x10, 512]

/-- Parameters of an audio STREAM_OPEN. -/
def tAudioPs : List Nat := [0x01000102, 0, 0, 64000, 0, 0, 0, 0x10000]

theorem test_open_params : StreamCfg.ofEntry (tEntry .host 0x10 1 0 0 tOpenPs) = tCfg ∧ tCfg.bad = none := by decide +kernel

theorem alloc_some {x : Option (List (List Alloc)) × State} (h : x.1.isSome = true) : ∃ b u, x = (some b, u) := by
  obtain ⟨a, u⟩ := x
  cases a with
  | none => cases h
  | some b => exact ⟨b, u, rfl⟩

theorem alloc_some1 {x : Option (List Alloc) × State} (h : x.1.isSome = true) : ∃ b u, x = (some b, u) := by
  obtain ⟨a, u⟩ := x
  cases a with
  | none => cases h
  | some b => exact ⟨b, u, rfl⟩

/-- The highest slot by name, the lowest free one, and an open that waited behind a close. -/
theorem test_witness_StreamOpened :
    let e := tEntry .host 0x10 1 0 127 tOpenPs
    let s := tAt e tReady
    let c := StreamCfg.ofEntry e
    Runs s 1 0x10 e ∧ e.ctx = 127 ∧ (127 : Nat) < 128 ∧ (s.stream 127).isOpen = false ∧ e.gen = 0 ∧ c.bad = none ∧
      pixSum s 127 + c.bPix ≤ 6400000000 ∧ engineLoad s (pickEngine s) + c.bins ≤ 1000000000 ∧ (c.safety = false ∨ s.safety.state = 0) ∧
      (allocAll c.safety false c.buffers [] (beginCmd e s)).1.isSome = true ∧
      (let f := tEntry .host 0x10 1 0 0xFFFF tOpenPs; Runs (tAt f tReady) 1 0x10 f ∧ f.ctx = 0xFFFF ∧ freeSlot (tAt f tReady) = some 0) ∧
      (let f := tEntry .host 0x10 1 0 127 tAudioPs
       let c := StreamCfg.ofEntry f
       Runs (tAt f tReady) 1 0x10 f ∧ c.bad = none ∧ c.codec = 2 ∧ audioCount (tAt f tReady) < 64 ∧
         (allocAll c.safety false c.buffers [] (beginCmd f (tAt f tReady))).1.isSome = true) ∧
      (let f := tEntry .host 0x10 1 0 127 (tOpenPs.set 0 0x01080000)
       let c := StreamCfg.ofEntry f
       let t := { tAt f tReady with safety := { Safety.reset with state := 1, safeN := true }, dram := { tReady.dram with safetyMib := 16 } }
       Runs t 1 0x10 f ∧ c.bad = none ∧ c.safety = true ∧ t.safety.state = 1 ∧ (allocAll c.safety false c.buffers [] (beginCmd f t)).1.isSome = true) := by
  unfold Runs; decide +kernel

theorem test_witness_StreamOpened_buffers : ∃ b u, allocAll tCfg.safety false tCfg.buffers [] tReady = (some b, u) :=
  alloc_some (by decide +kernel)

theorem test_witness_StreamOpened_deferred :
    let e := tEntry .host 0x10 1 0 127 tOpenPs
    let s0 := (tAt { e with st := .deferred } tReady).setStream 127 { Stream.reset with opening := true }
    s0.entry? 1 = some { e with st := .deferred } ∧ (s0.stream 127).opening = true ∧
      (let s := clearDeferred (false, 127) (modEntry 1 (fun y => { y with st := .waiting }) s0)
       Runs s 1 0x10 e ∧ (s.stream 127).isOpen = false) := by
  unfold Runs; decide +kernel

/-- Each check of STREAM_OPEN fails alone: 64 open audio streams, the pixel budget and the bin budget full to the last unit. -/
theorem test_witness_StreamCommandChecks_open :
    let e (g : Nat) (ps : List Nat) := tEntry .host 0x10 1 g 0 ps
    let v := e 0 tOpenPs
    let a := e 0 tAudioPs
    let s (e : JEntry) := tAt e tReady
    let audio := { (s a) with streams := (List.range 64).map (fun k => (k + 1, { Stream.reset with isOpen := true, cfg := { tCfg with codec := 2 } })) }
    let full := tOpen 1 { Stream.reset with cfg := { tCfg with bPix := 6399000001 } } (s v)
    let busy := { (s v) with streams := (List.range 8).map (fun k => (k + 1, { Stream.reset with isOpen := true, engine := k, cfg := { tCfg with bitrate := 749936001 } })) }
    (Runs (tOpen 0 Stream.reset (s v)) 1 0x10 v ∧ ((tOpen 0 Stream.reset (s v)).stream 0).isOpen = true) ∧
    (Runs (s (e 1 tOpenPs)) 1 0x10 (e 1 tOpenPs) ∧ ((s v).stream 0).isOpen = false ∧ (e 1 tOpenPs).gen ≠ 0) ∧
    (Runs (s (e 0 [])) 1 0x10 (e 0 []) ∧ (StreamCfg.ofEntry (e 0 [])).bad = some 0) ∧
    (Runs audio 1 0x10 a ∧ (StreamCfg.ofEntry a).bad = none ∧ (StreamCfg.ofEntry a).codec = 2 ∧ 64 ≤ audioCount audio ∧ (audio.stream 0).isOpen = false) ∧
    (Runs full 1 0x10 v ∧ 6400000000 < pixSum full 0 + tCfg.bPix ∧ pixSum full 0 + 999999 ≤ 6400000000) ∧
    (Runs busy 1 0x10 v ∧ 1000000000 < engineLoad busy (pickEngine busy) + tCfg.bins) ∧
    (let f := tEntry .host 0x10 1 0 0xFFFF tOpenPs
     let all := { (s f) with streams := (List.range 128).map (fun k => (k, { Stream.reset with isOpen := true })) }
     Runs all 1 0x10 f ∧ f.ctx = 0xFFFF ∧ f.gen = 0 ∧ freeSlot all = none) ∧
    (let none_ := { (s v) with dram := Dram.reset }
     Runs none_ 1 0x10 v ∧ (allocAll tCfg.safety false tCfg.buffers [] (beginCmd v none_)).1 = none) := by
  unfold Runs; decide +kernel

theorem test_witness_StreamCommandChecks_state :
    let e (op g : Nat) := tEntry .host op 0 g 5 []
    let s (e : JEntry) := tAt e tReady
    (Runs (s (e 0x11 1)) 1 0x11 (e 0x11 1) ∧ ((s (e 0x11 1)).stream 5).isOpen = false) ∧
    (let t := tOpen 5 Stream.reset (s (e 0x13 2)); Runs t 1 0x13 (e 0x13 2) ∧ (t.stream 5).isOpen = true ∧ (t.stream 5).closing = none ∧
      (e 0x13 2).gen ≠ (t.stream 5).gen) ∧
    (let t := tOpen 5 { Stream.reset with closing := some { j := 9, flush := true, freed := false } } (s (e 0x40 1))
     Runs t 1 0x40 (e 0x40 1) ∧ (t.stream 5).closing.isSome = true) ∧
    (let t := tOpen 5 { Stream.reset with closing := some { j := 9, flush := false, freed := false } } (s (e 0x41 1)); Runs t 1 0x41 (e 0x41 1)) ∧
    (let t := tOpen 5 Stream.reset (s (e 0x12 1)); RunsOn t 1 0x12 (e 0x12 1) ∧ (t.stream 5).isOpen = true ∧
      feedOk (t.stream 5).cfg ((e 0x12 1).param 2).toNat (e 0x12 1).data = false) := by
  unfold RunsOn Runs; decide +kernel

/-- A transport packet of the video PID 0x100 with its sync byte, continuity counter `cc` and start flag. -/
def tTs (start : Bool) (cc : Nat) : List Byte := [0x47, if start then 0x41 else 0x01, 0x00, BitVec.ofNat 8 (0x10 + cc)] ++ List.replicate 184 (0 : Byte)

/-- A feed that fits, one that overflows, one an overdue stream makes room for, wholly and in vain; retunes in and out of range, one beyond the pixel
budget, one that needs a larger buffer, there and not, one of an audio stream and one that applies at once; both closes, free and masked. -/
theorem test_witness_StreamFedRetunedAndClosing :
    let f := { tEntry .host 0x12 0 1 5 [0, 0, 188, 0] with data := tTs true 0 }
    let at_ (e : JEntry) (x : Stream) := tOpen 5 x (tAt e tReady)
    let cap (k : Nat) := { Stream.reset with retCap := k }
    let late (k : Nat) := { Stream.reset with retCap := k, irapFrom := some 0, aus := [{ tAu 0 0 true with irap := false }, { tAu 1 0 false with complete := none }] }
    let g := { f with tick := 101 }
    (RunsOn (at_ f (cap 188)) 1 0x12 f ∧ feedOk tCfg (f.param 2).toNat f.data = true ∧ (cap 188).inUse + (f.param 2).toNat ≤ 188) ∧
    (RunsOn (at_ f (cap 187)) 1 0x12 f ∧ 187 < (cap 187).inUse + 188 ∧ overdue (cap 187) f.tick = false) ∧
    (let x := { late 376 with cfg := { tCfg with irapMax := 0 } }
     RunsOn (at_ g x) 1 0x12 g ∧ releasable x g.tick = 0 ∧ overdue x g.tick = true ∧ 376 < x.inUse + 188 ∧ (dropOldest 376 188 2 x).inUse + 188 ≤ 376) ∧
    (let x := { late 375 with cfg := { tCfg with irapMax := 0 } }
     RunsOn (at_ g x) 1 0x12 g ∧ overdue x g.tick = true ∧ 375 < (dropOldest 375 188 2 x).inUse + 188 ∧ (dropOldest 375 188 2 x).aus.length < 2) := by
  unfold RunsOn Runs; decide +kernel

theorem test_witness_StreamFedRetunedAndClosing_retune :
    let at_ (e : JEntry) (x : Stream) := tOpen 5 x (tAt e tReady)
    let x := { Stream.reset with retCap := 1000000000 }
    let c := { tCfg with bPix := 534773760, deadline := 64, retention := 2000, outRing := 7 }
    let old := { tPic 0 1 16 with lineAt := [(16, 0)] }
    let e := tEntry .host 0x13 0 1 5 [15, 534773760, 64, 0x07D00000, 0x00700000]
    let bad := tEntry .host 0x13 0 1 5 [1, 534773761]
    (RunsOn (at_ e x) 1 0x13 e ∧ retuneBad e c = none ∧ pixSum (at_ e x) 5 + c.bPix ≤ 6400000000 ∧ c.retBytes ≤ x.retCap ∧
      maskBit (at_ e x).safety.mask 5 = false ∧ tCfg.bPix < c.bPix) ∧
    (RunsOn (at_ bad x) 1 0x13 bad ∧ retuneBad bad { tCfg with bPix := 534773761 } = some 1) ∧
    (let s := tOpen 6 { Stream.reset with cfg := { tCfg with bPix := 6000000000 } } (at_ e x); RunsOn s 1 0x13 e ∧ ¬ pixSum s 5 + c.bPix ≤ 6400000000) ∧
    (let s := at_ e { x with retCap := 0 }
     RunsOn s 1 0x13 e ∧ 0 < c.retBytes ∧ (allocAll false false [c.retBytes] [] (beginCmd e s)).1.isSome = true ∧
       (allocAll false false [c.retBytes] [] (beginCmd e { s with dram := Dram.reset })).1 = none ∧ RunsOn { s with dram := Dram.reset } 1 0x13 e) ∧
    (let s := at_ e { x with cfg := { tCfg with codec := 2 } }; RunsOn s 1 0x13 e ∧ retuneBad e { tCfg with codec := 2, retention := 2000, outRing := 7 } = none) ∧
    (old.freshAfter 0 = false ∧ { old with lineAt := [(16, 1)] }.freshAfter 0 = true ∧ 0 < old.line) ∧
    (let s := { at_ e x with safety := { Safety.reset with mask := 32, state := 1, safeN := true } }
     RunsOn s 1 0x13 e ∧ maskBit s.safety.mask e.ctx = true ∧ s.safety.state = 1) := by
  unfold RunsOn Runs; decide +kernel

theorem test_witness_StreamFedRetunedAndClosing_close :
    let at_ (e : JEntry) := tOpen 5 { Stream.reset with pics := [tPic 0 1 16, tPic 1 0 0] } (tAt e tReady)
    (let e := tEntry .host 0x11 0 1 5 [1]; RunsOn (at_ e) 1 0x11 e ∧ bit (e.param 0) 0 = true ∧ maskBit (at_ e).safety.mask 5 = false) ∧
    (let e := tEntry .host 0x11 0 1 5 [0]
     let t := { at_ e with safety := { Safety.reset with mask := 32, state := 1, safeN := true } }
     RunsOn t 1 0x11 e ∧ bit (e.param 0) 0 = false ∧ maskBit t.safety.mask e.ctx = true ∧ t.safety.state = 1 ∧
       tPic 0 1 16 ∈ (t.stream 5).pics ∧ (∀ q ∈ (t.stream 5).pics, q.don = 0 → 0 < q.rows)) := by
  unfold RunsOn Runs; decide +kernel

/-- A feed with 187 bytes where 188 were needed completes with FEED_OVERFLOW, in a slot with one byte too little (04 R86). -/
theorem test_feed_overflow :
    let f := { tEntry .host 0x12 0 1 5 [0, 0, 188, 0] with data := tTs true 0 }
    ∃ t, exec (.streamFeed 1) (tOpen 5 { Stream.reset with retCap := 187 } (tAt f tReady)) = .next t ∧ (t.stream 5).inUse = 0 ∧ (t.stream 5).seq = 1 :=
  ⟨_, rfl, by decide +kernel, by decide +kernel⟩

theorem test_witness_ContextCloses :
    let e := { tEntry .host 0x11 0 1 5 [1] with st := .running }
    let c (freed : Bool) : CloseSt := { j := 1, flush := true, freed := freed }
    let s (c : CloseSt) := tOpen 5 { Stream.reset with closing := some c, lastDon := some 6, picRegion := [{ pool := 0, addr := 64, bytes := 64, ecc := false }] } (tAt e tReady)
    let f := { tEntry .host 0x34 0 255 4095 [] with st := .running }
    let t := (tAt f tReady).setSession 4095 { Session.closed 255 with isOpen := true, closing := some { j := 1, flush := false, freed := false } }
    let ring := (s (c false)).setOring 7 { OutRing.reset with size := 18, ringEn := true, wr := 64, uncovered := [{ (default : RecTag) with context := 5 }] }
    ((s (c false)).entry? 1 = some e ∧ takesWork (s (c false)) = true ∧ e.st = .running ∧ e.named (s (c false)).link.chip = some (false, 5) ∧
      ((s (c false)).stream 5).closing = some (c false) ∧ streamDrained (s (c false)) 5 (c false) = true ∧ ((s (c false)).stream 5).cfg.codec ≠ 2 ∧
      uncoveredOf (s (c false)) false 5 = []) ∧
    (takesWork (s (c true)) = true ∧ ((s (c true)).stream 5).closing = some (c true) ∧ (c true).freed = true ∧ uncoveredOf (s (c true)) false 5 = []) ∧
    (ring.pcie.d3 = false ∧ streamDrained ring 5 (c false) = true ∧ (ring.oring 7).uncovered.any (fun r => !r.session && decide (r.context = 5)) = true) ∧
    (t.entry? 1 = some f ∧ takesWork t = true ∧ f.named t.link.chip = some (true, 4095) ∧
      (t.session 4095).closing = some { j := 1, flush := false, freed := false } ∧ sessionIdle t 4095 = true ∧ heldOf t true 4095 = [] ∧
      uncoveredOf t true 4095 = []) := by
  decide +kernel

/-- Generation 255 wraps to 1 (03 R70). -/
theorem test_generation_wraps :
    let f := { tEntry .host 0x34 0 255 4095 [] with st := .running }
    ∃ t, exec (.closeFinal 1) ((tAt f tReady).setSession 4095 { Session.closed 255 with isOpen := true, closing := some { j := 1, flush := false, freed := false } }) = .next t ∧
      (t.session 4095).gen = 1 ∧ (t.session 4095).isOpen = false := ⟨_, rfl, by decide +kernel, by decide +kernel⟩

/-- The IRAP fed after the release has been kept to the tick; and no other: the condition goes on. -/
theorem test_witness_RetentionKept :
    let x := { Stream.reset with aus := [tAu 0 0 true, tAu 1 1000 true], retShort := true, retShortAt := 0 }
    let s := { tOpen 5 x tReady with chip := { tReady.chip with tick := 201000 } }
    (s.stream 5).isOpen = true ∧ (s.stream 5).retShort = true ∧
      (s.stream 5).aus.find? (fun a => a.irap && a.complete.isSome && decide (a.fed > (s.stream 5).retShortAt)) = some (tAu 1 1000 true) ∧
      (tAu 1 1000 true).fed + (s.stream 5).cfg.retention * 1000 < 2 ^ 64 ∧ releasable (s.stream 5) s.chip.tick = 0 := by
  decide +kernel

/-- Two IRAPs both older than RETENTION: what precedes the latest goes (04 R108). -/
theorem test_retention : releasable { Stream.reset with aus := [tAu 0 0 true, tAu 1 10 false, tAu 2 20 true, tAu 3 90000 false] } 280000 = 2 := by
  decide +kernel

/-- The open access unit being fed. -/
def tOpenAu : Au := { tAu 0 0 false with complete := none, closed := false, decoded := false }

theorem test_witness_ContainersParsed_ts :
    let s (p : List Byte) (x : Stream) := tOpen 5 { x with cfg := { tCfg with tsPid := 0x100 }, feeds := [{ bytes := p ++ [0x47], tick := 0, asn := 1, auEnd := false, discont := false, drop := false, short := false }] } tReady
    let x := { Stream.reset with aus := [tOpenAu], nextAu := 1, lastCc := some 15 }
    let p := TsPacket.ofBytes (tTs false 0)
    parserUp (s [] x) 5 = true ∧ ((s (tTs false 0) x).stream 5).cfg.container = 0 ∧ p.sync = true ∧ p.tei = false ∧ p.scrambled = false ∧
      p.payload.isSome = true ∧ p.pusi = false ∧ (TsPacket.ofBytes (tTs true 0)).pusi = true ∧ videoPidOf ((s [] x).stream 5) = some p.pid ∧
      x.errGap = false ∧ x.dropRest = false ∧ p.cc = (15 + 1) % 16 ∧ ((s [] x).stream 5).openAu = some tOpenAu ∧
      (∀ b ∈ x.aus, b.id ≠ tOpenAu.id → b.closed = true) ∧ (∀ b ∈ x.aus, b.id < x.nextAu) ∧
      (TsPacket.ofBytes (List.replicate 188 0)).sync = false ∧ (TsPacket.ofBytes ([0x47, 0x80] ++ List.replicate 186 0)).tei = true ∧
      188 < (tTs false 0 ++ [0x47]).length := by
  decide +kernel

/-- A WAR record header: type, flags, payload bytes. -/
def tWar (type flags len : Nat) : List Byte := wordsBytes [dw [(0x5752, 31, 16), (1, 15, 8), (type, 7, 0)], w32 len, 9000, w32 flags]

theorem test_witness_ContainersParsed_war :
    let v := tWar 1 6 4 ++ [0, 0, 0, 0]
    let a := tWar 2 0x10002 320 ++ List.replicate 320 (0 : Byte)
    let f (b : List Byte) : FeedChunk := { bytes := b ++ [0], tick := 0, asn := 1, auEnd := false, discont := false, drop := false, short := false }
    let sv := tOpen 5 { Stream.reset with cfg := { tCfg with container := 1 }, feeds := [f v] } tReady
    let sa := tOpen 5 { Stream.reset with cfg := { tCfg with codec := 2, container := 1 }, feeds := [f a] } tReady
    let h (b : List Byte) (i : Nat) : Word := (bytesWords (b.take 16)).getD i 0
    (parserUp sv 5 = true ∧ (sv.stream 5).cfg.container = 1 ∧ warLen (v ++ [0]) = some 20 ∧ 20 < (v ++ [0]).length ∧ fld (h v 0) 31 16 = 0x5752 ∧
      fld (h v 0) 15 8 = 1 ∧ fld (h v 0) 7 0 = 1 ∧ bit (h v 3) 1 = true ∧ bit (h v 3) 2 = true ∧ bit (h v 3) 3 = false ∧ (sv.stream 5).aus = []) ∧
    (fld (h (tWar 2 6 4) 0) 7 0 ≠ 1) ∧
    (parserUp sa 5 = true ∧ warLen (a ++ [0]) = some 336 ∧ fld (h a 0) 7 0 = 2 ∧ fld (h a 3) 19 16 = (sa.stream 5).cfg.mics ∧
      ((a.drop 16).take 320).length % (2 * (sa.stream 5).cfg.mics) = 0 ∧ 0 < (sa.stream 5).cfg.audioBlock ∧ bit (h a 3) 3 = false ∧ bit (h a 3) 1 = true ∧
      (sa.stream 5).gapNext = false ∧ (sa.stream 5).nextPts = none) := by
  decide +kernel

/-- 160 PCM frames of one microphone fill one block (04 R110). -/
theorem test_block_filled :
    let a := tWar 2 0x10002 320 ++ List.replicate 320 (0 : Byte)
    let s := tOpen 5 { Stream.reset with cfg := { tCfg with codec := 2, container := 1 }, feeds := [{ bytes := a ++ [0], tick := 0, asn := 1, auEnd := false, discont := false, drop := false, short := false }] } tReady
    ∃ t, exec (.warRecord 5) s = .next t ∧ (t.stream 5).block = 1 ∧ (t.stream 5).pcmPart = 0 := ⟨_, rfl, by decide +kernel, by decide +kernel⟩

/-- An access unit's picture: 64 by 64, High profile, one slice segment of 16 macroblocks. -/
def tInfo (w : Nat) : AuInfo :=
  { sps := { hevc := false, profile := .avcHigh, level := 51, chroma := .c420, bitDepth := 8, interlaced := false, otherTool := false, width := w,
             height := 64, dpb := 1, ctb := 16 },
    kind := .irap, segs := [{ units := List.range 16, bins := List.replicate 16 10, errAt := none, endByte := 0, list0 := none }], last := true, refs := [], list0 := none }

theorem test_witness_EntropyDecoding :
    let a := { tAu 0 0 true with decoded := false }
    let s := tOpen 127 { Stream.reset with aus := [a], nextAu := 1 } tReady
    let r := tOpen 127 { Stream.reset with aus := [a], nextAu := 1, dim := true } tReady
    parserUp s 127 = true ∧ (s.stream 127).cfg.codec ≠ 2 ∧ nextAu (s.stream 127) = some a ∧ runAhead (s.stream 127) a = true ∧ engineTurn s 127 = true ∧ segsFed a (tInfo 64) = true ∧
      auVerdict (s.stream 127) (tInfo 64) = none ∧ a.don = none ∧ a.started = false ∧ (s.stream 127).reject = none ∧ (s.stream 127).dim = false ∧
      (s.stream 127).cfg.output = 0 ∧ (∀ q ∈ (s.stream 127).pics, q.au ≠ a.id ∧ q.don ≠ (s.stream 127).nextDon) ∧
      engineTurn r 127 = true ∧ auVerdict (r.stream 127) (tInfo 65) = some stDimExceeds ∧ (r.stream 127).dim = true ∧
      auVerdict (s.stream 127) (tInfo 65) = some stDimExceeds ∧ (tInfo 64).last = true ∧ a.complete.isSome = true ∧
      (s.stream 127).pics = [] ∧ (s.stream 127).outbox = [] ∧ a.late = none ∧ (turnSegs (4 * tCfg.bPicBins) 0 (cdiv (tCfg.binBytes - 0) 2) (tInfo 64).segs).length = 1 := by
  decide +kernel

/-- The first picture takes DON 0 (02 R18). -/
theorem test_first_don :
    ∃ t, exec (.entropyDecode 127 (tInfo 64)) (tOpen 127 { Stream.reset with aus := [{ tAu 0 0 true with decoded := false }], nextAu := 1 } tReady) = .next t ∧
      (t.stream 127).pics.map (·.don) = [0] ∧ (t.stream 127).nextDon = 1 := ⟨_, rfl, by decide +kernel, by decide +kernel⟩

theorem test_witness_RowsReconstructed :
    let s (x : Stream) := { tOpen 5 x tReady with pool := [(5, 1000000, 0)] }
    let behind := (s { Stream.reset with pics := [tPic 0 1 16] }).setStream 6 { Stream.reset with isOpen := true, pics := [tPic 0 1 16] }
    let behind := { behind with pool := [(5, 1000000, 1), (6, 1000000, 0)] }
    let one := { Stream.reset with pics := [tPic 0 1 16] }
    let last := { Stream.reset with pics := [tPic 0 3 48] }
    let full := { Stream.reset with pics := [{ tPic 0 0 0 with stored := true }, { tPic 1 4 64 with stored := true }, { tPic 2 4 64 with stored := true }] }
    (parserUp (s one) 5 = true ∧ (s one).pool.any (fun e => decide (e.1 = 5)) = true ∧ poolTurn (s one) 5 = true ∧ reconPicture ((s one).stream 5) = some (tPic 0 1 16) ∧ one.paused = false ∧ rowDecoded one (tPic 0 1 16) = true ∧
      reconBlocked (s one) 5 (tPic 0 1 16) = false ∧ (tPic 0 1 16).rows + 1 < (tPic 0 1 16).rowCount ∧ 0 < (tPic 0 1 16).line ∧
      (tPic 0 1 16).line ≤ (tPic 0 1 16).h ∧ (∀ q ∈ ((s one).stream 5).pics, q.don = 0 → q = tPic 0 1 16)) ∧
    (parserUp behind 5 = true ∧ reconPicture (behind.stream 5) = some (tPic 0 1 16) ∧ rowDecoded (behind.stream 5) (tPic 0 1 16) = true ∧
      reconBlocked behind 5 (tPic 0 1 16) = false ∧ poolTurn behind 5 = false ∧ poolTurn behind 6 = true) ∧
    (reconPicture ((s last).stream 5) = some (tPic 0 3 48) ∧ poolTurn (s last) 5 = true ∧ rowDecoded last (tPic 0 3 48) = true ∧ reconBlocked (s last) 5 (tPic 0 3 48) = false ∧ (tPic 0 3 48).rowCount ≤ 3 + 1 ∧
      newLine (tPic 0 3 48) default = 64) ∧
    (reconPicture ((s full).stream 5) = some { tPic 0 0 0 with stored := true } ∧ reconBlocked (s full) 5 { tPic 0 0 0 with stored := true } = true ∧
      full.paused = false) ∧
    (({ one with paused := true } : Stream).paused = true ∧ reconPicture ((s { one with paused := true }).stream 5) = some (tPic 0 1 16) ∧
      reconBlocked (s { one with paused := true }) 5 (tPic 0 1 16) = false ∧ reconBlocked (s { full with paused := true }) 5 { tPic 0 0 0 with stored := true } = true ∧
      reconPicture { one with paused := true, pics := [] } = none) := by
  decide +kernel

/-! ### A part with an Armature -/

/-- A Niche entry of the test schedule. -/
def tNiche (order station unit : Nat) (desc : List Nat) : NicheEntry :=
  { order := order, proof := false, safety := true, engine := if station = 2 ∨ station = 5 then 3 else 0, unit := unit,
    indep := decide (station = 2 ∨ station = 5), station := station, wdog := 1000, depIn := 0,
    desc := desc.map w32, kv := none }

/-- An independent product of one row and column over one accumulator row. -/
def tMx : List Nat := [0x100, 0, 0x10001, 0, 0, 0, 0, 0, 0, 0, 0xFFFFFFFF, 0xFFFFFFFF, 0, 128, 0x10000]

/-- A row operation over 8 rows of 2 INT8 elements. -/
def tVx : List Nat := [0x132, 0, 0x80002, 0, 64, 0xFFFFFFFF, 0xFFFFFFFF, 0, 64]

/-- A SHP line Niche of slot 5: four tile rows of 16 lines, 1 to 1, one batch buffer on core 15. -/
def tShp : List Nat := [0x100, 5, 0, 0x400040, 0x400040, 0, 0, 0, 0, 0, 0, 0, 0, 0, 0, 0x100040, 0x100040, 0x40001, 0x80000101, 0, 0, 0, 4]

/-- The schedule of slot 5: four bands, one Niche of each station but DEC, and a Proof cast product on engine 3 of core 15. -/
def tSched : Schedule :=
  { trigs := (List.range 4).map (fun b => { audio := false, band := b, frame := false, slot := 5, halo := 0, trigLpos := 16 * (b + 1), firstNiche := 0, nicheCount := 2 }),
    niches := [tNiche 0 2 15 tMx, tNiche 1 3 15 [], tNiche 2 4 0 [0x100, 5], tNiche 3 6 1 [], tNiche 4 1 3 tShp, tNiche 5 7 0 [],
               { tNiche 6 2 15 tMx with proof := true }, tNiche 7 5 15 tMx, tNiche 8 5 15 tMx],
    succs := [], ops := [], packs := [{ model := 7, groups := 2, lanes := 2, rows := 1, firstNiche := 7, nicheCount := 1 }], proofGap := 8000, collisionFree := true }

/-- Its binding: slot 5, safety class, Maquette 1, entry 0. -/
def tBind : Binding :=
  { kind := 0, maq := 1, target := 5, entry := 0, maxH := 64, maxW := 64, bPix := 1000000, framePeriod := 4000, profile := 0x80000, audio := 0 }

/-- A second binding, of session model 7. -/
def tBindSeq : Binding := { tBind with kind := 2, target := 7, entry := 1 }

/-- A plan of that schedule alone. -/
def tPlan (t : Schedule) : CommitPlan := { main := t, variants := [], contents := [] }

def tArm : Armature :=
  { coreMask := 0x8000, bindings := [tBind, tBindSeq], plan := { (tPlan tSched) with variants := [(15, tSched)] },
    figures := List.replicate 2 { hHalo := 0, pArm := 500, tPg := 0, encInParm := false, pArmVar := [] }
    regions := List.replicate 16 wholeRegion, allocs := [], role := 0, torusX := 2, torusY := 2 }

/-- A Niche of a layout, on core 0 of its candidate. -/
def tOpNiche (station unit wdog : Nat) (desc : List Nat) : OpNiche :=
  { station := station, unit := unit, engine := 0, indep := false, wdog := wdog, desc := desc.map w32, kv := none }

/-- An operation of that one Niche, no product. -/
def tOp (n : OpNiche) : Operation := { prod := none, windows := [], second := none, cores := [], niches := [n] }

/-- SHP by lines on core 0, slot left to the binding; OUT at the end of each band; a constant at byte 4,096. -/
def tShp0 : List Nat := (tShp.set 1 0).set 18 0x00010101
def tCand : Candidate :=
  { cores := 1, halo := 0, lines := [tOp (tOpNiche 1 3 1000 tShp0)], bands := [[tOp (tOpNiche 7 0 1000 [])]], contents := [(0, 4096, [1, 2, 3, 4])] }

/-- Maquette 1: a video entry, a session entry of one layer and head, and a best-effort entry of one vector Niche over 8 rows of 2 INT8 elements. -/
def tEntryOf (k : EntryKind) : MaqEntry :=
  { kind := k, cands := [tCand], maxBatch := 4, spad := 512, accRows := 0, ops := [tOp (tOpNiche 3 0 4 tVx)], inBytes := 16, outBytes := 16
    lcGroups := 2, lanes := 2, layers := 1, heads := 1, itemBytes := 4, laneRows := 1, startTok := 1, eosTok := 2 }

def tPkg : Package :=
  { magic := 0x514D5A57, crcOk := true, tileRev := 1, bytes := 4096, entries := [tEntryOf .video, tEntryOf .session, tEntryOf .bestEffort] }

/-- The slot's values. -/
def tCfgSafe : StreamCfg := { tCfg with safety := true }

/-- The Armature active, slot 5 open with `pics`, the instances `runs` at work. -/
def tBound (pics : List Picture) (runs : List Run) : State :=
  { tOpen 5 { Stream.reset with cfg := tCfgSafe, pics := pics, retCap := 1000000 } tReady with
    armatures := [(0, tArm)], active := some { arm := 0, var := none }, maquettes := [(1, { pkg := tPkg, allocs := [] })], runs := runs }

/-- An instance of Niche `k` for the picture `don`, band `b`. -/
def tRun (k don b : Nat) (st : RunSt) : Run :=
  { (default : Run) with ref := { arm := 0, var := none }, niche := k, owner := 5, don := don, band := b, st := st }

/-- A picture served by the Armature. -/
def tPicB (don rows line : Nat) : Picture := { tPic don rows line with sched := some { arm := 0, var := none }, bound := true }

theorem test_witness_OnlyArmingRaisesSafeN :
    let e := tEntry .safety 0x70 0 0 0 [0x1234, 32]
    let b := tBound [] []
    let s := { tAt e { b with chip := { b.chip with fenced := 0x8000 } } with pending := [.safetyArm 1 true] }
    sound s = true ∧ s.safety.safeN = false ∧ ∃ t, step s = .next t ∧ t.safety.safeN = true :=
  ⟨by decide +kernel, by decide +kernel, _, rfl, by decide +kernel⟩

/-! ### Tracks, bands, triggers -/

theorem test_witness_TrackCommands :
    let e := tEntry .host 0x40 0 1 127 [0, 0, 0x0FFF3C00, 0x01000000]
    let f := tEntry .host 0x40 0 1 127 [0, 0, 0x10003C00, 0x01000000]
    let q (c : Nat) := tEntry .host 0x41 0 (if c = 127 then 1 else 0) c [0x8000, 0, 96]
    let s (e : JEntry) := { tOpen 127 Stream.reset (tAt e tReady) with tracks := [(3, { Track.reset with live := true, slot := 127 }), (9, { Track.reset with live := true, slot := 127 })] }
    (RunsOn (s e) 1 0x40 e ∧ (TrackCfg.ofEntry e).ok = true ∧ ((s e).stream 127).cfg.codec ≠ 2) ∧ (RunsOn (s f) 1 0x40 f ∧ (TrackCfg.ofEntry f).ok = false) ∧
    (Runs (s (q 0xFFFF)) 1 0x41 (q 0xFFFF) ∧ (q 0xFFFF).ctx = 0xFFFF ∧ tracksBad (s (q 0xFFFF)) none = false) ∧
    (Runs (s (q 127)) 1 0x41 (q 127) ∧ streamCheck (s (q 127)) (q 127) = none ∧ ((s (q 127)).stream 127).cfg.codec ≠ 2) ∧
    (let t := { s (q 127) with dram := { tReady.dram with bad := [(64 * mib) / 32] } }
     let u := { t with tracks := [(0, { Track.reset with live := true, slot := 127 })] }
     Runs u 1 0x41 (q 127) ∧ tracksBad u (some 127) = true) ∧
    (let t := (s (q 127)).modStream 127 (fun x => { x with cfg := { tCfg with codec := 2 } })
     RunsOn t 1 0x41 (q 127) ∧ (t.stream 127).cfg.codec = 2 ∧ (q 127).ctx < 128) := by
  unfold RunsOn Runs; decide +kernel

/-- One image fits, the second does not: TRUNCATED, 1 of 2 (08 R216). -/
theorem test_track_query :
    let q := tEntry .host 0x41 0 0 0xFFFF [0x8000, 0, 96]
    let s := { tAt q tReady with tracks := [(3, { Track.reset with live := true, slot := 1 }), (9, { Track.reset with live := true, slot := 2 })] }
    ((Track.reset).image 0).length = 16 ∧ exec (.trackQuery 1) s = .next (finish 1 stTruncated [1, 2]
      { beginCmd q s with hostMem := mwrite [] 0x8000 (wordsBytes (({ Track.reset with live := true, slot := 1 } : Track).image 3)) }) :=
  ⟨by decide +kernel, rfl⟩

/-- Bands of 16 lines with a halo of 20 over 100 lines: the last two trigger lines are cut off at the picture's height (02 R23). -/
theorem test_witness_TriggerLine : bandCount tCfg 100 = 7 ∧ (List.range 7).map (trigLine tCfg 20 100) = [36, 52, 68, 84, 100, 100, 100] ∧
    bandCount { tCfg with timing := 1 } 100 = 1 ∧ trigLine { tCfg with timing := 1 } 20 100 0 = 100 ∧ 0 < bandHeight tCfg 100 := by decide +kernel

theorem test_witness_TriggersFire_band :
    let p := tPicB 2 2 32
    let s := tBound [{ p with fired := [(0, 5)] }] []
    streamRuns (s.stream 5) = true ∧ takesWork s = true ∧ s.noSched = false ∧
      ((nextFire s 5).map (fun x => (x.1.don, x.2.1, x.2.2.1.band, x.2.2.2)) = some (2, { arm := 0, var := none }, 1, 1)) ∧
      p.whole = false ∧ (s.stream 5).outbox = [] ∧ (∀ q ∈ (s.stream 5).pics, q.don = 2 → q = { p with fired := [(0, 5)] }) ∧
      nextFire (tBound [{ p with fired := [(0, 5), (1, 5)] }] []) 5 = none ∧
      nextFire (tBound [{ p with fired := [(0, 5)] }] [tRun 0 0 1 .running]) 5 = none ∧
      firstUnreached s 5 { p with fired := [(0, 5)] } = some 2 ∧
      takesWork { s with chip := { s.chip with fatal := true } } = false ∧ streamRuns ({ Stream.reset with isOpen := false } : Stream) = false := by decide +kernel

theorem test_witness_TriggersFire_audio :
    let x := { Stream.reset with cfg := { tCfg with codec := 2, container := 1 }, block := 1 }
    let s := tOpen 5 x tReady
    streamRuns (s.stream 5) = true ∧ takesWork s = true ∧ (s.stream 5).cfg.codec = 2 ∧ (s.stream 5).block ≠ (s.stream 5).firedBlocks ∧ (s.stream 5).outbox = [] ∧
      parityFree s 5 0 0 = true ∧ bound s 5 = false ∧ (s.stream 5).cfg.codec = 2 ∧ (tOpen 5 { x with firedBlocks := 1 } tReady |>.stream 5).block = 1 := by decide +kernel

theorem test_witness_TriggersFire_late :
    let p := { tPicB 2 2 32 with auTick := 100, au := 0 }
    let s := { tBound [p] [] with chip := { tReady.chip with tick := 4100 } }
    let s := s.modStream 5 (fun x => { x with aus := [tAu 0 100 true] })
    streamRuns (s.stream 5) = true ∧ takesWork s = true ∧ picOf (s.stream 5) 2 = some p ∧ p.late = none ∧ p.replayed = false ∧ p.whole = false ∧
      firstUnreached s 5 p = some 2 ∧ (s.stream 5).outbox = [] ∧ (∀ q ∈ (s.stream 5).pics, q.don = p.don → q = p) ∧ tdOf s 5 p 2 = some 100 ∧
      pictureFor (s.stream 5) 2 { tInfo 64 with segs := [] } = some p ∧ 
      s.chip.tick ≤ 100 + cdiv ((cfgOf (s.stream 5) p).deadline * tFrame (s.stream 5).cfg) 16 := by decide +kernel

/-- The access unit waits for the engine, its picture not begun. -/
theorem test_witness_TriggersFire_late_waiting :
    let s := (tBound [] []).modStream 5 (fun x => { x with aus := [{ tAu 0 100 true with decoded := false }], nextAu := 1, nextDon := 2 })
    let p := (pictureFor (s.stream 5) 2 (tInfo 64)).getD default
    pictureFor (s.stream 5) 2 (tInfo 64) = some p ∧ picOf (s.stream 5) 2 = none ∧ p.late = none ∧ p.replayed = false ∧ p.whole = false ∧
      firstUnreached s 5 p = some 0 ∧ tdOf s 5 p 0 = some 100 ∧ picSched s 5 p = some { arm := 0, var := none } ∧
      s.chip.tick ≤ 100 + cdiv ((cfgOf (s.stream 5) p).deadline * tFrame (s.stream 5).cfg) 16 := by decide +kernel

/-- The band's record of a running OUT Niche fits its ring to the byte, or the ring is off, or holds records, or an earlier band's record is to come; the
SEQ_RESULT of an abandoned step; no OUT Niche, and no step abandoned. -/
theorem test_witness_RecordsPlaced :
    let body : List Word := [0x00010004, 0, 0, 0, 0, 0, 0, 0, 7]
    let r := { (default : RecordReq) with context := 5, type := 3, don := 2, band := 0, body := body }
    let o := { OutRing.reset with size := 18, ringEn := true, active := true, coal := 100, baseLo := 0x10000, tailWbLo := 0x9000 }
    let x := tRun 5 2 0 .running
    let off := tBound [tPicB 2 2 32] [x]
    let s := off.setOring 0 o
    let early := (tBound [tPicB 2 2 32] [tRun 5 2 0 .waiting, tRun 5 2 1 .running]).setOring 0 o
    let w : SeqWork := { (default : SeqWork) with fault := 0x0503 }
    let q := { r with session := true, type := 6, context := 4095, body := [] }
    let t := s.setSession 4095 { Session.reset with isOpen := true, work := some w }
    (s.chip.fatal = false ∧ s.chip.phase = .ready ∧ r.session = false ∧ r.type = 3 ∧ (s.stream 5).isOpen = true ∧ (s.stream 5).cfg.codec ≠ 2 ∧
      picOf (s.stream 5) r.don.toNat = some (tPicB 2 2 32) ∧ r.band < 0xFFF ∧ tget (tPicB 2 2 32).discard r.band 0 = 0 ∧ s.pcie.d3 = false ∧
      outRunning s 5 2 0 = some x ∧ bodyOk body = true ∧ outputOk (bodyOutput [] body) = true ∧
      fld (body.getD 1 0) 15 0 = entryOf s x ∧ ringHolds s x = false ∧ recordTurn s 5 2 0 = true ∧ (s.stream 5).outbox = [] ∧
      (∀ y ∈ s.sessions, fedBy 5 0 y.2 = false) ∧
      (s.oring 0).held = [] ∧ s.link.chip < 64 ∧ (s.stream 5).gen < 256 ∧ r.context < 2 ^ 16 ∧ Memory.wf s.hostMem = true) ∧
    (o.ringEn = true ∧ o.fits 96 = true ∧ o.wr + 96 ≤ o.bytes ∧ o.coal ≠ 0 ∧ o.uncoveredBytes + 96 < o.coalBytes.toNat) ∧ ((off.oring 0).ringEn = false) ∧
    (outRunning early 5 2 1 = some (tRun 5 2 1 .running) ∧ ringHolds early (tRun 5 2 1 .running) = false ∧ recordTurn early 5 2 1 = false) ∧
    (let h := s.setOring 0 { o with held := [{ tag := default, words := [] }] }; outRunning h 5 2 0 = some x ∧ ringHolds h x = true) ∧
    (q.session = true ∧ q.type = 6 ∧ (t.session 4095).gen < 256 ∧ abandonedStep t 4095 = some w ∧ (t.oring 0).held = []) ∧
    ({ r with band := 1 }.session = false ∧ outRunning s 5 2 1 = none ∧ abandonedStep s 4095 = none) := by
  decide +kernel

theorem test_witness_RecordsPlaced_later :
    let o := { OutRing.reset with size := 18, ringEn := true, active := true, coal := 100, wr := 64, uncovered := [default], due := 107, irqEn := true }
    let s := tReady.setOring 7 o
    let b : BuiltRec := { tag := default, words := List.replicate 16 0 }
    (s.pcie.d3 = false ∧ (s.oring 7).uncovered ≠ [] ∧ s.chip.tick ≤ (s.oring 7).due ∧ (s.oring 7).due < 2 ^ 64) ∧
    (let h := tReady.setOring 7 { o with held := [b] }; (h.oring 7).held = [b] ∧ (h.oring 7).ringEn = true ∧ (h.oring 7).fits (4 * b.words.length) = true) ∧
    ((tReady.setOring 7 { OutRing.reset with held := [b] }).oring 7).ringEn = false ∧
    (let h := tReady.setOring 7 { o with held := [b], head := 96 }
     (h.oring 7).fits (4 * b.words.length) = false ∧ (h.oring 7).ringEn = true ∧ (h.oring 7).fullHold = false) := by decide +kernel

/-- The tail write-back of 64 bytes 100 ticks after the first record (03 R53). -/
theorem test_tail_write_back :
    let o := { OutRing.reset with size := 18, ringEn := true, active := true, coal := 100, wr := 64, uncovered := [default], due := 107, tailWbLo := 0x9000 }
    ∃ t, exec (.outCoalExpiry 7) (tReady.setOring 7 o) = .next t ∧ t.chip.tick = 107 ∧ mget t.hostMem 0x9000 = 64 :=
  ⟨_, rfl, by decide +kernel, by decide +kernel⟩

/-! ### Maquettes and Armatures -/

theorem test_witness_Maquettes :
    let l (c : Nat) := tEntry .host 0x20 0 0 c []
    let d (c : Nat) := tEntry .host 0x21 0 0 c []
    let s (e : JEntry) := tAt e (tBound [] [])
    let free (e : JEntry) := { s e with armatures := [], active := none }
    (Runs (s (l 63)) 1 0x20 (l 63) ∧ tfind (s (l 63)).maquettes 63 = none ∧ (tfind (s (l 1)).maquettes 1).isSome = true ∧ Runs (s (l 1)) 1 0x20 (l 1)) ∧
    (Runs (s (l 0xFFFF)) 1 0x20 (l 0xFFFF) ∧ lowestFree 64 ((s (l 0xFFFF)).maquettes.map (·.1)) = some 0 ∧
      lowestFree 64 (List.range 64) = none) ∧ packageWf tPkg = true ∧
    (tPkg.magic = 0x514D5A57 ∧ tPkg.crcOk = true ∧ tPkg.tileRev = 1 ∧ tPkg.entries.all (fun x => decide (x.kind ≠ .bestEffort) || !longRow x) = true) ∧
    ({ tPkg with tileRev := 2 } : Package).tileRev ≠ 1 ∧ (allocPool true tPkg.bytes (beginCmd (l 63) (s (l 63)))).1.isSome = true ∧
      (let t := { s (l 63) with dram := Dram.reset }; Runs t 1 0x20 (l 63) ∧ (allocPool true tPkg.bytes (beginCmd (l 63) t)).1 = none) ∧
    (Runs (s (d 1)) 1 0x21 (d 1) ∧ (tfind (s (d 1)).maquettes 1).isSome = true ∧
      (s (d 1)).armatures.any (fun a => a.2.bindings.any (fun b => b.maq = 1)) = true) ∧
    (Runs (free (d 1)) 1 0x21 (d 1) ∧ (free (d 1)).armatures.any (fun a => a.2.bindings.any (fun b => b.maq = 1)) = false ∧ (free (d 1)).jobs = [] ∧
      Runs (s (d 9)) 1 0x21 (d 9) ∧ tfind (s (d 9)).maquettes 9 = none) := by
  unfold Runs; decide +kernel

/-- A commit block of one video binding on core 15, no safety class. -/
def tBlock : List Word := [0x00010100, 0x8000] ++ List.replicate 14 0 ++ [0x00010005, 0, 0x00400040, 1000000, 4000, 0, 0, 0]

/-- The candidate's Niches of that block on core 15. -/
def tLine : OpNiche := tOpNiche 1 3 1000 ((tShp.set 1 5).set 18 0x80000101 ++ List.replicate (32 - tShp.length) 0)
def tOut : OpNiche := tOpNiche 7 0 1000 []

/-- The resolved plan of that block: SHP by lines, and OUT in each of four bands. -/
def tPlanS : CommitPlan :=
  let b := List.range 4
  { main := { tSched with
      niches := ([tLine] ++ List.replicate 4 tOut).zipIdx.map (fun x => { opEntry x.1 with order := x.2 })
      trigs := b.map (fun k => { audio := false, band := k, frame := false, slot := 5, halo := 0, trigLpos := 16 * (k + 1), firstNiche := k + 1, nicheCount := 1 })
      ops := { binding := 0, inst := none, op := tOp tLine, first := 0 } :: b.map (fun k => { binding := 0, inst := some k, op := tOp tOut, first := k + 1 })
      packs := [] },
    variants := [], contents := [(15, 4096, [1, 2, 3, 4])] }

theorem test_witness_ArmatureCommitted :
    let e (c : Nat) := tEntry .host 0x22 0 0 c [0, 0, 0x8000, 0, 256]
    let s (c : Nat) := tAt (e c) (tBound [] [])
    let bad := { tPlanS with main := { tPlanS.main with collisionFree := false } }
    (Runs (s 0) 1 0x22 (e 0) ∧ (s 0).active.map (·.arm) = some 0 ∧ planOk (s 0) tBlock tPlanS = true) ∧
    (Runs (s 3) 1 0x22 (e 3) ∧ (s 3).active.map (·.arm) ≠ some 3 ∧ planOk (s 3) tBlock bad = true ∧
      firstFail (commitChecks (s 3) tBlock bad) = some stArmResource) ∧
    (Runs (s 0xFFFF) 1 0x22 (e 0xFFFF) ∧ lowestFree 4 ((s 3).armatures.map (·.1)) = some 1 ∧ lowestFree 4 [0, 1, 2, 3] = none) ∧
    (planOk (s 3) tBlock tPlanS = true ∧ firstFail (commitChecks (s 3) tBlock tPlanS) = none ∧
      (allocAll false true (planAllocs tPlanS) [] (beginCmd (e 3) (s 3))).1.isSome = true) ∧
    (let t := { s 3 with dram := Dram.reset }
     Runs t 1 0x22 (e 3) ∧ planOk t tBlock tPlanS = true ∧ firstFail (commitChecks t tBlock tPlanS) = none ∧
       (allocAll false true (planAllocs tPlanS) [] (beginCmd (e 3) t)).1 = none) := by
  unfold Runs; decide +kernel

/-- A halo that differs by band, a missing band, and a plan in the wrong timing are none Plinth resolves (02 R22, R27, R33). -/
theorem test_plan_refused :
    let s := tBound [] []
    let p (f : TrigEntry → TrigEntry) := { tPlanS with main := { tPlanS.main with trigs := tPlanS.main.trigs.map f } }
    planOk s tBlock (p (fun e => if e.band = 3 then { e with halo := 1, trigLpos := 65 } else e)) = false ∧
    planOk s tBlock (p (fun e => { e with frame := true })) = false ∧
    planOk s tBlock { tPlanS with main := { tPlanS.main with trigs := tPlanS.main.trigs.take 3 } } = false := by decide +kernel

theorem test_witness_ArmatureSwapped :
    let e := tEntry .host 0x23 0 0 3 []
    let s (mask fenced : Nat) := { tAt e tReady with armatures := [(3, { tArm with coreMask := mask })], chip := { tReady.chip with fenced := fenced } }
    let gone (s : State) (m : Nat) := (maskList m 16).filter s.isFenced
    (Runs (s 0x8000 0x7FFF) 1 0x23 e ∧ gone (s 0x8000 0x7FFF) 0x8000 = []) ∧ (gone (s 0xC000 0x8000) 0xC000 = [15]) ∧
      (tArm.plan.variants.any (fun v => v.1 = 15) = true) ∧ Runs (s 0xC000 0x8000) 1 0x23 e ∧
      (Runs (tAt e tReady) 1 0x23 e ∧ tfind tReady.armatures 3 = none) ∧ 
      (let t := (s 0x8000 0).setSession 9 { Session.reset with isOpen := true, be := true }
       let u := { t with active := some { arm := 3, var := none }, noSched := false }
       Runs t 1 0x23 e ∧ t.sessions ≠ [] ∧ ∀ x ∈ t.sessions, laneLost u x.2 = false ∧ workUnbound u x.2 = false) ∧
      (Runs (s 0xC000 0xC000) 1 0x23 e ∧ 2 ≤ (gone (s 0xC000 0xC000) 0xC000).length) ∧
      ({ s 0x8000 0 with safety := { Safety.reset with state := 1, safeN := true } } : State).safety.state = 1 := by
  unfold Runs; decide +kernel

/-! ### Best-effort work -/

/-- A job of that entry. -/
def tJob (core : Option Nat) (running : Option UnitId) (paused : Bool) : BeJob :=
  { j := 2, sess := none, maq := 1, entry := 2, next := 0, core := core, engine := none, again := false, running := running, paused := paused, tiles := 3,
    startAt := 0, runAt := 0, pausedAt := 0, pausedTicks := 0, readyAt := 0, preempt := 0, aborts := 0
    base := 0, rowBase := 0 }

theorem test_witness_BestEffortWork :
    let e := tEntry .host 0x30 0 0 1 [0, 0, 64, 0, 4, 2]
    let s := tAt e (tBound [] [])
    let fits (s : State) (c : Nat) : Bool := !s.isFenced c && decide ((512 : Nat) ≤ (regionOf s c).spadBytes) && (regionOf s c).banks.all (fun _ => true)
    let none_ := { s with maquettes := [(1, { pkg := { tPkg with entries := List.replicate 3 { tEntryOf .bestEffort with ops := [] } }, allocs := [] })] }
    (Runs s 1 0x30 e ∧ forwards s e = false ∧ (tfind s.maquettes e.ctx).isSome = true ∧ tPkg.entries[(e.param 5).toNat]? = some (tEntryOf .bestEffort) ∧
      (e.param 4).toNat ≤ 4 ∧ rangesMeet (join64 (e.param 0) (e.param 1)) (4 * 16) (join64 (e.param 2) (e.param 3)) (4 * 16) = false ∧
      join64 (e.param 2) (e.param 3) + 4 * 16 ≤ spaceBytes s.dram ∧ fits s 15 = true ∧ (tEntryOf .bestEffort).niches ≠ []) ∧
    (Runs none_ 1 0x30 e ∧ (tfind none_.maquettes 1).map (fun m => (m.pkg.entries[2]?).map (·.niches)) = some (some [])) ∧
    (∀ c, c < 16 → fits { s with chip := { s.chip with fenced := 0xFFFF } } c = false) ∧
    (let f := tEntry .host 0x30 0 0 1 [0, 0, 63, 0, 4, 2]
     Runs (tAt f (tBound [] [])) 1 0x30 f ∧ rangesMeet (join64 (f.param 0) (f.param 1)) (4 * 16) (join64 (f.param 2) (f.param 3)) (4 * 16) = true) := by
  unfold Runs; decide +kernel

theorem test_witness_BestEffortWork_gap :
    let n := (tEntryOf .bestEffort).niches.headD default
    let a := { tBound [] [] with jobs := [tJob none none false] }
    let b := { tBound [] [] with jobs := [tJob (some 15) (some (.vx 15)) true] }
    let c := { tBound [] [tRun 1 2 0 .ready] with jobs := [tJob (some 15) (some (.vx 15)) false] }
    coreOf (.vx 15) = some 15 ∧
    (jobNiche a (tJob none none false) = some n ∧ takesWork a = true ∧ a.jobs.find? (fun b => b.paused && b.holds a (.vx 15)) = none ∧
      (∀ y ∈ a.jobs, nowhere a y = false) ∧
      pickJob a 15 (byJournal (a.jobs.filter (jobReady a 15 (.vx 15)))) = some (tJob none none false) ∧
      placedAt a 15 (tJob none none false) = some (tJob none none false) ∧ beFootprint a 15 (tJob none none false) (.vx 15) n = none) ∧
    (b.jobs.find? (fun x => x.paused && x.holds b (.vx 15)) = some (tJob (some 15) (some (.vx 15)) true) ∧ gapOpen b 15 (.vx 15) (beWide n) = true) ∧
    (beOn c (.vx 15) = some (tJob (some 15) (some (.vx 15)) false) ∧ beWide n = false ∧ readyFor c (.vx 15) ≠ [] ∧
      c.recov.hung.contains (.vx 15) = false ∧ (tJob none none false).tiles ≤ 3 ∧ 8 ≤ beTiles n) := by
  decide +kernel

/-- A second job of the core has the part beside the first (log 135). -/
theorem test_second_part :
    let b := tJob none none false
    let s := { tBound [] [] with jobs := [{ tJob (some 15) (some (.vx 15)) false with j := 3 }, b] }
    (placedAt s 15 b).map (fun z => (z.base, z.rowBase)) = some (512, 0) := by decide +kernel

/-! ### Niches -/

theorem test_witness_NicheDispatched :
    let s := tBound [tPicB 2 2 32, tPicB 3 0 0] [tRun 0 3 1 .ready, tRun 0 2 0 .ready, tRun 1 2 0 .ready]
    let busy := tBound [tPicB 2 2 32] [tRun 0 2 0 .ready, tRun 6 2 0 .running]
    takesWork s = true ∧ choose s (.mx 15 3) = some (tRun 0 3 1 .ready, [tRun 0 3 1 .ready]) ∧
      canStart s (.mx 15 3) (tRun 0 3 1 .ready) [tRun 0 3 1 .ready] = true ∧ nicheFootprint (runNiche s (tRun 0 3 1 .ready)) = none ∧
      choose busy (.mx 15 3) = some (tRun 0 2 0 .ready, [tRun 0 2 0 .ready]) ∧ canStart busy (.mx 15 3) (tRun 0 2 0 .ready) [tRun 0 2 0 .ready] = false ∧
      (∀ r ∈ choices s (.mx 15 3), r.party = (tRun 0 3 1 .ready).party ∧ r.cast = none) := by
  decide +kernel

/-- Two streams whose instances became ready in the same tick contend: the group has both. -/
theorem test_contest :
    let a := tRun 0 2 0 .ready
    let b := { tRun 0 2 0 .ready with owner := 6 }
    (choose (tBound [tPicB 2 2 32] [a, b]) (.mx 15 3)).map (fun x => x.2.length) = some 2 := by decide +kernel

theorem test_witness_NicheCompleted :
    let s (k : Nat) := tBound [tPicB 2 2 32] [tRun k 2 0 .running]
    let ok (u : UnitId) (k st : Nat) : Prop := takesWork (s k) = true ∧ unitUp (s k) u = true ∧ running (s k) u = some (tRun k 2 0 .running) ∧
      (runNiche (s k) (tRun k 2 0 .running)).station = st ∧ (s k).recov.hung.contains (unitOf (runNiche (s k) (tRun k 2 0 .running))) = false
    ok (.mx 15 3) 0 2 ∧ ok (.vx 15) 1 3 ∧ ok .tae 2 4 ∧ ok (.enc 1) 3 6 ∧ (tRun 2 2 0 .running).status = 0 ∧ (tRun 2 2 0 .running).seq = false ∧
      (runNiche (s 0) (tRun 0 2 0 .running)).safety = true ∧ (tRun 3 2 0 .running).encDone = false ∧ ok (.mx 15 3) 7 5 ∧ (s 0).safety.state ≤ 1 ∧
      ({ tCfgSafe with evMode := 1 } : StreamCfg).evMode ≠ 0 := by
  simp only []; decide +kernel

/-- A Niche of a pack group whose session has keys and values to write waits, then runs; an OUT Niche's ring holds records, or none. -/
theorem test_witness_NicheCompleted_waits :
    let t := { tSched with niches := tSched.niches.set 7 { tNiche 7 5 15 tMx with kv := some (0, 0, false) } }
    let x := { tRun 7 0 0 .running with owner := 7, seq := true }
    let w (kv : Option (List (List KvRow))) : SeqWork := { (default : SeqWork) with phase := .running, kv := kv }
    let s (kv : Option (List (List KvRow))) :=
      ({ tBound [] [x] with armatures := [(0, { tArm with plan := tPlan t })], packs := [(7 * 256, { (default : PackRun) with segs := [10] })] }).setSession 9
        { Session.reset with isOpen := true, model := 7, lane := some (0, 0), work := some (w kv) }
    let out := tBound [tPicB 2 2 32] [tRun 5 2 0 .running]
    let held := out.setOring 0 { OutRing.reset with held := [{ tag := default, words := [] }] }
    (takesWork (s none) = true ∧ unitUp (s none) (.mx 15 3) = true ∧ running (s none) (.mx 15 3) = some x ∧ (runNiche (s none) x).kv.isSome = true ∧
      (s none).recov.hung.contains (unitOf (runNiche (s none) x)) = false ∧
      (runBatch (s none) x).kvReady (s none) = false ∧ (runBatch (s (some [])) x).kvReady (s (some [])) = true) ∧
    (running held .out = some (tRun 5 2 0 .running) ∧ (runNiche held (tRun 5 2 0 .running)).station = 7 ∧ ringHolds held (tRun 5 2 0 .running) = true ∧
      ringHolds out (tRun 5 2 0 .running) = false ∧ takesWork held = true ∧ unitUp held .out = true) := by
  decide +kernel

theorem test_witness_ExchangesStripsAndEvidence_land :
    let x := { (default : Xchg) with sender := 15, writes := [(0, 8, [1, 2]), (1, 8, [3])] }
    let s (x : Xchg) := { tReady with recov := { Recovery.reset with xchgs := [x] } }
    let one := { x with writes := [(0, 8, [1, 2])] }
    (computeUp (s x) = true ∧ (s x).recov.xchgs.find? (fun x => decide (x.sender = 15) && x.writes.any (fun w => decide (w.1 = 0))) = some x ∧
      x.writes.filter (fun w => decide (w.1 ≠ 0)) ≠ [] ∧ ((s x).core 0).resetAt = none ∧ (s x).isFenced 0 = false) ∧
    ((s one).recov.xchgs.find? (fun x => decide (x.sender = 15) && x.writes.any (fun w => decide (w.1 = 0))) = some one ∧
      one.writes.filter (fun w => decide (w.1 ≠ 0)) = []) := by
  decide +kernel

theorem test_witness_ExchangesStripsAndEvidence_strip :
    let r : SchedRef := { arm := 0, var := none }
    let p := tPicB 2 2 32
    let q := { p with late := some 0 }
    let b := tBound [p] []
    let full := { b with stages := [(stageKey (ringKey r 4) 15 0, (5, 2, 0))] }
    let due (s : State) (p : Picture) : Option (List Nat) := (stripPicture s 5 4).map (fun e =>
      [b2n (decide (e.1 = p)), b2n (decide (e.2.2.1 = r)), e.2.2.2.1, e.2.2.2.2.2.length, (writeJobs e.2.1 p (ringKey r 4) p.don e.2.2.2.1 5 e.2.2.2.2.2 s).2])
    let unit := ((nicheAt b r 4).map (·.unit)).getD 0
    streamRuns (b.stream 5) = true ∧ computeUp b = true ∧ unit = 3 ∧ trigInRow b unit = false ∧ lineInRow b unit 5 4 = false ∧
      (∀ y ∈ (b.stream 5).pics, y.don = p.don → y = p) ∧ due b p = some [1, 1, 1, 1, 1] ∧ due full p = some [1, 1, 1, 1, 0] ∧
      due (tBound [q] []) q = some [1, 1, 1, 1, 1] := by
  decide +kernel

/-- A trigger Niche of the same shaping unit stands between two tiles of a row. -/
theorem test_witness_ExchangesStripsAndEvidence_strip_waits :
    let p := tPicB 2 2 32
    let grid := tNiche 9 1 3 ((tShp.set 0 0x101).set 17 0x20002)
    let t := { tSched with niches := tSched.niches ++ [grid] }
    let s (k : Nat) := { tBound [p] [{ tRun 9 2 0 .running with progress := k }] with armatures := [(0, { tArm with plan := tPlan t })] }
    (stripPicture (s 1) 5 4).isSome = true ∧ streamRuns ((s 1).stream 5) = true ∧ computeUp (s 1) = true ∧ trigInRow (s 1) 3 = true ∧
      trigInRow (s 2) 3 = false := by
  decide +kernel

/-- The one slice of a crop of 32 lines, and two that are none: a row too many, and a split that no limit asks for. -/
theorem test_witness_ExchangesStripsAndEvidence_slice :
    let r := { tRun 3 2 0 .running with qp := 51, remaining := 512 }
    let enc := (tBound [tPicB 2 2 32] [r]).modStream 5 (fun y => { y with cfg := { y.cfg with evMode := 1, evRows := 1, evQpMax := 51 } })
    let sl : SliceOut := { evid := 0, cropX := 0, cropY := 0, cropW := 32, cropH := 32, rowBytes := [100], bytes := 100, slot := none, nextCtu := none }
    takesWork enc = true ∧ running enc (.enc 1) = some r ∧ r.encDone = false ∧ picOf (enc.stream 5) 2 = some (tPicB 2 2 32) ∧
      (enc.stream 5).cfg.evMode ≠ 0 ∧ clipCrop (tPicB 2 2 32) sl = (0, 0, 0, 32, 32) ∧ cdiv (cdiv 32 8 * 8) 32 = 1 ∧
      sliceOk (enc.stream 5).cfg r 1 sl = true ∧ sliceOk (enc.stream 5).cfg r 1 { sl with rowBytes := [50, 50] } = false ∧
      sliceOk (enc.stream 5).cfg r 1 { sl with rowBytes := [], nextCtu := some 130716 } = false ∧
      (sl.slot.map (ignoredSlot enc r)).getD false = false ∧ recordTurn enc 5 2 0 = true ∧ (enc.stream 5).outbox = [] ∧ cropHeight enc r (0, 0, 0, 32, 32) = 32 ∧
      (enc.stream 5).cfg.evQpMin ≤ r.qp ∧ r.qp ≤ (enc.stream 5).cfg.evQpMax ∧ tget (tPicB 2 2 32).discard r.band 0 = 0 := by
  decide +kernel

/-! ### Sessions -/

/-- An open session of model 7 (Maquette 1, entry 1), 256 tokens at most, `n` of them in context. -/
def tSess (n : Nat) : Session := { Session.reset with isOpen := true, model := 7, be := true, tMax := 256, tCtx := n, pos := n }

/-- A chip 3 of a torus whose port 0 is up and whose table sends chip 9 by it. -/
def tLinked (s : State) : State :=
  { s with link := { s.link with
      role := 2, chip := 3, ports := [(0, { LPort.reset with st := 2, enabled := true }), (1, { LPort.reset with st := 1, enabled := true })]
      route := [(9, 128)] } }

/-- A SEQ_OPEN of model 7: BE or LC, a session, a spread over chips. -/
def tSeqOpen (be : Bool) (ctx spread : Nat) : JEntry := tEntry .host 0x31 1 0 ctx [0x070000 + (if be then 0x800 else 0), 256, 0, 0, spread, 0]

/-- It may begin, its parameters in range. -/
abbrev tSeqOpens (s : State) (be : Bool) (ctx spread : Nat) : Prop :=
  Runs s 1 0x31 (tSeqOpen be ctx spread) ∧ openingAt s 1 = none ∧ (tSeqOpen be ctx spread).gen = 0 ∧
  SeqArgs.bad s (SeqArgs.ofEntry (tSeqOpen be ctx spread)) = none ∧ (modelEntry s 7).isSome = true

/-- The highest session by name as BE, the lowest free as LC, no lane. -/
theorem test_witness_SessionOpened :
    let s (be : Bool) (ctx : Nat) := tAt (tSeqOpen be ctx 0) (tBound [] [])
    let full := (s false 4095).setSession 8 { tSess 0 with be := false, lane := some (0, 0) } |>.setSession 9 { tSess 0 with be := false, lane := some (0, 1) }
    let full := full.setSession 10 { tSess 0 with be := false, lane := some (1, 0) } |>.setSession 11 { tSess 0 with be := false, lane := some (1, 1) }
    (tSeqOpens (s true 4095) true 4095 0 ∧ ((s true 4095).session 4095).isOpen = false ∧ spreadOk (s true 4095) 0 = true ∧ peersOf (s true 4095) 0 = [] ∧
      (allocAll false false (pageSizes 1) [] (beginCmd (tSeqOpen true 4095 0) (s true 4095))).1.isSome = true) ∧
    (tSeqOpens (s false 0xFFFF) false 0xFFFF 0 ∧ freeSession (s false 0xFFFF) = some 0 ∧ freeLane (s false 0xFFFF) 7 = some (0, 0)) ∧
    (tSeqOpens full false 4095 0 ∧ freeLane full 7 = none ∧ (full.session 4095).isOpen = false) ∧
    (let t := { s true 4095 with dram := Dram.reset }
     tSeqOpens t true 4095 0 ∧ (allocAll false false (pageSizes 1) [] (beginCmd (tSeqOpen true 4095 0) t)).1 = none) := by
  unfold tSeqOpens Runs; decide +kernel

/-- Spread over chips 3 and 9 with and without a way; answers that came, one that refused, one outstanding. -/
theorem test_witness_SessionOpened_spread :
    let far := tLinked (tAt (tSeqOpen false 4095 520) (tBound [] []))
    let off := { far with link := { Link.reset 0 with chip := 3 } }
    let w (c : List (Nat × Nat × Bool)) (f : Nat) := (tBound [] []).setSession 4095 { tSess 0 with pendingOpen := some 1, colls := c, collFail := f }
    (tSeqOpens far false 4095 520 ∧ spreadOk far 520 = true ∧ peersOf far 520 = [9] ∧ roleDiffers far = true ∧
      (SeqArgs.ofEntry (tSeqOpen false 4095 520)).spread = 520) ∧
    (tSeqOpens off false 4095 520 ∧ spreadOk off 520 = false) ∧
    openingAt (w [] 0) 1 = some 4095 ∧ live (w [] 0) = true ∧ ((w [] 0).session 4095).colls = [] ∧ openingAt (w [] 0x0303) 1 = some 4095 ∧
    (let k := w [(9, 2, false)] 0; openingAt k 1 = some 4095 ∧ (k.session 4095).colls ≠ []) := by
  unfold tSeqOpens Runs; decide +kernel

theorem test_witness_SessionOpened_deferred :
    let e := tEntry .host 0x31 1 0 4095 [0x070800, 256, 0, 0, 0, 0]
    let s0 := (tAt { e with st := .deferred } (tBound [] [])).setSession 4095 { Session.reset with opening := true }
    let s := clearDeferred (true, 4095) (modEntry 1 (fun y => { y with st := .waiting }) s0)
    s0.entry? 1 = some { e with st := .deferred } ∧ (s0.session 4095).opening = true ∧ openingAt s 1 = none ∧ Runs s 1 0x31 e := by
  unfold Runs; decide +kernel

theorem test_witness_SessionChecks :
    let e (op ext g : Nat) := tEntry .host op ext g 4095 [1, 0, 1]
    let s (e : JEntry) (x : Session) := (tAt e (tBound [] [])).setSession 4095 x
    let x := tSess 5
    (fedFirst (s (e 0x34 0 1) x) 1 = false ∧ workingAt (s (e 0x34 0 1) x) 1 = none ∧ (e 0x34 0 1).ctx < 4096 ∧ Runs (s (e 0x34 0 1) x) 1 0x34 (e 0x34 0 1) ∧
      sessionCheck (s (e 0x34 0 1) x) (e 0x34 0 1) = none) ∧
    (Runs (s (e 0x31 1 0) x) 1 0x31 (e 0x31 1 0) ∧ openingAt (s (e 0x31 1 0) x) 1 = none ∧ x.isOpen = true) ∧
    (Runs (s (e 0x31 1 2) Session.reset) 1 0x31 (e 0x31 1 2) ∧ Session.reset.isOpen = false ∧ (e 0x31 1 2).gen ≠ 0) ∧
    (Runs (s (e 0x32 0 1) Session.reset) 1 0x32 (e 0x32 0 1)) ∧
    (Runs (s (e 0x32 0 2) x) 1 0x32 (e 0x32 0 2) ∧ x.shadow = none ∧ x.pendingOpen = none ∧ x.closing = none ∧ (e 0x32 0 2).gen ≠ x.gen) ∧
    (let y := { x with closing := some { j := 9, flush := false, freed := false } }; Runs (s (e 0x34 0 1) y) 1 0x34 (e 0x34 0 1) ∧ y.closing.isSome = true) := by
  unfold Runs; decide +kernel

theorem test_witness_SessionChecks_work :
    let e (op ext g : Nat) := tEntry .host op ext g 4095 [1, 0, 1]
    let s (e : JEntry) (x : Session) := (tAt e (tBound [] [])).setSession 4095 x
    let x := tSess 5
    (Runs (s (e 0x33 0 1) x) 1 0x33 (e 0x33 0 1) ∧ forwards (s (e 0x33 0 1) x) (e 0x33 0 1) = false ∧ sessionCheck (s (e 0x33 0 1) x) (e 0x33 0 1) = none ∧
      fld ((e 0x33 0 1).param 0) 15 0 = 1 ∧ 1024 < fld ((tEntry .host 0x33 0 1 4095 [1025]).param 0) 15 0) ∧
    (Runs (s (e 0x32 0 1) x) 1 0x32 (e 0x32 0 1) ∧ sessionCheck (s (e 0x32 0 1) x) (e 0x32 0 1) = none ∧ ((e 0x32 0 1).param 2).toNat = 1 ∧
      x.tCtx + 1 ≤ x.tMax ∧ (tSess 256).tMax < 256 + 1 ∧ (tSess 256).slide = false ∧ (modelEntry (s (e 0x32 0 1) x) x.model).isSome = true) ∧
    (let y := { x with model := 8 }; Runs (s (e 0x32 0 1) y) 1 0x32 (e 0x32 0 1) ∧ modelEntry (s (e 0x32 0 1) y) 8 = none ∧
      Runs (s (e 0x33 0 1) y) 1 0x33 (e 0x33 0 1)) ∧
    (let y := { x with peerLost := true }; Runs (s (e 0x32 0 1) y) 1 0x32 (e 0x32 0 1) ∧ (modelEntry (s (e 0x32 0 1) y) 7).isSome = true ∧
      sessionCheck (s (e 0x32 0 1) y) (e 0x32 0 1) = none ∧ Runs (s (e 0x33 0 1) y) 1 0x33 (e 0x33 0 1)) := by
  unfold Runs; decide +kernel

/-- Work of the command at position 1: items to append or steps to run, two items to a chunk. -/
def tWork (items : List (List Byte)) (steps : Nat) (phase : SeqPhase) (fault : Nat) : SeqWork :=
  { j := some 1, asn := 1, auto := false, endOnEos := true, concealed := false, catching := false, tick := 0, waited := 0, items := items, frames := false,
    steps := steps, i := 0, phase := phase, fault := fault, chunk := min items.length 2, layer := 1, stopped := none, slid := false, kv := none, layers := 1, start := 1, eos := 2, laneRows := 2 }

theorem test_witness_SessionsAdvance :
    let a := tEntry .host 0x32 0 1 4095 [0, 0, 1]
    let p := tEntry .host 0x33 0 1 4095 [1]
    let s (e : JEntry) (x : Session) := (tAt e (tBound [] [])).setSession 4095 x
    let fed (items : List (List Byte)) := { tSess 255 with be := false, fed := [(items, 0, 0)], lane := some (0, 0) }
    let f (x : Session) := (tBound [] []).setSession 4095 x
    ((tSess 255).isOpen = true ∧ (tSess 255).slide = false ∧ (tSess 255).spread = 0 ∧ (modelEntry (s a (tSess 255)) 7).isSome = true ∧
      (tEntryOf .session).niches ≠ [] ∧ (tSess 255).peerLost = false ∧ (tSess 255).be = true ∧ noFit (s a (tSess 255)) 4095 = false ∧ Runs (s a (tSess 255)) 1 0x32 a ∧
      workingAt (s a (tSess 255)) 1 = none ∧ fedFirst (s a (tSess 255)) 1 = false ∧ sessionCheck (s a (tSess 255)) a = none ∧ 0 < (a.param 2).toNat ∧
      255 + (a.param 2).toNat ≤ (tSess 255).tMax) ∧
    (Runs (s p (tSess 255)) 1 0x33 p ∧ forwards (s p (tSess 255)) p = false ∧ fedFirst (s p (tSess 255)) 1 = false ∧ workingAt (s p (tSess 255)) 1 = none ∧
      sessionCheck (s p (tSess 255)) p = none ∧ fld (p.param 0) 15 0 = 1 ∧ (tSess 255).tCtx ≠ (tSess 255).tMax ∧ Runs (s p (tSess 256)) 1 0x33 p ∧
      (tSess 256).tCtx = (tSess 256).tMax) ∧
    (takesWork (f (fed [[1]])) = true ∧ fedTurn (f (fed [[1]])) 4095 0 = true ∧ (fed [[1]]).work = none ∧ (fed [[1]]).be = false ∧
      (fed [[1]]).tCtx ≠ (fed [[1]]).tMax ∧ (fed [[1]]).tCtx + 1 ≤ (fed [[1]]).tMax ∧ (fed [[1], [2]]).tMax < (fed [[1], [2]]).tCtx + 2) := by
  unfold Runs; decide +kernel

/-- The last chunk and one before others, a fault of a chunk; a last step by count and by EOS, one that others follow, a fault of a step; a fed chunk. -/
theorem test_witness_SessionsAdvance_unit :
    let s (w : SeqWork) := (tBound [] []).setSession 4095 { tSess 0 with be := false, lane := some (0, 0), work := some w }
    let x := (s (tWork [] 0 .done 0)).session 4095
    let r (items : List (List Byte)) : AppendRun := { frames := false, items := items, rows := items.map (fun _ => []) }
    let st : StepRun := { input := 1, rows := [], logits := [0, 0, 0x3F800000] }
    let ok (w : SeqWork) : Prop := workingAt (s w) 1 = some 4095 ∧ takesWork (s w) = true ∧ ((s w).session 4095).work = some w ∧ w.j = some 1
    (ok (tWork [[1]] 0 .running 0) ∧ unitDone (tWork [[1]] 0 .running 0) = false ∧ underWay (tWork [[1]] 0 .running 0) = true ∧
      chunkOk x (tWork [[1]] 0 .running 0) (r [[1]]) = true ∧ rowsAgree (tWork [[1]] 0 .running 0) [[]] = true) ∧
    (ok (tWork [[1]] 0 .done 0) ∧ rowsAgree (tWork [[1]] 0 .done 0) [[]] = true ∧ rowsAgree { tWork [[1]] 0 .done 0 with kv := some [[]] } [[]] = true ∧
      rowsAgree { tWork [[1]] 0 .done 0 with kv := some [] } [[]] = false ∧ unitDone (tWork [[1]] 0 .done 0) = true ∧ chunkOk x (tWork [[1]] 0 .done 0) (r [[1]]) = true) ∧
    (ok (tWork [[1], [2], [3]] 0 .done 0) ∧ chunkOk x (tWork [[1], [2], [3]] 0 .done 0) (r [[1], [2]]) = true) ∧ ok (tWork [[1]] 0 .running 0x0601) ∧
    (ok (tWork [] 1 .done 0) ∧ unitDone (tWork [] 1 .done 0) = true ∧ stepOk x (tWork [] 1 .done 0) st = true) ∧
    (ok (tWork [] 9 .done 0) ∧ (tWork [] 9 .done 0).endOnEos = true ∧ w32 (argmax (st.logits.map fp32)) = (tWork [] 9 .done 0).eos ∧
      ¬ w32 (argmax (({ st with logits := [1] } : StepRun).logits.map fp32)) = (tWork [] 9 .done 0).eos) ∧ ok (tWork [] 9 .running 0x0601) ∧
    (let w := { tWork [[1]] 0 .done 0 with j := none, auto := true }
     ((s w).session 4095).work = some w ∧ unitDone w = true ∧ w.items.length = w.chunk ∧ chunkOk x { w with frames := false } (r [[1]]) = true) := by
  decide +kernel

theorem test_step_token :
    let s := (tAt { tEntry .host 0x33 0 1 4095 [1] with st := .running } (tBound [] [])).setSession 4095 { tSess 0 with work := some (tWork [] 1 .done 0) }
    ∃ t, exec (.seqStep 1 [{ input := 1, rows := [], logits := [0xBF800000, 0, 0x3F800000] }]) s = .next t ∧
      (t.session 4095).lastTok = some 2 ∧ (t.session 4095).tCtx = 1 := ⟨_, rfl, by decide +kernel, by decide +kernel⟩

theorem test_witness_GroupsAndCollectives :
    let s := (tBound [] []).setSession 9 { tSess 0 with be := false, lane := some (1, 1), work := some (tWork [] 1 .ready 0) }
    let c (k : Nat) := { tEntry .ring 0x62 1 3 40 [k, 0x070000, 256, 1, 0] with origin := some (2, 7) }
    let t (k : Nat) (x : Session) := (tAt (c k) (tBound [] [])).setSession 6 x
    let sh := { Session.reset with isOpen := true, shadow := some (2, 40, 3), tMax := 256 }
    (takesWork s = true ∧ segments s 7 0 2 ≠ [10, 0] ∧ s.active = some { arm := 0, var := none } ∧ (packOf s 7).map (fun p => (p.groups, p.lanes)) = some (2, 2) ∧ s.noSched = false ∧
      segments s 7 1 2 = [0, 10] ∧ segments s 7 0 2 = [0, 0] ∧ s.runs = []) ∧
    (let b := { s with runs := [{ tRun 7 1 0 .running with owner := 7, seq := true }] }
     b.runs.any (fun x => x.seq && decide (x.owner = 7) && decide (x.don = 1) && !x.finished) = true) ∧
    (Runs (t 4 Session.reset) 1 0x62 (c 4) ∧ (c 4).origin = some (2, 7) ∧ 3 < fld ((c 4).param 0) 3 0) ∧
    (Runs (t 3 Session.reset) 1 0x62 (c 3) ∧ shadowOf (t 3 Session.reset) 2 40 = none ∧ fld ((c 3).param 0) 3 0 ≤ 3) ∧
    ((shadowOf (t 0 sh) 2 40).isSome = true ∧ Runs (t 0 sh) 1 0x62 (c 0)) ∧
    (Runs (t 0 Session.reset) 1 0x62 (c 0) ∧ (modelEntry (t 0 Session.reset) 7).isSome = true ∧ tMaxOk ((c 0).param 2).toNat = true ∧
      freeSession (t 0 Session.reset) = some 0 ∧
      (allocAll false false (pageSizes (shadowPages 0 (c 0) (tEntryOf .session))) [] (beginCmd (c 0) (t 0 Session.reset))).1.isSome = true) ∧
    (shadowOf (t 1 sh) 2 40 = some (6, sh) ∧ tfind (t 1 sh).sessions 6 = some sh ∧ sh.shadow.map (·.2.2) = some (c 1).gen) ∧
    (({ sh with shadow := some (2, 40, 4) } : Session).shadow.map (·.2.2) ≠ some (c 1).gen) := by
  unfold Runs; decide +kernel

/-! ### Pools and DRAM -/

theorem test_witness_PoolsManaged :
    let e (ps : List Nat) := tEntry .host 0x50 0 0 0 ps
    let rfm := e [0, 0, 0, 0, 0, 0, 0, 0, 0, 12, 1]
    let lay (x : Nat) := e [x, 0, 0, 0, 0, 0, 0, 0, 4096 / 4096, 6, 0]
    let s (e : JEntry) := tAt e tReady
    let st := tEntry .host 0x51 0 0 0 [0x8000, 0, 64]
    (Runs (s rfm) 1 0x50 rfm ∧ bit (rfm.param 10) 0 = true ∧ rfmOk (fld (rfm.param 9) 3 0) = true ∧ rfmOk 5 = false) ∧
    (Runs (s (lay 16000)) 1 0x50 (lay 16000) ∧ noContexts (s (lay 16000)) = true ∧ (poolShares (lay 16000)).all (fun x => decide (x.2 ≤ 8)) = true ∧
      ((poolShares (lay 16000)).map (·.1)).sum ≤ 1000 ∧ 0 < poolSpace { tReady.dram with shares := poolShares (lay 16000), safetyMib := 1 } ∧
      1000 < ((poolShares (lay 16016)).map (·.1)).sum ∧ bit ((lay 16000).param 10) 0 = false ∧ rfmOk (fld ((lay 16000).param 9) 3 0) = true) ∧
    (noContexts (tOpen 5 Stream.reset (s (lay 16000))) = false) ∧ (Runs (s st) 1 0x51 st) ∧
    ((tReady.part 3).cache.length < 32 ∧ 64 ≤ ((tReady.part 3).ring.map (·.2)).sum) ∧
    (224 < ({ Part.reset with cache := List.range 225 } : Part).cache.length) ∧ placeOf tReady.dram 0 ≠ .metadata ∧ tfind tReady.dram.refs 0 = none ∧
    ((lay 16000).param 8 = 1 ∧ placeOf tReady.dram metaBase = .metadata ∧ ueTrips tReady metaBase = false) ∧
    (tfind [(0x20000000, 65535)] 0x20000000 = some 65535 ∧ placeOf { tReady.dram with shares := defaultShares } 0x20000000 = .plain 7 101) := by
  unfold Runs; decide +kernel

theorem test_witness_ChannelQueues :
    let q (r w : List DramReq) := { tReady with dram := { tReady.dram with queues := [(1, { ChanQ.reset with reads := r, writes := w })] } }
    let rd (lc : Bool) : DramReq := { line := 4, lc := lc, bytes := List.replicate 64 (some 0), forwarded := false, passed := 0 }
    let wr (lc : Bool) : DramReq := { rd lc with bytes := List.replicate 63 none ++ [some 0xFF] }
    let top := spaceBytes tReady.dram / 64
    lineOn tReady 1 .pcie 4 = true ∧ lineOn tReady 2 .pcie 4 = false ∧ lineOn tReady 0 .pcie top = false ∧ lineOn tReady 0 .control top = true ∧
      (tReady.chanQ 1).reads.length < 64 ∧ (tReady.chanQ 1).writes = [] ∧
      nextKind ((q [rd false] []).chanQ 1) = some (true, false) ∧ nextKind ((q [rd true] [wr false]).chanQ 1) = some (true, true) ∧
      nextKind { (q [rd false] [wr false]).chanQ 1 with drainBe := true } = some (false, false) ∧
      nextKind ((q [] [wr true]).chanQ 1) = some (false, true) ∧ (takeReq true 0 [wr true]).isSome = true ∧ (takeReq true 0 [rd true]).isSome = true ∧
      (takeReq true 1 [{ rd true with passed := 7 }, wr true]).map (fun x => x.2.map (·.passed)) = some [8] ∧
      takeReq true 1 [{ rd true with passed := 8 }, wr true] = none ∧
      ((q [] [wr true]).chanQ 1).writes.filter (fun w => w.line = 4) = [wr true] ∧ ((q [] [wr true]).chanQ 1).writes.any (fun w => w.line = 4) = true ∧
      (wr true).bytes.length = 64 ∧ none ∈ (wr true).bytes.take 32 ∧ none ∈ (wr true).bytes.drop 32 ∧ (∃ x ∈ (wr true).bytes.drop 32, x.isSome = true) ∧
      none ∉ (rd true).bytes ∧ Memory.wf tReady.dram.cells = true ∧ tReady.dram.bad = [] := by
  decide +kernel

/-- A line of the metadata region, whose sectors are protected: an uncorrectable one poisons its read. -/
theorem test_witness_ChannelQueues_ecc :
    let line := metaBase / 64
    let ch := channelAt tReady.dram metaBase
    let r (f : Bool) : DramReq := { line := line, lc := true, bytes := List.replicate 64 (some 0), forwarded := f, passed := 0 }
    let s (f : Bool) := { tReady with dram := { tReady.dram with queues := [(ch, { ChanQ.reset with reads := [r f] })] } }
    ch < 16 ∧ metaBase % 64 = 0 ∧ nextKind ((s false).chanQ ch) = some (true, true) ∧ takeReq true 0 ((s false).chanQ ch).reads = some (r false, []) ∧
      (placeOf tReady.dram (line * 64)).protected = true ∧ sectorCond (s false) (2 * line) .double = .double ∧
      sectorCond (s false) (2 * line + 1) .clean = .clean ∧ (r true).forwarded = true := by
  decide +kernel

/-- A write leaves its enabled byte, and no other (11 R260, log 128). -/
theorem test_write_queued :
    ∃ t, exec (.dramRequest 1 (.write .pcie 4 true (List.replicate 63 none ++ [some 0xFF]))) tReady = .next t ∧
      t.dram.cells.map (fun c => (c.1, c.2)) = [(319, 0xFF)] ∧ (t.chanQ 1).writes.length = 1 :=
  ⟨_, rfl, by decide +kernel, by decide +kernel⟩

/-- An LC write goes before a BE read (10 R242). -/
theorem test_write_served :
    let rd (lc : Bool) : DramReq := { line := 4, lc := lc, bytes := List.replicate 64 (some 0), forwarded := false, passed := 0 }
    let s := { tReady with dram := { tReady.dram with queues := [(1, { ChanQ.reset with reads := [rd false], writes := [rd true] })] } }
    ∃ t, exec (.dramRequest 1 (.serve 0 (.clean, .clean) none false)) s = .next t ∧ (t.chanQ 1).writes = [] ∧ (t.chanQ 1).reads.length = 1 :=
  ⟨_, rfl, by decide +kernel, by decide +kernel⟩

theorem test_witness_DramMaintained :
    let s := { tReady with chip := { tReady.chip with testEn := true } }
    let pend := tReady.setChan 15 0 { Chan.reset with driftPend := some (-4, 0) }
    let pkt (ps : List Nat) : List Word := [0xA0, 0, 15, 0] ++ ps.map w32
    let sw : Sweep := { passing := [(List.range 32).map (· + 100)], cs := [], vref := [], errors := 3 }
    ((placeOf tReady.dram (2097151 * 32)).protected = true ∧ 2097151 * 32 < spaceBytes tReady.dram ∧ ueTrips tReady (2097151 * 32) = true ∧
      ueTrips tReady (2097152 * 32) = false ∧ (placeOf tReady.dram (2097152 * 32)).protected = true) ∧
    ((0 : Nat) < tReady.dram.ranks ∧ (3 : Int).natAbs < 4 ∧ 4 ≤ (-4 : Int).natAbs) ∧
    ((pend.chan 15 0).driftPend = some (-4, 0) ∧ (pend.chan 15 1).driftPend = none) ∧
    (maintenanceUp s = true ∧ fld ((pkt [4]).getD 0 0) 7 0 = 0xA0 ∧ fld ((pkt [4]).getD 0 0) 25 24 = 0 ∧ fld ((pkt [4]).getD 2 0) 15 0 < 16 ∧
      bit ((pkt [4]).getD 3 0) 7 = false ∧ (s.queue 0).everEnabled = false ∧ (s.queue 1).everEnabled = false ∧
      ((s.setQueue 1 { HostQueue.reset with everEnabled := true }).queue 1).everEnabled = true) ∧
    (let p := pkt [0x10004, 0x0000FF00, 5]
     let w (n : Nat) : Word := p.getD (n + 4) 0
     1 ≤ fld (w 0) 3 0 ∧ fld (w 0) 3 0 ≤ 7 ∧ fld (w 1) 23 16 < 16 ∧ fld (w 1) 7 0 ≤ fld (w 1) 15 8 ∧ fld (w 2) 2 0 ≤ 5 ∧ bit (w 0) 16 = true ∧ fld (w 0) 3 0 = 4 ∧
       widestRun (swept sw 0 0 255) = some (100, 131) ∧ 100 + 31 ≤ 131 ∧ (s.chan 15 0).status ≠ 0xFF ∧ bit (w32 4) 16 = false ∧ widestRun (swept { passing := [], cs := [], vref := [], errors := 0 } 0 0 255) = none ∧ sharedUsed s < Config.journalShared) := by
  decide +kernel

/-- The first sector of mirror A is bad, and its twin is not, or is; patrol met both before. -/
theorem test_witness_DramMaintained_mirror :
    let k := spaceBytes tReady.dram / 32
    let s (l : List Nat) := { tReady with dram := { tReady.dram with bad := l } }
    let twin := mirrorTwin false (32 * k) / 32
    placeOf tReady.dram (32 * k) = .mirror false ∧ placeOf tReady.dram (32 * twin) = .mirror true ∧ (placeOf tReady.dram (32 * k)).protected = true ∧
      twin ∉ (s [k]).dram.bad ∧ k ∈ (s [k]).dram.bad ∧ twin ∈ (s [twin]).dram.bad := by
  decide +kernel

/-- An uncorrectable sector of mirror A is repaired from mirror B, and the repair is counted on its channel (11 R269). -/
theorem test_mirror_repaired :
    let k := spaceBytes tReady.dram / 32
    ∃ t, exec (.patrolScrub k .double) tReady = .next t ∧ (t.chan 0 0).repairs = 1 ∧ t.dram.bad = [] ∧ t.safety.state = 0 :=
  ⟨_, rfl, by decide +kernel, by decide +kernel, by decide +kernel⟩

/-! ### Links -/

/-- A packet from chip 9 to this one, its CRC as its sender writes it (12 R289). -/
def tPkt (type cls ctx gen : Nat) : LinkPkt :=
  sealPkt { dest := 3, src := 9, cls := cls, vc := 0, turned := false, type := type, hops := 4, context := ctx, gen := gen, seq := 1, aux := 1, aux2 := 0,
            crc := 0, data := (tEntry .ring 1 0 0 0 []).pkt }

/-- Both ports up, with credits of every class and channel and a route to chip 10 that has an alternate. -/
def tTorus (s : State) : State :=
  { s with link := { s.link with
      role := 2, chip := 3, torusX := 4, torusY := 4, route := [(9, 128), (10, 128 + 64 + 16), (11, 129), (12, 128 + 64 + 32), (13, 3 + 128 + 64 + 32)]
      ports := [(0, { LPort.reset with st := 2, enabled := true, credits := (List.range 6).map (·, 8) }),
                (1, { LPort.reset with st := 2, enabled := true, credits := (List.range 6).map (·, 8) })] } }

theorem test_witness_LinksConfigured :
    let e (w : Nat) := tEntry .host 0x60 0 0 0 [w]
    let s (e : JEntry) := tLinked (tAt e tReady)
    let busy (e : JEntry) := (s e).setSession 6 { Session.reset with isOpen := true, shadow := some (9, 1, 1) }
    let u (c : Nat) (peer : Nat) : List (Nat × TrainEnd) := [(1, .identity c 2 peer 8 8 5 [])]
    (Runs (s (e 0x83308800)) 1 0x60 (e 0x83308800) ∧ (LinkWord.ofWord 0x83308800).ok = true ∧ (LinkWord.ofWord 0x83308800).role = 2 ∧
      (LinkWord.ofWord 0x83308800).chip = 3 ∧ maskBit (LinkWord.ofWord 0x83308800).en 0 = true ∧ maskBit (LinkWord.ofWord 0x83308800).en 1 = true ∧
      linkBusy (s (e 0x83308800)) = false) ∧
    (Runs (s (e 0x83309800)) 1 0x60 (e 0x83309800) ∧ (LinkWord.ofWord 0x83309800).ok = false ∧ linkBusy (s (e 0x83309800)) = false) ∧
    (linkBusy (busy (e 0x84308800)) = true ∧ (LinkWord.ofWord 0x84308800).chip ≠ 3 ∧ Runs (busy (e 0x84308800)) 1 0x60 (e 0x84308800)) ∧
    (maskBit (LinkWord.ofWord 0x83008800).en 0 = false ∧ ((s (e 0)).lport 0).st = 2 ∧ ((s (e 0)).lport 0).enabled = true ∧ ((s (e 0)).lport 2).enabled = false ∧
      ((s (e 0)).lport 1).st = 1) ∧
    ((u 9 0).filter (fun r => r.1 = 1) = [(1, .identity 9 2 0 8 8 5 [])] ∧ (9 : Nat) ≠ (LinkWord.ofWord 0x83308800).chip ∧
      (LinkWord.ofWord 0x83308800).tx = 8 ∧ (LinkWord.ofWord 0x83308800).ty = 8 ∧ (u 9 1).filter (fun r => r.1 = 1) = [(1, .identity 9 2 1 8 8 5 [])]) ∧
    (∀ r ∈ ([(1, .failed)] : List (Nat × TrainEnd)), r.2 = .failed) := by
  unfold Runs; decide +kernel

/-- A table whose one entry names port 0 and its alternate 1; one whose alternate is its PRIMARY. -/
theorem test_witness_LinksConfigured_routes :
    let r (ps : List Nat) := tEntry .host 0x61 1 0 0 ps
    let s (ps : List Nat) := tLinked (tAt (r ps) tReady)
    let entry (ps : List Nat) (i : Nat) : Nat := fld ((r ps).param (i / 4)) (8 * (i % 4) + 7) (8 * (i % 4))
    let good (ps : List Nat) : Bool := (List.range 64).all fun i => decide (i = (s ps).link.chip) || decide (entry ps i < 128) ||
      (((s ps).lport (entry ps i % 4)).enabled && (decide (entry ps i / 64 % 2 = 0) ||
        (((s ps).lport (entry ps i / 16 % 4)).enabled && decide (entry ps i / 16 % 4 ≠ entry ps i % 4))))
    let good (ps : List Nat) : Bool := good ps && (List.range 64).all fun i => decide (i = (s ps).link.chip) || decide (entry ps i / 64 % 2 = 0) ||
      decide (entry ps i / 16 % 4 ≠ entry ps i % 4)
    Runs (s [0, 0, 0x0000D000]) 1 0x61 (r [0, 0, 0x0000D000]) ∧ entry [0, 0, 0x0000D000] 9 = 208 ∧ good [0, 0, 0x0000D000] = true ∧
      (s [0, 0, 0x0000D000]).link.kept = [] ∧ Runs (s [0, 0, 0x0000C000]) 1 0x61 (r [0, 0, 0x0000C000]) ∧ good [0, 0, 0x0000C000] = false ∧ good [0, 0, 0x00004000] = false ∧ good [0x82] = false := by
  unfold Runs; decide +kernel

/-- Ports up and down, a packet queued that leaves by the alternate, and each end of a training attempt. -/
theorem test_witness_PortsTrainAndFail :
    let s := tLinked tReady
    let k : LinkPkt := { tPkt 1 1 0 0 with src := 3, dest := 10 }
    let q (n : Nat) : State := (tTorus tReady).setLport 0 { LPort.reset with st := 2, enabled := true, queue := [(k, none)], credits := [(2, n)] }
    let inc := { tTorus tReady with link := { (tTorus tReady).link with peerInc := [(9, 5)] } }
    ((s.lport 0).st = 2 ∧ (s.lport 1).st = 1 ∧ (s.lport 1).enabled = true ∧ (s.lport 2).enabled = false ∧ (s.lport 0).replays < 7 ∧ (s.lport 0).queue = []) ∧
    (7 ≤ ({ LPort.reset with st := 2, replays := 7 } : LPort).replays ∧ pktCrcOk (tPkt 9 0 0 0) = true) ∧
    (((q 0).lport 0).queue = [(k, none)] ∧ creditKey k = 2 ∧ 0 < tget ((q 0).lport 0).credits 2 0 + [0, 0, 1].getD 2 0 ∧
      128 ≤ tget (q 0).link.route 10 0 % 256 ∧ tget (q 0).link.route 10 0 / 64 % 2 = 1 ∧ tget (q 0).link.route 10 0 % 4 = 0 ∧
      routeOut ((q 0).setLport 0 { LPort.reset with st := 3 }) 10 = some (1, true)) ∧
    (((s.setSession 6 { Session.reset with isOpen := true, shadow := some (9, 1, 1) }).session 6).shadow.map (·.1) = some 9) ∧
    (2 = s.link.role ∧ s.link.torusX = 2 ∧ s.link.torusY = 2 ∧ (if 1 % 2 = 0 then 1 + 1 else 1 - 1) = 0 ∧ 3 = s.link.chip ∧ (9 : Nat) ≠ s.link.chip ∧
      (1 : Nat) ≠ s.link.role) ∧
    (s.link.kept = [] ∧ tfind s.link.peerInc 9 = none ∧ tfind inc.link.peerInc 9 = some 5 ∧ (5 : Word) ≠ 6) := by
  decide +kernel

/-- The packet queued for a port that falls leaves by the alternate route (12 R295). -/
theorem test_requeued : ∃ t, exec (.portDown 0) ((tTorus tReady).setLport 0 { (tTorus tReady).lport 0 with
      queue := [({ tPkt 1 1 0 0 with src := 3, dest := 10 }, none)] }) = .next t ∧ t.link.tx.map (fun x => (x.1, x.2.dest, x.2.turned)) = [(1, 10, true)] :=
  ⟨_, rfl, by decide +kernel⟩

/-- Eight codewords in a row that fail their check take the port down (12 R281). -/
theorem test_eighth_replay : ∃ t, exec (.codewordReceive 0 false none) { tLinked tReady with link := { (tLinked tReady).link with
      ports := [(0, { LPort.reset with st := 2, enabled := true, replays := 7 })] } } = .next t ∧ (t.lport 0).st = 3 := ⟨_, rfl, by decide +kernel⟩

/-- A command of this part for chip 9: sent on, and without a route. -/
theorem test_witness_WorkForwarded :
    let e := { tEntry .host 0x30 0 0 1 [0] with pkt := [0x30, 0x77, 1, 0x89] ++ List.replicate 12 0 }
    let e3 := { tEntry .host 0x33 0 0 1 [1] with pkt := [0x33, 0x77, 1, 0x89] ++ List.replicate 12 0 }
    let s := tTorus (tAt e tReady)
    let off := { s with link := { s.link with route := [] } }
    let z := tTorus (tAt e3 tReady)
    let k : LinkPkt := { tPkt 1 1 0 0 with src := 3, dest := 9 }
    (Runs s 1 0x30 e ∧ forwards s e = true ∧ e.dest = 9 ∧ s.link.role ≠ 0 ∧ tget s.link.route 9 0 / 128 % 2 = 1 ∧ routeOut s 9 = some (0, false) ∧
      (tget s.link.pairs (pairKey 9 1) Pair.reset).unacked.length < 256 ∧ portUp s 0 = true ∧ (s.lport 0).queue = [] ∧
      0 < tget (s.lport 0).credits (creditKey k) 0) ∧
    (Runs off 1 0x30 e ∧ tget off.link.route 9 0 / 128 % 2 = 0) ∧
    (Runs z 1 0x33 e3 ∧ workingAt z 1 = none ∧ forwards z e3 = true) := by
  unfold Runs; decide +kernel

/-- Its ACCEPT, REFUSE and COMPLETION, the last with a rejection there and with OK; packets that answer no command. -/
theorem test_witness_WorkForwarded_answers :
    let f := { tEntry .host 0x30 0 0 1 [0] with st := .forwarded, fwd := some (9, false) }
    let g := tTorus (tAt f tReady)
    let c (st : Word) : LinkPkt := sealPkt { tPkt 4 1 0xFFFF 0 with data := [st, 0, 0, 0, 1, 2, 3, 4] }
    let x := g.setSession 40 { Session.reset with isOpen := true, gen := 7 }
    portUp g 0 = true ∧ (tPkt 2 1 0xFFFF 0).dest = g.link.chip ∧ pktCrcOk (tPkt 2 1 0xFFFF 0) = true ∧ forwardedFrom g 9 1 = some f ∧
      forwardedFrom (tTorus tReady) 9 1 = none ∧ pktCrcOk (c 0x0304) = true ∧ (c 0).seq.toNat = (tget g.link.pairs (pairKey 9 1) Pair.reset).expect ∧
      (c 0).context = 0xFFFF ∧ fld ((c 0x0304).data.getD 0 0) 15 0 / 256 = 3 ∧ fld ((c 0).data.getD 0 0) 15 0 / 256 = 0 ∧ currentGen x { c 0 with context := 40, gen := 7 } = some 7 := by
  decide +kernel

/-- A COMMAND from chip 9: new, with its position taken before, with the ring entries full, out of SEQ order, and with a failed CRC. -/
theorem test_witness_WorkForwarded_arrives :
    let t := tTorus tReady
    let o := { tEntry .ring 0x30 0 0 1 [0] with origin := some (9, 1), asn := 4 }
    let again := { tAt o t with link := { t.link with taken := [(9, 1)] } }
    let full := { t with journal := List.replicate 512 (tEntry .ring 1 0 0 0 []) }
    (live t = true ∧ t.link.role ≠ 0 ∧ (tPkt 1 1 0 0).dest = t.link.chip ∧ portUp t 0 = true ∧
      (tPkt 1 1 0 0).seq.toNat = (tget t.link.pairs (pairKey 9 1) Pair.reset).expect ∧ (9, 1) ∉ t.link.taken ∧ portUsed t .ring < 512 ∧
      t.entry? (t.jpos + 1) = none ∧ (routeOut t 9).isSome = true) ∧
    ((9, 1) ∈ again.link.taken ∧ again.journal.find? (fun e => e.origin = some (9, 1)) = some o) ∧
    ((9, 1) ∉ full.link.taken ∧ 512 ≤ portUsed full .ring) ∧
    (let k : LinkPkt := sealPkt { tPkt 1 1 0 0 with seq := 2 }
     pktCrcOk k = true ∧ k.seq.toNat ≠ (tget t.link.pairs (pairKey 9 1) Pair.reset).expect) ∧
    (pktCrcOk { tPkt 1 1 0 0 with crc := 0 } = false) := by
  decide +kernel

/-- It is journalled and answered with ACCEPT (03 R61, R75). -/
theorem test_command_accepted : ∃ t, exec (.command 0 (tPkt 1 1 0 0)) (tTorus tReady) = .next t ∧ t.journal.map (·.origin) = [some (9, 1)] ∧
    t.link.tx.map (fun x => x.2.type) = [2] := ⟨_, rfl, by decide +kernel, by decide +kernel⟩

/-- ACK, ACK_SEND, RETRANSMIT, with and without progress. -/
theorem test_witness_LinkDelivery_pairs :
    let s := tTorus tReady
    let pr : Pair := { Pair.reset with nextSeq := 2, unacked := [{ tPkt 1 1 0 0 with dest := 9, src := 3 }], sinceAck := 1, retries := 2 }
    let w (p : Pair) := { s with link := { s.link with pairs := [(pairKey 9 1, p)], peerInc := [(9, 0)] } }
    let f := { tEntry .host 0x30 0 0 1 [0] with st := .forwarded, fwd := some (9, false) }
    let a : LinkPkt := { tPkt 8 0 0xFFFF 0 with ackFor := 1 }
    (portUp s 0 = true ∧ a.dest = s.link.chip ∧ pktCrcOk a = true ∧ tfind (w pr).link.peerInc 9 = some a.aux2 ∧ tfind s.link.peerInc 9 = none ∧
      pr.unacked.any (fun x => seqLe x.seq.toNat a.aux.toNat) = true ∧ routeOut s 9 = some (0, false) ∧ pairKey 10 1 ≠ pairKey 9 1) ∧
    (let i : LinkPkt := sealPkt { a with aux2 := 7 }
     pktCrcOk i = true ∧ tfind (w pr).link.peerInc 9 = some 0 ∧ (0 : Word) ≠ i.aux2 ∧ i.ackFor = 1 ∧ pairKey i.src i.ackFor = pairKey 9 1) ∧
    ((tget (w pr).link.pairs (pairKey 9 1) Pair.reset).sinceAck ≠ 0 ∧ (tget s.link.pairs (pairKey 9 1) Pair.reset).sinceAck = 0 ∧
      routeOut s 14 = none ∧ portUp s 0 = true ∧ (s.lport 0).queue = [] ∧ 0 < tget (s.lport 0).credits 0 0) ∧
    (pr.unacked ≠ [] ∧ pr.retries < 3 ∧ (∀ u ∈ pr.unacked.take 256, u.dest = 9) ∧ (tget s.link.pairs (pairKey 9 1) Pair.reset).unacked = [] ∧
      3 ≤ ({ pr with retries := 3 } : Pair).retries) ∧
    (let g := ({ w { pr with retries := 3 } with journal := [f] }).setSession 40 { tSess 0 with spread := 520, be := false, gathers := [9] }
     g.journal.filter (fun e => e.st = .forwarded && e.fwd = some (9, false) && (if e.queue = 0 then 1 else 2) = 1) = [f] ∧
      40 ∈ spreadOver g 9 ∧ awaits 9 1 (g.session 40) = true) := by
  decide +kernel

/-- A GATHER asked for: the last of its layer and not, of the last layer and not; one of another layer; a SCATTER of a stale generation. -/
theorem test_witness_LinkDelivery_collectives :
    let w (l : Nat) : SeqWork := { (default : SeqWork) with layer := l, layers := 2, phase := .running }
    let home (l : Nat) (g : List Nat) := (tTorus tReady).setSession 40 { tSess 0 with gen := 7, spread := 520, be := false, gathers := g, stepId := 0, work := some (w l) }
    let k (l : Nat) : LinkPkt := sealPkt { tPkt 6 1 40 7 with aux := w32 l, data := [5] }
    let asked (l m : Nat) (g : List Nat) : Bool := decide ((k l).aux = w32 (w m).layer ∧ (k l).aux2 = w32 ((home m g).session 40).stepId ∧ 9 ∈ ((home m g).session 40).gathers)
    (currentGen (home 0 [9]) (k 0) = some (k 0).gen ∧ (k 0).context ≠ 0xFFFF ∧ currentGen (home 0 [9]) { k 0 with gen := 8 } ≠ some 8 ∧ computeUp (home 0 [9]) = true ∧ domainUp (home 0 [9]) = true ∧
      workReset (home 0 [9]) ((home 0 [9]).session 40) = false ∧ (k 0).seq.toNat = (tget (home 0 [9]).link.pairs (pairKey 9 1) Pair.reset).expect ∧ pktCrcOk (k 0) = true ∧ routeOut (home 0 [9]) 9 = some (0, false) ∧
      (k 0).dest = (home 0 [9]).link.chip ∧ portUp (home 0 [9]) 0 = true) ∧
    (asked 0 0 [9] = true ∧ [9].erase 9 = [] ∧ (w 0).layer + 1 < (w 0).layers ∧ asked 1 1 [9] = true ∧ (w 1).layers ≤ (w 1).layer + 1 ∧
      asked 0 0 [9, 10] = true ∧ [9, 10].erase 9 ≠ [] ∧ asked 1 0 [9] = false ∧ peersOf (home 0 [9]) 520 = [9]) ∧
    (tPkt 5 1 0xFFFF 0).context = 0xFFFF := by
  decide +kernel

/-- A shadow session of chip 9 with a SCATTER for it, the domain up and in reset; a step that an engine reset has stopped (Table 12.7). -/
theorem test_witness_LinkDelivery_resets :
    let up := (tTorus tReady).setSession 6 { Session.reset with isOpen := true, shadow := some (9, 40, 3) }
    let down := { up with recov := { up.recov with domainAt := some 0 } }
    let k : LinkPkt := sealPkt { tPkt 5 1 40 3 with data := [5] }
    let w : SeqWork := { (default : SeqWork) with phase := .running, stopped := some (.mx 15 3) }
    let eng := ((tTorus tReady).setSession 40 { tSess 0 with work := some w }).modCore 15 (fun x => { x with engineReset := [(3, 0)] })
    currentGen up k = some k.gen ∧ domainUp up = true ∧ currentGen down k = some k.gen ∧ domainUp down = false ∧ pktCrcOk k = true ∧
      k.seq.toNat = (tget down.link.pairs (pairKey 9 1) Pair.reset).expect ∧ portUp down 0 = true ∧ workReset down (down.session 40) = true ∧
      unitUp eng (.mx 15 3) = false ∧ workReset eng (eng.session 40) = true ∧ domainUp eng = true := by
  decide +kernel

/-- Packets for other chips: straight on, on the PRIMARY, on the alternate, turned, at the last hop, dropped. -/
theorem test_witness_LinkDelivery_forward :
    let s := tTorus tReady
    let k (d : Nat) (turned : Bool) : LinkPkt := { tPkt 1 1 0 0 with dest := d, turned := turned }
    let r (d : Nat) : Nat := tget s.link.route d 0
    let away := { s with link := { s.link with onAlt := 2 ^ 10 } }
    ((k 9 false).dest ≠ s.link.chip ∧ portUp s 0 = true ∧ portUp s 1 = true ∧ portUp s 3 = false ∧ 0 < (k 9 false).hops ∧ ({ k 9 false with hops := 0 } : LinkPkt).hops = 0) ∧
    ((k 9 true).turned = true ∧ r 9 % 4 / 2 = 0 / 2 ∧ (k 9 false).turned = false) ∧
    (r 9 / 128 % 2 = 1 ∧ r 9 % 4 = 0 ∧ onAlternate s 9 = false) ∧
    (onAlternate away 10 = true ∧ r 10 / 64 % 2 = 1 ∧ r 10 / 16 % 4 = 1 ∧ r 10 / 128 % 2 = 1) ∧
    (r 13 / 128 % 2 = 1 ∧ portUp s (r 13 % 4) = false ∧ portUp s (r 13 / 16 % 4) = false ∧ r 14 / 128 % 2 = 0) ∧
    ((s.lport 0).queue = [] ∧ (s.lport 1).queue = [] ∧ 0 < tget (s.lport 1).credits (creditKey (k 9 false)) 0) := by
  decide +kernel

/-- Forwarded on the PRIMARY: one hop less, its credit spent (12 R288, R290). -/
theorem test_forwarded : ∃ t, exec (.linkPacketForward 1 { tPkt 1 1 0 0 with dest := 9 }) (tTorus tReady) = .next t ∧
    t.link.tx.map (fun x => (x.1, x.2.hops)) = [(0, 3)] ∧ tget (t.lport 0).credits 2 0 = 7 := ⟨_, rfl, by decide +kernel, by decide +kernel⟩

/-! ### Functional safety -/

/-- Safety in state `st` with slot 5 in the mask. -/
def tSafe (st : Nat) (s : State) : State := { s with safety := { Safety.reset with state := st, safeN := decide (st = 1), mask := 32 } }

theorem test_witness_SafetyCommands :
    let a (m : Nat) := tEntry .safety 0x70 0 0 0 [0x1234, m]
    let c (mode : Nat) := tEntry .safety 0x71 0 0 0 [mode]
    let q := tEntry .host 0x72 0 0 0 []
    let s (e : JEntry) := tAt e (tBound [] [])
    let t (e : JEntry) := let x := tSafe 2 (s e); { x with safety := { x.safety with hbOk := true, causes := 16, first := some 4 } }
    (Runs (s (a 32)) 1 0x70 (a 32) ∧ bindsSafety (s (a 32)) = true ∧ maskMatches (s (a 32)) 32 = true ∧ causePresent (s (a 32)) = false ∧
      (s (a 32)).safety.state = 0 ∧ maskMatches (s (a 64)) 64 = false ∧ Runs (s (a 64)) 1 0x70 (a 64)) ∧
    (let u (e : JEntry) := { t e with chip := { tReady.chip with fenced := 0x8000 } }
     let v := { u (a 32) with safety := Safety.reset }
     Runs v 1 0x70 (a 32) ∧ (runCasts (beginCmd (a 32) v)).2 = true ∧ maskMatches v 32 = true ∧ bindsSafety v = true ∧ causePresent v = false ∧ v.safety.state = 0 ∧
       Runs (u (c 0)) 1 0x71 (c 0) ∧ (runCasts (beginCmd (c 0) (u (c 0)))).2 = true ∧ (runCasts (beginCmd (c 0) (t (c 0)))).2 = false) ∧
    (Runs (s (a 0)) 1 0x70 (a 0) ∧ (a 0).param 1 = 0) ∧
    (Runs (t (c 1)) 1 0x71 (c 1) ∧ bit ((c 1).param 0) 0 = true) ∧
    (Runs (t (c 0)) 1 0x71 (c 0) ∧ maskMatches (t (c 0)) 32 = true ∧ causePresent (t (c 0)) = false ∧ (t (c 0)).safety.state = 2 ∧ heartbeatRecent (t (c 0)) = true ∧
      (t (c 0)).safety.locked = false ∧ heartbeatRecent (tSafe 2 (s (c 0))) = false ∧ maskBit (2 ^ 17) 17 = true) ∧
    (Runs (s q) 1 0x72 q) := by
  unfold Runs; decide +kernel

/-- A cause that falls while SAFETY_CLEAR runs leaves safety tripped (14 R331). -/
theorem test_cause_during_clear :
    let c := tEntry .safety 0x71 0 0 0 [0]
    let s := let x := tSafe 2 (tAt c (tBound [] [])); { x with safety := { x.safety with hbOk := true, causes := 16, first := some 4 } }
    ∃ t, exec (.safetyClear 1 true 8) s = .next t ∧ t.safety.state = 2 ∧ t.safety.safeN = false ∧ maskBit t.safety.causes 3 = true :=
  ⟨_, rfl, by decide +kernel, by decide +kernel, by decide +kernel⟩

theorem test_witness_Heartbeats :
    let good := (crcWords [7, 0x1234]).toNat
    let e (p : Nat) := tEntry .safety 0x73 0 0 0 [p, 0x99]
    let s (tick st : Nat) (pk : List Word) : State :=
      let x := tSafe st (tBound [] [])
      { x with chip := { x.chip with tick := tick }, safety := { x.safety with key := 0x1234 }
               sport := { x.sport with prev := .packet 9, pend := some (9, pk, 7) } }
    let y := tSafe 1 (tAt (e good) (tBound [] []))
    let x : SpiFrame := { words := List.replicate 32 0, written := true }
    (Runs y 1 0x73 (e good) ∧ (e good).opcode = 0x73 ∧ (e good).port = .safety ∧ staticCheck y.link.chip (e good) = none) ∧
    (live (s 5999 1 (e good).pkt) = true ∧ x.words.length = 32 ∧ portUsed (s 5999 1 (e good).pkt) .safety < 64 ∧ (e good).param 0 = crcWords [7, 0x1234] ∧
      ¬ (e (good + 1)).param 0 = crcWords [7, 0x1234]) ∧
    (∃ t, exec (.safetyFrame x) (s 5999 1 (e good).pkt) = .next t ∧ t.safety.state = 1 ∧ t.safety.hbCount = 1 ∧ t.chip.tick - 0 ≤ 6000) ∧
    (∃ t, exec (.safetyFrame x) (s 6001 1 (e good).pkt) = .next t ∧ t.safety.state = 2 ∧ t.safety.first = some 11) ∧
    (∃ t, exec (.safetyFrame x) (s 5999 1 (e (good + 1)).pkt) = .next t ∧ t.safety.state = 2 ∧ t.safety.first = some 12) ∧
    (y.safety.hbAt + 6001 < 2 ^ 64 ∧ y.chip.tick < 2 ^ 64 ∧ (tSafe 2 tReady).safety.state = 2 ∧ tReady.safety.state = 0) := by
  unfold Runs
  refine ⟨by decide +kernel, by decide +kernel, ⟨_, rfl, by decide +kernel⟩, ⟨_, rfl, by decide +kernel⟩, ⟨_, rfl, by decide +kernel⟩, by decide +kernel⟩

/-- A frame of 32 words with a good CRC. -/
def tFrame (kind seq : Nat) : List Word :=
  let b := [dw [(0x5A, 31, 24), (kind, 23, 16), (seq, 15, 0)]] ++ List.replicate 30 0
  b ++ [crcWords b]

/-- Each kind of request before it, a packet that waits and one that does not, room in the port and none, a completion shown and none. -/
theorem test_witness_SafetyFrames :
    let s (p : SpiPrev) (pend : Option (Nat × List Word × Word)) := { tReady with sport := { SafetyPort.reset with prev := p, pend := pend, lastAccepted := some (8, 3) } }
    let e := tEntry .safety 0x72 0 0 0 []
    let c := e.cpl 0 stOk true 0 0 [1, 2, 3, 4]
    let done := { tReady with journal := [{ e with st := .done, cpls := [c], asn := 1 }] }
    (tReady.chip.phase ≠ .thermal ∧ live State.reset = false ∧ live tReady = true) ∧
    ((s (.idle 8) none).sport.prev = .idle 8 ∧ (s (.error 8) none).sport.prev = .error 8 ∧ (s (.notReady 8) none).sport.prev = .notReady 8 ∧
      (s (.again 8 3) none).sport.prev = .again 8 3 ∧ (s (.packet 9) none).sport.pend = none ∧ (s (.packet 9) (some (9, e.pkt, 0))).sport.pend.isSome = true ∧
      portUsed (s (.packet 9) none) .safety < 64 ∧ (s (.packet 9) none).sport.lastAccepted = some (8, 3) ∧
      64 ≤ portUsed { s (.packet 9) none with journal := List.replicate 64 e } .safety ∧ tReady.entry? (tReady.jpos + 1) = none) ∧
    ((s (.packet 9) none).sport.pendAt = 0 ∧ ¬ (s (.packet 9) none).sport.pendAt + 20 < tReady.chip.tick) ∧
    (safetyCpl tReady = none ∧ (safetyCpl done).isSome = true ∧ seqLe 1 1 = true) := by
  decide +kernel

/-- Requests: idle, a packet, the repeat of FRAME_SEQ 8, an unknown kind, a wrong magic, a short one. -/
theorem test_witness_SafetyFrames_words :
    (tFrame 1 9).length = 32 ∧ fld ((tFrame 2 9).getD 0 0) 23 16 = 2 ∧ fld ((List.replicate 32 (0 : Word)).getD 0 0) 31 24 ≠ 0x5A ∧
    fld ((tFrame 1 8).getD 0 0) 15 0 = 8 ∧ fld ((tFrame 1 9).getD 0 0) 15 0 ≠ 8 ∧ fld ((tFrame 0 1).getD 0 0) 23 16 = 0 ∧ (List.replicate 31 (0 : Word)).length ≠ 32 := by
  decide +kernel

/-- A list of 31 words with its CRC behind it. -/
theorem frame_crc (b : List Word) (h : b.length = 31) : (b ++ [crcWords b]).getD 31 0 = crcWords ((b ++ [crcWords b]).take 31) := by
  have h1 : (b ++ [crcWords b]).take 31 = b := by rw [← h]; exact List.take_left' rfl
  rw [h1, List.getD_append_right _ _ _ _ (by omega), h]
  rfl

/-- The frames of kinds 0 and 1 are no error frames: magic, kind and CRC are right. -/
theorem test_frame_good : fld ((tFrame 1 9).getD 0 0) 31 24 = 0x5A ∧ fld ((tFrame 1 9).getD 0 0) 23 16 = 1 ∧ fld ((tFrame 1 9).getD 0 0) 15 0 = 9 ∧
    (tFrame 1 9).getD 31 0 = crcWords ((tFrame 1 9).take 31) := ⟨by decide +kernel, by decide +kernel, by decide +kernel, frame_crc _ rfl⟩

/-- Before READY the response is RESP 5 with the FRAME_SEQ of the frame before, 0 after reset (14 R325). -/
theorem test_not_ready_frame : (doSafetyFrame ⟨List.replicate 32 0, true⟩ State.reset).sport.frame.getD 0 0 = dw [(0xA5, 31, 24), (5, 23, 16), (0, 15, 0)] := by
  decide +kernel

theorem test_witness_MechanismsTrip :
    let s := tSafe 1 (tBound [] [])
    let k := { s with cores := [(15, { Core.reset with castAt := [(3, 100)], castDone := [3] })] }
    let p := { tPicB 2 2 32 with reached := [(2, 5)], fired := [(2, 6)], within := true }
    let m := (tSafe 1 (tBound [p] [tRun 0 2 2 .running])).modStream 5 (fun x => { x with aus := [tAu 2 7 true] })
    let h : AuInfo := default
    let off := tSafe 2 { tReady with chip := { tReady.chip with tick := 9 } }
    (s.safety.state = 1 ∧ 50000 < (50001 : Int).natAbs ∧ 750 * 1000 * 30 < ((727499 : Int) - 750 * 1000).natAbs * 1000 ∧ (100000 : Int) < 100001 ∧
      k.isFenced 15 = false ∧ 3 ∈ (k.core 15).castDone ∧ 3 ∉ (s.core 15).castDone ∧ (s.core 15).castRunning.contains 3 = false) ∧
    (15 ∈ castCores k ∧ tfind (k.core 15).castAt 3 = some 100 ∧ k.chip.tick < 2 ^ 64 ∧ 100 + 8001 < 2 ^ 64) ∧
    (pictureFor (m.stream 5) 2 h = some p ∧ watched m 5 p = true ∧ 2 < bandCount (m.stream 5).cfg p.h ∧ p.line < trigLineOf m 5 p 2 ∧
      (lineDue m 5 p 2).isSome = true ∧ (m.stream 5).cfg.codec ≠ 2 ∧ bandOpen m 5 2 2 = true ∧ (recordDue m 5 p 2).isSome = true ∧
      tfind p.fired 3 = none ∧ (((picSched m 5 p).bind (schedOf m)).bind (fun t => trigOf t false 5 3)).isSome = true) ∧
    (tReady.safety.state = 0 ∧ off.safety.state = 2 ∧ off.safety.tripTick ≠ off.chip.tick ∧
      ({ off.safety with first := some 3 } : Safety).first = some 3) ∧
    (k.active = some { arm := 0, var := none } ∧ (activeSched k).isSome = true ∧ 100 + 6000 < 2 ^ 64 ∧ (k.core 15).castRunning.contains 3 = false ∧
      setEdges tSched (castNiches tSched 15 3) 6 = 0) := by
  decide +kernel

/-- An audio block of a bound slot whose record is open. -/
theorem test_witness_MechanismsTrip_audio :
    let b := { tBind with kind := 1, profile := 0x80002 }
    let a := { tSafe 1 (tBound [] []) with armatures := [(0, { tArm with bindings := [b] })] }
    let a := a.modStream 5 (fun x => { x with cfg := { x.cfg with codec := 2, audioBlock := b.block, mics := b.mics }, blockTicks := [(0, 7)] })
    (a.stream 5).cfg.codec = 2 ∧ tfind (a.stream 5).blockTicks 0 = some 7 ∧ a.active.isSome = true ∧ maskBit a.safety.mask 5 = true ∧ bound a 5 = true ∧
      (a.stream 5).catchup = false ∧ (a.stream 5).replayFrom = none ∧ (a.stream 5).firedBlocks ≤ 0 := by
  decide +kernel

/-- The bytes of a word give it back. -/
theorem word_of_bytes (w : Word) : bytesWord (wordBytes w) = w := by
  apply BitVec.eq_of_toNat_eq
  have h := w.isLt
  simp only [wordBytes, bytesWord, BitVec.toNat_ofNat, BitVec.extractLsb'_toNat, Nat.shiftRight_eq_div_pow]
  omega

/-- A Proof cast block whose expected CRCs of engine 3 are `z`; its result areas are zeros. -/
def tCastSpad (z : Word) : Mem := mwrite [] 6275236 (wordsBytes (List.replicate 3 z))

theorem cast_area (z : Word) (a n : Nat) (h : a + n ≤ 6275236) : mread (tCastSpad z) a n = List.replicate n 0 := by
  refine List.eq_replicate_iff.2 ⟨by simp [mread], fun b hb => ?_⟩
  obtain ⟨i, hi, rfl⟩ := List.mem_map.1 hb
  exact Laws.mget_mwrite_outside [] _ (.inl (by have := List.mem_range.1 hi; omega))

theorem cast_word (z : Word) (k : Nat) (hk : k < 3) : mreadW (tCastSpad z) (6275236 + 4 * k) = z := by
  have g (i : Nat) (hi : i < 12) := Laws.mget_mwrite_inside (m := []) rfl 6275236 (wordsBytes (List.replicate 3 z)) i hi
  refine Eq.trans (congrArg bytesWord ?_) (word_of_bytes z)
  obtain rfl | rfl | rfl : k = 0 ∨ k = 1 ∨ k = 2 := by omega
  · exact congr (congrArg List.cons (g 0 (by omega))) (congr (congrArg List.cons (g 1 (by omega))) (congr (congrArg List.cons (g 2 (by omega)))
      (congrArg (· :: []) (g 3 (by omega)))))
  · exact congr (congrArg List.cons (g 4 (by omega))) (congr (congrArg List.cons (g 5 (by omega))) (congr (congrArg List.cons (g 6 (by omega)))
      (congrArg (· :: []) (g 7 (by omega)))))
  · exact congr (congrArg List.cons (g 8 (by omega))) (congr (congrArg List.cons (g 9 (by omega))) (congr (congrArg List.cons (g 10 (by omega)))
      (congrArg (· :: []) (g 11 (by omega)))))

/-- The set of engine 3 matches on a core whose block expects the CRC of its zeros. -/
theorem test_witness_MechanismsTrip_cast : ∃ s : State, castMatch s 15 3 = true ∧ 3 ∈ (s.core 15).castDone ∧ s.isFenced 15 = false := by
  obtain ⟨z, hz⟩ : ∃ z, crc32 (List.replicate 4096 0) = z := ⟨_, rfl⟩
  refine ⟨{ tReady with cores := [(15, { Core.reset with spad := tCastSpad z, castDone := [3] })] },
    Bool.and_eq_true_iff.2 ⟨List.all_eq_true.2 fun k hk => decide_eq_true ?_, rfl⟩, List.mem_singleton.2 rfl,
    (show tReady.isFenced 15 = false by decide +kernel)⟩
  have h : k < 3 := by simp only [List.mem_cons, List.not_mem_nil, or_false] at hk; omega
  have w := cast_word z k h
  rw [show 6275236 + 4 * k = Config.proofBase + 0x1C080 + 4 * (3 * 3 + k) by unfold Config.proofBase; omega] at w
  exact ((congrArg crc32 (cast_area z _ _ (by unfold Config.proofBase; omega))).trans hz).trans w.symm

/-- 22.5 mV below 750 mV is 3.0%: no trip; a microvolt more trips (19 Table 19.2). -/
theorem test_supply_edge : (∃ t, exec (.voltage .vddCore 727500) (tSafe 1 tReady) = .next t ∧ t.safety.state = 1) ∧
    ∃ t, exec (.voltage .vddCore 727499) (tSafe 1 tReady) = .next t ∧ t.safety.state = 2 ∧ t.safety.first = some 9 :=
  ⟨⟨_, rfl, by decide +kernel⟩, _, rfl, by decide +kernel, by decide +kernel⟩

/-- The Proof cast set of engine 3 of core 15 is its one Niche, ready at once. -/
theorem test_proof_cast : castNiches tSched 15 3 = [6] ∧ setEdges tSched [6] 6 = 0 := by decide +kernel

/-! ### Observation -/

theorem test_witness_CountersRead :
    let f (p : Nat) := tEntry .host 0x80 0 0 0 [p]
    let r (c : Nat) := tEntry .host 0x81 0 0 0 [0x8000, 0, 64, c]
    let q (c : Nat) := tEntry .host 0x83 0 0 255 [c]
    let s (e : JEntry) := tAt e tReady
    let z (e : JEntry) := { s e with obs := { Obs.reset with freeze := some { (default : Snapshot) with tf := 9 } } }
    (Runs (s (f 1)) 1 0x80 (f 1) ∧ bit ((f 1).param 0) 0 = true ∧ (s (f 1)).obs.freeze = none) ∧
    (Runs (z (f 1)) 1 0x80 (f 1) ∧ (z (f 1)).obs.freeze.isSome = true ∧ (z (f 1)).obs.tickTrig = 0) ∧ (Runs (s (f 0)) 1 0x80 (f 0) ∧ bit ((f 0).param 0) 0 = false) ∧
    (Runs (z (f 0)) 1 0x80 (f 0)) ∧ (Runs (s (r 1)) 1 0x81 (r 1) ∧ bit ((r 1).param 3) 0 = true) ∧ (Runs (s (r 0)) 1 0x81 (r 0)) ∧
    (Runs (s (q 1)) 1 0x83 (q 1) ∧ (tget (s (q 1)).obs.accounts 255 Account.reset).wait < 2 ^ 64 ∧ bit ((q 1).param 0) 0 = true ∧
      Runs (z (q 0)) 1 0x83 (q 0)) := by
  unfold Runs; decide +kernel

/-- CTRL source on, every class, ring of 64 KiB at 0x100000. -/
def tTrace : TraceCfg := { TraceCfg.reset with mode := 1, ctrl := true, coreMask := 0xFFFF, classMask := 0xFFFF, ring := 0x100000, period := 1000 }

theorem test_witness_TraceAndTap :
    let e (p : Nat) := tEntry .host 0x82 1 0 0 [1, 0xFFFFFFFF, 0x100000, 0, 16, 0, 0, 0, 0, p, 1]
    let s (e : JEntry) := tAt e tReady
    let on := { tReady with obs := { Obs.reset with trace := tTrace } }
    let ev := { on with obs := { on.obs with bufs := [(3, [[1, 2, 3, 4, 5, 6, 7, 8]])] } }
    (Runs (s (e 1000)) 1 0x82 (e 1000) ∧ traceOk (s (e 1000)) (traceOf (e 1000)) = true ∧ traceOk (s (e 999)) (traceOf (e 999)) = false ∧
      Runs (s (e 999)) 1 0x82 (e 999) ∧ (s (e 1000)).obs.trace.mode = 0) ∧
    (tReady.obs.trace.period = 0 ∧ on.obs.trace.period ≠ 0 ∧ on.obs.trace.mode = 1 ∧ on.chip.tick ≤ tget on.obs.sampled 15 0 + 1000 ∧
      maskBit on.obs.trace.coreMask 15 = true ∧ maskBit on.obs.trace.classMask 10 = true ∧ tget on.obs.lost 15 (0, 0) = (0, 0) ∧
      evBytes (tget on.obs.bufs 15 []) + 32 ≤ 65536) ∧
    (ev.obs.trace.mode ≠ 0 ∧ oldestBuf ev 3 = true ∧ ev.pcie.d3 = false ∧ ev.obs.lost = [] ∧ ev.obs.trigger = false ∧
      0 < evBytes (takeEvents 2048 (tget ev.obs.bufs 3 [])).1 ∧ evBytes (takeEvents 2048 (tget ev.obs.bufs 3 [])).1 ≤ traceRoom ev.obs) ∧
    (oldestBuf ev 4 = false ∧ tReady.obs.trace.mode = 0 ∧
      (let full := { ev with obs := { ev.obs with head := 32, headAt := some 0 } }
       traceRoom full.obs = 0 ∧ evBytes (takeEvents (min 2048 0) (tget full.obs.bufs 3 [])).1 = 0)) := by
  unfold Runs; decide +kernel

/-- A selected picture: room and time; room lacking; too late; each ground on which none is written. -/
theorem test_witness_TraceAndTap_tap :
    let pic := { tPic 4 4 64 with tapped := false, lineAt := [(64, 0)] }
    let tap (head tick : Nat) (at_ : Option Nat) := { tOpen 5 { Stream.reset with cfg := tCfg, pics := [pic] } tReady with
      chip := { tReady.chip with tick := tick }
      obs := { Obs.reset with trace := { tTrace with tapEn := true, tapSlot := 5, tapEvery := 4 }, head := head, headAt := at_ } }
    let late (s : State) : Bool := decide (tapDue (s.stream 5) pic < tapStart (tapPayload pic).length s)
    ((tap 0 0 none).obs.trace.tapEn = true ∧ (tap 0 0 none).pcie.d3 = false ∧ (4 : Word).toNat % 4 = 0 ∧ (5 : Word).toNat % 4 ≠ 0 ∧
      ((tap 0 0 none).stream 5).pics.find? (fun q => q.don = (4 : Word).toNat) = some pic ∧ pic.tapped = false ∧ pic.full = true ∧
      ({ pic with tapped := true } : Picture).tapped = true) ∧
    (late (tap 0 0 none) = false ∧ (tapPayload pic).length + 32 ≤ traceRoom (tap 0 0 none).obs) ∧
    (late (tap 64 9 (some 0)) = false ∧ traceRoom (readHead ((tapPayload pic).length + 32) 0 (tap 64 9 (some 0))).obs < (tapPayload pic).length + 32) ∧
    late (tap 0 4001 none) = true := by
  decide +kernel

theorem test_witness_Impressions :
    let e (n : Nat) := tEntry .host 0x93 0 0 0 [0x8000, 0, 64, n]
    let i := { (default : Impression) with incident := 1 }
    let s (e : JEntry) := { tAt e tReady with recov := { Recovery.reset with store := [(0, i)], captures := [(i, 1, 63)], incs := [(1, 1, 63)] }, chip := { tReady.chip with testEn := true } }
    let bad (e : JEntry) := { s e with dram := { tReady.dram with bad := [88 * mib / 32] } }
    let pkt : List Word := [0x93, 0, 0, 0, 0x8000, 0, 64, 1]
    (Runs (s (e 2)) 1 0x93 (e 2) ∧ readTarget (s (e 2)) 2 = none ∧ Runs (s (e 1)) 1 0x93 (e 1) ∧ readTarget (s (e 1)) 1 = some (impEntries i) ∧
      impBad (s (e 1)) 1 (impEntries i) = false) ∧
    (Runs (bad (e 1)) 1 0x93 (e 1) ∧ impBad (bad (e 1)) 1 (impEntries i) = true) ∧
    (maintenanceUp (s (e 1)) = true ∧ sharedUsed (s (e 1)) < Config.journalShared ∧ fld (pkt.getD 0 0) 7 0 = 0x93 ∧ fld (pkt.getD 0 0) 25 24 = 0 ∧
      fld (pkt.getD 2 0) 15 0 = 0 ∧ bit (pkt.getD 3 0) 7 = false) ∧
    (heldImp (s (e 1)) 1 = some i ∧ (s (e 1)).chip.fatal = false ∧ (s (e 1)).recov.incs.any (fun x => x.1 = i.incident) = true ∧
      resetting (s (e 1)) 1 63 = false ∧ tReady.recov.captures = [] ∧
      ({ s (e 1) with recov := { (s (e 1)).recov with incs := [] } } : State).recov.incs.any (fun x => x.1 = i.incident) = false) := by
  unfold Runs; decide +kernel

/-! ### Resets and hangs -/

theorem test_witness_ResetsCommandedAndBegun :
    let r (op c : Nat) := tEntry .host op 0 0 c []
    let s (e : JEntry) (fenced : Nat) := { tAt e tReady with chip := { tReady.chip with fenced := fenced } }
    let dom (e : JEntry) := { s e 0 with recov := { Recovery.reset with domainAt := some 0 } }
    let q (code n : Nat) := { tReady with recov := { Recovery.reset with requests := [(code, n, 3)] } }
    (Runs (s (r 0x90 63) 0x8000) 1 0x90 (r 0x90 63) ∧ (s (r 0x90 63) 0x8000).isFenced ((r 0x90 63).ctx / 4) = true ∧
      (s (r 0x90 63) 0).isFenced ((r 0x90 63).ctx / 4) = false ∧ Runs (s (r 0x90 63) 0) 1 0x90 (r 0x90 63)) ∧
    (Runs (s (r 0x91 15) 0x8000) 1 0x91 (r 0x91 15) ∧ (s (r 0x91 15) 0x8000).isFenced 15 = true ∧ Runs (s (r 0x91 15) 0) 1 0x91 (r 0x91 15)) ∧
    (Runs (s (r 0x92 0) 0) 1 0x92 (r 0x92 0) ∧ (s (r 0x92 0) 0).recov.domainAt = none ∧ resetting (s (r 0x92 0) 0) 3 0 = false ∧
      resetting { s (r 0x92 0) 0 with recov := { Recovery.reset with requests := [(3, 0, 1)] } } 3 0 = true) ∧
    (let e := { r 0x91 15 with during := true }
     Runs (dom e) 1 0x91 e ∧ (dom e).recov.domainAt.isSome = true ∧ Runs (s e 0) 1 0x91 e ∧ (s e 0).recov.domainAt = none ∧ domainRequested (s e 0) = false ∧
       (r 0x91 15).during = false) ∧
    (live (q 1 63) = true ∧ domainUp (q 3 0) = true ∧ requested (q 1 63) 1 (4 * 15 + 3) = some 3 ∧ ((q 1 63).core 15).resetAt = none ∧ requested (q 2 15) 2 15 = some 3 ∧
      requested (q 3 0) 3 0 = some 3 ∧ requested tReady 1 63 = none ∧ requested tReady 2 15 = none ∧ requested tReady 3 0 = none) := by
  unfold Runs; decide +kernel

/-- The three resets in time and overrun, with a waiter and without, inside an open incident and not, on a core's first and second failure. -/
theorem test_witness_ResetsEnd :
    let at_ (t : Nat) : Chip := { tReady.chip with tick := t }
    let eng (t : Nat) := { tReady with cores := [(15, { Core.reset with engineReset := [(3, 0)] })], chip := at_ t }
    let cor (t f : Nat) := { tReady with cores := [(15, { Core.reset with resetAt := some 0, failed := f })], chip := at_ t }
    let dom (t : Nat) := { tReady with recov := { Recovery.reset with domainAt := some 0 }, chip := at_ t }
    let w : Waiter := { j := 1, start := 0, code := 1, unit := 63, during := false }
    (live (eng 50) = true ∧ engineEnding (eng 50) 15 3 = some 0 ∧ (eng 50).chip.tick ≤ 0 + 50 ∧ 0 + 50 < (eng 51).chip.tick ∧ (eng 50).recov.waiters = [] ∧
      (eng 50).recov.incs = [] ∧ engineEnding (eng 51) 15 3 = some 0 ∧ (eng 50).isFenced 15 = false ∧ w.unit = 4 * 15 + 3 ∧
      engineEnding { eng 50 with recov := { Recovery.reset with waiters := [w] } } 15 3 = some 0 ∧ inside (1, 63) (1, 63) = true ∧ inside (1, 62) (1, 63) = false ∧
      engineEnding { eng 50 with recov := { Recovery.reset with incs := [(1, 1, 63)] } } 15 3 = some 0) ∧
    (coreEnding (cor 200 0) 15 = some 0 ∧ (cor 200 0).chip.tick ≤ 0 + 200 ∧ 0 + 200 < (cor 201 0).chip.tick ∧ ((cor 200 0).core 15).failed = 0 ∧
      ((cor 200 1).core 15).failed = 1 ∧ (cor 200 0).isFenced 15 = false) ∧
    ((dom 2000).recov.domainAt = some 0 ∧ (dom 2000).chip.tick ≤ 0 + 2000 ∧ 0 + 2000 < (dom 2001).chip.tick ∧ (dom 2000).active = none ∧
      (dom 2000).noSched = false ∧ (dom 2000).openSlots = [] ∧ (dom 2000).dram.bad = [] ∧ (dom 2000).recov.waiters = [] ∧ (∀ x ∈ (dom 2000).sessions, x.2.work = none) ∧
      (dom 2000).isFenced 0 = false ∧ (∀ c, c < 16 → c ∈ List.range 16) ∧ (tSafe 1 (dom 2000)).safety.state = 1) := by
  decide +kernel

/-- A core that fails its second reset is fenced (15 R347). -/
theorem test_second_failure_fences : ∃ t, exec (.coreResetEnd 15 false) { tReady with cores := [(15, { Core.reset with resetAt := some 0, failed := 1 })] } = .next t ∧
    t.chip.fenced = 0x8000 := ⟨_, rfl, by decide +kernel⟩

theorem test_witness_HangsCaptured :
    let s (k : Nat) := tBound [tPicB 2 2 32] [tRun k 2 0 .running]
    let runs (u : UnitId) (k : Nat) : Prop := takesWork (s k) = true ∧ (s k).recov.captures = [] ∧ (s k).recov.requests = [] ∧ running (s k) u = some (tRun k 2 0 .running) ∧
      unitOf (runNiche (s k) (tRun k 2 0 .running)) = u ∧ unitDown (s k) u = false ∧ (s k).recov.store = []
    runs (.mx 15 3) 0 ∧ runs (.vx 15) 1 ∧ runs .tae 2 ∧ runs (.enc 1) 3 ∧ runs (.shp 3) 4 ∧ runs .out 5 := by
  simp only []; decide +kernel

/-- An exchange in flight, coded data pending, a row of an engine and a due tile row. -/
theorem test_witness_HangsCaptured_others :
    let x := { (default : Xchg) with sender := 15, since := 5 }
    let xs := { tReady with recov := { Recovery.reset with xchgs := [x] } }
    let ent := (tBound [] []).modStream 5 (fun y => { y with aus := [{ tAu 0 9 true with decoded := false }], nextAu := 1 })
    let strip := { tBound [{ tPicB 2 2 32 with lineAt := [(16, 3), (32, 8)] }] [] with pool := [(5, 1000000, 0)] }
    (takesWork xs = true ∧ xs.recov.xchgs.find? (fun x => x.sender = 15) = some x ∧ (xs.core 15).resetAt = none) ∧
    (takesWork ent = true ∧ binsDue ent 0 = [(5, 9)] ∧ pendingTick ent 5 = some 9 ∧ ent.openSlots = [5] ∧ (ent.stream 5).engine = 0 ∧
      (ent.stream 5).binAt = 0) ∧
    (takesWork strip = true ∧ rowOf strip 0 = some 5 ∧ rowOf strip 1 = none) ∧
    (stripDue strip 3).map (fun y => (y.1, y.2.1, y.2.2.2.1, y.2.2.2.2)) = [(5, 4, 1, 8)] := by
  decide +kernel

/-- Engine 2 of the core hung 41 µs before engine 3. -/
theorem test_witness_HangsCaptured_joined :
    let i := { (default : Impression) with condition := 1, finalUnit := 1, unit := 62, detect := 960 }
    let s := tBound [tPicB 2 2 32] [tRun 0 2 0 .running]
    let s := { s with recov := { s.recov with store := [(0, i)] } }
    takesWork s = true ∧ s.recov.captures = [] ∧ s.recov.requests = [] ∧ unitDown s (.mx 15 3) = false ∧ i ∈ s.recov.store.map (·.2) ∧ i.unit / 4 = 15 ∧
      i.unit ≠ 4 * 15 + 3 ∧ (runNiche s (tRun 0 2 0 .running)).wdog = 1000 ∧ max s.chip.tick (0 + 1000 + 1) ≤ i.detect + 50 := by
  decide +kernel

/-- A best-effort Niche on a vector unit. -/
theorem test_witness_HangsCaptured_be :
    let be := { tBound [] [] with jobs := [tJob (some 15) (some (.vx 15)) false] }
    (takesWork be = true ∧ running be (.vx 15) = none ∧ beOn be (.vx 15) = some (tJob (some 15) (some (.vx 15)) false) ∧ unitDown be (.vx 15) = false ∧
      (jobNiche be (tJob (some 15) (some (.vx 15)) false)).isSome = true) := by
  decide +kernel

/-! ### The manual's worked examples -/

theorem test_witness_PmbusRegisters : tReady.chip.phase ≠ .thermal ∧ tReady.chip.temp ≤ 100000 ∧ (60 ≤ 60 ∧ 100 ≤ (100 : Nat)) := by decide +kernel

/-- 04_stream_decode.md, the 96-camera appliance: the three buffers of one stream; 11_memory.md: 9 buffers of the pools. -/
theorem test_example_buffers :
    let c := { tCfg with maxDpb := 4, maxW := 1920, maxH := 1088, bPix := 66000000, bitrate := 8000000, framePeriod := 33333, irapMax := 2000, retention := 200 }
    c.buffers = [18800640, 6394304, 5688848] ∧ (c.buffers.flatMap poolPlan).length = 9 ∧ c.bPicBins = 355553 := by decide +kernel

/-- 02_raster_time.md, the latency bound of Table 2.1 at 125 Mpixel/s: 5.706 ms, 6.506 ms at f = 0.8 (3.2 ms / 0.8), 8.906 ms at f = 0.5. -/
theorem test_example_latency :
    let c := { tCfg with hBand := 64, bPix := 125000000 }
    lMax c 8 3200 1920 1080 1000 = 5706 ∧ lMax c 8 4000 1920 1080 1000 = 6506 ∧ lMax c 8 (pArmEff 128 3200) 1920 1080 1000 = 8906 := by decide +kernel

/-- 05_shaping.md, the 960 by 540 detector grid: tile row j reads lines up to 64 j + 81, the last one up to 1079, and needs a halo of 18. -/
theorem test_example_grid :
    let d : ShpDesc := { ShpDesc.ofWords [] with filter := 0, cropW := 1920, cropH := 1080, outW := 960, outH := 540, tileW := 256, tileH := 40, stepX := 240, stepY := 32,
                                                 tilesX := 4, tilesY := 17, stage := 2, batch := 4, layout := 1 }
    (List.range 16).map (d.lastLine 1080) = (List.range 16).map (fun j => 64 * j + 81) ∧ d.lastLine 1080 16 = 1079 ∧ d.headBytes = 128 := by decide +kernel

/-- 07_mapping.md, M = 11,520 and N = 128 on 16 cores: one Niche of 720 rows a core; on 15 cores 768 rows each. -/
theorem test_example_tiles :
    let p : Product := { (default : Product) with m := 11520, n := 128 }
    let rows (n : Nat) : List (Nat × Nat × Nat) := (plainTiles p (List.range n)).map (fun x => (x.core, x.m, x.validM))
    rows 16 = (List.range 16).map (fun c => (c, 720, 720)) ∧ rows 15 = (List.range 15).map (fun c => (c, 768, 768)) := by decide +kernel

/-- 11_memory.md, the 16 GiB part: the pool space starts at 132 MiB, and pool 7 has 1,760 plain and 235 ECC buffers. -/
theorem test_example_pools :
    let d := { Dram.reset with capMib := 16384 }
    poolBase d = 132 * mib ∧ spaceBytes d = 16224 * mib ∧ partCount d 7 false = 1760 ∧ partCount d 7 true = 235 := by decide +kernel

/-- The CRC-32 of 0x00000000 (04 R116: the IEEE 802.3 CRC). -/
theorem test_crc : crcWords [0] = 0x2144DF1C := by decide +kernel

/-- FP32 addition rounds to nearest even: 1 + 2^-24 is 1, and 1 + 3 * 2^-24 is 1 + 2^-22 (06 R144-R151). -/
theorem test_fp32_even : add32 (fp32 0x3F800000) (fp32 0x33800000) = fp32 0x3F800000 ∧ add32 (fp32 0x3F800001) (fp32 0x33800000) = fp32 0x3F800002 := by
  decide +kernel

/-- 08_tracking.md: a pair at 1 - IoU = 0.40 and d = 0.20 under the default weights costs 307. -/
theorem test_example_cost :
    (mul32 (.ofNat 1024) (add32 (mul32 (.fin false 128 (-8)) (fp32 0x3ECCCCCD)) (mul32 (.fin false 128 (-8)) (fp32 0x3E4CCCCD)))).toInt = some 307 := by
  decide +kernel

end Sys2Proof.Tests
end

section
/-! Reconstruction of rows (04 R81, R97): the frame over the other streams fails where a stream's outbox holds a record that names another slot. -/

namespace Sys2Proof.Recon

open Sys2Proof.Machine

/-- A picture of one macroblock row whose access unit is decoded whole: its next row is its last. -/
def oneRowPicture : Picture := { (default : Picture) with w := 16, h := 16, ctb := 16, depth := 8, segsDone := true }

/-- A BAND_RESULT that waits for its turn and names stream slot 1. -/
def recordOfSlotOne : LateRec := { req := bandRec 1 3 0 0 0 0 false [], last := false, feed := none }

/-- A running part whose slot 0 has its picture's last row due, and a record of slot 1 in its outbox. -/
def strayRecord : State :=
  { State.reset with
    chip := { Chip.reset with phase := .ready }
    streams := [(0, { Stream.reset with isOpen := true, pics := [oneRowPicture], outbox := [recordOfSlotOne] })]
    pool := [(0, 1000000, 0)] }

/-- The last row of the picture of slot 0 can be reconstructed, and it is the slot's turn. -/
theorem strayRecord_lastRowDue :
    parserUp strayRecord 0 = true ∧ reconPicture (strayRecord.stream 0) = some oneRowPicture ∧
    strayRecord.pool.any (fun e => decide (e.1 = 0)) = true ∧ (strayRecord.stream 0).paused = false ∧
    rowDecoded (strayRecord.stream 0) oneRowPicture = true ∧ reconBlocked strayRecord 0 oneRowPicture = false ∧
    poolTurn strayRecord 0 = true ∧ oneRowPicture.rowCount ≤ oneRowPicture.rows + 1 := by
  decide +kernel

/-- With the last row the waiting record is placed (04 R118), and issuing it raises SEQ of the slot it names (04 R116): slot 1, not slot 0. -/
theorem strayRecord_raises_seq_of_slotOne :
    (strayRecord.stream 1).seq = 0 ∧ ((doRowReconstructed 0 default strayRecord).stream 1).seq = 1 := by
  decide +kernel

/-- Refutes O28: the clause of a picture's last row claims that no other stream changes, in every state. The last row also places the stream's waiting
records whose turn has come, and a record raises SEQ of the slot it names (04 R116, R118). The statement has no premise that the records in a stream's outbox
name that stream, and in `strayRecord` the outbox of slot 0 holds one that names slot 1. -/
theorem not_rowsReconstructed : ¬ Obligations.RowsReconstructed := by
  unfold Obligations.RowsReconstructed
  intro h
  obtain ⟨hup, hpic, hpool, hpaused, hdecoded, hroom, hturn, hlast⟩ := strayRecord_lastRowDue
  obtain ⟨hrow, -⟩ := h 0 strayRecord hup
  obtain ⟨-, -, -, hlastRow⟩ := hrow default oneRowPicture hpic hpool hpaused hdecoded
  obtain ⟨-, t, hexec, -, -, hothers⟩ := hlastRow hroom hturn hlast
  have ht : doRowReconstructed 0 default strayRecord = t := by
    injection hexec
  have hframe : t.stream 1 = strayRecord.stream 1 := hothers 1 (by decide)
  obtain ⟨hbefore, hafter⟩ := strayRecord_raises_seq_of_slotOne
  rw [ht, hframe, hbefore] at hafter
  exact absurd hafter (by decide)

end Sys2Proof.Recon
end

section
/-! Every command keeps a sound state sound (02 R34; 14 R315, R316). -/

namespace Sys2Proof.StepSound

open Sys2Proof.Machine Sys2Proof.Laws

/-- The commands that may raise SAFE_n (14 R316). -/
def armsSafety : Instr → Bool
  | .safetyArm _ _ | .safetyClear _ _ _ => true
  | _ => false

/-- Where the outcome is a next state, that state is `good`. -/
def NextGood (β : Bool) : Host.Outcome State Fault Refusal → Prop
  | .next t => good β t = true
  | .fault _ | .refused _ => True

/-- A register access that acts within a range of ring numbers and does nothing outside it. -/
theorem barAccess_within_good {β : Bool} (c : Prop) [Decidable c] {f : State → State} (hf : ∀ t, good β t = true → good β (f t) = true)
    (s : State) (h : good β s = true) : good β (barAccess s (fun t => if c then f t else t)) = true :=
  barAccess_good s _ (fun t ht => good_ite (hf t ht) ht) h

theorem execTestOpcode_good {β : Bool} (src : TestSrc) (s : State) (h : good β s = true) : NextGood β (execTestOpcode src s) := by
  cases src with
  | journal j => exact doForeign_good j s h
  | maintenance pkt =>
    unfold execTestOpcode
    dsimp only
    split
    · trivial
    · exact doMaintenanceForeign_good pkt s h

/-- Every command keeps a state `good`, a command that may raise SAFE_n one in which SAFE_n may be high. -/
theorem exec_good {β : Bool} (c : Instr) (s : State) (h : good β s = true) (hβ : armsSafety c = true → β = true) : NextGood β (exec c s) := by
  cases c with
  | nop j => exact doNop_good j s h
  | fence j => exact doFence_good j s h
  | streamOpen j => exact doStreamOpen_good j s h
  | streamClose j => exact doStreamClose_good j s h
  | streamFeed j => exact doStreamFeed_good j s h
  | streamRetune j => exact doStreamRetune_good j s h
  | maquetteLoad j pkg => exact doMaquetteLoad_good j pkg s h
  | maquetteDrop j => exact doMaquetteDrop_good j s h
  | armatureCommit j block plan => exact doArmatureCommit_good j block plan s h
  | armatureSwap j => exact doArmatureSwap_good j s h
  | tensorRun j => exact doTensorRun_good j s h
  | seqOpen j _ => exact good_ite (doSeqOpen_good j s h) h
  | seqAppend j run => exact doSeqAppend_good j run s h
  | seqStep j runs => exact doSeqStep_good j runs s h
  | seqClose j => exact doSeqClose_good j s h
  | trackConfig j => exact doTrackConfig_good j s h
  | trackQuery j => exact doTrackQuery_good j s h
  | poolConfig j => exact doPoolConfig_good j s h
  | poolStatus j => exact doPoolStatus_good j s h
  | linkConfig j upPorts => exact doLinkConfig_good j upPorts s h
  | routeSet j => exact doRouteSet_good j s h
  | collective j rows => exact doCollective_good j rows s h
  | safetyArm j proofPass => obtain rfl := hβ rfl; exact doSafetyArm_good j proofPass s h
  | safetyClear j proofPass during => obtain rfl := hβ rfl; exact doSafetyClear_good j proofPass during s h
  | safetyStatus j => exact doSafetyStatus_good j s h
  | safetyHeartbeat j => exact doSafetyHeartbeat_good j s h
  | counterFreeze j => exact doCounterFreeze_good j s h
  | counterRead j => exact doCounterRead_good j s h
  | traceConfig j => exact doTraceConfig_good j s h
  | clientStats j => exact doClientStats_good j s h
  | resetEngine j => exact doResetEngine_good j s h
  | resetCore j => exact doResetCore_good j s h
  | resetCompute j => exact doResetCompute_good j s h
  | impressionRead src => exact doImpressionRead_good src s h
  | dramTrainStep pkt sweep => exact doDramTrainStep_good pkt sweep s h
  | testOpcode src => exact execTestOpcode_good src s h
  | commandAccept r0 r1 => exact doCommandAccept_good r0 r1 s h
  | closeFinal j => exact doCloseFinal_good j s h
  | deferredOpenRun j _ => exact good_ite (doDeferredOpenRun_good j s h) h
  | cmdRingTail q _ => exact barAccess_within_good _ (fun t => cmdRingTail_good q _ t) s h
  | cplRingHead q _ => exact barAccess_within_good _ (fun t => cplRingHead_good q _ t) s h
  | ringEnSet q => exact barAccess_within_good _ (ringEnSet_good q) s h
  | ringEnClear q => exact barAccess_within_good _ (ringEnClear_good q) s h
  | outRingEnSet o => exact barAccess_within_good _ (outRingEnSet_good o) s h
  | outRingEnClear o => exact barAccess_within_good _ (outRingEnClear_good o) s h
  | outRingHead o _ => exact barAccess_within_good _ (fun t => outRingHead_good o _ t) s h
  | outCoal o v => exact barAccess_within_good _ (outCoal_good o v) s h
  | outCoalBytes o v => exact barAccess_within_good _ (outCoalBytes_good o v) s h
  | intxCause v => exact barAccess_good s _ (intxCause_good v) h
  | tickLo => exact doTickLo_good s h
  | outFullTicksLo o => exact doOutFullTicksLo_good o s h
  | accessErrors => exact doAccessErrors_good s h
  | registerWrite off v be => exact doRegisterWrite_good off v be s h
  | bar2Read off len ecc => exact doBar2Read_good off len ecc s h
  | bar2Write off bytes => exact doBar2Write_good off bytes s h
  | hostReadFail r => exact doHostReadFail_good r s h
  | intxHoldoffExpiry => exact doIntxHoldoffExpiry_good s h
  | functionLevelReset hung => exact flr_good hung s h
  | hotReset hung => exact flr_good hung s h
  | d3hotEntry => exact doD3hotEntry_good s h
  | d0Return => exact doD0Return_good s h
  | outCoalExpiry o => exact doOutCoalExpiry_good o s h
  | recordWrite r => exact doRecordWrite_good r s h
  | heldRecordRelease o => exact doHeldRecordRelease_good o s h
  | tsPacket slot => exact doTsPacket_good slot s h
  | warRecord slot => exact doWarRecord_good slot s h
  | retentionShortEnd slot => exact doRetentionShortEnd_good slot s h
  | retentionRelease slot => exact doRetentionRelease_good slot s h
  | entropyDecode slot info => exact doEntropyDecode_good slot info s h
  | rowReconstructed slot row => exact doRowReconstructed_good slot row s h
  | stripFeedResume slot => exact doStripFeedResume_good slot s h
  | bandTrigger slot => exact doBandTrigger_good slot s h
  | audioBlockTrigger slot => exact doAudioBlockTrigger_good slot s h
  | decodeLate slot pic => exact doDecodeLate_good slot pic.don pic.head s h
  | shpTileRow slot nicheIx => exact doShpTileRow_good slot nicheIx s h
  | nicheDispatch u => exact doNicheDispatch_good u s h
  | nicheComplete u r => exact doNicheComplete_good u r s h
  | fedAppend sess run steps => exact doFedAppend_good sess run steps s h
  | evidenceSlice u sl => exact doEvidenceSlice_good u sl s h
  | xchgLand pair => exact doXchgLand_good pair.1 pair.2 s h
  | beGap u => exact doBeGap_good u s h
  | bePause u tilesDone => exact doBePause_good u tilesDone s h
  | nicheWatchdog u => exact doNicheWatchdog_good u s h
  | xchgHang c => exact doXchgHang_good c s h
  | entropyHang e => exact doEntropyHang_good e s h
  | reconHang e => exact doReconHang_good e s h
  | stripRowHang u => exact doStripRowHang_good u s h
  | impressionWritten => exact doImpressionWritten_good s h
  | engineReset c e => exact doEngineReset_good c e s h
  | engineResetEnd c e pass => exact doEngineResetEnd_good c e pass s h
  | engineResetTimeout c e => exact doEngineResetTimeout_good c e s h
  | coreReset c => exact doCoreReset_good c s h
  | coreResetEnd c pass => exact doCoreResetEnd_good c pass s h
  | coreResetTimeout c => exact doCoreResetTimeout_good c s h
  | computeReset => exact doComputeReset_good s h
  | computeResetEnd firstFail secondFail lostA lostB badCkpt => exact doComputeResetEnd_good firstFail secondFail lostA lostB badCkpt s h
  | computeResetTimeout => exact doComputeResetTimeout_good s h
  | safetyFrame frame => exact doSafetyFrame_good frame s h
  | lockstep _ => exact detect_good 0 s h
  | hbMissed => exact doHbMissed_good s h
  | proofCastDue c e => exact doProofCastDue_good c e s h
  | proofCastCheck c e ok => exact doProofCastCheck_good c e ok s h
  | proofCastInterval c e => exact doProofCastInterval_good c e s h
  | lposStall slot pic band => exact doLposStall_good slot pic.don band pic.head s h
  | recordLate slot pic band => exact doRecordLate_good slot pic.don band pic.head s h
  | clock ref devPpm => exact doClock_good ref devPpm s h
  | voltage r microvolts => exact doVoltage_good r microvolts s h
  | temperatureSample milliC => exact doTemperatureSample_good milliC s h
  | sramScrub _ uncorrectable => exact doSramScrub_good uncorrectable s h
  | patrolScrub sector ecc => exact doPatrolScrub_good sector ecc s h
  | dramRequest ch a => exact doDramRequest_good ch a s h
  | driftCheck ch rank readDelta writeDelta => exact doDriftCheck_good ch rank readDelta writeDelta s h
  | allBankRefresh ch => exact doAllBankRefresh_good ch s h
  | poolRefill p ecc => exact doPoolRefill_good p ecc s h
  | refcountIncrement addr => exact doRefcountIncrement_good addr s h
  | codewordReceive port corrected _ => exact doCodewordReceive_good port corrected _ _ s h
  | command port pk => exact doCommand_good port pk s h
  | accept port pk => exact doAccept_good port pk s h
  | refuse port pk => exact doRefuse_good port pk s h
  | completion port pk => exact doCompletion_good port pk s h
  | scatter port pk => exact doScatter_good port pk s h
  | gather port pk => exact doGather_good port pk s h
  | stale port pk => exact doStale_good port pk s h
  | ack port pk => exact doAck_good port pk s h
  | flrNotice port pk => exact doFlrNotice_good port pk s h
  | linkPacketForward port pk => exact doLinkPacketForward_good port pk s h
  | ackSend chip cls => exact doAckSend_good chip cls s h
  | retransmit chip cls => exact doRetransmit_good chip cls s h
  | portDown port => exact portFault_good port s h
  | codewordTimeout port => exact portFault_good port s h
  | portTrainRetry port => exact doPortTrainRetry_good port s h
  | trainingComplete port r => exact doTrainingComplete_good port r s h
  | trigIn => exact doTrigIn_good s h
  | counterSample c => exact doCounterSample_good c s h
  | traceDrain src headRead => exact doTraceDrain_good src headRead s h
  | pictureTap don written headRead => exact doPictureTap_good don written headRead s h
  | capN level => exact doCapN_good level s h
  | clearFaults => exact doClearFaults_good s h
  | statusTemperature => exact doStatusTemperature_good s h
  | readTemperature1 => exact doReadTemperature1_good s h
  | pmbusRevision => exact doPmbusRevision_good s h
  | capF w => exact doCapF_good w s h
  | capPinF w => exact doCapPinF_good w s h
  | capActive => exact doCapActive_good s h
  | otWarn w => exact doOtWarn_good w s h
  | thermtrip => exact doThermtrip_good s h
  | powerOnReset => exact powerOn_good s h
  | startUp b => exact doStartUp_good b s h
  | interruptDisable v => exact doInterruptDisable_good v s h
  | aerError e header => exact doAerError_good e header s h
  | seqTrigger model group _ => exact good_ite (doSeqTrigger_good model group s h) h

theorem step_good {s : State} (h : sound s = true) : NextGood true (step s) := by
  have hg : good true s = true := by simpa [good] using h
  unfold step
  split
  · exact tickOne_good s hg
  · exact exec_good _ _ ((good_iff true _).mpr ((good_iff true s).mp hg)) (fun _ => rfl)

/-- Settles O5: a sound state is one in which host memory, DRAM, the clock and the safety state are as they should be, and each command, and the tick,
keeps that. -/
theorem everyStepKeepsSound : Obligations.EveryStepKeepsSound := by
  unfold Obligations.EveryStepKeepsSound
  intro s t hs hstep
  have hg : NextGood true (step s) := step_good hs
  rw [hstep] at hg
  simpa [NextGood, good] using hg

end Sys2Proof.StepSound
end

section
/-! The tick (02 R34) and the trigger lines of the bands (02 R23). -/

namespace Sys2Proof.RasterTime

open Sys2Proof.Machine Sys2Proof.Laws

/-! ### What a trace event leaves alone -/

section Emit

variable (kind src ctx niche don band a0 a1 : Nat) (s : State)

@[simp] theorem emit_pending : (emit kind src ctx niche don band a0 a1 s).pending = s.pending :=
  kept_pending (emit_kept kind src ctx niche don band a0 a1 s)
@[simp] theorem emit_chip : (emit kind src ctx niche don band a0 a1 s).chip = s.chip :=
  kept_chip (emit_kept kind src ctx niche don band a0 a1 s)
@[simp] theorem emit_hostMem : (emit kind src ctx niche don band a0 a1 s).hostMem = s.hostMem := by
  obtain ⟨_, _, _, _, _, _, h⟩ := emit_shape kind src ctx niche don band a0 a1 s
  rw [h]
@[simp] theorem emit_journal : (emit kind src ctx niche don band a0 a1 s).journal = s.journal := by
  obtain ⟨_, _, _, _, _, _, h⟩ := emit_shape kind src ctx niche don band a0 a1 s
  rw [h]
@[simp] theorem emit_streams : (emit kind src ctx niche don band a0 a1 s).streams = s.streams :=
  kept_streams (emit_kept kind src ctx niche don band a0 a1 s)
@[simp] theorem emit_sessions : (emit kind src ctx niche don band a0 a1 s).sessions = s.sessions :=
  kept_sessions (emit_kept kind src ctx niche don band a0 a1 s)
@[simp] theorem emit_armatures : (emit kind src ctx niche don band a0 a1 s).armatures = s.armatures :=
  kept_armatures (emit_kept kind src ctx niche don band a0 a1 s)
@[simp] theorem emit_runs : (emit kind src ctx niche don band a0 a1 s).runs = s.runs :=
  kept_runs (emit_kept kind src ctx niche don band a0 a1 s)
@[simp] theorem emit_marks : (emit kind src ctx niche don band a0 a1 s).marks = s.marks :=
  kept_marks (emit_kept kind src ctx niche don band a0 a1 s)
@[simp] theorem emit_jobs : (emit kind src ctx niche don band a0 a1 s).jobs = s.jobs :=
  kept_jobs (emit_kept kind src ctx niche don band a0 a1 s)
@[simp] theorem emit_dram : (emit kind src ctx niche don band a0 a1 s).dram = s.dram :=
  kept_dram (emit_kept kind src ctx niche don band a0 a1 s)
@[simp] theorem emit_link : (emit kind src ctx niche don band a0 a1 s).link = s.link := by
  obtain ⟨_, _, _, _, _, _, h⟩ := emit_shape kind src ctx niche don band a0 a1 s
  rw [h]
@[simp] theorem emit_safety : (emit kind src ctx niche don band a0 a1 s).safety = s.safety :=
  kept_safety (emit_kept kind src ctx niche don band a0 a1 s)
@[simp] theorem emit_freeze : (emit kind src ctx niche don band a0 a1 s).obs.freeze = s.obs.freeze :=
  kept_freeze (emit_kept kind src ctx niche don band a0 a1 s)
@[simp] theorem emit_trigOut : (emit kind src ctx niche don band a0 a1 s).obs.trigOut = s.obs.trigOut :=
  kept_trigOut (emit_kept kind src ctx niche don band a0 a1 s)
@[simp] theorem emit_recov : (emit kind src ctx niche don band a0 a1 s).recov = s.recov :=
  kept_recov (emit_kept kind src ctx niche don band a0 a1 s)

end Emit

/-! ### The tick -/

/-- The next tick has begun, and no trigger is acted on yet. -/
def nextTick (s : State) : State := accrue 1 { s with obs := { s.obs with trigOut := false, tickTrig := 0 } }

/-- The counters freeze at the boundary that begins the tick, and TRIG_OUT is high (16 R362). -/
def freezeAtBoundary (s : State) : State :=
  { s with obs := { s.obs with freeze := some (snapshot s.now s), trigger := false, trigOut := true } }

/-- A tick in two stages: it begins, and a trigger of the tick before freezes the counters and is traced. -/
theorem tickOne_eq (s : State) : tickOne s =
    if s.obs.trigger then emit 0x0A 0x24 0xFFFF 0xFFFFFF 0 0xFFF s.obs.sources 0 (freezeAtBoundary (nextTick s)) else nextTick s := rfl

/-- Settles O2: by whether a freeze trigger fell in the tick before; the trace event of a freeze (`emit_chip` and its like) leaves the clock, the
freeze and everything the statement names alone. -/
theorem emptyQueueTicks : Obligations.EmptyQueueTicks := by
  unfold Obligations.EmptyQueueTicks
  intro s hempty
  refine ⟨tickOne s, by simp [step, hempty], ?_⟩
  rw [tickOne_eq]
  cases htrig : s.obs.trigger with
  | false => simp [nextTick, accrue, hempty, htrig]
  | true => simp [freezeAtBoundary, nextTick, accrue, snapshot, State.now, hempty]

/-! ### Trigger lines -/

/-- `cdiv a b` pieces of `b` cover `a`. -/
theorem le_cdiv_mul {a b : Nat} (hb : 0 < b) : a ≤ cdiv a b * b := by
  rw [cdiv, if_neg hb.ne']
  have := Nat.lt_div_mul_add hb (a := a + b - 1)
  omega

/-- The trigger line in both timings (02 R23): in frame mode the one band is the picture, and the cut-off gives its height (02 R33). -/
theorem trigLine_eq_min (c : StreamCfg) (halo h b : Nat) : trigLine c halo h b = min (bandTop c h b + bandHeight c h + halo) h := by
  unfold trigLine bandTop bandHeight
  split
  · exact (Nat.min_eq_right (by omega)).symm
  · rfl

/-- The last band reaches the bottom of the picture. -/
theorem le_last_band_bottom {c : StreamCfg} {h b : Nat} (hpos : 0 < bandHeight c h) (hlast : b + 1 = bandCount c h) :
    h ≤ bandTop c h b + bandHeight c h := by
  have hcover : h ≤ bandCount c h * bandHeight c h := le_cdiv_mul hpos
  rwa [← hlast, Nat.succ_mul] at hcover

/-- Settles O30: the last band's halo is cut off since the band itself reaches the bottom. -/
theorem triggerLine : Obligations.TriggerLine := by
  unfold Obligations.TriggerLine
  intro c halo h b _
  refine ⟨trigLine_eq_min c halo h b, fun hband => ?_, fun hpast => ?_, fun hpos hlast => ?_⟩
  · simp [bandTop, bandHeight, bandCount, hband]
  · rw [trigLine_eq_min]; omega
  · have := le_last_band_bottom hpos hlast
    rw [trigLine_eq_min]; omega

end Sys2Proof.RasterTime
end

section
/-! Dispatch of Niches (02 R30, 10 R243): the Niche run a unit chooses, and what its start changes. -/

namespace Sys2Proof.Dispatch

open Sys2Proof.Machine Sys2Proof.Laws Sys2Proof.RasterTime

/-! ### The run of lowest ORDER -/

/-- The better of the best run so far and the next: the next only where its ORDER is lower. -/
def lower (s : State) (best : Option Run) (r : Run) : Option Run :=
  match best with
  | none => some r
  | some b => if (runNiche s r).order < (runNiche s b).order then some r else best

theorem lowest_eq_foldl (s : State) (l : List Run) : lowest s l = l.foldl (lower s) none := rfl

theorem foldl_lower_spec (s : State) (l : List Run) (b : Run) : ∃ x, l.foldl (lower s) (some b) = some x ∧ x ∈ b :: l ∧
    ∀ r ∈ b :: l, (runNiche s x).order ≤ (runNiche s r).order := by
  induction l generalizing b with
  | nil => exact ⟨b, rfl, by simp, by simp⟩
  | cons r l ih =>
    by_cases hlt : (runNiche s r).order < (runNiche s b).order
    · obtain ⟨x, hx, hmem, hle⟩ := ih r
      refine ⟨x, by simpa [lower, hlt] using hx, List.mem_cons_of_mem b hmem, List.forall_mem_cons.mpr ⟨?_, hle⟩⟩
      exact (hle r List.mem_cons_self).trans hlt.le
    · obtain ⟨x, hx, hmem, hle⟩ := ih b
      obtain ⟨hb, hl⟩ := List.forall_mem_cons.mp hle
      refine ⟨x, by simpa [lower, hlt] using hx, ?_, List.forall_mem_cons.mpr ⟨hb, List.forall_mem_cons.mpr ⟨by omega, hl⟩⟩⟩
      exact (List.mem_cons.mp hmem).elim (fun h => h ▸ List.mem_cons_self) (fun h => List.mem_cons_of_mem _ (List.mem_cons_of_mem _ h))

theorem lowest_spec {s : State} {l : List Run} {x : Run} (h : lowest s l = some x) :
    x ∈ l ∧ ∀ r ∈ l, (runNiche s x).order ≤ (runNiche s r).order := by
  cases l with
  | nil => exact absurd h (by simp [lowest])
  | cons b l =>
    rw [lowest_eq_foldl] at h
    obtain ⟨y, hy, hspec⟩ := foldl_lower_spec s l b
    have hxy : some x = some y := h.symm.trans hy
    injection hxy with hxy
    exact hxy ▸ hspec

/-! ### The choice of a unit -/

theorem choices_ready {s : State} {u : UnitId} {r : Run} (h : r ∈ choices s u) : r ∈ s.runs ∧ r.st = .ready := by
  have hready : r ∈ readyFor s u := by
    unfold choices at h
    split at h
    · exact List.mem_of_mem_filter h
    · exact List.mem_of_mem_filter h
    · exact h
  simp only [readyFor, List.mem_filter, Bool.and_eq_true, decide_eq_true_eq] at hready
  obtain ⟨hrun, hst, -⟩ := hready
  exact ⟨hrun, hst⟩

/-- A contest group holds its first run and others the unit chooses among. -/
theorem contestGroup_subset {s : State} {l : List Run} {x r : Run} (hx : x ∈ l) (h : r ∈ contestGroup s l x) : r ∈ l := by
  unfold contestGroup at h
  split at h
  · exact List.mem_singleton.mp h ▸ hx
  · exact (List.mem_cons.mp h).elim (fun e => e ▸ hx) List.mem_of_mem_filter

/-- Runs of one stream do not contend (10 R243). -/
theorem contestGroup_of_one_party {s : State} {l : List Run} {x : Run} (h : ∀ r ∈ l, r.party = x.party) : contestGroup s l x = [x] := by
  unfold contestGroup
  split
  · rfl
  · rw [List.filter_eq_nil_iff.mpr (fun r hr => by simp [h r hr])]

/-- A unit takes a placed Proof cast set that is ready, else one of the contest group of the run of lowest ORDER. -/
theorem choose_cases {s : State} {u : UnitId} {w : Run} {g : List Run} (h : choose s u = some (w, g)) :
    (w ∈ choices s u ∧ w.cast.isSome = true) ∨ ∃ x, lowest s (choices s u) = some x ∧ g = contestGroup s (choices s u) x ∧ w ∈ g := by
  unfold choose at h
  dsimp only at h
  split at h
  next c hcast =>
    obtain ⟨rfl, -⟩ := Prod.mk.inj (Option.some.inj h)
    exact .inl ⟨List.mem_of_find?_eq_some hcast, by simpa using List.find?_some hcast⟩
  next =>
    split at h
    next => exact absurd h (by simp)
    next x hx =>
      split at h
      next v hv =>
        obtain ⟨rfl, rfl⟩ := Prod.mk.inj (Option.some.inj h)
        obtain ⟨hmem, -⟩ := lowest_spec hv
        refine .inr ⟨x, hx, rfl, ?_⟩
        split at hmem
        · exact hmem
        · exact List.mem_of_mem_filter hmem
      next => exact absurd h (by simp)

theorem choose_mem {s : State} {u : UnitId} {w : Run} {g : List Run} (h : choose s u = some (w, g)) : w ∈ choices s u := by
  obtain ⟨hw, -⟩ | ⟨x, hx, rfl, hw⟩ := choose_cases h
  · exact hw
  · exact contestGroup_subset (lowest_spec hx).1 hw

/-- Without a contest and without Proof cast sets the unit takes the run of lowest ORDER (02 R30). -/
theorem choose_lowest {s : State} {u : UnitId} {w : Run} {g : List Run} (h : choose s u = some (w, g))
    (hone : ∀ r ∈ choices s u, r.party = w.party ∧ r.cast = none) : ∀ r ∈ choices s u, (runNiche s w).order ≤ (runNiche s r).order := by
  obtain ⟨hw, hcast⟩ | ⟨x, hx, rfl, hw⟩ := choose_cases h
  · rw [(hone w hw).2] at hcast
    exact absurd hcast (by simp)
  · obtain ⟨hmem, hle⟩ := lowest_spec hx
    have hparty : ∀ r ∈ choices s u, r.party = x.party := fun r hr => (hone r hr).1.trans (hone x hmem).1.symm
    rw [contestGroup_of_one_party hparty, List.mem_singleton] at hw
    exact hw ▸ hle

/-! ### Marks of a contest (10 R243) -/

/-- Settling a contest changes marks and the trace, and INTA with it. -/
theorem settleMarks_frame (u : UnitId) (w : Run) (g : List Run) (s : State) :
    let t := settleMarks u w g s
    t.runs = s.runs ∧ t.armatures = s.armatures ∧ t.chip = s.chip ∧ t.dram = s.dram ∧ t.safety = s.safety ∧ t.hostMem = s.hostMem ∧ t.jobs = s.jobs := by
  unfold settleMarks
  split <;> simp

theorem settleMarks_of_no_contest {u : UnitId} {w : Run} {g : List Run} {s : State} (h : g.length < 2) : settleMarks u w g s = s := if_pos h

theorem settleMarks_marks_losers {u : UnitId} {w : Run} {g : List Run} {s : State} (h : 2 ≤ g.length) {r : Run} (hr : r ∈ g)
    (hlost : r.isRun w = false) : (u, r.niche) ∈ (settleMarks u w g s).marks := by
  rw [settleMarks, if_neg (by omega)]
  simp only [emit_marks]
  exact List.mem_append_right _ (List.mem_map.mpr ⟨r, by simp [hr, hlost], rfl⟩)

/-! ### The start of a run -/

/-- The Niche of a run depends on the Armatures alone. -/
theorem runNiche_congr {s t : State} (h : t.armatures = s.armatures) (r : Run) : runNiche t r = runNiche s r := by
  simp only [runNiche, nicheAt, schedOf, h]

theorem takeTrackCfg_shape (w : Run) (s : State) : ∃ x, takeTrackCfg w s = { s with streams := x } := by
  unfold takeTrackCfg
  dsimp only
  split
  · exact ⟨_, rfl⟩
  · split <;> exact ⟨_, rfl⟩

theorem takeF_shape (u : UnitId) (s : State) : ∃ c, takeF u s = { s with cores := c } := by
  unfold takeF
  split <;> exact ⟨_, rfl⟩

/-- The run as it stands from tick `now` on. -/
def Started (now : Nat) (r r' : Run) : Prop :=
  r'.st = .running ∧ r'.startAt = now ∧ r'.niche = r.niche ∧ r'.don = r.don ∧ r'.band = r.band

/-- A Niche whose footprint is in order starts: streams may take TRACK_CONFIG's values (08 R199), a core its f (02 R39), and the run is running. -/
theorem startRun_shape {u : UnitId} {w : Run} {s : State} (h : nicheFootprint (runNiche s w) = none) :
    ∃ x c, ∃ f : Run → Run, (∀ r, Started s.chip.tick r (f r)) ∧ startRun u w s = traceStart u w (runNiche s w).order
      { s with streams := x, cores := c, runs := s.runs.map (fun r => if r.isRun w then f r else r) } := by
  have htrack : ∃ x, (if (runNiche s w).station = 4 then takeTrackCfg w s else s) = { s with streams := x } := by
    split
    · exact takeTrackCfg_shape w s
    · exact ⟨_, rfl⟩
  obtain ⟨x, hx⟩ := htrack
  obtain ⟨c, hc⟩ := takeF_shape u { s with streams := x }
  unfold startRun
  simp only [h, hx, hc]
  refine ⟨x, c, _, fun r => ?_, rfl⟩
  split <;> exact ⟨rfl, rfl, rfl, rfl, rfl⟩

/-- Settles O37: the choice by `choose_cases`, the marks by the contest settled before the start, the runs by what the start maps over them. -/
theorem nicheDispatched : Obligations.NicheDispatched := by
  unfold Obligations.NicheDispatched
  intro u w g s hwork hchoose
  have hup : live s = true ∧ computeUp s = true := by simpa [takesWork] using hwork
  obtain ⟨hlive, hcomp⟩ := hup
  obtain ⟨hrun, hready⟩ := choices_ready (choose_mem hchoose)
  refine ⟨hrun, hready, choose_lowest hchoose, fun hstart hfoot => ?_, fun hwait => ?_⟩
  · obtain ⟨hruns, harms, hchip, hdram, hsafety, hhost, hjobs⟩ := settleMarks_frame u w g s
    obtain ⟨x, c, f, hf, ht⟩ := startRun_shape (u := u) (runNiche_congr harms w ▸ hfoot)
    refine ⟨startRun u w (settleMarks u w g s), ?_, ?_⟩
    · simp [exec, execNicheDispatch, doNicheDispatch, hlive, hcomp, hchoose, hstart]
    · simp only [ht, traceStart, emit_runs, emit_marks, emit_dram, emit_safety, emit_hostMem, emit_jobs, hruns, hdram, hsafety, hhost, hjobs, and_true]
      refine ⟨List.length_map _, fun k r hk => ⟨_, by rw [List.getElem?_map, hk]; rfl, fun hother => ?_, fun hthis => ?_⟩,
        fun hcontest r hr hlost => settleMarks_marks_losers hcontest hr hlost, fun hfew => by rw [settleMarks_of_no_contest hfew]⟩
      · simp [hother]
      · simpa [hthis, hchip, Started] using hf r
  · simp [exec, execNicheDispatch, doNicheDispatch, hlive, hcomp, hchoose, hwait]

end Sys2Proof.Dispatch
end

section
/-! Audio block triggers (04 R110): the frame over the other streams fails where a stream's outbox holds a record that names another slot. -/

namespace Sys2Proof.BlockTrigger

open Sys2Proof.Machine

/-- A running part whose slot 0 is an unbound audio stream with one whole block to fire, and a record of slot 1 in its outbox. -/
def strayBlock : State :=
  { State.reset with
    chip := { Chip.reset with phase := .ready }
    streams := [(0, { Stream.reset with isOpen := true, cfg := { Stream.reset.cfg with codec := 2 }, block := 1, outbox := [Recon.recordOfSlotOne] })] }

/-- The block of slot 0 fires: the stream runs, the part takes work, and no earlier block holds the trigger. -/
theorem strayBlock_due :
    streamRuns (strayBlock.stream 0) = true ∧ takesWork strayBlock = true ∧ (strayBlock.stream 0).cfg.codec = 2 ∧
    (strayBlock.stream 0).block ≠ (strayBlock.stream 0).firedBlocks ∧ parityFree strayBlock 0 (strayBlock.stream 0).firedBlocks 0 = true := by
  decide +kernel

/-- With the trigger the waiting record is placed (04 R118), and issuing it raises SEQ of the slot it names (04 R116): slot 1, not slot 0. -/
theorem strayBlock_raises_seq_of_slotOne :
    (strayBlock.stream 1).seq = 0 ∧ ((doAudioBlockTrigger 0 strayBlock).stream 1).seq = 1 := by
  decide +kernel

/-- Refutes O31: the clause of AUDIO_BLOCK_TRIGGER claims that no other stream changes, in every state. The trigger also places the stream's waiting records
whose turn has come, and a record raises SEQ of the slot it names (04 R116, R118). The statement has no premise that the records in a stream's outbox name that
stream, and in `strayBlock` the outbox of slot 0 holds one that names slot 1. -/
theorem not_triggersFire : ¬ Obligations.TriggersFire := by
  unfold Obligations.TriggersFire
  intro h
  obtain ⟨hruns, hwork, hcodec, hblock, hfree⟩ := strayBlock_due
  obtain ⟨-, haudio, -⟩ := h
  obtain ⟨hfires, -⟩ := haudio 0 strayBlock hruns hwork
  obtain ⟨t, hexec, -, -, hothers, -⟩ := hfires hcodec hblock hfree
  have ht : doAudioBlockTrigger 0 strayBlock = t := by
    injection hexec
  have hframe : t.stream 1 = strayBlock.stream 1 := hothers 1 (by decide)
  obtain ⟨hbefore, hafter⟩ := strayBlock_raises_seq_of_slotOne
  rw [ht, hframe, hbefore] at hafter
  exact absurd hafter (by decide)

end Sys2Proof.BlockTrigger
end

section
/-! Registers at reset and the host-ring registers (13 R305; 03 R48-R52). -/

namespace Sys2Proof.HostRings

open Sys2Proof.Machine Sys2Proof.Laws

/-! ### Reset values -/

theorem regQueue_reset (q off : Nat) : regQueue State.reset q off = 0 := by
  unfold regQueue
  split <;> rfl

theorem regOut_reset (o off : Nat) : regOut State.reset o off = if off = 0x18 then 0x1000 else 0 := by
  by_cases h : off = 0x18
  · subst h; rfl
  · rw [if_neg h]
    unfold regOut
    split
    case h_7 => exact absurd rfl h
    all_goals rfl

theorem regGlobal_reset (off : Nat) (h : off ≠ 0) : regGlobal State.reset off = 0 := by
  unfold regGlobal
  split
  case h_1 => exact absurd rfl h
  all_goals rfl

/-- Settles O3: the tables of the reset state are empty, so every slot, session and ring reads its own reset value, register by register. -/
theorem resetValues : Obligations.ResetValues := by
  unfold Obligations.ResetValues
  exact ⟨fun n => ⟨rfl, rfl, rfl, rfl⟩, regQueue_reset, regOut_reset, regGlobal_reset, rfl, rfl, rfl, rfl, rfl, rfl, rfl, rfl, rfl, rfl, rfl⟩

/-! ### Errors of the ring registers -/

theorem fld_low16 (v : Word) : fld v 15 0 = v.toNat % 2 ^ 16 := by simp [fld]

theorem setCause_journal (k : Nat) (s : State) : (setCause k s).journal = s.journal := by
  obtain ⟨r, a, d, h⟩ := setCause_shape k s
  rw [h]

theorem setCause_hq (k : Nat) (s : State) : (setCause k s).hq = s.hq := by
  obtain ⟨r, a, d, h⟩ := setCause_shape k s
  rw [h]

theorem setCause_queue (k q : Nat) (s : State) : (setCause k s).queue q = s.queue q := by
  simp only [State.queue, setCause_hq]

/-- The cause a hardware event sets is set (Table 13.7). -/
theorem setCause_cause {k : Nat} (hk : k < 32) (s : State) : (setCause k s).pcie.cause.getLsbD k = true := by
  obtain ⟨r, a, d, h⟩ := setCause_shape k s
  have hbit : (w32 (2 ^ k)).getLsbD k = true := by
    rw [w32, BitVec.getLsbD_ofNat, Nat.testBit_two_pow_self, decide_eq_true hk]
    rfl
  rw [h]
  simp only [BitVec.getLsbD_or, hbit, Bool.or_true]

theorem queueConfigErr_queue (q : Nat) (s : State) : (queueConfigErr q s).queue q = { s.queue q with configErr := true } := by
  unfold queueConfigErr
  dsimp only
  split
  · exact queue_setQueue _ _ _
  · rw [setCause_queue, queue_setQueue]

theorem queueConfigErr_journal (q : Nat) (s : State) : (queueConfigErr q s).journal = s.journal := by
  unfold queueConfigErr
  dsimp only
  split
  · rfl
  · exact setCause_journal _ _

theorem barAccess_open {s : State} (h : barOpen s = true) (body : State → State) : barAccess s body = body s := by
  rw [barAccess, if_pos h]

/-! ### Tail, head and enable -/

theorem cmdRingTail_taken {q w : Nat} {s : State} (hw : w < (s.queue q).cmdSize.toNat)
    (hahead : ((s.queue q).tail + (s.queue q).cmdSize.toNat - (s.queue q).head) % (s.queue q).cmdSize.toNat ≤
      (w + (s.queue q).cmdSize.toNat - (s.queue q).head) % (s.queue q).cmdSize.toNat) :
    cmdRingTail q w s = s.setQueue q { s.queue q with tail := w } := by
  simp [cmdRingTail, hw, hahead]

theorem cmdRingTail_ignored {q w : Nat} {s : State} (hbad : (s.queue q).cmdSize.toNat ≤ w ∨
      (w + (s.queue q).cmdSize.toNat - (s.queue q).head) % (s.queue q).cmdSize.toNat <
        ((s.queue q).tail + (s.queue q).cmdSize.toNat - (s.queue q).head) % (s.queue q).cmdSize.toNat) :
    (cmdRingTail q w s).queue q = { s.queue q with badTail := true } ∧
    ((s.queue q).badTail = false → (cmdRingTail q w s).pcie.cause.getLsbD 2 = true) ∧ (cmdRingTail q w s).journal = s.journal := by
  unfold cmdRingTail
  dsimp only
  rw [if_neg (by simp only [Bool.and_eq_true, decide_eq_true_eq]; omega)]
  cases hset : (s.queue q).badTail with
  | true => simp
  | false => exact ⟨by simp [setCause_queue], fun _ => setCause_cause (by decide) _, setCause_journal _ _⟩

theorem cplRingHead_taken {q w : Nat} {s : State} (hw : w < (s.queue q).cplSize.toNat)
    (hposted : (w + (s.queue q).cplSize.toNat - (s.queue q).cplHead) % (s.queue q).cplSize.toNat ≤
      ((s.queue q).cplIndex + (s.queue q).cplSize.toNat - (s.queue q).cplHead) % (s.queue q).cplSize.toNat) :
    cplRingHead q w s = s.setQueue q { s.queue q with cplHead := w } := by
  simp [cplRingHead, hw, hposted]

theorem cplRingHead_ignored {q w : Nat} {s : State} (hbad : (s.queue q).cplSize.toNat ≤ w ∨
      ((s.queue q).cplIndex + (s.queue q).cplSize.toNat - (s.queue q).cplHead) % (s.queue q).cplSize.toNat <
        (w + (s.queue q).cplSize.toNat - (s.queue q).cplHead) % (s.queue q).cplSize.toNat) :
    cplRingHead q w s = queueConfigErr q s := by
  unfold cplRingHead
  exact if_neg (by simp only [Bool.and_eq_true, decide_eq_true_eq]; omega)

/-- Settles O12: each register write is answered, and then by the two branches of its check. -/
theorem hostRingRegisters : Obligations.HostRingRegisters := by
  unfold Obligations.HostRingRegisters
  refine ⟨fun q v s hopen hq => ?_, fun q v s hopen hq => ?_, fun q s hopen hq => ?_⟩
  · have hexec : exec (.cmdRingTail q v) s = .next (cmdRingTail q (v.toNat % 2 ^ 16) s) := by
      simp only [exec, execCmdRingTail, barAccess_open hopen, if_pos hq, fld_low16]
    dsimp only
    rw [hexec]
    exact ⟨fun hw hahead => by rw [cmdRingTail_taken hw hahead], fun hbad => ⟨_, rfl, cmdRingTail_ignored hbad⟩⟩
  · have hexec : exec (.cplRingHead q v) s = .next (cplRingHead q (v.toNat % 2 ^ 16) s) := by
      simp only [exec, execCplRingHead, barAccess_open hopen, if_pos hq, fld_low16]
    dsimp only
    rw [hexec]
    refine ⟨fun hw hposted => by rw [cplRingHead_taken hw hposted], fun hbad => ⟨_, rfl, ?_⟩⟩
    rw [cplRingHead_ignored hbad]
    exact ⟨queueConfigErr_queue q s, queueConfigErr_journal q s⟩
  · have hset : exec (.ringEnSet q) s = .next (ringEnSet q s) := by
      simp only [exec, execRingEnSet, barAccess_open hopen, if_pos hq]
    have hclear : exec (.ringEnClear q) s = .next (ringEnClear q s) := by
      simp only [exec, execRingEnClear, barAccess_open hopen, if_pos hq]
    rw [hset, hclear]
    refine ⟨fun hready hoff hok => by simp [ringEnSet, hready, hoff, hok], fun hoff hbad => ⟨_, rfl, ?_⟩, rfl⟩
    have herr : ringEnSet q s = queueConfigErr q s := by simp [ringEnSet, hoff, hbad]
    rw [herr]
    exact ⟨queueConfigErr_queue q s, queueConfigErr_journal q s⟩

end Sys2Proof.HostRings
end

section
/-! NOP, FENCE, opcodes no port permits (03 R44, R58, R67), and packets of the maintenance port (03 R45, R65). -/

namespace Sys2Proof.PortCommands

open Sys2Proof.Machine Sys2Proof.Laws

/-! ### NOP and FENCE -/

theorem exec_nop {j : Nat} {e : JEntry} {s : State} (h : Runs s j 0x01 e) : exec (.nop j) s = .next (finish j stOk [] (beginCmd e s)) := by
  obtain ⟨he, hb, hc⟩ := h
  exact congrArg _ (runCmd_body he hb hc _)

theorem exec_fence_clear {j : Nat} {e : JEntry} {s : State} (h : Runs s j 0x02 e) (hclear : fenceClear s e (bit (e.param 0) 0) = true) :
    exec (.fence j) s = .next (finish j stOk [w32 e.waited] (beginCmd e s)) := by
  obtain ⟨he, hb, hc⟩ := h
  simp only [exec, execFence, doFence, he, if_pos hclear, runCmd_body he hb hc]

theorem exec_fence_waits {j : Nat} {e : JEntry} {s : State} (he : s.entry? j = some e) (hwait : fenceClear s e (bit (e.param 0) 0) = false) :
    exec (.fence j) s = .next s := by
  simp [exec, execFence, doFence, he, hwait]

/-! ### Opcodes no port permits -/

theorem opInfo_private {op : Nat} (h : 0xF0 ≤ op) : opInfo op = none := by
  unfold opInfo
  split
  case h_36 => rfl
  all_goals omega

theorem staticCheck_private {chip : Nat} {e : JEntry} (h : 0xF0 ≤ e.opcode) : staticCheck chip e = some stPortPrivilege := by
  simp [staticCheck, opInfo_private h, h]

theorem staticCheck_undefined {chip : Nat} {e : JEntry} (h : e.opcode < 0xF0) (hnone : opInfo e.opcode = none) :
    staticCheck chip e = some stBadOpcode := by
  simp [staticCheck, hnone, h]

theorem staticCheck_foreign_port {chip : Nat} {e : JEntry} {i : OpInfo} (hi : opInfo e.opcode = some i) (h : i.allows e.port = false) :
    staticCheck chip e = some stPortPrivilege := by
  simp [staticCheck, hi, h]

theorem exec_testOpcode_journal {j st : Nat} {e : JEntry} {s : State} (he : s.entry? j = some e) (hb : mayBegin s j e.opcode = true)
    (hforeign : foreignOpcode e = true) (hst : staticCheck s.link.chip e = some st) :
    exec (.testOpcode (.journal j)) s = .next (finish j st [] (beginCmd e s)) := by
  simp [exec, execTestOpcode, doForeign, withCmd, he, hb, hforeign, hst]

/-! ### The maintenance port -/

/-- Only DRAM_TRAIN_STEP and IMPRESSION_READ are permitted on the maintenance port (Table 3.5). -/
theorem opInfo_maint {op : Nat} {i : OpInfo} (h : opInfo op = some i) (ha : op ≠ 0xA0) (hr : op ≠ 0x93) : i.maint = false := by
  unfold opInfo at h
  split at h
  case h_34 => exact absurd rfl hr
  case h_35 => exact absurd rfl ha
  case h_36 => exact absurd h (by simp)
  all_goals cases h; rfl

/-- No place in the order of ports and queues is later than the maintenance port's: its packet is journalled in the tick it comes in. -/
theorem inOrder_last (s : State) : inOrder 5 s = { s with jlast := (s.now, 5) } := by
  have hlast : ¬ (5 : Fin 6) < s.jlast.2 := by omega
  simp [inOrder, hlast]

/-- The entry a maintenance packet runs as. -/
def maintEntry (pkt : List Word) (s : State) : JEntry :=
  { jpos := s.jpos + 1, port := .maintenance, queue := 0, asn := s.mntAsn + 1, pkt := pkt, data := [], tick := s.now,
    st := .running, cpls := [], posted := 0, waited := 0, origin := none, fwd := none, began := some s.now, client := 254,
    place := mirrorPlace s, during := s.recov.domainAt.isSome || domainRequested s }

theorem maintenance_full {pkt : List Word} {s : State} (h : Config.journalShared ≤ sharedUsed s) (body : JEntry → State → Nat × List Word × State) :
    maintenance pkt s body = s := if_pos h

/-- The part with position, ASN and tick of a maintenance packet taken. -/
def maintTaken (s : State) : State := { s with jpos := s.jpos + 1, jlast := (s.now, 5), mntAsn := s.mntAsn + 1 }

/-- A packet the maintenance port takes and rejects: position and ASN move on, its completion is shown, and the account counts it. -/
theorem maintenance_rejects {pkt : List Word} {s : State} {st : Nat} (hroom : sharedUsed s < Config.journalShared)
    {body : JEntry → State → Nat × List Word × State} (hbody : body (maintEntry pkt s) (maintTaken s) = (st, [], maintTaken s)) :
    maintenance pkt s body = account 254 (fun a => { a with commands := satAdd 32 a.commands 1 })
      { maintTaken s with
        mntCpl := some ((maintEntry pkt s).cpl s.link.chip st true (maintEntry pkt s).gen (maintEntry pkt s).ctx []) } := by
  unfold maintenance
  rw [if_neg (by omega), inOrder_last]
  change (let r := body (maintEntry pkt s) (maintTaken s)
    account 254 _ { r.2.2 with
      mntCpl := some ((maintEntry pkt s).cpl r.2.2.link.chip r.1 true (maintEntry pkt s).gen (maintEntry pkt s).ctx r.2.1) }) = _
  rw [hbody]
  rfl

/-- The status of a packet on the maintenance port that no row of its own executes (R44). -/
theorem staticCheck_maint {pkt : List Word} {s : State} (hop : fld (pkt.getD 0 0) 7 0 < 0xF0) (ha : fld (pkt.getD 0 0) 7 0 ≠ 0xA0)
    (hr : fld (pkt.getD 0 0) 7 0 ≠ 0x93) (chip : Nat) :
    staticCheck chip (maintEntry pkt s) = some (if (opInfo (fld (pkt.getD 0 0) 7 0)).isSome then stPortPrivilege else stBadOpcode) := by
  cases hi : opInfo (fld (pkt.getD 0 0) 7 0) with
  | none => exact staticCheck_undefined hop hi
  | some i => exact staticCheck_foreign_port (e := maintEntry pkt s) hi (opInfo_maint hi ha hr)

theorem exec_testOpcode_maint {pkt : List Word} {s : State} (hop : fld (pkt.getD 0 0) 7 0 < 0xF0) :
    exec (.testOpcode (.maintenance pkt)) s = .next (doMaintenanceForeign pkt s) := by
  simp only [exec, execTestOpcode, ge_iff_le, decide_eq_false (Nat.not_le.mpr hop), Bool.and_false, Bool.false_eq_true, if_false]

theorem exec_testOpcode_private {pkt : List Word} {s : State} (hup : maintenanceUp s = true) (hop : 0xF0 ≤ fld (pkt.getD 0 0) 7 0) :
    exec (.testOpcode (.maintenance pkt)) s = .refused .privateTestOpcode := by
  simp only [exec, execTestOpcode, hup, ge_iff_le, decide_eq_true hop, Bool.and_self, if_true]

theorem doMaintenanceForeign_full {pkt : List Word} {s : State} (h : Config.journalShared ≤ sharedUsed s) : doMaintenanceForeign pkt s = s := by
  unfold doMaintenanceForeign
  dsimp only
  rw [maintenance_full h, ite_self]

theorem doMaintenanceForeign_taken {pkt : List Word} {s : State} (hup : maintenanceUp s = true) (ha : fld (pkt.getD 0 0) 7 0 ≠ 0xA0)
    (hr : fld (pkt.getD 0 0) 7 0 ≠ 0x93) :
    doMaintenanceForeign pkt s = maintenance pkt s (fun e s => ((staticCheck s.link.chip e).getD stOk, [], s)) := by
  unfold doMaintenanceForeign
  dsimp only
  rw [hup, decide_eq_false ha, decide_eq_false hr]
  rfl

/-- Settles O17: NOP and FENCE run their bodies; a foreign packet completes with the status of its static check, from the journal or at once on the
maintenance port. -/
theorem nopFenceAndForeignOpcodes : Obligations.NopFenceAndForeignOpcodes := by
  unfold Obligations.NopFenceAndForeignOpcodes
  refine ⟨fun j e s => ⟨exec_nop, exec_fence_clear, exec_fence_waits⟩, fun j e s he hb => ⟨fun h => ?_, fun hop hnone => ?_⟩,
    fun pkt s hup => ⟨exec_testOpcode_private hup, fun hop hfull => ?_, fun hop ha hr hroom => ?_⟩⟩
  · obtain hop | ⟨i, hi, hallow⟩ := h
    · exact exec_testOpcode_journal he hb (by simp [foreignOpcode, opInfo_private hop]) (staticCheck_private hop)
    · exact exec_testOpcode_journal he hb (by simp [foreignOpcode, hi, hallow]) (staticCheck_foreign_port hi hallow)
  · exact exec_testOpcode_journal he hb (by simp [foreignOpcode, hnone]) (staticCheck_undefined hop hnone)
  · rw [exec_testOpcode_maint hop, doMaintenanceForeign_full hfull]
  · rw [exec_testOpcode_maint hop, doMaintenanceForeign_taken hup ha hr, maintenance_rejects hroom (by rw [staticCheck_maint hop ha hr, Option.getD_some])]
    exact ⟨_, _, rfl, rfl, rfl, rfl, rfl, rfl, rfl, rfl, rfl⟩

/-! ### While it is inactive -/

theorem maintenanceUp_off {s : State} (h : s.chip.testEn = false) : maintenanceUp s = false := by simp [maintenanceUp, h]

/-- Settles O19: each row of the port asks first whether the port is active. -/
theorem inactiveMaintenancePort : Obligations.InactiveMaintenancePort := by
  unfold Obligations.InactiveMaintenancePort
  intro pkt sw s hoff hstraps
  have hdown := maintenanceUp_off hoff
  refine ⟨?_, ?_, ?_⟩
  · simp [exec, execDramTrainStep, doDramTrainStep, hoff, hstraps, hdown]
  · simp [exec, execImpressionRead, doImpressionRead, hdown]
  · simp [exec, execTestOpcode, doMaintenanceForeign, hdown]

end Sys2Proof.PortCommands
end

section
/-! Completions on their way to the host (03 R51, R65, R66): what posting changes, entry by entry of the journal. -/

namespace Sys2Proof.Posting

open Sys2Proof.Machine Sys2Proof.Laws Sys2Proof.HostRings

/-! ### Packets change the link plane alone -/

theorem sendAt_shape (p k : Nat) (s : State) : ∃ l, sendAt p k s = { s with link := l } := by
  unfold sendAt
  dsimp only
  split
  · exact ⟨_, rfl⟩
  · split <;> exact ⟨_, rfl⟩

theorem drainPort_shape (n p : Nat) (s : State) : ∃ l, drainPort n p s = { s with link := l } := by
  induction n generalizing s with
  | zero => exact ⟨_, rfl⟩
  | succ n ih =>
    unfold drainPort
    split
    · exact ⟨_, rfl⟩
    · split
      · exact ⟨_, rfl⟩
      · next k _ =>
        obtain ⟨l, hl⟩ := sendAt_shape p k s
        obtain ⟨l', hl'⟩ := ih (sendAt p k s)
        exact ⟨l', by rw [hl', hl]⟩

theorem linkTx_shape (p : Nat) (i : Option (Nat × Nat)) (k : LinkPkt) (s : State) : ∃ l, linkTx p i k s = { s with link := l } := by
  obtain ⟨l, hl⟩ := drainPort_shape ((s.lport p).queue.length + 1) p (s.setLport p { s.lport p with queue := (s.lport p).queue ++ [(k, i)] })
  exact ⟨l, hl⟩

theorem sendSeq_shape (dest cls type ctx gen : Nat) (aux aux2 : Word) (data : List Word) (s : State) :
    ∃ l, sendSeq dest cls type ctx gen aux aux2 data s = { s with link := l } := by
  unfold sendSeq
  dsimp only
  split
  · exact ⟨_, rfl⟩
  · split
    · exact ⟨_, rfl⟩
    · next p t _ =>
      obtain ⟨l, hl⟩ := linkTx_shape p none _ { s with link := { s.link with pairs := _ } }
      exact ⟨l, hl⟩

/-! ### Bytes of host memory -/

theorem wordsBytes_length (ws : List Word) : (wordsBytes ws).length = 4 * ws.length := by
  induction ws with
  | nil => rfl
  | cons w ws ih =>
    have hcons : wordsBytes (w :: ws) = wordBytes w ++ wordsBytes ws := rfl
    rw [hcons, List.length_append, ih, List.length_cons]
    simp only [wordBytes, List.length_cons, List.length_nil]
    omega

/-- Bytes just written are read back as one list. -/
theorem mread_mwrite {m : Mem} (h : Memory.wf m = true) (a : Nat) (bs : List Byte) : mread (mwrite m a bs) a bs.length = bs := by
  refine List.ext_getElem (by simp [mread]) (fun i hi hi' => ?_)
  simp only [mread, List.getElem_map, List.getElem_range]
  exact mget_mwrite_inside h a bs i hi'

theorem cplWords_length (c : Cpl) (phase : Bool) : (wordsBytes (c.words phase)).length = 32 := by
  rw [wordsBytes_length]
  rfl

/-! ### One completion entry -/

/-- Where the next completion entry of a host queue lies (R51). -/
def cplAddr (h : HostQueue) : Nat := join64 h.cplBaseLo h.cplBaseHi + 32 * h.cplIndex

/-- The queue after one more entry (R51, Table 13.4). -/
def cplNext (h : HostQueue) (first : Bool) (asn : Word) : HostQueue :=
  let next := if h.cplIndex + 1 ≥ h.cplSize.toNat then 0 else h.cplIndex + 1
  { h with cplIndex := next, phase := if next = 0 then !h.phase else h.phase, cplLastAsn := if first then asn else h.cplLastAsn }

/-- Posting writes one entry, moves the position, and may set the cause. -/
theorem postHost_shape (q : Nat) (first irq : Bool) (c : Cpl) (s : State) : ∃ p, postHost q first irq c s =
    { s with hostMem := mwrite s.hostMem (cplAddr (s.queue q)) (wordsBytes (c.words (s.queue q).phase)),
             hq := tput s.hq q (cplNext (s.queue q) first c.asn), pcie := p } := by
  unfold postHost
  dsimp only
  split
  · obtain ⟨r, a, d, h⟩ := setCause_shape q ((hostWords (cplAddr (s.queue q)) (c.words (s.queue q).phase) s).setQueue q (cplNext (s.queue q) first c.asn))
    exact ⟨_, h⟩
  · exact ⟨_, rfl⟩

@[simp] theorem postHost_hostMem (q : Nat) (first irq : Bool) (c : Cpl) (s : State) : (postHost q first irq c s).hostMem =
    mwrite s.hostMem (cplAddr (s.queue q)) (wordsBytes (c.words (s.queue q).phase)) := by
  obtain ⟨p, h⟩ := postHost_shape q first irq c s
  rw [h]

@[simp] theorem postHost_hq (q : Nat) (first irq : Bool) (c : Cpl) (s : State) : (postHost q first irq c s).hq =
    tput s.hq q (cplNext (s.queue q) first c.asn) := by
  obtain ⟨p, h⟩ := postHost_shape q first irq c s
  rw [h]

@[simp] theorem postHost_queue (q : Nat) (first irq : Bool) (c : Cpl) (s : State) :
    (postHost q first irq c s).queue q = cplNext (s.queue q) first c.asn := by
  simp only [State.queue, postHost_hq, tget_tput_same]

theorem postHost_queue_other {q r : Nat} (h : r ≠ q) (first irq : Bool) (c : Cpl) (s : State) :
    (postHost q first irq c s).queue r = s.queue r := by
  simp only [State.queue, postHost_hq, tget_tput_other _ _ _ h]

/-- The entry reads back as the words of Table 3.6. -/
theorem postHost_entry {s : State} (hwf : Memory.wf s.hostMem = true) (q : Nat) (first irq : Bool) (c : Cpl) :
    mread (postHost q first irq c s).hostMem (cplAddr (s.queue q)) 32 = wordsBytes (c.words (s.queue q).phase) := by
  have hread := mread_mwrite hwf (cplAddr (s.queue q)) (wordsBytes (c.words (s.queue q).phase))
  rwa [cplWords_length, ← postHost_hostMem q first irq c s] at hread

theorem postHost_outside {q x : Nat} {s : State} (hx : x < cplAddr (s.queue q) ∨ cplAddr (s.queue q) + 32 ≤ x) (first irq : Bool) (c : Cpl) :
    mget (postHost q first irq c s).hostMem x = mget s.hostMem x := by
  rw [postHost_hostMem]
  exact mget_mwrite_outside _ _ (by rwa [cplWords_length])

@[simp] theorem postHost_link (q : Nat) (first irq : Bool) (c : Cpl) (s : State) : (postHost q first irq c s).link = s.link := by
  obtain ⟨p, h⟩ := postHost_shape q first irq c s
  rw [h]

theorem postHost_cause {q : Nat} (hq : q < 32) (first : Bool) {c : Cpl} (hc : c.final = true) (s : State) :
    (postHost q first true c s).pcie.cause.getLsbD q = true := by
  unfold postHost
  dsimp only
  rw [hc, Bool.and_self, if_pos rfl]
  exact setCause_cause hq _

/-! ### The pass over the journal, entry by entry (R66) -/

/-- The completions of an entry are posted; a command executed here is counted here. -/
def postEntry (q : Nat) (e : JEntry) (s : State) : State :=
  let s := postAll q e.irq e.posted e.cpls s
  if e.cpls.any (fun c => c.final && decide (c.chip ≠ s.link.chip)) then s
  else account e.client (fun a => { a with commands := satAdd 32 a.commands 1 }) s

/-- The part with another journal. -/
def withJournal (s : State) (l : List JEntry) : State := { s with journal := l }

theorem flushEntries_nil (q : Nat) (ok : Bool) (done : List JEntry) (s : State) : flushEntries q ok done [] s = withJournal s done := rfl

section Entries

variable {q : Nat} {ok : Bool} {done es : List JEntry} {e : JEntry} {s : State}

/-- An entry of another queue or port is passed over. -/
theorem flushEntries_other (h : ¬ (e.port = .host ∧ e.queue = q)) : flushEntries q ok done (e :: es) s = flushEntries q ok (done ++ [e]) es s := by
  rw [flushEntries, if_neg h]

/-- An entry without completions waits, and those behind it wait for its first. -/
theorem flushEntries_idle (h : e.port = .host ∧ e.queue = q) (hc : e.cpls = []) :
    flushEntries q ok done (e :: es) s = flushEntries q (ok && decide (e.posted > 0)) (done ++ [e]) es s := by
  rw [flushEntries, if_pos h, hc]
  rfl

/-- A first completion waits while an earlier entry has posted none. -/
theorem flushEntries_blocked (h : e.port = .host ∧ e.queue = q) (hc : e.cpls ≠ []) (hp : e.posted = 0) :
    flushEntries q false done (e :: es) s = flushEntries q false (done ++ [e]) es s := by
  rw [flushEntries, if_pos h]
  simp [hc, hp]

/-- An entry whose final completion is posted is freed (R65). -/
theorem flushEntries_final (h : e.port = .host ∧ e.queue = q) (hc : e.cpls ≠ []) (hok : (ok || decide (e.posted > 0)) = true)
    (hf : e.cpls.any (·.final) = true) : flushEntries q ok done (e :: es) s = flushEntries q ok done es (postEntry q e s) := by
  rw [flushEntries, if_pos h, if_neg (by simpa using hc), if_pos hok]
  dsimp only
  rw [if_pos hf]
  rfl

/-- An entry whose interim completions alone are posted stays. -/
theorem flushEntries_interim (h : e.port = .host ∧ e.queue = q) (hc : e.cpls ≠ []) (hok : (ok || decide (e.posted > 0)) = true)
    (hf : e.cpls.any (·.final) = false) : flushEntries q ok done (e :: es) s =
      flushEntries q ok (done ++ [{ e with cpls := [], posted := e.posted + e.cpls.length }]) es (postAll q e.irq e.posted e.cpls s) := by
  rw [flushEntries, if_pos h, if_neg (by simpa using hc), if_pos hok]
  dsimp only
  rw [if_neg (by simp [hf])]

/-- A pass over entries of other queues changes nothing. -/
theorem flushEntries_others (h : ∀ e ∈ es, e.queue ≠ q) : flushEntries q ok done es s = withJournal s (done ++ es) := by
  induction es generalizing done with
  | nil => rw [flushEntries_nil, List.append_nil]
  | cons e es ih =>
    obtain ⟨he, hes⟩ := List.forall_mem_cons.mp h
    rw [flushEntries_other (fun hq => he hq.2), ih hes, List.append_assoc, List.singleton_append]

theorem flush_down (h : s.pcie.d3 = true ∨ s.chip.fatal = true) : flush s = s := by
  unfold flush
  exact if_pos (by simpa using h)

theorem flush_up (hd : s.pcie.d3 = false) (hf : s.chip.fatal = false) :
    flush s = flushEntries 1 true [] (flushEntries 0 true [] s.journal s).journal (flushEntries 0 true [] s.journal s) := by
  unfold flush
  rw [if_neg (by simp [hd, hf])]

/-- With commands of one host queue alone, the pass over that queue is all. -/
theorem flush_of_queue (hd : s.pcie.d3 = false) (hf : s.chip.fatal = false) (hq : q < 2) (hs : ∀ e ∈ s.journal, e.queue = q)
    (ht : ∀ e ∈ (flushEntries q true [] s.journal s).journal, e.queue = q) : flush s = flushEntries q true [] s.journal s := by
  rw [flush_up hd hf]
  obtain rfl | rfl : q = 0 ∨ q = 1 := by omega
  · exact flushEntries_others (fun e he => by rw [ht e he]; decide)
  · have hpass : flushEntries 0 true [] s.journal s = s := flushEntries_others (fun e he => by rw [hs e he]; decide)
    rw [hpass]

theorem flush_withJournal {l : List JEntry} (hd : s.pcie.d3 = false) (hf : s.chip.fatal = false) (hq : q < 2) (hs : ∀ e ∈ l, e.queue = q)
    (ht : ∀ e ∈ (flushEntries q true [] l (withJournal s l)).journal, e.queue = q) :
    flush (withJournal s l) = flushEntries q true [] l (withJournal s l) := flush_of_queue (s := withJournal s l) hd hf hq hs ht

/-! ### Producing a completion -/

/-- The entry with one completion more. -/
def withCpl (c : Cpl) (e : JEntry) : JEntry := { e with cpls := e.cpls ++ [c], st := if c.final then .done else e.st }

theorem produce_host {j : Nat} (he : s.entry? j = some e) (hp : e.port = .host) (c : Cpl) :
    produce j c s = flush (modEntry j (withCpl c) s) := by
  unfold produce
  rw [he]
  dsimp only
  rw [hp]
  rfl

/-- The final completion of an entry, with CONTEXT and GEN as its packet names them (log 143). -/
def finalCpl (chip st : Nat) (r : List Word) (e : JEntry) : Cpl := e.cpl chip st true e.gen e.ctx r

theorem finish_entry {j : Nat} (he : s.entry? j = some e) (st : Nat) (r : List Word) :
    finish j st r s = produce j (finalCpl s.link.chip st r e) s := by
  unfold finish
  rw [he]
  rfl

/-- The entry with its final completion. -/
def ended (chip st : Nat) (r : List Word) (e : JEntry) : JEntry := withCpl (finalCpl chip st r e) e

/-- The final completion of a host command: its entry ends, and what may be posted is posted. -/
theorem finish_host {j : Nat} (he : s.entry? j = some e) (hp : e.port = .host) (st : Nat) (r : List Word) {l : List JEntry}
    (hl : s.journal.map (fun x => if x.jpos = j then withCpl (finalCpl s.link.chip st r e) x else x) = l) :
    finish j st r s = flush (withJournal s l) := by
  rw [finish_entry he, produce_host he hp, ← hl]
  rfl

/-! ### The only command of its queue -/

theorem cplNext_cplIndex (h : HostQueue) (first : Bool) (asn : Word) :
    (cplNext h first asn).cplIndex = if decide (h.cplSize.toNat ≤ h.cplIndex + 1) then 0 else h.cplIndex + 1 := by
  simp [cplNext]

theorem cplNext_phase (h : HostQueue) (first : Bool) (asn : Word) :
    (cplNext h first asn).phase = if decide (h.cplSize.toNat ≤ h.cplIndex + 1) then !h.phase else h.phase := by
  by_cases hw : h.cplSize.toNat ≤ h.cplIndex + 1 <;> simp [cplNext, hw]

theorem cplNext_cplLastAsn (h : HostQueue) (p : Prop) [Decidable p] (asn : Word) :
    (cplNext h (decide p) asn).cplLastAsn = if p then asn else h.cplLastAsn := by
  simp [cplNext]

/-- The part whose only command has its final completion, not posted yet. -/
def onlyEnded (e : JEntry) (st : Nat) (r : List Word) (s : State) : State := withJournal s [ended s.link.chip st r e]

/-- What is left when the only command has posted its final completion: one entry posted, one command counted, the journal empty. -/
theorem finish_alone (hj : s.journal = [e]) (hp : e.port = .host) (hq : e.queue < 2) (hc : e.cpls = []) (hd : s.pcie.d3 = false)
    (hf : s.chip.fatal = false) (st : Nat) (r : List Word) :
    finish e.jpos st r s = withJournal (account e.client (fun a => { a with commands := satAdd 32 a.commands 1 })
      (postHost e.queue (e.posted = 0) e.irq (finalCpl s.link.chip st r e) (onlyEnded e st r s))) [] := by
  have he : s.entry? e.jpos = some e := by simp [State.entry?, hj]
  have hcpls : (ended s.link.chip st r e).cpls = [finalCpl s.link.chip st r e] := by simp [ended, withCpl, hc]
  have hpass (t : State) : flushEntries e.queue true [] [ended s.link.chip st r e] t = withJournal (postEntry e.queue (ended s.link.chip st r e) t) [] := by
    rw [flushEntries_final (q := e.queue) (e := ended s.link.chip st r e) ⟨hp, rfl⟩ (by simp [hcpls]) rfl (by simp [hcpls, finalCpl, JEntry.cpl]),
      flushEntries_nil]
  rw [finish_host he hp st r (l := [ended s.link.chip st r e]) (by simp [hj, ended]),
    flush_withJournal hd hf hq (by simp [ended, withCpl]) (by simp [hpass, withJournal]), hpass]
  unfold postEntry
  rw [hcpls]
  simp only [postAll, List.any_cons, List.any_nil, Bool.or_false, postHost_link]
  rw [if_neg (by simp [finalCpl, JEntry.cpl, withJournal])]
  rfl

/-! ### Two commands of one queue (R66) -/

/-- The later command's completion waits for the first of the earlier one. -/
theorem finish_later_waits {a b : JEntry} (hj : s.journal = [a, b]) (ha : a.port = .host) (hb : b.port = .host) (hq : a.queue < 2)
    (hbq : b.queue = a.queue) (hlt : a.jpos < b.jpos) (hac : a.cpls = []) (hap : a.posted = 0) (hbp : b.posted = 0)
    (hd : s.pcie.d3 = false) (hf : s.chip.fatal = false) (st : Nat) (r : List Word) :
    finish b.jpos st r s = withJournal s [a, ended s.link.chip st r b] := by
  have hne : a.jpos ≠ b.jpos := hlt.ne
  have he : s.entry? b.jpos = some b := by simp [State.entry?, hj, hne]
  have hpass (t : State) : flushEntries a.queue true [] [a, ended s.link.chip st r b] t = withJournal t [a, ended s.link.chip st r b] := by
    rw [flushEntries_idle ⟨ha, rfl⟩ hac, hap]
    exact flushEntries_blocked (q := a.queue) (e := ended s.link.chip st r b) ⟨hb, hbq⟩ (by simp [ended, withCpl]) hbp
  have hqueues : ∀ x ∈ [a, ended s.link.chip st r b], x.queue = a.queue := by simp [ended, withCpl, hbq]
  rw [finish_host he hb st r (l := [a, ended s.link.chip st r b]) (by simp [hj, hne, ended]),
    flush_withJournal hd hf hq hqueues (by rw [hpass]; exact hqueues), hpass]
  rfl

/-- With the earlier command's completion both leave, in order. -/
theorem finish_earlier_releases {a b : JEntry} (hj : s.journal = [a, b]) (ha : a.port = .host) (hb : b.port = .host) (hq : a.queue < 2)
    (hbq : b.queue = a.queue) (hlt : a.jpos < b.jpos) (hbc : b.cpls ≠ []) (hbf : b.cpls.any (·.final) = true)
    (hd : s.pcie.d3 = false) (hf : s.chip.fatal = false) (st : Nat) (r : List Word) : (finish a.jpos st r s).journal = [] := by
  have hne : b.jpos ≠ a.jpos := hlt.ne'
  have he : s.entry? a.jpos = some a := by simp [State.entry?, hj]
  have hpass (t : State) : (flushEntries a.queue true [] [ended s.link.chip st r a, b] t).journal = [] := by
    rw [flushEntries_final (q := a.queue) (e := ended s.link.chip st r a) ⟨ha, rfl⟩ (by simp [ended, withCpl]) rfl
      (by simp [ended, withCpl, finalCpl, JEntry.cpl]),
      flushEntries_final ⟨hb, hbq⟩ hbc rfl hbf, flushEntries_nil]
    rfl
  rw [finish_host he ha st r (l := [ended s.link.chip st r a, b]) (by simp [hj, hne, ended]),
    flush_withJournal (q := a.queue) hd hf hq (by simp [ended, withCpl, hbq]) (by simp [hpass]), hpass]

/-! ### Inside the rings (R51) -/

/-- The completion rings lie where they lay, the next entries lie in them, and memory outside them is as it was. -/
structure InRings (s t : State) : Prop where
  base : ∀ q, join64 (t.queue q).cplBaseLo (t.queue q).cplBaseHi = join64 (s.queue q).cplBaseLo (s.queue q).cplBaseHi
  size : ∀ q, (t.queue q).cplSize = (s.queue q).cplSize
  index : ∀ q < 2, cplIndexOk t q
  outside : ∀ a, ¬ inCplRing s 0 a → ¬ inCplRing s 1 a → mget t.hostMem a = mget s.hostMem a

/-- The host queues and host memory alone decide it. -/
theorem InRings.of_eq {t u : State} (h : InRings s t) (hq : u.hq = t.hq) (hm : u.hostMem = t.hostMem) : InRings s u := by
  have hqueue (q : Nat) : u.queue q = t.queue q := by simp only [State.queue, hq]
  obtain ⟨hbase, hsize, hindex, hout⟩ := h
  exact ⟨by simpa only [hqueue] using hbase, by simpa only [hqueue] using hsize, by simpa only [cplIndexOk, hqueue] using hindex,
    by simpa only [hm] using hout⟩

theorem InRings.refl (h0 : cplIndexOk s 0) (h1 : cplIndexOk s 1) : InRings s s :=
  ⟨fun _ => rfl, fun _ => rfl, fun q hq => by
    obtain rfl | rfl : q = 0 ∨ q = 1 := by omega
    · exact h0
    · exact h1, fun _ _ _ => rfl⟩

/-- The next entry of a ring lies in the ring, so what lies outside both rings is not written. -/
theorem InRings.entry_inside {t : State} (h : InRings s t) (hq : q < 2) {x : Nat} (hx : cplAddr (t.queue q) ≤ x)
    (hx' : x < cplAddr (t.queue q) + 32) : inCplRing s q x := by
  have hindex : (t.queue q).cplIndex < max 1 (s.queue q).cplSize.toNat := h.size q ▸ h.index q hq
  rw [cplAddr, h.base q] at hx hx'
  exact ⟨by omega, by omega⟩

theorem cplNext_indexOk (h : HostQueue) (first : Bool) (asn : Word) : (cplNext h first asn).cplIndex < max 1 h.cplSize.toNat := by
  rw [cplNext_cplIndex]
  split
  · omega
  · next hlt => simp only [decide_eq_true_eq] at hlt; omega

theorem InRings.postHost {t : State} (h : InRings s t) (hq : q < 2) (first irq : Bool) (c : Cpl) : InRings s (postHost q first irq c t) := by
  refine ⟨fun r => ?_, fun r => ?_, fun r hr => ?_, fun a h0 h1 => ?_⟩
  · by_cases hrq : r = q
    · subst hrq; rw [postHost_queue]; exact h.base r
    · rw [postHost_queue_other hrq]; exact h.base r
  · by_cases hrq : r = q
    · subst hrq; rw [postHost_queue]; exact h.size r
    · rw [postHost_queue_other hrq]; exact h.size r
  · by_cases hrq : r = q
    · subst hrq; rw [cplIndexOk, postHost_queue]; exact cplNext_indexOk _ _ _
    · rw [cplIndexOk, postHost_queue_other hrq]; exact h.index r hr
  · have houtside : ¬ inCplRing s q a := by
      obtain rfl | rfl : q = 0 ∨ q = 1 := by omega
      · exact h0
      · exact h1
    have hbeyond : a < cplAddr (t.queue q) ∨ cplAddr (t.queue q) + 32 ≤ a := by
      by_contra hin
      exact houtside (h.entry_inside hq (by omega) (by omega))
    rw [postHost_outside hbeyond, h.outside a h0 h1]

theorem InRings.postAll {t : State} (h : InRings s t) (hq : q < 2) (irq : Bool) (k : Nat) (cs : List Cpl) : InRings s (postAll q irq k cs t) := by
  induction cs generalizing k t with
  | nil => exact h
  | cons c cs ih => exact ih (h.postHost hq _ _ c) (k + 1)

theorem InRings.postEntry {t : State} (h : InRings s t) (hq : q < 2) (e : JEntry) : InRings s (postEntry q e t) := by
  unfold Posting.postEntry
  dsimp only
  split
  · exact h.postAll hq _ _ _
  · exact (h.postAll hq _ _ _).of_eq rfl rfl

/-- What a pass can do with its first entry: keep it as it stands or with its interim completions posted, or post it and free it. -/
theorem flushEntries_cons (q : Nat) (ok : Bool) (done es : List JEntry) (e : JEntry) (s : State) :
    (∃ ok', flushEntries q ok done (e :: es) s = flushEntries q ok' (done ++ [e]) es s) ∨
    flushEntries q ok done (e :: es) s = flushEntries q ok done es (postEntry q e s) ∨
    flushEntries q ok done (e :: es) s = flushEntries q ok (done ++ [{ e with cpls := [], posted := e.posted + e.cpls.length }]) es
      (postAll q e.irq e.posted e.cpls s) := by
  by_cases h : e.port = .host ∧ e.queue = q
  · by_cases hc : e.cpls = []
    · exact .inl ⟨_, flushEntries_idle h hc⟩
    · cases hok : ok || decide (e.posted > 0) with
      | true =>
        cases hf : e.cpls.any (·.final) with
        | true => exact .inr (.inl (flushEntries_final h hc hok hf))
        | false => exact .inr (.inr (flushEntries_interim h hc hok hf))
      | false =>
        obtain ⟨rfl, hp⟩ : ok = false ∧ e.posted = 0 := by simpa using hok
        exact .inl ⟨_, flushEntries_blocked h hc hp⟩
  · exact .inl ⟨_, flushEntries_other h⟩

theorem InRings.flushEntries {t : State} (h : InRings s t) (hq : q < 2) (ok : Bool) (done es : List JEntry) :
    InRings s (flushEntries q ok done es t) := by
  induction es generalizing ok done t with
  | nil => exact h.of_eq rfl rfl
  | cons e es ih =>
    obtain ⟨ok', he⟩ | he | he := flushEntries_cons q ok done es e t
    · rw [he]; exact ih h _ _
    · rw [he]; exact ih (h.postEntry hq e) _ _
    · rw [he]; exact ih (h.postAll hq _ _ _) _ _

theorem InRings.flush {t : State} (h : InRings s t) : InRings s (flush t) := by
  unfold Machine.flush
  split
  · exact h
  · exact (h.flushEntries (by decide) _ _ _).flushEntries (by decide) _ _ _

/-! ### Positions of the journal -/

/-- Every entry of the list keeps a position of the other. -/
def Positions (l m : List JEntry) : Prop := ∀ x ∈ l, ∃ y ∈ m, x.jpos = y.jpos

theorem Positions.refl (l : List JEntry) : Positions l l := fun x hx => ⟨x, hx, rfl⟩

theorem Positions.trans {l m n : List JEntry} (h : Positions l m) (h' : Positions m n) : Positions l n := by
  intro x hx
  obtain ⟨y, hy, hxy⟩ := h x hx
  obtain ⟨z, hz, hyz⟩ := h' y hy
  exact ⟨z, hz, hxy.trans hyz⟩

theorem Positions.of_subset {l m : List JEntry} (h : l ⊆ m) : Positions l m := fun x hx => ⟨x, h hx, rfl⟩

theorem Positions.map {l : List JEntry} {f : JEntry → JEntry} (h : ∀ x, (f x).jpos = x.jpos) : Positions (l.map f) l := by
  intro x hx
  obtain ⟨y, hy, rfl⟩ := List.mem_map.mp hx
  exact ⟨y, hy, h y⟩

theorem flushEntries_positions (q : Nat) (ok : Bool) (done es : List JEntry) (s : State) :
    Positions (flushEntries q ok done es s).journal (done ++ es) := by
  induction es generalizing ok done s with
  | nil => rw [List.append_nil]; exact .refl done
  | cons e es ih =>
    obtain ⟨ok', he⟩ | he | he := flushEntries_cons q ok done es e s
    · rw [he]
      exact (ih _ _ _).trans (.of_subset (by simp))
    · rw [he]
      exact (ih _ _ _).trans (.of_subset (by intro x; simp; tauto))
    · rw [he]
      refine (ih _ _ _).trans (fun x hx => ?_)
      simp only [List.append_assoc, List.singleton_append, List.mem_append, List.mem_cons] at hx
      obtain hx | rfl | hx := hx
      · exact ⟨x, by simp [hx], rfl⟩
      · exact ⟨e, by simp, rfl⟩
      · exact ⟨x, by simp [hx], rfl⟩

theorem flush_positions (s : State) : Positions (flush s).journal s.journal := by
  unfold flush
  split
  · exact .refl _
  · exact (flushEntries_positions _ _ _ _ _).trans (flushEntries_positions 0 true [] s.journal s)

/-! ### Every completion -/

theorem modEntry_positions {f : JEntry → JEntry} (hf : ∀ x, (f x).jpos = x.jpos) (j : Nat) (s : State) :
    Positions (modEntry j f s).journal s.journal :=
  .map (fun x => by split <;> simp [hf])

/-- A completion, wherever its command came from, moves positions only inside the rings and adds no entry to the journal. -/
theorem produce_frame (h0 : cplIndexOk s 0) (h1 : cplIndexOk s 1) (j : Nat) (c : Cpl) :
    InRings s (produce j c s) ∧ Positions (produce j c s).journal s.journal := by
  have hsame {t : State} (hq : t.hq = s.hq) (hm : t.hostMem = s.hostMem) : InRings s t := (InRings.refl h0 h1).of_eq hq hm
  have hmod : Positions (modEntry j (withCpl c) s).journal s.journal := modEntry_positions (f := withCpl c) (fun _ => rfl) j s
  have hfreed : Positions ((modEntry j (withCpl c) s).journal.filter (fun x => decide (x.jpos ≠ j))) s.journal :=
    (Positions.of_subset fun _ => List.mem_of_mem_filter).trans hmod
  unfold produce
  split
  · exact ⟨hsame rfl rfl, .refl _⟩
  · dsimp only
    split
    · exact ⟨(hsame (t := modEntry j (withCpl c) s) rfl rfl).flush, (flush_positions _).trans hmod⟩
    · exact ⟨hsame rfl rfl, hmod⟩
    · exact ⟨hsame rfl rfl, hfreed⟩
    · split
      · exact ⟨hsame rfl rfl, hfreed⟩
      · next chip oj _ =>
        unfold sendCpl
        obtain ⟨l, hl⟩ := sendSeq_shape chip _ 0x04 (cplContext c).1 (cplContext c).2 (w32 oj) 0 (c.words false) _
        rw [hl]
        exact ⟨hsame rfl rfl, hfreed⟩

theorem finish_frame (h0 : cplIndexOk s 0) (h1 : cplIndexOk s 1) (j st : Nat) (r : List Word) :
    InRings s (finish j st r s) ∧ Positions (finish j st r s).journal s.journal := by
  unfold finish
  split
  · exact ⟨.refl h0 h1, .refl _⟩
  · exact produce_frame h0 h1 _ _

end Entries

/-- Settles O18: alone on its queue by `finish_alone`, two of a queue by the order of the pass (`finish_later_waits`, `finish_earlier_releases`), any other
completion by its frame (`kept`, `InRings`, `Positions`). -/
theorem completionsPosted : Obligations.CompletionsPosted := by
  unfold Obligations.CompletionsPosted
  refine ⟨fun e st r s hj hp hq hc hd hf hwf => ?_, fun a b st st' r r' s hj ha hb hq hbq hlt hac hbc hap hbp hd hf => ?_,
    fun e s => ⟨rfl, rfl, rfl, rfl⟩, fun j st r s h0 h1 => ?_⟩
  · have ht := finish_alone hj hp hq hc hd hf st r
    dsimp only
    refine ⟨by rw [ht]; rfl, finish_kept _ _ _ _, ?_⟩
    rw [ht]
    have hentry := postHost_entry (s := onlyEnded e st r s) hwf e.queue (e.posted = 0) e.irq (finalCpl s.link.chip st r e)
    have hqueue := postHost_queue e.queue (e.posted = 0) e.irq (finalCpl s.link.chip st r e) (onlyEnded e st r s)
    refine ⟨hentry, fun x hx => ?_, ?_, ?_, ?_, fun hirq => ?_⟩
    · exact postHost_outside (q := e.queue) (s := onlyEnded e st r s) hx (e.posted = 0) e.irq (finalCpl s.link.chip st r e)
    · exact (congrArg (·.cplIndex) hqueue).trans (cplNext_cplIndex _ _ _)
    · exact (congrArg (·.phase) hqueue).trans (cplNext_phase _ _ _)
    · exact (congrArg (·.cplLastAsn) hqueue).trans (cplNext_cplLastAsn _ _ _)
    · rw [hirq]
      exact postHost_cause (by omega) _ rfl _
  · have ht := finish_later_waits hj ha hb hq hbq hlt hac hap hbp hd hf st r
    have hended : ended s.link.chip st r b = { b with cpls := [b.cpl s.link.chip st true b.gen b.ctx r], st := .done } := by
      simp [ended, withCpl, hbc, finalCpl, JEntry.cpl]
    dsimp only
    rw [ht]
    exact ⟨rfl, rfl, congrArg (fun x => [a, x]) hended,
      finish_earlier_releases (s := withJournal s [a, ended s.link.chip st r b]) (b := ended s.link.chip st r b) rfl ha hb hq hbq hlt
        (by simp [ended, withCpl]) (by simp [ended, withCpl, finalCpl, JEntry.cpl]) hd hf st' r'⟩
  · obtain ⟨hrings, hpos⟩ := finish_frame h0 h1 j st r
    exact ⟨finish_kept _ _ _ _, hrings.index 0 (by decide), hrings.index 1 (by decide), hrings.outside, hpos⟩

end Sys2Proof.Posting
end

section
/-! COMMAND_ACCEPT (03 R49, R50, R61, R62, R68): one packet of a host queue. -/

namespace Sys2Proof.Accepting

open Sys2Proof.Machine Sys2Proof.Laws Sys2Proof.RasterTime

/-! ### The tick between two packets of one order (R68, log 110) -/

theorem tickOne_frame (s : State) : (tickOne s).journal = s.journal ∧ (tickOne s).hq = s.hq ∧ (tickOne s).pcie.d3 = s.pcie.d3 ∧
    (tickOne s).chip = { s.chip with tick := (s.chip.tick + 1) % 2 ^ 64 } ∧ (tickOne s).jlast = s.jlast := by
  rw [tickOne_eq]
  cases s.obs.trigger with
  | false => exact ⟨rfl, rfl, rfl, rfl, rfl⟩
  | true =>
    rw [if_pos rfl]
    obtain ⟨_, _, _, _, _, _, h⟩ := emit_shape 0x0A 0x24 0xFFFF 0xFFFFFF 0 0xFFF s.obs.sources 0 (freezeAtBoundary (nextTick s))
    rw [h]
    exact ⟨rfl, rfl, rfl, rfl, rfl⟩

theorem canAccept_tick (q : Nat) (words : List Word) (s : State) : canAccept (tickOne s) q words = canAccept s q words := by
  obtain ⟨hj, hq, hd, hc, -⟩ := tickOne_frame s
  simp only [canAccept, live, cplLoad, sharedUsed, State.queue, hj, hq, hd, hc]
  rfl

theorem tick_ne (t : Nat) : t ≠ (t + 1) % 2 ^ 64 := by omega

theorem inOrder_ready {place : Fin 6} {s : State} (h : ¬ (s.jlast.1 = s.chip.tick ∧ place < s.jlast.2)) :
    inOrder place s = { s with jlast := (s.chip.tick, place) } := by
  rw [inOrder, if_neg (by rw [Bool.and_eq_true, decide_eq_true_iff, decide_eq_true_iff]; exact h)]
  rfl

/-- A packet behind a later place is journalled in the next tick. -/
theorem inOrder_behind {place : Fin 6} {s : State} (h : s.jlast.1 = s.chip.tick ∧ place < s.jlast.2) :
    inOrder place s = inOrder place (advance 1 s) := by
  obtain ⟨-, -, -, hc, hl⟩ := tickOne_frame s
  have hnext : ¬ ((advance 1 s).jlast.1 = (advance 1 s).chip.tick ∧ place < (advance 1 s).jlast.2) := by
    change ¬ ((tickOne s).jlast.1 = (tickOne s).chip.tick ∧ _)
    rw [hl, hc, h.1]
    exact fun hlast => tick_ne _ hlast.1
  rw [inOrder_ready hnext, inOrder, if_pos (by rw [Bool.and_eq_true, decide_eq_true_iff, decide_eq_true_iff]; exact h)]
  rfl

/-! ### One packet -/

/-- Place of a host queue in the order of ports and queues (R68). -/
def hostPlace (q : Nat) : Fin 6 := if q = 0 then 1 else 2

/-- A packet whose turn has come is journalled, the head written back over it, and its checks taken. -/
def takePacket (q : Nat) (r : SlotRead) (s : State) : State :=
  let e := newEntry s .host q ((s.queue q).asn + 1) r.words r.data (fld (r.words.getD 0 0) 23 16) none
  journalAct (earlyCheck s e) e (headWriteBack q (1 + fld (r.words.getD 0 0) 25 24) ((s.queue q).asn + 1) true (journalWrite e s))

/-- The part with the packet journalled as waiting and the head written back over it. -/
def packetTaken (q : Nat) (r : SlotRead) (s : State) : State :=
  headWriteBack q (1 + fld (r.words.getD 0 0) 25 24) ((s.queue q).asn + 1) true
    (journalWrite (newEntry s .host q ((s.queue q).asn + 1) r.words r.data (fld (r.words.getD 0 0) 23 16) none)
      { s with jlast := (s.chip.tick, hostPlace q) })

theorem packetTaken_queue (q : Nat) (r : SlotRead) (s : State) : (packetTaken q r s).queue q =
    { s.queue q with head := ((s.queue q).head + (1 + fld (r.words.getD 0 0) 25 24)) % (s.queue q).cmdSize.toNat, asn := (s.queue q).asn + 1,
                     cmdLastAsn := (s.queue q).asn + 1, failRun := 0 } := tget_tput_same _ _ _ _

/-- COMMAND_ACCEPT with one packet read, of queue 0 or 1. -/
def acceptOne (q : Nat) (r : SlotRead) : Instr := if q = 0 then .commandAccept [r] [] else .commandAccept [] [r]

theorem exec_acceptOne {q : Nat} {r : SlotRead} {s : State} (hq : q < 2) (h : canAccept s q r.words = true) :
    exec (acceptOne q r) s = .next (takePacket q r (inOrder (hostPlace q) s)) := by
  obtain rfl | rfl : q = 0 ∨ q = 1 := by omega
  · change Host.Outcome.next (acceptAll 1 [] (acceptAll 0 [r] s)) = _
    rw [acceptAll, acceptAll, if_pos h]
    rfl
  · change Host.Outcome.next (acceptAll 1 [r] (acceptAll 0 [] s)) = _
    rw [acceptAll, acceptAll, if_pos h]
    rfl

theorem acceptAll_refused {q : Nat} {r : SlotRead} (l : List SlotRead) {s : State} (h : canAccept s q r.words = false) :
    acceptAll q (r :: l) s = s := by
  rw [acceptAll, if_neg (by simp [h])]

theorem acceptAll_nil (q : Nat) (s : State) : acceptAll q [] s = s := rfl

/-- Settles O20: a packet whose turn has come is taken as it stands, one behind a later place as it stands a tick later (`inOrder_behind`). -/
theorem packetAccepted : Obligations.PacketAccepted := by
  unfold Obligations.PacketAccepted
  refine ⟨fun q r s hq hacc => ⟨fun hturn hearly => ?_, fun hbehind => ?_⟩, fun r0 r1 l0 l1 s h0 h1 => ?_⟩
  · have hexec := exec_acceptOne hq hacc
    rw [inOrder_ready (place := hostPlace q) hturn] at hexec
    have hproceed : takePacket q r { s with jlast := (s.chip.tick, hostPlace q) } = packetTaken q r s := congrArg (journalAct · _ _) hearly
    rw [hproceed] at hexec
    refine ⟨_, hexec, rfl, rfl, rfl, queue_setQueue_other _ _ (by omega), ?_, ?_⟩
    · rw [packetTaken_queue, Nat.add_assoc]
    · rw [Nat.add_assoc]; rfl
  · change exec (acceptOne q r) s = exec (acceptOne q r) (advance 1 s)
    rw [exec_acceptOne hq hacc, exec_acceptOne (s := advance 1 s) hq ((canAccept_tick q r.words s).trans hacc), inOrder_behind (place := hostPlace q) hbehind]
  · simp only [exec, execCommandAccept, doCommandAccept, acceptAll_refused _ h0, acceptAll_refused _ h1, acceptAll_nil, and_self]

end Sys2Proof.Accepting
end

section
/-! TRACK_CONFIG and TRACK_QUERY on an audio stream (08 R199, R216; 03 R57): BAD_CONTEXT comes before the generation check. -/

namespace Sys2Proof.StreamChecks

open Sys2Proof.Machine

/-- A TRACK_CONFIG for slot 0 that names generation 5. -/
def staleTrackConfig : JEntry :=
  { jpos := 1, port := .host, queue := 0, asn := 1, pkt := [0x40, 0, 0x00050000, 0] ++ List.replicate 12 0, data := [], tick := 0, st := .waiting,
    cpls := [], posted := 0, waited := 0, origin := none, fwd := none, began := none, client := 0, place := 0, during := false }

/-- A running part with an audio stream of generation 1 open in slot 0, and the TRACK_CONFIG accepted. -/
def audioOpen : State :=
  { State.reset with
    chip := { Chip.reset with phase := .ready }
    hq := [(0, { HostQueue.reset with cmdSize := 64, cplSize := 128, ringEn := true })]
    journal := [staleTrackConfig], jpos := 1
    streams := [(0, { Stream.reset with isOpen := true, cfg := { Stream.reset.cfg with codec := 2 } })] }

theorem audioOpen_runs : Runs audioOpen 1 0x40 staleTrackConfig := ⟨by decide +kernel, by decide +kernel, by decide +kernel⟩

theorem audioOpen_otherGeneration :
    staleTrackConfig.ctx < 128 ∧ (audioOpen.stream staleTrackConfig.ctx).isOpen = true ∧ (audioOpen.stream staleTrackConfig.ctx).closing = none ∧
    staleTrackConfig.gen ≠ (audioOpen.stream staleTrackConfig.ctx).gen := by
  decide +kernel

/-- Status in the completion entry at the front of host queue 0's ring. -/
def postedStatus (s : State) : Nat := fld (mreadW s.hostMem 0) 15 0

/-- The command completes with BAD_CONTEXT, where STALE_GENERATION would be another entry in the ring. -/
theorem audioOpen_answers :
    postedStatus (doTrackConfig 1 audioOpen) = stBadContext ∧
    postedStatus (finish 1 stStaleGen [] (beginCmd staleTrackConfig audioOpen)) = stStaleGen := by
  decide +kernel

/-- Refutes O22: its last clause claims STALE_GENERATION of every command on an open stream that names another generation, TRACK_CONFIG and TRACK_QUERY among
them. On an audio stream these two complete with BAD_CONTEXT before the generation is looked at (08 R199, R216; 03 R57), as TRACK_CONFIG does in `audioOpen`. -/
theorem not_streamCommandChecks : ¬ Obligations.StreamCommandChecks := by
  unfold Obligations.StreamCommandChecks
  intro h
  obtain ⟨-, hchecks⟩ := h
  obtain ⟨-, hcommands⟩ := hchecks 1 staleTrackConfig audioOpen
  obtain ⟨hctx, hopen, hclosing, hgen⟩ := audioOpen_otherGeneration
  obtain ⟨-, hstale, -⟩ := hcommands (0x40, .trackConfig 1) (by simp) audioOpen_runs hctx
  have hexec : exec (.trackConfig 1) audioOpen = .next (finish 1 stStaleGen [] (beginCmd staleTrackConfig audioOpen)) := hstale hopen hclosing hgen
  have ht : doTrackConfig 1 audioOpen = finish 1 stStaleGen [] (beginCmd staleTrackConfig audioOpen) := by
    injection hexec
  obtain ⟨hbad, hother⟩ := audioOpen_answers
  rw [ht, hother] at hbad
  exact absurd hbad (by decide)

end Sys2Proof.StreamChecks
end

section
/-! CLOSE_FINAL of an audio stream that replay has rewound (03 Table 3.8; 15 R353-R355): the last block processed is not the one before the next to fire. -/

namespace Sys2Proof.Closing

open Sys2Proof.Machine Sys2Proof.Laws Sys2Proof.Posting

/-- A STREAM_CLOSE of slot 0 under way. -/
def closeCommand : JEntry :=
  { jpos := 1, port := .host, queue := 0, asn := 1, pkt := [0x11, 0, 0x00010000, 0] ++ List.replicate 12 0, data := [], tick := 0, st := .running,
    cpls := [], posted := 0, waited := 0, origin := none, fwd := none, began := some 0, client := 0, place := 0, during := false }

/-- The close has no FLUSH, and step 4 is still to come. -/
def closeState : CloseSt := { j := 1, flush := false, freed := false }

/-- An audio stream that had fired the blocks 0 to 4 when a compute-domain reset rewound it to block 2, which fires next; its close is under way. -/
def rewoundStream : Stream :=
  { Stream.reset with
    isOpen := true, cfg := { Stream.reset.cfg with codec := 2 }, block := 5, firedBlocks := 2, lastBlock := some 4, replayFrom := some 5
    closing := some closeState }

/-- A running part, in D3hot so that completions wait in the journal (13 R302), with that stream in slot 0. -/
def rewound : State :=
  { State.reset with
    chip := { Chip.reset with phase := .ready }
    pcie := { Pcie.reset with d3 := true }
    journal := [closeCommand], jpos := 1
    streams := [(0, rewoundStream)] }

theorem rewound_closes :
    rewound.entry? 1 = some closeCommand ∧ takesWork rewound = true ∧ closeCommand.st = .running ∧
    closeCommand.named rewound.link.chip = some (false, 0) ∧ (rewound.stream 0).closing = some closeState ∧ closeState.j = 1 ∧
    streamDrained rewound 0 closeState = true ∧ uncoveredOf rewound false 0 = [] := by
  decide +kernel

/-- RESULT1 of the completions that wait in the journal. -/
def waitingResults (s : State) : List Word := s.journal.flatMap (fun e => e.cpls.map (·.r1))

theorem rewound_result : waitingResults (doCloseFinal 1 rewound) = [4] := by
  decide +kernel

/-- In D3hot a final completion waits in its entry with the results it was given. -/
theorem finishCtx_waits {u : State} (hj : u.journal = [closeCommand]) (hd : u.pcie.d3 = true) (gen ctx : Nat) (a b : Word) :
    waitingResults (finishCtx 1 stOk gen ctx [a, b] u) = [b] := by
  have he : u.entry? 1 = some closeCommand := by simp [State.entry?, hj, closeCommand]
  unfold finishCtx
  rw [he]
  dsimp only
  rw [produce_host he rfl, flush_down (s := modEntry 1 _ u) (.inl hd)]
  simp [waitingResults, modEntry, hj, closeCommand, withCpl, JEntry.cpl]

/-- Refutes O24: of an audio stream it claims that RESULT1 is the block before the next one to fire. While replay runs that block has been rewound (15 R354),
and RESULT1 is the number of the last block that was processed (03 Table 3.5): 4 in `rewound`, not 1. -/
theorem not_contextCloses : ¬ Obligations.ContextCloses := by
  unfold Obligations.ContextCloses
  intro h
  obtain ⟨hstreams, -⟩ := h
  obtain ⟨hentry, hwork, hrunning, hnamed, hclosing, hj, hdrained, hcovered⟩ := rewound_closes
  obtain ⟨-, hfinal⟩ := hstreams 1 0 closeCommand closeState rewound hentry hwork hrunning hnamed hclosing hj (.inr hdrained)
  obtain ⟨last, u, hexec, -, hlast, -, -, -, hjournal, -⟩ := hfinal hcovered
  have ht : doCloseFinal 1 rewound = finishCtx 1 stOk (rewound.stream 0).gen 0 [w32 (rewound.stream 0).seq, last] u := by
    injection hexec
  have hd3 : u.pcie.d3 = true := by
    rw [← kept_d3 (finishCtx_kept 1 stOk (rewound.stream 0).gen 0 [w32 (rewound.stream 0).seq, last] u), ← ht]
    decide +kernel
  have hresult := rewound_result
  rw [ht, finishCtx_waits hjournal hd3, hlast rfl (by decide)] at hresult
  exact absurd hresult (by decide)

end Sys2Proof.Closing
end

section
/-! ACCEPT of a collective (12 R293; 03 R61): no forwarded command is about it, and it is noted all the same. -/

namespace Sys2Proof.Forwarding

open Sys2Proof.Machine

/-- An open session spread over this part and chip 1, whose collective to chip 1 from journal position 3 has no ACCEPT yet. -/
def spreadSession : Session := { Session.reset with isOpen := true, spread := 0b11, colls := [(1, 3, false)] }

/-- A part on a torus with port 0 UP towards chip 1, and that session. -/
def awaitsAccept : State :=
  { State.reset with
    chip := { Chip.reset with phase := .ready }
    link := { Link.reset 0 with role := 2, ports := [(0, { LPort.reset with st := 2, enabled := true, peer := 1 })] }
    sessions := [(0, spreadSession)] }

/-- The ACCEPT of that collective, from chip 1. -/
def acceptPacket : LinkPkt :=
  sealPkt { dest := 0, src := 1, cls := 0, vc := 0, turned := false, type := 2, hops := 32, context := 0xFFFF, gen := 0, seq := 0, aux := 3, aux2 := 1,
            crc := 0, data := [] }

theorem awaitsAccept_delivers :
    portUp awaitsAccept 0 = true ∧ acceptPacket.dest = awaitsAccept.link.chip ∧ pktCrcOk acceptPacket = true ∧
    forwardedFrom awaitsAccept acceptPacket.src acceptPacket.aux.toNat = none := by
  decide +kernel

/-- The ACCEPT is noted on the collective (R61), which returning the credit alone does not do. -/
theorem awaitsAccept_notes :
    ((doAccept 0 acceptPacket awaitsAccept).session 0).colls = [(1, 3, true)] ∧
    ((creditBack 0 acceptPacket awaitsAccept).session 0).colls = [(1, 3, false)] := by
  decide +kernel

/-- Refutes O49: it claims that an ACCEPT which no forwarded command is about changes nothing but the credit of its buffer. One that answers a collective
notes its acceptance in the session that waits for it (12 R293), as in `awaitsAccept`. -/
theorem not_workForwarded : ¬ Obligations.WorkForwarded := by
  unfold Obligations.WorkForwarded
  intro h
  obtain ⟨hsending, -⟩ := h
  obtain ⟨-, hanswers⟩ := hsending awaitsAccept
  obtain ⟨hup, hdest, hcrc, hnone⟩ := awaitsAccept_delivers
  obtain ⟨hother, -⟩ := hanswers 0 acceptPacket hup hdest hcrc
  obtain ⟨hexec, -⟩ := hother hnone
  have ht : doAccept 0 acceptPacket awaitsAccept = creditBack 0 acceptPacket awaitsAccept := by
    injection hexec
  obtain ⟨hnoted, hwaiting⟩ := awaitsAccept_notes
  rw [ht, hwaiting] at hnoted
  exact absurd hnoted (by decide)

end Sys2Proof.Forwarding
end

section
/-! Entropy decoding (04 R95, R96): the frame over the other streams fails where the stream's outbox holds a record that names another slot. -/

namespace Sys2Proof.Entropy

open Sys2Proof.Machine

/-- An access unit of a feed accepted at tick 0: complete, an IRAP, and not decoded. -/
def waitingAu : Au :=
  { id := 0, bytes := [], size := 188, complete := some 0, fed := 0, pts := none, irap := true, decoded := false, retShort := false, closed := true,
    gap := false, don := none, started := false, marks := [], taken := 0, noRef := false, late := none, reported := false }

/-- What its syntax says: 64 by 64 samples of H.264 High, and one slice segment of 16 macroblocks. -/
def oneSegment : AuInfo :=
  { sps := { hevc := false, profile := .avcHigh, level := 51, chroma := .c420, bitDepth := 8, interlaced := false, otherTool := false, width := 64,
             height := 64, dpb := 1, ctb := 16 }
    kind := .irap, last := true, refs := [], list0 := none
    segs := [{ units := List.range 16, bins := List.replicate 16 10, errAt := none, endByte := 0, list0 := none }] }

/-- A running part whose slot 0 has that access unit to decode, and a record of slot 1 in its outbox. -/
def strayOutbox : State :=
  { State.reset with
    chip := { Chip.reset with phase := .ready }
    streams := [(0, { Stream.reset with isOpen := true, aus := [waitingAu], nextAu := 1, outbox := [Recon.recordOfSlotOne] })] }

/-- It is the turn of slot 0 on its engine, and its access unit may be decoded. -/
theorem strayOutbox_auDue :
    parserUp strayOutbox 0 = true ∧ (strayOutbox.stream 0).cfg.codec ≠ 2 ∧ nextAu (strayOutbox.stream 0) = some waitingAu ∧
    runAhead (strayOutbox.stream 0) waitingAu = true ∧ engineTurn strayOutbox 0 = true ∧ segsFed waitingAu oneSegment = true := by
  decide +kernel

/-- Its picture has not begun, and its parameter sets are within the open. -/
theorem strayOutbox_begins :
    auVerdict (strayOutbox.stream 0) oneSegment = none ∧ waitingAu.don = none ∧ waitingAu.started = false ∧ (strayOutbox.stream 0).reject = none ∧
    (strayOutbox.stream 0).dim = false ∧ (strayOutbox.stream 0).pics = [] := by
  decide +kernel

/-- With the new picture the waiting record is placed (04 R118), and issuing it raises SEQ of the slot it names (04 R116): slot 1, not slot 0. -/
theorem strayOutbox_raises_seq_of_slotOne :
    (strayOutbox.stream 1).seq = 0 ∧ ((doEntropyDecode 0 oneSegment strayOutbox).stream 1).seq = 1 := by
  decide +kernel

/-- Refutes O27: it claims that no other stream changes but in its turns on the engine, in every state. What becomes due with the new picture is placed with
it, and a record raises SEQ of the slot it names (04 R116, R118). The statement has no premise that the records in a stream's outbox name that stream, and in
`strayOutbox` the outbox of slot 0 holds one that names slot 1. -/
theorem not_entropyDecoding : ¬ Obligations.EntropyDecoding := by
  unfold Obligations.EntropyDecoding
  intro h
  obtain ⟨hup, hcodec, hnext, hahead, hturn, hfed⟩ := strayOutbox_auDue
  obtain ⟨hverdict, hdon, hstarted, hreject, hdim, hpics⟩ := strayOutbox_begins
  obtain ⟨-, -, hbegins⟩ := h 0 oneSegment waitingAu strayOutbox hup hcodec hnext hahead hturn hfed
  obtain ⟨t, p, hexec, -, -, -, -, -, -, -, -, -, -, -, -, -, hothers, -⟩ :=
    hbegins hverdict hdon hstarted hreject hdim (by simp [hpics])
  have ht : doEntropyDecode 0 oneSegment strayOutbox = t := by
    injection hexec
  have hframe : (t.stream 1).seq = (strayOutbox.stream 1).seq := congrArg Stream.seq (hothers 1 (by decide))
  obtain ⟨hbefore, hafter⟩ := strayOutbox_raises_seq_of_slotOne
  rw [ht, hframe, hbefore] at hafter
  exact absurd hafter (by decide)

end Sys2Proof.Entropy
end

section
/-! STREAM_FEED of an overdue stream (04 R109): host memory does not stay, since the STREAM_EVENT of the release is a record. -/

namespace Sys2Proof.Feeding

open Sys2Proof.Machine Sys2Proof.Laws Sys2Proof.Posting

/-! ### A completion that is not posted writes nothing -/

/-- Where no host queue has a position in `t`, none was moved on the way from `s`, and host memory is as it was. -/
def Unposted (s t : State) : Prop := t.hq = [] → s.hq = [] ∧ t.hostMem = s.hostMem

theorem Unposted.refl (s : State) : Unposted s s := fun h => ⟨h, rfl⟩

theorem Unposted.trans {s t u : State} (h : Unposted s t) (h' : Unposted t u) : Unposted s u := by
  intro hu
  obtain ⟨ht, hmem⟩ := h' hu
  obtain ⟨hs, hmem'⟩ := h ht
  exact ⟨hs, hmem.trans hmem'⟩

theorem Unposted.of_eq {s t : State} (hq : t.hq = s.hq) (hm : t.hostMem = s.hostMem) : Unposted s t := fun h => ⟨hq ▸ h, hm⟩

theorem tput_ne_nil {α : Type} (t : Tab α) (k : Nat) (v : α) : tput t k v ≠ [] := by
  intro h
  have := tfind_tput_same t k v
  simp [h, tfind] at this

/-- A posted entry moves the position of its queue (03 R51). -/
theorem unposted_postHost (q : Nat) (first irq : Bool) (c : Cpl) (s : State) : Unposted s (postHost q first irq c s) := by
  intro h
  rw [postHost_hq] at h
  exact absurd h (tput_ne_nil _ _ _)

theorem unposted_postAll (q : Nat) (irq : Bool) (k : Nat) (cs : List Cpl) (s : State) : Unposted s (postAll q irq k cs s) := by
  induction cs generalizing k s with
  | nil => exact .refl s
  | cons c cs ih => exact (unposted_postHost q _ irq c s).trans (ih (k + 1) _)

theorem unposted_postEntry (q : Nat) (e : JEntry) (s : State) : Unposted s (postEntry q e s) := by
  unfold postEntry
  dsimp only
  split
  · exact unposted_postAll _ _ _ _ s
  · exact (unposted_postAll _ _ _ _ s).trans (.of_eq rfl rfl)

theorem unposted_flushEntries (q : Nat) (ok : Bool) (done es : List JEntry) (s : State) : Unposted s (flushEntries q ok done es s) := by
  induction es generalizing ok done s with
  | nil => exact .of_eq rfl rfl
  | cons e es ih =>
    obtain ⟨ok', he⟩ | he | he := flushEntries_cons q ok done es e s
    · rw [he]; exact ih _ _ s
    · rw [he]; exact (unposted_postEntry q e s).trans (ih _ _ _)
    · rw [he]; exact (unposted_postAll q _ _ _ s).trans (ih _ _ _)

theorem unposted_flush (s : State) : Unposted s (flush s) := by
  unfold flush
  split
  · exact .refl s
  · exact (unposted_flushEntries 0 true [] s.journal s).trans (unposted_flushEntries _ _ _ _ _)

theorem unposted_produce (j : Nat) (c : Cpl) (s : State) : Unposted s (produce j c s) := by
  unfold produce
  split
  · exact .refl s
  · dsimp only
    split
    · exact (Unposted.of_eq (t := modEntry j (withCpl c) s) rfl rfl).trans (unposted_flush _)
    · exact .of_eq rfl rfl
    · exact .of_eq rfl rfl
    · split
      · exact .of_eq rfl rfl
      · next chip oj _ =>
        unfold sendCpl
        obtain ⟨l, hl⟩ := sendSeq_shape chip _ 0x04 (cplContext c).1 (cplContext c).2 (w32 oj) 0 (c.words false) _
        rw [hl]
        exact .of_eq rfl rfl

theorem unposted_finish (j st : Nat) (r : List Word) (s : State) : Unposted s (finish j st r s) := by
  unfold finish
  split
  · exact .refl s
  · exact unposted_produce _ _ s

/-! ### A feed that lets an access unit go -/

/-- A NOP of host queue 0 that has not been executed. -/
def nopAhead : JEntry :=
  { jpos := 1, port := .host, queue := 0, asn := 1, pkt := [0x01, 0, 0, 0] ++ List.replicate 12 0, data := [], tick := 0, st := .waiting,
    cpls := [], posted := 0, waited := 0, origin := none, fwd := none, began := none, client := 0, place := 0, during := false }

/-- The STREAM_FEED behind it: one transport packet for slot 0, accepted when the stream is overdue by 1 µs. Its completion waits for that of the NOP (03 R66). -/
def overdueFeed : JEntry :=
  { nopAhead with jpos := 2, asn := 2, pkt := [0x12, 0, 0x00010000, 0, 0, 0, 188, 0] ++ List.replicate 8 0, data := List.replicate 188 0, tick := 100001 }

/-- An access unit of one transport packet, complete since tick 0. -/
def fedAu (id : Nat) : Au :=
  { id := id, bytes := [], size := 188, complete := some 0, fed := 0, pts := none, irap := false, decoded := true, retShort := false, closed := true,
    gap := false, don := none, started := false, marks := [], taken := 0, noRef := false, late := none, reported := false }

/-- A running part whose slot 0 is full of access units and has had no IRAP for more than IRAP_MAX = 100 ms, its output ring on. -/
def overdueFull : State :=
  { State.reset with
    chip := { Chip.reset with phase := .ready, tick := 100001 }
    journal := [nopAhead, overdueFeed], jpos := 2
    outq := [(0, { OutRing.reset with size := 18, ringEn := true, active := true, coal := 100 })]
    streams := [(0, { Stream.reset with isOpen := true, retCap := 376, irapFrom := some 0, aus := [fedAu 0, fedAu 1] })] }

theorem overdueFull_runs : RunsOn overdueFull 2 0x12 overdueFeed :=
  ⟨⟨by decide +kernel, by decide +kernel, by decide +kernel⟩, by decide +kernel⟩

theorem overdueFeed_framed : feedOk (overdueFull.stream overdueFeed.ctx).cfg (overdueFeed.param 2).toNat overdueFeed.data = true := by
  decide +kernel

/-- The feed goes in without a completion posted, and the STREAM_EVENT of the release is in host memory (04 R109; 03 R53). -/
theorem overdueFull_writes_event :
    (doStreamFeed 2 overdueFull).hq = [] ∧ overdueFull.hostMem = [] ∧ (doStreamFeed 2 overdueFull).hostMem ≠ [] := by
  decide +kernel

/-- So whatever state the completion of this feed is given, the event is in its host memory already. -/
theorem overdueFull_event_before_completion {st : Nat} {r : List Word} {v : State}
    (hexec : exec (.streamFeed 2) overdueFull = .next (finish 2 st r v)) : v.hostMem ≠ overdueFull.hostMem := by
  have ht : doStreamFeed 2 overdueFull = finish 2 st r v := by
    injection hexec
  obtain ⟨hunposted, hbefore, hafter⟩ := overdueFull_writes_event
  rw [ht] at hunposted hafter
  obtain ⟨-, hsame⟩ := unposted_finish 2 st r v hunposted
  intro hmem
  exact hafter (hsame.trans (hmem.trans hbefore))

/-- Refutes O23: it claims that host memory stays as it was until the completion wherever the feed fits in the end. Where access units go for it under R109 the
RETENTION_SHORT condition begins with a STREAM_EVENT, a record in the stream's output ring in host memory, as in `overdueFull`. -/
theorem not_streamFedRetunedAndClosing : ¬ Obligations.StreamFedRetunedAndClosing := by
  unfold Obligations.StreamFedRetunedAndClosing
  intro h
  obtain ⟨hfeed, -⟩ := h
  obtain ⟨hfits, -⟩ := hfeed 2 overdueFeed overdueFull overdueFull_runs overdueFeed_framed
  obtain ⟨v, hexec, -, hmem, -⟩ := hfits (by decide +kernel)
  exact overdueFull_event_before_completion hexec hmem

end Sys2Proof.Feeding
end

section
/-! What a write of one stream slot leaves in its table, and what handing a record over leaves alone (04 R116; 03 R53, R54). -/

namespace Sys2Proof.RecordWriter

open Sys2Proof.Machine Sys2Proof.Laws

/-! ### One slot written twice -/

theorem tput_tput_same {α : Type} (t : Tab α) (k : Nat) (a b : α) : tput (tput t k a) k b = tput t k b := by
  induction t with
  | nil => simp [tput]
  | cons e r ih =>
    obtain ⟨k', v⟩ := e
    by_cases heq : k = k'
    · simp [tput, heq]
    · by_cases hlt : k < k'
      · simp [tput, heq, hlt]
      · simp [tput, heq, hlt, ih]

@[simp] theorem setStream_setStream (s : State) (n : Nat) (x y : Stream) : (s.setStream n x).setStream n y = s.setStream n y := by
  simp [State.setStream, tput_tput_same]

@[simp] theorem modStream_setStream (s : State) (n : Nat) (x : Stream) (f : Stream → Stream) :
    (s.setStream n x).modStream n f = s.setStream n (f x) := by
  simp [State.modStream]

/-- A slot that has just been written is written again as it stands. -/
theorem setStream_written {t : State} {l : Tab Stream} {n : Nat} {y : Stream} (h : t.streams = tput l n y) : t.setStream n y = t := by
  unfold State.setStream
  rw [h, tput_tput_same, ← h]

theorem stream_written {t : State} {l : Tab Stream} {n : Nat} {y : Stream} (h : t.streams = tput l n y) : t.stream n = y := by
  rw [State.stream, h, tget_tput_same]

theorem stream_written_other {s t : State} {n m : Nat} {y : Stream} (h : t.streams = tput s.streams n y) (hm : m ≠ n) :
    t.stream m = s.stream m := by
  rw [State.stream, h, tget_tput_other _ _ _ hm, State.stream]

/-! ### What the record writer leaves alone -/

/-- Ring `o` with every record written covered, in host memory too (03 R53). -/
def covered (o : Nat) (s : State) : State :=
  (hostWords (join64 (s.oring o).tailWbLo (s.oring o).tailWbHi) [w32 (s.oring o).wr, 0] s).setOring o
    { s.oring o with tail := (s.oring o).wr, uncovered := [], uncoveredBytes := 0, active := (s.oring o).ringEn }

/-- A tail write-back in two stages: the records are covered, and it is told of. -/
theorem tailWriteBack_eq (o : Nat) (s : State) : tailWriteBack o s =
    if (s.oring o).irqEn then setCause (8 + o) (emit 0x08 0x23 0xFFFF 0xFFFFFF 0 0xFFF o (s.oring o).wr (covered o s))
    else emit 0x08 0x23 0xFFFF 0xFFFFFF 0 0xFFF o (s.oring o).wr (covered o s) := rfl

/-- Ring `o` with the record's bytes behind those it holds, in host memory too (03 R53). -/
def written (o : Nat) (b : BuiltRec) (s : State) : State :=
  (ringWrite (join64 (s.oring o).baseLo (s.oring o).baseHi) (s.oring o).bytes (s.oring o).wr (wordsBytes b.words) s).setOring o
    { s.oring o with
      wr := ((s.oring o).wr + (wordsBytes b.words).length) % (s.oring o).bytes, uncovered := (s.oring o).uncovered ++ [b.tag]
      due := if (s.oring o).uncovered.isEmpty then s.now + (s.oring o).coal.toNat else (s.oring o).due
      uncoveredBytes := (s.oring o).uncoveredBytes + (wordsBytes b.words).length }

/-- A record is placed in three stages: its bytes are written, it is traced, and it may be covered at once. -/
theorem placeRec_eq (o : Nat) (b : BuiltRec) (s : State) : placeRec o b s =
    coalesce o (emit 0x07 0x23 b.tag.context 0xFFFFFF b.tag.don b.tag.band b.tag.seq (b.tag.type + 256 * o) (written o b s)) := rfl

/-- Ring `o` with the hold noted as one of a full ring, where it is (03 R54). -/
def holdNoted (o : Nat) (full : Bool) (s : State) : State :=
  if full && !(s.oring o).fullHold then setCause 16 (s.setOring o { s.oring o with fullHold := true }) else s

/-- A hold that begins is noted, and may trip OUTPUT_HELD (14 Table 14.2). -/
theorem beginHold_eq (o : Nat) (full : Bool) (s : State) :
    beginHold o full s = detect 16 (holdNoted o full s) ∨ beginHold o full s = holdNoted o full s := ite_eq_or_eq _ _ _

/-- Between the two states nothing changes but the output rings, host memory, the safety state, INTA with its causes, the trace buffers and the freeze
trigger: what handing a record over may do (03 R53, R54; 14 Table 14.2). -/
def Recorded (s t : State) : Prop := ∃ oq hm sf c r a d b l x y z, t = { s with
  outq := oq, hostMem := hm, safety := sf
  pcie := { s.pcie with cause := c, recent := r, asserted := a, deassertAt := d }
  obs := { s.obs with bufs := b, lost := l, sources := x, trigger := y, tickTrig := z } }

namespace Recorded

theorem refl (s : State) : Recorded s s := ⟨_, _, _, _, _, _, _, _, _, _, _, _, rfl⟩

theorem trans {s t u : State} (h : Recorded s t) (h' : Recorded t u) : Recorded s u := by
  obtain ⟨_, _, _, _, _, _, _, _, _, _, _, _, rfl⟩ := h
  obtain ⟨_, _, _, _, _, _, _, _, _, _, _, _, rfl⟩ := h'
  exact ⟨_, _, _, _, _, _, _, _, _, _, _, _, rfl⟩

section Fields

variable {s t : State} (h : Recorded s t)
include h

theorem streams : t.streams = s.streams := by obtain ⟨_, _, _, _, _, _, _, _, _, _, _, _, rfl⟩ := h; rfl
theorem sessions : t.sessions = s.sessions := by obtain ⟨_, _, _, _, _, _, _, _, _, _, _, _, rfl⟩ := h; rfl
theorem dram : t.dram = s.dram := by obtain ⟨_, _, _, _, _, _, _, _, _, _, _, _, rfl⟩ := h; rfl
theorem journal : t.journal = s.journal := by obtain ⟨_, _, _, _, _, _, _, _, _, _, _, _, rfl⟩ := h; rfl
theorem chip : t.chip = s.chip := by obtain ⟨_, _, _, _, _, _, _, _, _, _, _, _, rfl⟩ := h; rfl
theorem d3 : t.pcie.d3 = s.pcie.d3 := by obtain ⟨_, _, _, _, _, _, _, _, _, _, _, _, rfl⟩ := h; rfl

end Fields

theorem setOring (s : State) (o : Nat) (x : OutRing) : Recorded s (s.setOring o x) := ⟨_, _, _, _, _, _, _, _, _, _, _, _, rfl⟩

theorem hostWrite (s : State) (a : Nat) (bs : List Byte) : Recorded s (hostWrite a bs s) := ⟨_, _, _, _, _, _, _, _, _, _, _, _, rfl⟩

theorem setCause (s : State) (k : Nat) : Recorded s (setCause k s) := by
  obtain ⟨_, _, _, h⟩ := setCause_shape k s
  exact ⟨_, _, _, _, _, _, _, _, _, _, _, _, h⟩

theorem emit (s : State) (kind src ctx niche don band a0 a1 : Nat) : Recorded s (emit kind src ctx niche don band a0 a1 s) := by
  obtain ⟨_, _, _, _, _, _, h⟩ := emit_shape kind src ctx niche don band a0 a1 s
  exact ⟨_, _, _, _, _, _, _, _, _, _, _, _, h⟩

theorem detect (s : State) (k : Nat) : Recorded s (detect k s) := by
  obtain ⟨_, _, _, _, _, _, _, _, h⟩ := detect_shape k s
  exact ⟨_, _, _, _, _, _, _, _, _, _, _, _, h⟩

theorem tailWriteBack (s : State) (o : Nat) : Recorded s (tailWriteBack o s) := by
  have htraced : Recorded s (Machine.emit 0x08 0x23 0xFFFF 0xFFFFFF 0 0xFFF o (s.oring o).wr (covered o s)) :=
    ((hostWrite s _ _).trans (setOring _ o _)).trans (emit _ _ _ _ _ _ _ _ _)
  rw [tailWriteBack_eq]
  split
  · exact htraced.trans (setCause _ _)
  · exact htraced

theorem coalesce (s : State) (o : Nat) : Recorded s (coalesce o s) := by
  unfold Machine.coalesce
  dsimp only
  split
  · exact refl s
  · split
    · exact tailWriteBack s o
    · exact refl s

theorem placeRec (s : State) (o : Nat) (b : BuiltRec) : Recorded s (placeRec o b s) := by
  have hwritten : Recorded s (written o b s) := ((hostWrite s _ _).trans (hostWrite _ _ _)).trans (setOring _ o _)
  exact (hwritten.trans (emit _ _ _ _ _ _ _ _ _)).trans (coalesce _ o)

theorem beginHold (s : State) (o : Nat) (full : Bool) : Recorded s (beginHold o full s) := by
  have hnoted : Recorded s (holdNoted o full s) := by
    unfold holdNoted
    split
    · exact (setOring s o _).trans (setCause _ _)
    · exact refl s
  obtain h | h := beginHold_eq o full s
  · rw [h]; exact hnoted.trans (detect _ _)
  · rw [h]; exact hnoted

theorem putRec (s : State) (o : Nat) (b : BuiltRec) : Recorded s (putRec o b s) := by
  unfold Machine.putRec
  dsimp only
  split
  · exact placeRec s o b
  · exact (beginHold s o _).trans (setOring _ o _)

end Recorded

/-! ### A record of a stream -/

/-- SEQ of the next record of a context (04 R116). -/
def nextSeq (seq : Nat) : Nat := (seq + 1) % 2 ^ 32

theorem issueTo_stream_recorded (o : Nat) (last : Bool) {r : RecordReq} (h : r.session = false) (s : State) :
    Recorded (s.modStream r.context (fun x => { x with seq := nextSeq (s.stream r.context).seq })) (issueTo o last r s) := by
  unfold issueTo
  simp only [h, Bool.false_eq_true, if_false]
  exact .putRec _ o _

/-- A STREAM_EVENT raises SEQ of its slot, and beyond that does what handing a record over does. -/
theorem streamEvent_streams (n event status detail : Nat) (s : State) :
    (streamEvent n event status detail s).streams = tput s.streams n { s.stream n with seq := nextSeq (s.stream n).seq } := by
  unfold streamEvent
  dsimp only
  rw [(issueTo_stream_recorded _ _ rfl _).streams]
  simp only [State.modStream, State.setStream, State.stream, RasterTime.emit_streams]

end Sys2Proof.RecordWriter
end

section
/-! TS_PACKET and WAR_RECORD (04 R86-R92, R110, R111): what one packet or record makes of its stream. -/

namespace Sys2Proof.Parsing

open Sys2Proof.Machine Sys2Proof.Laws Sys2Proof.RecordWriter

/-! ### The oldest feed -/

/-- The stream with `k` bytes of its oldest feed taken. -/
def afterBytes (k : Nat) (f : FeedChunk) (r : List FeedChunk) (x : Stream) : Stream := { x with feeds := { f with bytes := f.bytes.drop k } :: r }

theorem takeBytes_plain {x : Stream} {f : FeedChunk} {r : List FeedChunk} (h : x.feeds = f :: r) (hd : f.discont = false) (k : Nat) :
    takeBytes k x = (f.bytes.take k, f, afterBytes k f r x) := by
  simp [takeBytes, afterBytes, h, hd]

/-- A feed with bytes is no mark: nothing is passed. -/
theorem passMarks_of_bytes {x : Stream} {f : FeedChunk} {r : List FeedChunk} (h : x.feeds = f :: r) (hb : f.bytes ≠ []) (k : Nat) :
    passMarks k x = x := by
  cases k with
  | zero => rfl
  | succ k => simp [passMarks, h, hb]

theorem passFeeds_of_bytes {s : State} {n : Nat} {f : FeedChunk} {r : List FeedChunk} (h : (s.stream n).feeds = f :: r) (hb : f.bytes ≠ []) :
    passFeeds n s = s.setStream n (s.stream n) := by
  exact congrArg (s.setStream n) (passMarks_of_bytes h hb _)

/-- Behind a packet or record the rest of its feed follows. -/
theorem passFeeds_done {s t : State} {n k : Nat} {f : FeedChunk} {r : List FeedChunk} {y : Stream} (ht : t.streams = tput s.streams n y)
    (hy : y.feeds = (afterBytes k f r y).feeds) (hk : k < f.bytes.length) : passFeeds n t = t := by
  have hfeeds : (t.stream n).feeds = { f with bytes := f.bytes.drop k } :: r := by
    rw [stream_written ht, hy]
    rfl
  rw [passFeeds_of_bytes hfeeds (by simpa using hk), stream_written ht, setStream_written ht]

section Front

variable {n k : Nat} {f : FeedChunk} {r : List FeedChunk} {s : State}

/-- TS_PACKET takes the packet at the front of the oldest feed. -/
theorem doTsPacket_takes (hup : parserUp s n = true) (hc : (s.stream n).cfg.container = 0) (hf : (s.stream n).feeds = f :: r)
    (hlen : 188 < f.bytes.length) (hd : f.discont = false) : doTsPacket n s =
      passFeeds n (takePacket n f (TsPacket.ofBytes (f.bytes.take 188)) (s.setStream n (afterBytes 188 f r (s.stream n)))) := by
  have hne : f.bytes ≠ [] := by rintro h; simp [h] at hlen
  unfold doTsPacket
  rw [if_neg (by simp [hup, hc])]
  dsimp only
  rw [passFeeds_of_bytes hf hne, stream_setStream, if_neg (by simp [hf]), takeBytes_plain hf hd, setStream_setStream]

/-- WAR_RECORD takes the record at the front of the oldest feed. -/
theorem doWarRecord_takes (hup : parserUp s n = true) (hc : (s.stream n).cfg.container = 1) (hf : (s.stream n).feeds = f :: r)
    (hk : warLen f.bytes = some k) (hlen : k < f.bytes.length) (hd : f.discont = false) : doWarRecord n s =
      passFeeds n (takeRecord n f (f.bytes.take k) (s.setStream n (afterBytes k f r (s.stream n)))) := by
  have hne : f.bytes ≠ [] := by rintro h; simp [h] at hlen
  unfold doWarRecord
  rw [if_neg (by simp [hup, hc])]
  dsimp only
  rw [passFeeds_of_bytes hf hne, stream_setStream]
  split
  · next h => rw [hf] at h; cases h
  · next g t h =>
    obtain ⟨rfl, rfl⟩ : f = g ∧ r = t := by rw [hf] at h; exact List.cons.inj h
    rw [hk, Option.getD_some, takeBytes_plain hf hd, setStream_setStream]

end Front

/-! ### The access unit being fed -/

section Unit

variable {x : Stream} {a : Au} {f : FeedChunk}

theorem completeAu_none (h : x.openAu = none) (t : Nat) : completeAu t x = x := by
  simp [completeAu, h]

theorem completeAu_aus (h : x.openAu = some a) (t : Nat) : (completeAu t x).aus =
    x.aus.map (fun b => if b.id = a.id then { b with closed := true, complete := some t, irap := hasIrap x.cfg.codec a.bytes } else b) := by
  simp [completeAu, h]

@[simp] theorem completeAu_feeds (t : Nat) (x : Stream) : (completeAu t x).feeds = x.feeds := by
  unfold completeAu; split <;> rfl

@[simp] theorem completeAu_nextAu (t : Nat) (x : Stream) : (completeAu t x).nextAu = x.nextAu := by
  unfold completeAu; split <;> rfl

@[simp] theorem completeAu_cfg (t : Nat) (x : Stream) : (completeAu t x).cfg = x.cfg := by
  unfold completeAu; split <;> rfl

theorem growAu_aus (h : x.openAu = some a) (bs : List Byte) (size : Nat) (f : FeedChunk) : (growAu bs size f x).aus =
    x.aus.map (fun b => if b.id = a.id then
      { b with bytes := b.bytes ++ bs, size := b.size + size, fed := f.tick, retShort := b.retShort || f.short,
               marks := b.marks ++ [(b.bytes.length + bs.length, f.tick)] } else b) := by
  simp [growAu, h]

@[simp] theorem growAu_feeds (bs : List Byte) (size : Nat) (f : FeedChunk) (x : Stream) : (growAu bs size f x).feeds = x.feeds := by
  unfold growAu; split <;> rfl

@[simp] theorem growAu_nextAu (bs : List Byte) (size : Nat) (f : FeedChunk) (x : Stream) : (growAu bs size f x).nextAu = x.nextAu := by
  unfold growAu; split <;> rfl

@[simp] theorem growAu_cfg (bs : List Byte) (size : Nat) (f : FeedChunk) (x : Stream) : (growAu bs size f x).cfg = x.cfg := by
  unfold growAu; split <;> rfl

@[simp] theorem growAu_dropRest (bs : List Byte) (size : Nat) (f : FeedChunk) (x : Stream) : (growAu bs size f x).dropRest = x.dropRest := by
  unfold growAu; split <;> rfl

@[simp] theorem beginAu_feeds (pts : Option Nat) (f : FeedChunk) (x : Stream) : (beginAu pts f x).feeds = x.feeds := rfl

@[simp] theorem forgetAu_feeds (a : Au) (x : Stream) : (forgetAu a x).feeds = x.feeds := by
  unfold forgetAu; dsimp only; split <;> rfl

@[simp] theorem cutAu_feeds (x : Stream) : (cutAu x).feeds = x.feeds := by
  unfold cutAu
  split
  · rfl
  · split <;> simp

/-- The access unit that begins with `bs`, of `size` bytes of the feed. -/
def newAu (pts : Option Nat) (bs : List Byte) (size : Nat) (f : FeedChunk) (x : Stream) : Au :=
  { id := x.nextAu, bytes := bs, size := size, complete := none, fed := f.tick, pts := pts, irap := false, decoded := false, retShort := f.short,
    closed := false, gap := x.gapNext, don := none, started := false, marks := [(bs.length, f.tick)], taken := 0, noRef := false, late := none,
    reported := false }

/-- A change of the last access unit alone, which has a number of its own. -/
theorem map_last {l : List Au} {c : Au} (h : ∀ b ∈ l, b.id ≠ c.id) (g : Au → Au) :
    (l ++ [c]).map (fun b => if b.id = c.id then g b else b) = l ++ [g c] := by
  have hl : l.map (fun b => if b.id = c.id then g b else b) = l :=
    (List.map_congr_left (g := id) (fun b hb => by simp [h b hb])).trans (List.map_id l)
  simp [hl]

theorem openAu_append {l : List Au} {c : Au} (h : ∀ b ∈ l, b.closed = true) (hc : c.closed = false) (hx : x.aus = l ++ [c]) : x.openAu = some c := by
  unfold Stream.openAu
  rw [hx, List.find?_append, List.find?_eq_none.mpr (fun b hb => by simp [h b hb])]
  simp [hc]

variable (hclosed : ∀ b ∈ x.aus, b.closed = true) (hid : ∀ b ∈ x.aus, b.id < x.nextAu)
include hclosed hid

/-- The first bytes of an access unit make it the last of the stream, while every earlier one is closed. -/
theorem growAu_beginAu_aus (pts : Option Nat) (bs : List Byte) (size : Nat) (f : FeedChunk) :
    (growAu bs size f (beginAu pts f x)).aus = x.aus ++ [newAu pts bs size f x] := by
  have hopen := openAu_append (x := beginAu pts f x) hclosed rfl rfl
  rw [growAu_aus hopen]
  refine (map_last (l := x.aus) (fun b hb => (hid b hb).ne) _).trans ?_
  simp [newAu]

end Unit

/-! ### Transport packets -/

section Packet

variable {n : Nat} {f : FeedChunk} {p : TsPacket} {pl : List Byte} {s : State} {x : Stream} {l : Nat}

theorem takePacket_unsynced (h : p.sync = false) (s : State) : takePacket n f p s = tsDiscard n s := by
  simp [takePacket, h]

theorem takePacket_erroneous (h : p.sync = true) (he : p.tei = true) : takePacket n f p (s.setStream n x) =
    tsDiscard n (s.setStream n { cutAu x with gapNext := true, errGap := true }) := by
  simp [takePacket, h, he]

/-- The next continuity counter shows no gap (transport standard, log 26). -/
theorem ccGap_next (hl : x.lastCc = some l) {cc : Nat} (hcc : cc = (l + 1) % 16) : ccGap x cc = none := by
  have hd : (cc + 15 - l) % 16 = 0 := by omega
  simp [ccGap, hl, hd]

/-- What a packet of the video PID in sequence makes of its stream (04 R88, R90). -/
def videoTaken (f : FeedChunk) (p : TsPacket) (pl : List Byte) (x : Stream) : Stream :=
  if p.pusi then growAu (pesStart pl).2 188 f (beginAu (pesStart pl).1 f (completeAu f.tick x))
  else if x.dropRest then x else growAu pl 188 f x

theorem takePacket_video (hs : p.sync = true) (he : p.tei = false) (hsc : p.scrambled = false) (hp : p.payload = some pl)
    (hpid : videoPidOf x = some p.pid) (herr : x.errGap = false) (hl : x.lastCc = some l) (hcc : p.cc = (l + 1) % 16) :
    takePacket n f p (s.setStream n x) = s.setStream n (videoTaken f p pl { x with lastCc := some p.cc, scrambled := false }) := by
  have hnew : x.lastCc ≠ some p.cc := by
    rw [hl, hcc, Ne, Option.some.injEq]
    omega
  have hgap : tsGap n p (s.setStream n x) = s.setStream n x := by
    simp [tsGap, ccGap_next hl hcc, herr]
  have hpacket : takePacket n f p (s.setStream n x) = takeVideoPacket n f p pl (s.setStream n x) := by
    simp [takePacket, hs, he, hp, hpid]
  rw [hpacket]
  unfold takeVideoPacket
  dsimp only
  rw [if_neg (by simp [hnew]), hgap]
  simp only [hsc, Bool.false_eq_true, if_false, modStream_setStream]
  unfold takeVideo videoTaken
  split <;> simp

theorem videoTaken_feeds (f : FeedChunk) (p : TsPacket) (pl : List Byte) (x : Stream) : (videoTaken f p pl x).feeds = x.feeds := by
  unfold videoTaken
  split
  · simp
  · split <;> simp

variable {a : Au}

/-- A packet that starts no payload unit adds its payload to the access unit being fed. -/
theorem videoTaken_continues (h : x.openAu = some a) (hp : p.pusi = false) (hd : x.dropRest = false) : (videoTaken f p pl x).aus =
    x.aus.map (fun b => if b.id = a.id then
      { b with bytes := b.bytes ++ pl, size := b.size + 188, fed := f.tick, retShort := b.retShort || f.short,
               marks := b.marks ++ [(b.bytes.length + pl.length, f.tick)] } else b) := by
  simp [videoTaken, hp, hd, growAu_aus h]

/-- A packet that starts a payload unit completes the access unit being fed and begins the next. -/
theorem videoTaken_begins (h : x.openAu = some a) (hp : p.pusi = true) (hclosed : ∀ b ∈ x.aus, b.id ≠ a.id → b.closed = true)
    (hid : ∀ b ∈ x.aus, b.id < x.nextAu) : (videoTaken f p pl x).aus =
    x.aus.map (fun b => if b.id = a.id then { b with closed := true, complete := some f.tick, irap := hasIrap x.cfg.codec a.bytes } else b) ++
      [newAu (pesStart pl).1 (pesStart pl).2 188 f (completeAu f.tick x)] := by
  have hends := completeAu_aus h f.tick
  have hclosed' : ∀ b ∈ (completeAu f.tick x).aus, b.closed = true := by
    intro b hb
    rw [hends] at hb
    obtain ⟨c, hc, rfl⟩ := List.mem_map.mp hb
    split
    · rfl
    · next hne => exact hclosed c hc hne
  have hid' : ∀ b ∈ (completeAu f.tick x).aus, b.id < (completeAu f.tick x).nextAu := by
    intro b hb
    rw [hends] at hb
    obtain ⟨c, hc, rfl⟩ := List.mem_map.mp hb
    rw [completeAu_nextAu]
    split <;> exact hid c hc
  rw [videoTaken, if_pos hp, growAu_beginAu_aus hclosed' hid', hends]

end Packet

/-! ### WAR records -/

section Record

variable {n k : Nat} {f : FeedChunk} {s : State} {x : Stream}

/-- A record holds at least its header. -/
theorem warLen_bounds {bs : List Byte} (h : warLen bs = some k) : 16 ≤ k := by
  unfold warLen at h
  dsimp only at h
  split at h
  · obtain rfl := Option.some.inj h
    omega
  · cases h

/-- Header word `i` of the record at the front of a feed (04 R91). -/
def warWord (f : FeedChunk) (i : Nat) : Word := (bytesWords (f.bytes.take 16)).getD i 0

/-- Its payload. -/
def warPayload (k : Nat) (f : FeedChunk) : List Byte := ((f.bytes.take k).drop 16).take (warWord f 1).toNat

section Framed

variable (hk : 16 ≤ k) (hm : fld (warWord f 0) 31 16 = 0x5752) (hv : fld (warWord f 0) 15 8 = 1)
include hk hm hv

/-- A record of the stream's format is taken by its type, and an audio record by its format too (04 R91, R92). -/
theorem takeRecord_framed : takeRecord n f (f.bytes.take k) (s.setStream n x) =
    if fld (warWord f 0) 7 0 ≠ (if x.cfg.codec = 2 then 2 else 1) then streamEvent n 11 0 0 (s.setStream n x)
    else if x.cfg.codec = 2 then
      if fld (warWord f 3) 19 16 ≠ x.cfg.mics || decide ((warPayload k f).length % (2 * x.cfg.mics) ≠ 0) then streamEvent n 11 0 0 (s.setStream n x)
      else warAudio n f.tick (warWord f) (warPayload k f) (s.setStream n (keepRecord (f.bytes.take k) f.tick x))
    else warVideo n f (warWord f) (warPayload k f) (f.bytes.take k).length (s.setStream n x) := by
  have hhead : (f.bytes.take k).take 16 = f.bytes.take 16 := by rw [List.take_take, Nat.min_eq_left hk]
  unfold takeRecord
  simp only [hhead, stream_setStream, decide_eq_true_eq, modStream_setStream]
  rw [if_neg (by simpa [warWord] using ⟨hm, hv⟩)]
  rfl

theorem takeRecord_foreign (h : fld (warWord f 0) 7 0 ≠ (if x.cfg.codec = 2 then 2 else 1)) :
    takeRecord n f (f.bytes.take k) (s.setStream n x) = streamEvent n 11 0 0 (s.setStream n x) := by
  rw [takeRecord_framed hk hm hv, if_pos h]

theorem takeRecord_video (hc : x.cfg.codec ≠ 2) (h : fld (warWord f 0) 7 0 = 1) :
    takeRecord n f (f.bytes.take k) (s.setStream n x) = warVideo n f (warWord f) (warPayload k f) (f.bytes.take k).length (s.setStream n x) := by
  rw [takeRecord_framed hk hm hv, if_neg (by simp [hc, h]), if_neg hc]

theorem takeRecord_audio (hc : x.cfg.codec = 2) (h : fld (warWord f 0) 7 0 = 2) (hmics : fld (warWord f 3) 19 16 = x.cfg.mics)
    (hwhole : (warPayload k f).length % (2 * x.cfg.mics) = 0) : takeRecord n f (f.bytes.take k) (s.setStream n x) =
      warAudio n f.tick (warWord f) (warPayload k f) (s.setStream n (keepRecord (f.bytes.take k) f.tick x)) := by
  rw [takeRecord_framed hk hm hv, if_neg (by simp [hc, h]), if_pos hc, if_neg (by simp [hmics, hwhole])]

end Framed

/-- A video record that is a whole access unit: it begins, is fed and completes at the feed's tick (04 R88, R92). -/
def wholeTaken (f : FeedChunk) (payload : List Byte) (size : Nat) (x : Stream) : Stream :=
  { completeAu f.tick (growAu payload size f (beginAu (some ((warWord f 2).toNat + b2n (bit (warWord f 3) 0) * 2 ^ 32)) f x)) with dropRest := false }

theorem warVideo_whole {payload : List Byte} {size : Nat} (hfirst : bit (warWord f 3) 1 = true) (hlast : bit (warWord f 3) 2 = true)
    (hcont : bit (warWord f 3) 3 = false) (hnone : x.openAu = none) :
    warVideo n f (warWord f) payload size (s.setStream n x) = s.setStream n (wholeTaken f payload size x) := by
  have hdrop (pts : Option Nat) : (beginAu pts f x).dropRest = false := rfl
  simp [warVideo, wholeTaken, hfirst, hlast, hcont, completeAu_none hnone, hdrop]

theorem wholeTaken_aus {payload : List Byte} {size : Nat} (h : ∀ b ∈ x.aus, b.closed = true ∧ b.id < x.nextAu) : (wholeTaken f payload size x).aus =
    x.aus ++ [{ newAu (some ((warWord f 2).toNat + b2n (bit (warWord f 3) 0) * 2 ^ 32)) payload size f x with
      closed := true, complete := some f.tick, irap := hasIrap x.cfg.codec payload }] := by
  have hclosed : ∀ b ∈ x.aus, b.closed = true := fun b hb => (h b hb).1
  have hgrown := growAu_beginAu_aus hclosed (fun b hb => (h b hb).2) (some ((warWord f 2).toNat + b2n (bit (warWord f 3) 0) * 2 ^ 32)) payload size f
  refine (completeAu_aus (openAu_append hclosed rfl hgrown) f.tick).trans ?_
  rw [hgrown, growAu_cfg]
  exact map_last (fun b hb => (h b hb).2.ne) _

end Record

/-! ### PCM -/

/-- The stream with sample frames written into its PCM ring (04 R110). -/
def pcmWritten (t : Nat) (zeros : Bool) (bs : List Byte) (x : Stream) : Stream :=
  let bb := blockBytes x.cfg
  let total := x.pcmPart + bs.length
  let touched := span x.block (if bs.isEmpty then 0 else (total - 1) / bb + 1)
  { x with
    pcm := (x.pcm ++ bs).drop ((x.pcm ++ bs).length - 4 * bb), pcmPart := total % bb, block := (x.block + total / bb) % 2 ^ 32
    blockTicks := (span x.block (total / bb)).foldl (fun m k => tput m (k % 2 ^ 32) t) x.blockTicks
    zeroBlocks := if zeros then (x.zeroBlocks ++ touched.map (fun k => k % 2 ^ 32)).eraseDups else x.zeroBlocks }

/-- The blocks filled are counted. -/
theorem writePcm_shape (n t : Nat) (zeros : Bool) (bs : List Byte) (s : State) (x : Stream) :
    ∃ o, writePcm n t zeros bs (s.setStream n x) = { s.setStream n (pcmWritten t zeros bs x) with obs := o } := by
  unfold writePcm
  rw [stream_setStream]
  dsimp only
  split
  · exact ⟨s.obs, by rw [setStream_setStream]; rfl⟩
  · exact ⟨_, by rw [setStream_setStream]; rfl⟩

/-- The stream after an audio record that sets the continuity, none having set it before: the PTS predicted is that of the record's end (04 R111). -/
def firstAudio (f : FeedChunk) (payload : List Byte) (x : Stream) : Stream :=
  { x with
    nextPts := some ((8 * ((warWord f 2).toNat + b2n (bit (warWord f 3) 0) * 2 ^ 32) + 45 * (payload.length / (2 * x.cfg.mics))) % 2 ^ 36)
    gapNext := false }

theorem warAudio_first {n : Nat} {f : FeedChunk} {payload : List Byte} {s : State} {x : Stream} (hvalid : bit (warWord f 3) 1 = true)
    (hcont : bit (warWord f 3) 3 = false) (hgap : x.gapNext = false) (hpts : x.nextPts = none) :
    warAudio n f.tick (warWord f) payload (s.setStream n x) = writePcm n f.tick false payload (s.setStream n (firstAudio f payload x)) := by
  have hstart (a : Nat) : signed 36 ((a + 2 ^ 36 - a) % 2 ^ 36) = 0 := by
    rw [Nat.add_sub_cancel_left, Nat.mod_self]
    rfl
  unfold warAudio
  dsimp only
  rw [stream_setStream, hpts, hvalid, hcont, hgap, modStream_setStream, Option.getD_none, if_pos rfl, hstart,
    if_neg (by decide), if_neg (by decide), if_neg (by decide), if_pos rfl]
  rfl

/-- The ring holds the last four blocks: a record no longer than that is its end. -/
theorem pcmWritten_tail {t : Nat} {zeros : Bool} {bs : List Byte} {x : Stream} (h : bs.length ≤ 4 * blockBytes x.cfg) :
    (pcmWritten t zeros bs x).pcm.drop ((pcmWritten t zeros bs x).pcm.length - bs.length) = bs := by
  have hpcm : (pcmWritten t zeros bs x).pcm = (x.pcm ++ bs).drop ((x.pcm ++ bs).length - 4 * blockBytes x.cfg) := rfl
  rw [hpcm, List.drop_drop, List.length_drop, List.length_append]
  rw [List.drop_append_of_le_length (by omega), List.drop_eq_nil_of_le (by omega), List.nil_append]

/-! ### The two commands -/

section Commands

variable {n k : Nat} {f : FeedChunk} {r : List FeedChunk} {s : State}

/-- TS_PACKET where the packet changes its stream alone: the packet's stream is what is left. -/
theorem doTsPacket_eq {y : Stream} {t : State} (hup : parserUp s n = true) (hc : (s.stream n).cfg.container = 0) (hf : (s.stream n).feeds = f :: r)
    (hlen : 188 < f.bytes.length) (hd : f.discont = false)
    (ht : takePacket n f (TsPacket.ofBytes (f.bytes.take 188)) (s.setStream n (afterBytes 188 f r (s.stream n))) = t)
    (hs : t.streams = tput s.streams n y) (hy : y.feeds = (afterBytes 188 f r y).feeds) : doTsPacket n s = t := by
  rw [doTsPacket_takes hup hc hf hlen hd, ht, passFeeds_done hs hy hlen]

/-- WAR_RECORD likewise. -/
theorem doWarRecord_eq {y : Stream} {t : State} (hup : parserUp s n = true) (hc : (s.stream n).cfg.container = 1) (hf : (s.stream n).feeds = f :: r)
    (hk : warLen f.bytes = some k) (hlen : k < f.bytes.length) (hd : f.discont = false)
    (ht : takeRecord n f (f.bytes.take k) (s.setStream n (afterBytes k f r (s.stream n))) = t)
    (hs : t.streams = tput s.streams n y) (hy : y.feeds = (afterBytes k f r y).feeds) : doWarRecord n s = t := by
  rw [doWarRecord_takes hup hc hf hk hlen hd, ht, passFeeds_done hs hy hlen]

end Commands

/-- Settles O26: a packet or record with data behind it leaves what `takePacket` or `takeRecord` makes of it; the access units follow from the one being fed
being the only one open. -/
theorem containersParsed : Obligations.ContainersParsed := by
  unfold Obligations.ContainersParsed
  refine ⟨fun n f r s hup hc hf hlen hd => ⟨fun hsync => ?_, fun hsync htei => ?_, fun a l pl hsync htei hscr hpl hpid herr hl hlt hcc hopen hclosed hid => ?_⟩,
    fun n k f r s hup hc hf hk hlen hd hmagic hver => ⟨fun htype => ?_, fun hcodec htype hfirst hlast hcont hids => ?_,
      fun hcodec htype hmics hwhole hmic hblock hcont hgap hvalid hpts => ?_⟩⟩
  · exact congrArg Host.Outcome.next (doTsPacket_eq hup hc hf hlen hd (takePacket_unsynced hsync _) rfl rfl)
  · refine congrArg Host.Outcome.next (doTsPacket_eq hup hc hf hlen hd (takePacket_erroneous hsync htei) rfl ?_)
    exact cutAu_feeds _
  · have ht := doTsPacket_eq hup hc hf hlen hd (takePacket_video hsync htei hscr hpl hpid herr hl hcc) rfl (videoTaken_feeds _ _ _ _)
    refine ⟨_, congrArg Host.Outcome.next ht, fun m hm => stream_setStream_other _ _ hm, rfl, fun hp hdrop => ?_, fun hp => ?_⟩
    · rw [stream_setStream]
      exact videoTaken_continues hopen hp hdrop
    · rw [stream_setStream]
      exact ⟨_, videoTaken_begins hopen hp hclosed hid, completeAu_nextAu _ _, rfl, rfl, rfl⟩
  · have hrec := takeRecord_foreign (n := n) (s := s) (x := afterBytes k f r (s.stream n)) (warLen_bounds hk) hmagic hver htype
    have hstreams := streamEvent_streams n 11 0 0 (s.setStream n (afterBytes k f r (s.stream n)))
    rw [stream_setStream, State.setStream, tput_tput_same] at hstreams
    exact congrArg Host.Outcome.next (doWarRecord_eq hup hc hf hk hlen hd hrec hstreams rfl)
  · have hrec := takeRecord_video (n := n) (s := s) (x := afterBytes k f r (s.stream n)) (warLen_bounds hk) hmagic hver hcodec htype
    have hlen' : (f.bytes.take k).length = k := by simp [hlen.le]
    have hnone : (afterBytes k f r (s.stream n)).openAu = none := List.find?_eq_none.mpr (fun b hb => by simp [(hids b hb).1])
    rw [hlen', warVideo_whole hfirst hlast hcont hnone] at hrec
    refine ⟨_, congrArg Host.Outcome.next (doWarRecord_eq hup hc hf hk hlen hd hrec rfl ?_), fun m hm => stream_setStream_other _ _ hm, rfl, ?_, ?_⟩
    · simp [wholeTaken, afterBytes]
    · rw [stream_setStream]
      simp [wholeTaken, beginAu, afterBytes]
    · rw [stream_setStream]
      exact wholeTaken_aus hids
  · have hrec := takeRecord_audio (n := n) (s := s) (x := afterBytes k f r (s.stream n)) (warLen_bounds hk) hmagic hver hcodec htype hmics hwhole
    rw [warAudio_first (x := keepRecord (f.bytes.take k) f.tick (afterBytes k f r (s.stream n))) hvalid hcont hgap hpts] at hrec
    obtain ⟨o, hpcm⟩ := writePcm_shape n f.tick false (warPayload k f) s
      (firstAudio f (warPayload k f) (keepRecord (f.bytes.take k) f.tick (afterBytes k f r (s.stream n))))
    rw [hpcm] at hrec
    refine ⟨_, congrArg Host.Outcome.next (doWarRecord_eq hup hc hf hk hlen hd hrec rfl rfl), fun m hm => stream_setStream_other _ _ hm, rfl, rfl, ?_⟩
    rw [stream_written (t := { State.setStream _ _ _ with obs := o }) rfl]
    exact ⟨rfl, rfl, rfl, fun hshort => pcmWritten_tail (zeros := false) hshort⟩

end Sys2Proof.Parsing
end

section
/-! STREAM_OPEN (04 R77-R82; 03 R69, R70, R72): the buffers it takes, the slot it opens, and the open that waited behind a close. -/

namespace Sys2Proof.Opening

open Sys2Proof.Machine Sys2Proof.Laws

/-! ### Buffers -/

/-- Buffers have been taken: device memory's bookkeeping has moved, and no byte of it (11 R271, R274, R275). -/
def Taken (s t : State) : Prop := ∃ d, t = { s with dram := d } ∧ d.cells = s.dram.cells

theorem Taken.refl (s : State) : Taken s s := ⟨s.dram, rfl, rfl⟩

theorem Taken.trans {s t u : State} (h : Taken s t) (h' : Taken t u) : Taken s u := by
  obtain ⟨d, rfl, hd⟩ := h
  obtain ⟨d', rfl, hd'⟩ := h'
  exact ⟨d', rfl, hd'.trans hd⟩

theorem takeBuf_taken (p : Nat) (ecc : Bool) (s : State) : Taken s (takeBuf p ecc s).2 := by
  unfold takeBuf
  dsimp only
  split <;> exact ⟨_, rfl, rfl⟩

theorem takePlan_taken {ecc : Bool} {ps : List Nat} {got b : List Alloc} {s t : State} (h : takePlan ecc ps got s = (some b, t)) : Taken s t := by
  induction ps generalizing got s with
  | nil => obtain ⟨-, rfl⟩ := Prod.mk.inj h; exact .refl s
  | cons p ps ih =>
    have hbuf := takeBuf_taken p ecc s
    unfold takePlan at h
    split at h
    · next a u hu => rw [hu] at hbuf; exact hbuf.trans (ih h)
    · cases h

theorem takeRun_taken (n : Nat) (s : State) : Taken s (takeRun n s).2 := by
  unfold takeRun
  dsimp only
  split
  · exact .refl s
  · exact ⟨_, rfl, rfl⟩

theorem allocAll_taken {safety ecc : Bool} {ns : List Nat} {got b : List (List Alloc)} {s t : State}
    (h : allocAll safety ecc ns got s = (some b, t)) : Taken s t := by
  induction ns generalizing got s with
  | nil => obtain ⟨-, rfl⟩ := Prod.mk.inj h; exact .refl s
  | cons n ns ih =>
    unfold allocAll at h
    dsimp only at h
    split at h
    · next l u hu =>
      refine Taken.trans ?_ (ih h)
      cases safety with
      | false => exact takePlan_taken hu
      | true =>
        have hrun := takeRun_taken n s
        rw [if_pos rfl] at hu
        split at hu
        · next a v hv =>
          obtain ⟨-, rfl⟩ := Prod.mk.inj hu
          rwa [hv] at hrun
        · cases hu
    · cases h

/-! ### The configuration change of a SAFETY stream (14 R315, R319) -/

theorem detect_off {k : Nat} {s : State} (h : s.safety.state = 0) :
    detect k s = { s with safety := { s.safety with seen := tput s.safety.seen k (tget s.safety.seen k 0 + 1) } } := by
  simp [detect, h]

theorem setSafety_safety (f : Safety) (s : State) : (setSafety f s).safety = f := by
  obtain ⟨_, _, _, _, h⟩ := setSafety_shape f s
  rw [h]

theorem freezeTrigger_safety (k : Nat) (s : State) : (freezeTrigger k s).safety = s.safety := rfl

theorem maskBit_maskSet (m k : Nat) : maskBit (maskSet m k) k = true := by
  simp [maskBit, maskSet, Nat.testBit_or, Nat.testBit_two_pow_self]

/-- The safety state that a cause trips while armed. -/
def tripped (k : Nat) (s : State) : Safety :=
  { s.safety with state := 2, causes := maskSet s.safety.causes k, first := some k, tripTick := s.now, trips := satAdd 16 s.safety.trips 1, safeN := false }

/-- While armed, a cause trips safety: SAFE_n falls and the cause is kept. -/
theorem detect_armed {k : Nat} {s : State} (h : s.safety.state = 1) :
    (detect k s).safety.state = 2 ∧ (detect k s).safety.safeN = false ∧ maskBit (detect k s).safety.causes k = true := by
  have htrips : detect k s = freezeTrigger 2 (setSafety (tripped k s) s) := by
    unfold detect
    dsimp only
    split
    · rfl
    · next h' => rw [h] at h'; cases h'
    · next h' _ => exact absurd h h'
  have hsafety : (detect k s).safety = tripped k s := by
    rw [htrips, freezeTrigger_safety, setSafety_safety]
  rw [hsafety]
  exact ⟨rfl, rfl, maskBit_maskSet _ _⟩

/-! ### The slot -/

/-- The slot that STREAM_OPEN leaves, opened at tick `t` (04 R77, R80, R82). -/
def slotOpened (c : StreamCfg) (bufs : List (List Alloc)) (k t : Nat) (x : Stream) : Stream :=
  { Stream.closed x.gen with
    isOpen := true, cfg := c, engine := k, retCap := c.retBytes, deferred := x.deferred, wholeAt := t
    picRegion := if c.codec = 2 then [] else bufs.getD 0 []
    retAllocs := bufs.getD (if c.codec = 2 then 0 else 1) []
    allocs := bufs.getD (if c.codec = 2 then 1 else 2) [] }

/-- The entropy engine of an open: an audio stream has none (04 R80). -/
def engineOf (c : StreamCfg) (s : State) : Nat := if c.codec = 2 then 0 else pickEngine s

/-- The part with the slot opened and the reconstruction pool's order set anew (04 R81). -/
def slotTaken (n : Nat) (c : StreamCfg) (bufs : List (List Alloc)) (k : Nat) (u : State) : State :=
  setPool (u.setStream n (slotOpened c bufs k u.now (u.stream n)))

/-- The part when the open completes: a SAFETY stream is a configuration change (14 Table 14.2). -/
def opened (n : Nat) (c : StreamCfg) (bufs : List (List Alloc)) (k : Nat) (u : State) : State :=
  if c.safety then detect 15 (slotTaken n c bufs k u) else slotTaken n c bufs k u

/-- Room in the budgets for one stream more (04 R80, R82). -/
def Budgeted (c : StreamCfg) (n : Nat) (s : State) : Prop :=
  (c.codec = 2 → audioCount s < 64) ∧
  (c.codec ≠ 2 → pixSum s n + c.bPix ≤ 6400000000 ∧ engineLoad s (engineOf c s) + c.bins ≤ 1000000000)

theorem admitStream_opens {j n : Nat} {c : StreamCfg} {s u : State} {bufs : List (List Alloc)} (hroom : Budgeted c n s)
    (halloc : allocAll c.safety false c.buffers [] s = (some bufs, u)) : admitStream j n c s =
      finishCtx j stOpenOk (u.stream n).gen n [w32 c.buffers.sum, hi32 c.buffers.sum, w32 (engineOf c s)] (opened n c bufs (engineOf c s) u) := by
  obtain ⟨haudio, hvideo⟩ := hroom
  unfold admitStream
  rw [halloc]
  by_cases hc : c.codec = 2
  · have hk : engineOf c s = 0 := if_pos hc
    have hcount := haudio hc
    rw [hk]
    simp [hc, Nat.not_le.mpr hcount, opened, slotTaken, slotOpened, openedStream]
  · have hk : engineOf c s = pickEngine s := if_neg hc
    rw [hk] at hvideo ⊢
    obtain ⟨hpix, hbins⟩ := hvideo hc
    simp [hc, Config.decodeBudget, Config.engineBins, Nat.not_lt.mpr hpix, Nat.not_lt.mpr hbins, opened, slotTaken, slotOpened, openedStream]

/-- Checks of STREAM_OPEN passed: context state, GEN and parameters (03 R57, R69). -/
theorem openStream_admits {j n : Nat} {e : JEntry} {s : State} (hctx : e.ctx = n ∨ e.ctx = 0xFFFF ∧ freeSlot s = some n) (hn : n < 128)
    (hclosed : (s.stream n).isOpen = false) (hgen : e.gen = 0) (hbad : (StreamCfg.ofEntry e).bad = none) :
    openStream j e s = admitStream j n (StreamCfg.ofEntry e) s := by
  have hslot : (decide (e.ctx ≠ 0xFFFF) && (s.stream e.ctx).isOpen) = false ∧ (if e.ctx = 0xFFFF then freeSlot s else some e.ctx) = some n := by
    obtain rfl | ⟨hany, hfree⟩ := hctx
    · exact ⟨by simp [hclosed], if_neg (by omega)⟩
    · exact ⟨by simp [hany], by rw [if_pos hany, hfree]⟩
  unfold openStream
  simp only [hslot.1, hslot.2, hgen, hbad, Bool.false_eq_true, ne_eq, not_true_eq_false, if_false]

/-- What an open changes beyond the slot: the safety state, INTA and the freeze trigger where it is a configuration change. -/
theorem opened_shape (n : Nat) (c : StreamCfg) (bufs : List (List Alloc)) (k : Nat) (u : State) :
    ∃ f p o, opened n c bufs k u = { slotTaken n c bufs k u with safety := f, pcie := p, obs := o } := by
  unfold opened
  split
  · obtain ⟨_, _, _, _, _, _, _, _, h⟩ := detect_shape 15 (slotTaken n c bufs k u)
    exact ⟨_, _, _, h⟩
  · exact ⟨_, _, _, rfl⟩

/-- While safety is off, the open of a SAFETY stream is counted (14 R315). -/
theorem opened_off {c : StreamCfg} {u : State} (hsafe : c.safety = true) (hoff : u.safety.state = 0) (n : Nat) (bufs : List (List Alloc)) (k : Nat) :
    (opened n c bufs k u).safety.state = 0 ∧ tget (opened n c bufs k u).safety.seen 15 0 = tget u.safety.seen 15 0 + 1 := by
  have hstate : (slotTaken n c bufs k u).safety.state = 0 := hoff
  rw [opened, if_pos hsafe, detect_off hstate]
  exact ⟨hoff, tget_tput_same _ _ _ _⟩

/-- While it is armed, it trips (14 R319). -/
theorem opened_armed {c : StreamCfg} {u : State} (hsafe : c.safety = true) (harmed : u.safety.state = 1) (n : Nat) (bufs : List (List Alloc)) (k : Nat) :
    (opened n c bufs k u).safety.state = 2 ∧ (opened n c bufs k u).safety.safeN = false ∧
      maskBit (opened n c bufs k u).safety.causes 15 = true := by
  rw [opened, if_pos hsafe]
  exact detect_armed harmed

theorem slotTaken_stream (n : Nat) (c : StreamCfg) (bufs : List (List Alloc)) (k : Nat) (u : State) :
    (slotTaken n c bufs k u).stream n = slotOpened c bufs k u.now (u.stream n) := tget_tput_same _ _ _ _

theorem slotTaken_stream_other {n m : Nat} (hm : m ≠ n) (c : StreamCfg) (bufs : List (List Alloc)) (k : Nat) (u : State) :
    (slotTaken n c bufs k u).stream m = u.stream m := tget_tput_other _ _ _ hm

/-! ### The open that waited behind a close (03 R72) -/

/-- A STREAM_OPEN that may run is no command for another part (03 R74). -/
theorem streamOpen_named {e : JEntry} {chip : Nat} (hop : e.opcode = 0x10) (hctx : e.ctx < 128) (h : staticCheck chip e = none) :
    e.named chip = some (false, e.ctx) := by
  have hhere : e.remoteTo chip = false := by
    cases hr : e.remoteTo chip with
    | false => rfl
    | true =>
      unfold staticCheck at h
      rw [hop] at h
      cases hp : e.port <;> simp [opInfo, OpInfo.allows, hr, hp] at h
  simp [JEntry.named, hhere, hop, opInfo, hctx]

/-- It runs as it would have run, and its slot is busy until then. -/
theorem doDeferredOpenRun_runs {j n : Nat} {e : JEntry} {s s0 : State} (hruns : Runs s j 0x10 e) (hctx : e.ctx = n) (hn : n < 128)
    (hentry : s0.entry? j = some { e with st := .deferred }) (hopening : (s0.stream n).opening = true)
    (hs : clearDeferred (false, n) (modEntry j (fun y => { y with st := .waiting }) s0) = s) :
    ({ e with st := .deferred } : JEntry).named s0.link.chip = some (false, n) ∧
    doDeferredOpenRun j s0 = (doStreamOpen j s).modStream n (fun x => { x with opening := false }) := by
  obtain ⟨he, hbegin, hcheck⟩ := hruns
  have hop : e.opcode = 0x10 := by
    unfold mayBegin at hbegin
    rw [he] at hbegin
    simp only [Bool.and_eq_true, decide_eq_true_eq] at hbegin
    tauto
  have hlink : s.link.chip = s0.link.chip := by rw [← hs]; rfl
  have hnamed : ({ e with st := .deferred } : JEntry).named s0.link.chip = some (false, n) := by
    rw [← hctx, ← hlink]
    exact streamOpen_named hop (hctx ▸ hn) hcheck
  refine ⟨hnamed, ?_⟩
  unfold doDeferredOpenRun
  rw [hentry]
  dsimp only
  rw [hnamed]
  dsimp only
  rw [if_neg (by simp [openingOf, hopening]), hs]
  have hmay : mayBegin s j ({ e with st := .deferred } : JEntry).opcode = true := by
    change mayBegin s j e.opcode = true
    rw [hop, hbegin]
  rw [if_pos hmay]
  change endOpening j (false, n) (runCmd j e.opcode s (openStream j)) = _
  rw [hop]
  rfl

/-- Settles O21: the checks passed, `admitStream` takes the buffers (`allocAll_taken`) and opens the slot (`opened`); the open that waited runs the same
command (`doDeferredOpenRun_runs`). -/
theorem streamOpened : Obligations.StreamOpened := by
  unfold Obligations.StreamOpened
  refine ⟨fun j n e s bufs u hruns hctx hn hclosed hgen hbad haudio hvideo halloc => ?_,
    fun j n e s s0 hruns hctx hn hentry hopening hs => ?_⟩
  · obtain ⟨he, hbegin, hcheck⟩ := hruns
    have hrun : doStreamOpen j s = admitStream j n (StreamCfg.ofEntry e) (beginCmd e s) :=
      (runCmd_body he hbegin hcheck _).trans (openStream_admits (s := beginCmd e s) hctx hn hclosed hgen hbad)
    have hopens := hrun.trans (admitStream_opens (j := j) (s := beginCmd e s) ⟨haudio, hvideo⟩ halloc)
    obtain ⟨d, hu, hcells⟩ := allocAll_taken halloc
    have hstream (m : Nat) : u.stream m = s.stream m := by rw [hu]; rfl
    have hsafety : u.safety = s.safety := by rw [hu]; rfl
    rw [hstream] at hopens
    refine ⟨_, congrArg Host.Outcome.next hopens, ?_⟩
    obtain ⟨f, p, o, hv⟩ := opened_shape n (StreamCfg.ofEntry e) bufs (engineOf (StreamCfg.ofEntry e) (beginCmd e s)) u
    refine ⟨?_, fun m hm => ?_, ?_, ?_, ?_, ?_, ?_, fun hsafe hoff => ?_, fun hplain => ?_, fun hsafe harmed => ?_⟩
    · rw [hv]
      refine (slotTaken_stream n _ _ _ _).trans ?_
      rw [hstream, hu]
      rfl
    · rw [hv]
      exact (slotTaken_stream_other hm _ _ _ _).trans (hstream m)
    · rw [hv]; rfl
    · rw [hv, hu]; exact hcells
    · rw [hv, hu]; rfl
    · rw [hv, hu]; rfl
    · rw [hv]; rfl
    · rw [← hsafety]
      exact opened_off hsafe (hsafety ▸ hoff) _ _ _
    · rw [opened, if_neg (by simp [hplain]), hu]
      rfl
    · exact opened_armed hsafe (hsafety ▸ harmed) _ _ _
  · obtain ⟨hnamed, hopen⟩ := doDeferredOpenRun_runs hruns hctx hn hentry hopening hs
    refine ⟨doStreamOpen j s, rfl, ?_⟩
    rw [← hopen]
    simp [exec, execDeferredOpenRun, hentry, hnamed]

end Sys2Proof.Opening
end

section
/-! What one record does to its output ring and to host memory: placed, held, covered by a tail write-back (03 R53, R54). -/

namespace Sys2Proof.RingWrites

open Sys2Proof.Machine Sys2Proof.Laws Sys2Proof.RecordWriter

/-! ### Output rings under the shared operations -/

theorem oring_congr {s t : State} (h : t.outq = s.outq) (o : Nat) : t.oring o = s.oring o := by
  rw [State.oring, h, State.oring]

@[simp] theorem oring_emit (kind src ctx niche don band a0 a1 o : Nat) (s : State) :
    (emit kind src ctx niche don band a0 a1 s).oring o = s.oring o :=
  oring_congr (kept_outq (emit_kept kind src ctx niche don band a0 a1 s)) o

@[simp] theorem oring_setCause (k o : Nat) (s : State) : (setCause k s).oring o = s.oring o :=
  oring_congr (kept_outq (setCause_kept k s)) o

theorem setCause_hostMem (k : Nat) (s : State) : (setCause k s).hostMem = s.hostMem := by
  obtain ⟨_, _, _, h⟩ := setCause_shape k s
  rw [h]

theorem detect_outq (k : Nat) (s : State) : (detect k s).outq = s.outq := by
  obtain ⟨_, _, _, _, _, _, _, _, h⟩ := detect_shape k s
  rw [h]

theorem detect_hostMem (k : Nat) (s : State) : (detect k s).hostMem = s.hostMem := by
  obtain ⟨_, _, _, _, _, _, _, _, h⟩ := detect_shape k s
  rw [h]

/-! ### The tail write-back -/

/-- A ring whose tail write-back covers every record written. -/
def coveredRing (r : OutRing) : OutRing := { r with tail := r.wr, uncovered := [], uncoveredBytes := 0, active := r.ringEn }

theorem tailWriteBack_oring (o : Nat) (s : State) : (tailWriteBack o s).oring o = coveredRing (s.oring o) := by
  have hcov : (covered o s).oring o = coveredRing (s.oring o) := oring_setOring _ _ _
  rw [tailWriteBack_eq]
  split <;> simp [hcov]

theorem tailWriteBack_hostMem (o : Nat) (s : State) : (tailWriteBack o s).hostMem =
    mwrite s.hostMem (join64 (s.oring o).tailWbLo (s.oring o).tailWbHi) (wordsBytes [w32 (s.oring o).wr, 0]) := by
  rw [tailWriteBack_eq]
  split
  · rw [setCause_hostMem, RasterTime.emit_hostMem]; rfl
  · rw [RasterTime.emit_hostMem]; rfl

/-- With OUT_IRQ set the tail write-back sets the ring's cause (03 R53). -/
theorem tailWriteBack_cause {o : Nat} {s : State} (ho : o < 8) (hirq : (s.oring o).irqEn = true) :
    (tailWriteBack o s).pcie.cause.getLsbD (8 + o) = true := by
  rw [tailWriteBack_eq, if_pos hirq]
  exact HostRings.setCause_cause (by omega) _

theorem coalesce_oring (o : Nat) (s : State) :
    (coalesce o s).oring o = s.oring o ∨ (coalesce o s).oring o = coveredRing (s.oring o) := by
  unfold coalesce
  dsimp only
  split
  · exact .inl rfl
  · split
    · exact .inr (tailWriteBack_oring o s)
    · exact .inl rfl

theorem coalesce_wr (o : Nat) (s : State) : ((coalesce o s).oring o).wr = (s.oring o).wr := by
  obtain h | h := coalesce_oring o s <;> simp [h, coveredRing]

theorem coalesce_held (o : Nat) (s : State) : ((coalesce o s).oring o).held = (s.oring o).held := by
  obtain h | h := coalesce_oring o s <;> simp [h, coveredRing]

/-- No tail write-back is due: OUT_COAL is not 0 and fewer than OUT_COAL_BYTES bytes stand uncovered. -/
theorem coalesce_waits {o : Nat} {s : State} (hcoal : (s.oring o).coal ≠ 0) (hbytes : (s.oring o).uncoveredBytes < (s.oring o).coalBytes.toNat) :
    coalesce o s = s := by
  unfold coalesce
  dsimp only
  rw [decide_eq_false hcoal, decide_eq_false (by omega)]
  exact ite_self s

/-! ### A record placed -/

/-- The ring after a record of `b`'s words was written at tick `now`. -/
def writtenRing (now : Nat) (b : BuiltRec) (r : OutRing) : OutRing :=
  { r with
    wr := (r.wr + (wordsBytes b.words).length) % r.bytes, uncovered := r.uncovered ++ [b.tag]
    due := if r.uncovered.isEmpty then now + r.coal.toNat else r.due, uncoveredBytes := r.uncoveredBytes + (wordsBytes b.words).length }

theorem written_oring (o : Nat) (b : BuiltRec) (s : State) : (written o b s).oring o = writtenRing s.now b (s.oring o) := oring_setOring _ _ _

/-- A record that does not pass the end of the ring is written in one piece. -/
theorem written_hostMem {o : Nat} {b : BuiltRec} {s : State} (h : (s.oring o).wr + 4 * b.words.length ≤ (s.oring o).bytes) :
    (written o b s).hostMem =
      mwrite s.hostMem (join64 (s.oring o).baseLo (s.oring o).baseHi + (s.oring o).wr) (wordsBytes b.words) := by
  have hlen : (wordsBytes b.words).length ≤ (s.oring o).bytes - (s.oring o).wr := by
    rw [Posting.wordsBytes_length]; omega
  change mwrite (mwrite s.hostMem _ (List.take _ _)) _ (List.drop _ _) = _
  rw [List.take_of_length_le hlen, List.drop_eq_nil_of_le hlen, mwrite]

theorem placeRec_wr (o : Nat) (b : BuiltRec) (s : State) :
    ((placeRec o b s).oring o).wr = ((s.oring o).wr + 4 * b.words.length) % (s.oring o).bytes := by
  rw [placeRec_eq, coalesce_wr, oring_emit, written_oring, ← Posting.wordsBytes_length]
  rfl

theorem placeRec_held (o : Nat) (b : BuiltRec) (s : State) : ((placeRec o b s).oring o).held = (s.oring o).held := by
  rw [placeRec_eq, coalesce_held, oring_emit, written_oring]
  rfl

/-- Where no tail write-back is due, placing a record only writes and traces it. -/
theorem placeRec_uncovered {o : Nat} {b : BuiltRec} {s : State} (hcoal : (s.oring o).coal ≠ 0)
    (hbytes : (s.oring o).uncoveredBytes + 4 * b.words.length < (s.oring o).coalBytes.toNat) :
    placeRec o b s = emit 0x07 0x23 b.tag.context 0xFFFFFF b.tag.don b.tag.band b.tag.seq (b.tag.type + 256 * o) (written o b s) := by
  rw [placeRec_eq]
  apply coalesce_waits <;> rw [oring_emit, written_oring]
  · exact hcoal
  · rw [← Posting.wordsBytes_length] at hbytes
    exact hbytes

/-! ### A record handed over -/

/-- The words `ws` of a record handed to ring `o` between the two states: written at the write offset where the ring is on and has room, held where it is
off. -/
def HandedOver (o : Nat) (ws : List Word) (s t : State) : Prop :=
  ((s.oring o).ringEn = true → (s.oring o).fits (4 * ws.length) = true → (s.oring o).wr + 4 * ws.length ≤ (s.oring o).bytes →
    (t.oring o).wr = ((s.oring o).wr + 4 * ws.length) % (s.oring o).bytes ∧ (t.oring o).held = [] ∧
    ((s.oring o).coal ≠ 0 → (s.oring o).uncoveredBytes + 4 * ws.length < (s.oring o).coalBytes.toNat →
      mread t.hostMem (join64 (s.oring o).baseLo (s.oring o).baseHi + (s.oring o).wr) (4 * ws.length) = wordsBytes ws ∧
      (t.oring o).tail = (s.oring o).tail ∧
      ∀ a, a < join64 (s.oring o).baseLo (s.oring o).baseHi + (s.oring o).wr ∨
        join64 (s.oring o).baseLo (s.oring o).baseHi + (s.oring o).wr + 4 * ws.length ≤ a → mget t.hostMem a = mget s.hostMem a)) ∧
  ((s.oring o).ringEn = false → t.hostMem = s.hostMem ∧ (t.oring o).held.map (·.words) = [ws] ∧ (t.oring o).wr = (s.oring o).wr)

/-- What is handed over depends on the rings and host memory alone. -/
theorem HandedOver.congr {o : Nat} {ws : List Word} {s s' t t' : State} (h : HandedOver o ws s t) (hs : s'.outq = s.outq)
    (hsm : s'.hostMem = s.hostMem) (ht : t'.outq = t.outq) (htm : t'.hostMem = t.hostMem) : HandedOver o ws s' t' := by
  simpa only [HandedOver, oring_congr hs, oring_congr ht, hsm, htm] using h

/-- A ring that is off keeps its write offset and host memory when a hold begins: only OUTPUT_HELD may be detected. -/
theorem beginHold_off (o : Nat) (s : State) :
    (beginHold o false s).outq = s.outq ∧ (beginHold o false s).hostMem = s.hostMem := by
  have hnoted : holdNoted o false s = s := rfl
  obtain h | h := beginHold_eq o false s
  · rw [h, hnoted]
    exact ⟨detect_outq 16 s, detect_hostMem 16 s⟩
  · rw [h, hnoted]
    exact ⟨rfl, rfl⟩

theorem putRec_fits {o : Nat} {b : BuiltRec} {s : State} (hheld : (s.oring o).held = []) (hd3 : s.pcie.d3 = false)
    (hon : (s.oring o).ringEn = true) (hfits : (s.oring o).fits (4 * b.words.length) = true) : putRec o b s = placeRec o b s := by
  unfold putRec
  simp [hheld, hd3, hon, hfits]

theorem putRec_off {o : Nat} {b : BuiltRec} {s : State} (hoff : (s.oring o).ringEn = false) :
    putRec o b s = (beginHold o false s).setOring o { s.oring o with held := (s.oring o).held ++ [b] } := by
  obtain ⟨hrings, -⟩ := beginHold_off o s
  unfold putRec
  simp [hoff, oring_congr hrings]

theorem putRec_handedOver {o : Nat} (b : BuiltRec) {s : State} (hheld : (s.oring o).held = []) (hd3 : s.pcie.d3 = false)
    (hwf : Memory.wf s.hostMem = true) : HandedOver o b.words s (putRec o b s) := by
  refine ⟨fun hon hfits hend => ?_, fun hoff => ?_⟩
  · rw [putRec_fits hheld hd3 hon hfits]
    refine ⟨placeRec_wr o b s, (placeRec_held o b s).trans hheld, fun hcoal hbytes => ?_⟩
    rw [placeRec_uncovered hcoal hbytes, RasterTime.emit_hostMem, oring_emit, written_oring, written_hostMem hend, ← Posting.wordsBytes_length]
    exact ⟨Posting.mread_mwrite hwf _ _, rfl, fun a ha => mget_mwrite_outside _ _ ha⟩
  · rw [putRec_off hoff]
    refine ⟨(beginHold_off o s).2, ?_, ?_⟩ <;> simp [hheld]

/-! ### Held records leave -/

/-- A release of held records does what handing records over does, and takes none but the oldest. -/
theorem releaseHeld_drops (fuel o : Nat) (s : State) :
    Recorded s (releaseHeld fuel o s) ∧ ∃ k, ((releaseHeld fuel o s).oring o).held = (s.oring o).held.drop k := by
  induction fuel generalizing s with
  | zero => exact ⟨.refl s, 0, rfl⟩
  | succ fuel ih =>
    unfold releaseHeld
    dsimp only
    split
    next hnone => exact ⟨.setOring s o _, 0, by simp [hnone]⟩
    next b bs hheld =>
      split
      next =>
        obtain ⟨hrec, k, hk⟩ := ih (placeRec o b (s.setOring o { s.oring o with held := bs, fullHold := (s.oring o).fullHold && !bs.isEmpty }))
        refine ⟨((Recorded.setOring s o _).trans (.placeRec _ o b)).trans hrec, k + 1, ?_⟩
        rw [hk, placeRec_held, oring_setOring, hheld, List.drop_succ_cons]
      next =>
        split
        · exact ⟨(Recorded.setOring s o _).trans (.setCause _ 16), 0, by simp⟩
        · exact ⟨.refl s, 0, rfl⟩

theorem releaseHeld_off {fuel o : Nat} {s : State} (hoff : (s.oring o).ringEn = false) (hheld : (s.oring o).held ≠ []) :
    releaseHeld (fuel + 1) o s = s := by
  obtain ⟨b, bs, h⟩ := List.exists_cons_of_ne_nil hheld
  unfold releaseHeld
  simp [h, hoff]

/-- The one record held leaves where it fits. -/
theorem releaseHeld_one {o : Nat} {b : BuiltRec} {s : State} (hd3 : s.pcie.d3 = false) (hheld : (s.oring o).held = [b])
    (hon : (s.oring o).ringEn = true) (hfits : (s.oring o).fits (4 * b.words.length) = true) :
    ((releaseHeld 2 o s).oring o).held = [] ∧
      ((releaseHeld 2 o s).oring o).wr = ((s.oring o).wr + 4 * b.words.length) % (s.oring o).bytes := by
  have hplaced : releaseHeld 2 o s = releaseHeld 1 o (placeRec o b (s.setOring o { s.oring o with held := [], fullHold := false })) := by
    rw [releaseHeld]
    simp [hheld, hon, hfits, hd3]
  have hnone : ((placeRec o b (s.setOring o { s.oring o with held := [], fullHold := false })).oring o).held = [] := by
    rw [placeRec_held, oring_setOring]
  rw [hplaced, releaseHeld]
  simp only [hnone, oring_setOring, placeRec_wr, true_and]
  rfl

/-- A hold that goes on because the ring is full is one of that kind from then on, and sets OUT_FULL's cause where it was not (03 R54). -/
theorem releaseHeld_full {fuel o : Nat} {b : BuiltRec} {l : List BuiltRec} {s : State} (hheld : (s.oring o).held = b :: l)
    (hon : (s.oring o).ringEn = true) (hfull : (s.oring o).fits (4 * b.words.length) = false) :
    ((releaseHeld (fuel + 1) o s).oring o).held = (s.oring o).held ∧ ((releaseHeld (fuel + 1) o s).oring o).fullHold = true ∧
      ((s.oring o).fullHold = false → (releaseHeld (fuel + 1) o s).pcie.cause.getLsbD 16 = true) := by
  cases hknown : (s.oring o).fullHold with
  | true =>
    have hstays : releaseHeld (fuel + 1) o s = s := by
      unfold releaseHeld
      simp [hheld, hon, hfull, hknown]
    rw [hstays]
    exact ⟨rfl, hknown, fun h => absurd h (by decide)⟩
  | false =>
    have hnoted : releaseHeld (fuel + 1) o s = setCause 16 (s.setOring o { s.oring o with fullHold := true }) := by
      unfold releaseHeld
      simp [hheld, hon, hfull, hknown]
    rw [hnoted]
    exact ⟨by simp, by simp, fun _ => HostRings.setCause_cause (by decide) _⟩

end Sys2Proof.RingWrites
end

section
/-! OUT_COAL_EXPIRY: the clock is carried to the tick of the tail write-back, and the write-back follows (03 R53). -/

namespace Sys2Proof.CoalExpiry

open Sys2Proof.Machine Sys2Proof.Laws Sys2Proof.RecordWriter Sys2Proof.RingWrites Sys2Proof.RasterTime

/-! ### The passing of ticks -/

/-- The ring after `n` more ticks: OUT_FULL_TICKS counts those of a hold of a full ring (03 R54). -/
def holdTicks (n : Nat) (r : OutRing) : OutRing := if r.fullHold then { r with fullTicks := (r.fullTicks + n) % 2 ^ 64 } else r

theorem tget_map {α : Type} {f : α → α} {d : α} (hd : f d = d) (t : Tab α) (k : Nat) :
    tget (t.map (fun e => (e.1, f e.2))) k d = f (tget t k d) := by
  induction t with
  | nil => exact hd.symm
  | cons e t ih =>
    rw [List.map_cons, tget, tget, ih]
    split <;> rfl

/-- Ring `r'` is `r` but for OUT_FULL_TICKS. -/
def SameButFullTicks (r r' : OutRing) : Prop := ∃ n, r' = { r with fullTicks := n }

theorem sameButFullTicks_holdTicks (n : Nat) (r : OutRing) : SameButFullTicks r (holdTicks n r) := by
  unfold holdTicks
  split
  · exact ⟨_, rfl⟩
  · exact ⟨_, rfl⟩

theorem SameButFullTicks.trans {r r' r'' : OutRing} (h : SameButFullTicks r r') (h' : SameButFullTicks r' r'') : SameButFullTicks r r'' := by
  obtain ⟨_, rfl⟩ := h
  obtain ⟨_, rfl⟩ := h'
  exact ⟨_, rfl⟩

/-- `n` ticks pass between the two states, and a ring changes in OUT_FULL_TICKS alone; streams, host memory and DRAM stay. -/
structure Passed (n : Nat) (s t : State) : Prop where
  tick : t.chip.tick = (s.chip.tick + n) % 2 ^ 64
  rings : ∀ o, SameButFullTicks (s.oring o) (t.oring o)
  hostMem : t.hostMem = s.hostMem
  streams : t.streams = s.streams
  dram : t.dram = s.dram

theorem Passed.trans {m n : Nat} {s t u : State} (h : Passed m s t) (h' : Passed n t u) : Passed (m + n) s u where
  tick := by rw [h'.tick, h.tick]; omega
  rings o := (h.rings o).trans (h'.rings o)
  hostMem := h'.hostMem.trans h.hostMem
  streams := h'.streams.trans h.streams
  dram := h'.dram.trans h.dram

theorem accrue_passed (n : Nat) (s : State) : Passed n s (accrue n s) where
  tick := rfl
  rings o := by
    have hring : (accrue n s).oring o = holdTicks n (s.oring o) := tget_map (f := holdTicks n) rfl s.outq o
    exact hring ▸ sameButFullTicks_holdTicks n (s.oring o)
  hostMem := rfl
  streams := rfl
  dram := rfl

theorem nextTick_passed (s : State) : Passed 1 s (nextTick s) := by
  obtain ⟨htick, hrings, hhostMem, hstreams, hdram⟩ := accrue_passed 1 { s with obs := { s.obs with trigOut := false, tickTrig := 0 } }
  exact ⟨htick, hrings, hhostMem, hstreams, hdram⟩

theorem tickOne_passed (s : State) : Passed 1 s (tickOne s) := by
  have hnext := nextTick_passed s
  rw [tickOne_eq]
  split
  · refine ⟨?_, fun o => ?_, ?_, ?_, ?_⟩
    · rw [emit_chip]; exact hnext.tick
    · rw [oring_emit]; exact hnext.rings o
    · rw [emit_hostMem]; exact hnext.hostMem
    · rw [emit_streams]; exact hnext.streams
    · rw [emit_dram]; exact hnext.dram
  · exact hnext

theorem advance_passed (n : Nat) (s : State) (h : s.chip.tick < 2 ^ 64) : Passed n s (advance n s) := by
  match n with
  | 0 => exact ⟨(Nat.mod_eq_of_lt h).symm, fun _ => ⟨_, rfl⟩, rfl, rfl, rfl⟩
  | 1 => exact tickOne_passed s
  | k + 2 =>
    have hall : Passed (1 + (k + 1)) s (accrue (k + 1) (tickOne s)) := (tickOne_passed s).trans (accrue_passed (k + 1) _)
    rw [Nat.add_comm] at hall
    exact ⟨hall.tick, hall.rings, hall.hostMem, hall.streams, hall.dram⟩

theorem advanceTo_passed {due : Nat} {s : State} (hahead : s.chip.tick ≤ due) (hdue : due < 2 ^ 64) :
    Passed (due - s.chip.tick) s (advanceTo due s) ∧ (advanceTo due s).chip.tick = due := by
  have hpassed : Passed (due - s.chip.tick) s (advanceTo due s) := advance_passed _ s (by omega)
  refine ⟨hpassed, ?_⟩
  rw [hpassed.tick]
  omega

/-! ### The tail write-back of the expiry -/

/-- The clause of O32 about OUT_COAL_EXPIRY. -/
theorem outCoalExpiry_covers {o : Nat} {s : State} (hd3 : s.pcie.d3 = false) (hrecs : (s.oring o).uncovered ≠ [])
    (hahead : s.chip.tick ≤ (s.oring o).due) (hdue : (s.oring o).due < 2 ^ 64) (ho : o < 8) :
    ∃ t, exec (.outCoalExpiry o) s = .next t ∧ t.chip.tick = (s.oring o).due ∧ (t.oring o).tail = (s.oring o).wr ∧ (t.oring o).uncovered = [] ∧
      (t.oring o).wr = (s.oring o).wr ∧
      t.hostMem = mwrite s.hostMem (join64 (s.oring o).tailWbLo (s.oring o).tailWbHi) (wordsBytes [w32 (s.oring o).wr, 0]) ∧
      ((s.oring o).irqEn = true → t.pcie.cause.getLsbD (8 + o) = true) ∧ t.streams = s.streams ∧ t.dram = s.dram := by
  obtain ⟨hpassed, htick⟩ := advanceTo_passed hahead hdue
  have hexec : exec (.outCoalExpiry o) s = .next (tailWriteBack o (advanceTo (s.oring o).due s)) := by
    have hdo : doOutCoalExpiry o s = tailWriteBack o (advanceTo (s.oring o).due s) := by
      simp [doOutCoalExpiry, hd3, hrecs]
    rw [← hdo]
    rfl
  obtain ⟨n, hring⟩ := hpassed.rings o
  have hmem := hpassed.hostMem
  have hstreams := hpassed.streams
  have hdram := hpassed.dram
  generalize advanceTo (s.oring o).due s = v at *
  have hrec := Recorded.tailWriteBack v o
  have hcov : (tailWriteBack o v).oring o = coveredRing (v.oring o) := tailWriteBack_oring o v
  rw [hring] at hcov
  refine ⟨_, hexec, by rw [hrec.chip, htick], by rw [hcov]; rfl, by rw [hcov]; rfl, by rw [hcov]; rfl, ?_, fun hirq => ?_,
    hrec.streams.trans hstreams, hrec.dram.trans hdram⟩
  · rw [tailWriteBack_hostMem, hring, hmem]
  · exact tailWriteBack_cause ho (by rw [hring]; exact hirq)

/-- The clause of O32 about HELD_RECORD_RELEASE. -/
theorem heldRecordRelease_drops (o : Nat) {s : State} (hd3 : s.pcie.d3 = false) :
    ∃ t k, exec (.heldRecordRelease o) s = .next t ∧ (t.oring o).held = (s.oring o).held.drop k ∧ t.streams = s.streams ∧ t.sessions = s.sessions ∧
      t.dram = s.dram ∧ ((s.oring o).ringEn = false → (s.oring o).held ≠ [] → t = s) ∧
      (∀ b, (s.oring o).held = [b] → (s.oring o).ringEn = true → (s.oring o).fits (4 * b.words.length) = true →
        (t.oring o).held = [] ∧ (t.oring o).wr = ((s.oring o).wr + 4 * b.words.length) % (s.oring o).bytes) ∧
      (∀ b l, (s.oring o).held = b :: l → (s.oring o).ringEn = true → (s.oring o).fits (4 * b.words.length) = false →
        (t.oring o).held = (s.oring o).held ∧ (t.oring o).fullHold = true ∧ ((s.oring o).fullHold = false → t.pcie.cause.getLsbD 16 = true)) := by
  obtain ⟨hrec, k, hk⟩ := releaseHeld_drops ((s.oring o).held.length + 1) o s
  refine ⟨releaseHeld ((s.oring o).held.length + 1) o s, k, rfl, hk, hrec.streams, hrec.sessions, hrec.dram,
    fun hoff hheld => releaseHeld_off hoff hheld, fun b hheld hon hfits => ?_, fun b l hheld hon hfull => releaseHeld_full hheld hon hfull⟩
  have hone := releaseHeld_one hd3 hheld hon hfits
  rw [hheld]
  exact hone

end Sys2Proof.CoalExpiry
end

section
/-! The words of a record (04 R116, Table 4.8), and a record issued: built, numbered and handed to its ring. -/

namespace Sys2Proof.RecordWords

open Sys2Proof.Machine Sys2Proof.Laws Sys2Proof.RecordWriter Sys2Proof.RingWrites

/-! ### Layout -/

/-- Body words of a record, padded to its unit of LEN. -/
def padBody (body : List Word) : List Word := (padRec (List.replicate 8 0 ++ body)).drop 8

/-- Words of a record: header DW0-DW6, CRC, body. -/
def recordWords (hdr body : List Word) : List Word := hdr ++ [crcWords (hdr ++ body)] ++ body

theorem padBody_eq (body : List Word) : padBody body = body ++ List.replicate ((8 - (8 + body.length) % 8) % 8) 0 := by
  have hlen : (List.replicate 8 (0 : Word) ++ body).length = 8 + body.length := by
    rw [List.length_append, List.length_replicate]
  rw [padBody, padRec, hlen, List.append_assoc, List.drop_left' (List.length_replicate)]

theorem padBody_length (body : List Word) : (padBody body).length % 8 = 0 ∧ (padBody body).length < body.length + 8 := by
  rw [padBody_eq, List.length_append, List.length_replicate]
  omega

theorem take_padBody (body : List Word) : (padBody body).take body.length = body := by
  rw [padBody_eq, List.take_left]

/-- The words of a record carry these fields, CRC over DW0-DW6 and the body, and the body behind the header. -/
def Laid (type context gen seq : Nat) (don : Word) (band : Nat) (body ws : List Word) : Prop :=
  ws.length % 8 = 0 ∧ fld (ws.getD 0 0) 31 16 = ws.length / 8 ∧ fld (ws.getD 0 0) 15 8 = type ∧ fld (ws.getD 1 0) 15 0 = context ∧
    fld (ws.getD 1 0) 23 16 = gen ∧ ws.getD 2 0 = w32 seq ∧ ws.getD 3 0 = don ∧ fld (ws.getD 4 0) 31 20 = band ∧
    ws.getD 7 0 = crcWords (ws.take 7 ++ ws.drop 8) ∧ (ws.drop 8).take body.length = body

/-- The number a DW holds whose fields fit it. -/
theorem dw_toNat {fs : List (Nat × Nat × Nat)} {n : Nat}
    (h : fs.foldl (fun a f => a + (f.1 % 2 ^ (f.2.1 + 1 - f.2.2)) * 2 ^ f.2.2) 0 = n) (hn : n < 2 ^ 32) : (dw fs).toNat = n := by
  rw [dw, h, BitVec.toNat_ofNat, Nat.mod_eq_of_lt hn]

theorem lenWord_fields {len type : Nat} (hlen : len < 2 ^ 16) (htype : type < 2 ^ 8) :
    fld (dw [(len, 31, 16), (type, 15, 8), (1, 7, 0)]) 31 16 = len ∧ fld (dw [(len, 31, 16), (type, 15, 8), (1, 7, 0)]) 15 8 = type := by
  have hnum : (dw [(len, 31, 16), (type, 15, 8), (1, 7, 0)]).toNat = len * 65536 + type * 256 + 1 :=
    dw_toNat (by simp only [List.foldl_cons, List.foldl_nil]; omega) (by omega)
  constructor <;> rw [fld, hnum] <;> omega

theorem contextWord_fields {chip gen context : Nat} (hchip : chip < 64) (hgen : gen < 2 ^ 8) (hcontext : context < 2 ^ 16) :
    fld (dw [(chip, 29, 24), (gen, 23, 16), (context, 15, 0)]) 15 0 = context ∧
      fld (dw [(chip, 29, 24), (gen, 23, 16), (context, 15, 0)]) 23 16 = gen := by
  have hnum : (dw [(chip, 29, 24), (gen, 23, 16), (context, 15, 0)]).toNat = chip * 16777216 + gen * 65536 + context :=
    dw_toNat (by simp only [List.foldl_cons, List.foldl_nil]; omega) (by omega)
  constructor <;> rw [fld, hnum] <;> omega

theorem b2n_le (b : Bool) : b2n b ≤ 1 := by cases b <;> decide

theorem bandWord_field {band : Nat} (flags : Nat) (a b c d e f : Bool) (hband : band < 2 ^ 12) :
    fld (dw [(band, 31, 20), (flags, 15, 8), (b2n a, 5, 5), (b2n b, 4, 4), (b2n c, 3, 3), (b2n d, 2, 2), (b2n e, 1, 1), (b2n f, 0, 0)]) 31 20 = band := by
  have ha := b2n_le a
  have hb := b2n_le b
  have hc := b2n_le c
  have hd := b2n_le d
  have he := b2n_le e
  have hf := b2n_le f
  have hnum : (dw [(band, 31, 20), (flags, 15, 8), (b2n a, 5, 5), (b2n b, 4, 4), (b2n c, 3, 3), (b2n d, 2, 2), (b2n e, 1, 1), (b2n f, 0, 0)]).toNat =
      band * 1048576 + flags % 256 * 256 + b2n a * 32 + b2n b * 16 + b2n c * 8 + b2n d * 4 + b2n e * 2 + b2n f :=
    dw_toNat (by simp only [List.foldl_cons, List.foldl_nil]; omega) (by omega)
  rw [fld, hnum]
  omega

theorem recordWords_laid {type chip gen context band flags : Nat} (seq : Nat) (don : Word) (last late valid concealed replayed catching : Bool)
    (t0 issue : Nat) {body : List Word} (htype : type < 2 ^ 8) (hchip : chip < 64) (hgen : gen < 2 ^ 8) (hcontext : context < 2 ^ 16)
    (hband : band < 2 ^ 12) (hbody : body.length < 8 * 65535 - 8) :
    Laid type context gen seq don band body (recordWords (recHeader ((8 + (padBody body).length) / 8) type chip gen context seq don.toNat band flags
      last late valid concealed replayed catching t0 issue) (padBody body)) := by
  obtain ⟨hunit, hpad⟩ := padBody_length body
  have hlen : (recordWords (recHeader ((8 + (padBody body).length) / 8) type chip gen context seq don.toNat band flags
      last late valid concealed replayed catching t0 issue) (padBody body)).length = 8 + (padBody body).length := by
    simp [recordWords, recHeader]
    omega
  obtain ⟨hl, ht⟩ := lenWord_fields (len := (8 + (padBody body).length) / 8) (by omega) htype
  obtain ⟨hc, hg⟩ := contextWord_fields hchip hgen hcontext
  refine ⟨by rw [hlen]; omega, hl.trans (by rw [hlen]), ht, hc, hg, rfl, by simp [recordWords, recHeader, w32], bandWord_field flags _ _ _ _ _ _ hband,
    rfl, take_padBody body⟩

/-! ### A record issued -/

/-- SEQ of the next record of `r`'s context. -/
def seqOf (r : RecordReq) (s : State) : Nat := nextSeq (if r.session then (s.session r.context).seq else (s.stream r.context).seq)

/-- GEN of `r`'s context. -/
def genOf (r : RecordReq) (s : State) : Nat := if r.session then (s.session r.context).gen else (s.stream r.context).gen

/-- The part with SEQ of `r`'s context risen to its next record. -/
def seqRaised (r : RecordReq) (s : State) : State :=
  if r.session then s.modSession r.context (fun x => { x with seq := seqOf r s }) else s.modStream r.context (fun x => { x with seq := seqOf r s })

/-- The record built from a request. -/
def builtRec (last : Bool) (r : RecordReq) (s : State) : BuiltRec :=
  { tag := { session := r.session, context := r.context, don := r.don.toNat, band := r.band, type := r.type, seq := seqOf r s, last := last }
    words := recordWords (recHeader ((8 + (padBody r.body).length) / 8) r.type s.link.chip (genOf r s) r.context (seqOf r s) r.don.toNat r.band r.typeFlags
      last r.late (safetyValid s r) r.concealed r.replayed r.catching r.t0 s.now) (padBody r.body) }

theorem issueTo_eq (o : Nat) (last : Bool) (r : RecordReq) (s : State) : issueTo o last r s = putRec o (builtRec last r s) (seqRaised r s) := rfl

theorem issueTo_recorded (o : Nat) (last : Bool) (r : RecordReq) (s : State) : Recorded (seqRaised r s) (issueTo o last r s) :=
  .putRec _ o _

theorem seqRaised_frame (r : RecordReq) (s : State) : (seqRaised r s).outq = s.outq ∧ (seqRaised r s).hostMem = s.hostMem ∧
    (seqRaised r s).pcie = s.pcie ∧ (seqRaised r s).dram = s.dram ∧ (seqRaised r s).journal = s.journal := by
  unfold seqRaised
  split
  · exact ⟨rfl, rfl, rfl, rfl, rfl⟩
  · exact ⟨rfl, rfl, rfl, rfl, rfl⟩

/-- A record with these fields is handed to ring `o` between the two states, where that ring holds none. -/
def PlacedAs (o type context gen seq : Nat) (don : Word) (band : Nat) (body : List Word) (s t : State) : Prop :=
  (s.oring o).held = [] → ∃ ws, Laid type context gen seq don band body ws ∧ HandedOver o ws s t

theorem PlacedAs.congr {o type context gen seq band : Nat} {don : Word} {body : List Word} {s s' t t' : State}
    (h : PlacedAs o type context gen seq don band body s t) (hs : s'.outq = s.outq) (hsm : s'.hostMem = s.hostMem) (ht : t'.outq = t.outq)
    (htm : t'.hostMem = t.hostMem) : PlacedAs o type context gen seq don band body s' t' := by
  intro hheld
  rw [oring_congr hs] at hheld
  obtain ⟨ws, hlaid, hover⟩ := h hheld
  exact ⟨ws, hlaid, hover.congr hs hsm ht htm⟩

/-- A record of fields in range is issued as Table 4.8 lays it out, with the next SEQ of its context. -/
theorem issueTo_placed {o : Nat} (last : Bool) {r : RecordReq} {s : State} (htype : r.type < 2 ^ 8) (hchip : s.link.chip < 64)
    (hgen : genOf r s < 2 ^ 8) (hcontext : r.context < 2 ^ 16) (hband : r.band < 2 ^ 12) (hbody : r.body.length < 8 * 65535 - 8)
    (hd3 : s.pcie.d3 = false) (hwf : Memory.wf s.hostMem = true) :
    PlacedAs o r.type r.context (genOf r s) (seqOf r s) r.don r.band r.body s (issueTo o last r s) := by
  obtain ⟨hrings, hmem, hpcie, -, -⟩ := seqRaised_frame r s
  intro hheld
  refine ⟨(builtRec last r s).words, recordWords_laid _ _ _ _ _ _ _ _ _ _ htype hchip hgen hcontext hband hbody, ?_⟩
  have hover := putRec_handedOver (s := seqRaised r s) (o := o) (builtRec last r s) ((oring_congr hrings o).symm ▸ hheld)
    (hpcie.symm ▸ hd3) (hmem.symm ▸ hwf)
  exact hover.congr hrings.symm hmem.symm rfl rfl

end Sys2Proof.RecordWords
end

section
/-! RECORD_WRITE of the sequence unit: the SEQ_RESULT of a step that a fault has abandoned (09 R232). -/

namespace Sys2Proof.AbandonedSteps

open Sys2Proof.Machine Sys2Proof.Laws Sys2Proof.RecordWriter Sys2Proof.RingWrites Sys2Proof.RecordWords

/-- The SEQ_RESULT of a step abandoned by a fault (Table 9.3): no token, and the free result in the place of the score. -/
def abandonedResult (n : Nat) (w : SeqWork) (s : State) : RecordReq :=
  seqResult w n (2 * b2n w.auto + 16) 0xFFFFFFFF (Config.freeResult s.free) (s.session n).pos w.i w.fault (s.session n).tCtx

/-- The part with that record issued. -/
def resultIssued (n : Nat) (w : SeqWork) (s : State) : State :=
  issueTo (s.session n).outRing (closesNext s n) (abandonedResult n w s) { s with free := s.free + 1 }

/-- A step that has ended abandoned stands on no items, and its fault is LINK_DOWN or of family 0x05. -/
theorem abandonedStep_spec {s : State} {n : Nat} {w : SeqWork} (h : abandonedStep s n = some w) :
    w.items.isEmpty = true ∧ (w.fault = stLinkDown ∨ w.fault / 256 = 5) := by
  have hw := Option.filter_eq_some_iff.mp h
  simpa using hw.2

theorem fault_lt {w : SeqWork} (h : w.fault = stLinkDown ∨ w.fault / 256 = 5) : w.fault < 2 ^ 16 := by
  have hdown : stLinkDown = 1537 := rfl
  omega

theorem abandonUnit_eq {n : Nat} {w : SeqWork} {s : State} (hitems : w.items.isEmpty = true) (hfault : w.fault = stLinkDown ∨ w.fault / 256 = 5) :
    abandonUnit n w s = endWork n w.fault (resultIssued n w s) := by
  have hwrites : (w.items.isEmpty && (decide (w.fault = stLinkDown) || decide (w.fault / 256 = 5))) = true := by simpa [hitems] using hfault
  exact congrArg (endWork n w.fault) (if_pos hwrites)

theorem resultIssued_sessions (n : Nat) (w : SeqWork) (s : State) :
    (resultIssued n w s).sessions = tput s.sessions n { s.session n with seq := nextSeq (s.session n).seq } :=
  (issueTo_recorded _ _ _ _).sessions

/-- The status word of the body carries the fault. -/
theorem abandonedResult_fault {w : SeqWork} (n : Nat) (s : State) (h : w.fault < 2 ^ 16) :
    fld ((abandonedResult n w s).body.getD 3 0) 15 0 = w.fault := by
  have hnum : (dw [(w.i, 31, 16), (w.fault, 15, 0)]).toNat = w.i % 65536 * 65536 + w.fault :=
    dw_toNat (by simp only [List.foldl_cons, List.foldl_nil]; omega) (by omega)
  change fld (dw [(w.i, 31, 16), (w.fault, 15, 0)]) 15 0 = w.fault
  rw [fld, hnum]
  omega

theorem recordWrite_abandoned {r : RecordReq} {s : State} {w : SeqWork} (hfatal : s.chip.fatal = false) (hphase : s.chip.phase = .ready)
    (hsession : r.session = true) (htype : r.type = 6) (hstep : abandonedStep s r.context = some w) :
    exec (.recordWrite r) s = .next (endWork r.context w.fault (resultIssued r.context w s)) := by
  obtain ⟨hitems, hfault⟩ := abandonedStep_spec hstep
  have hdo : doRecordWrite r s = abandonUnit r.context w s := by
    simp [doRecordWrite, hfatal, hphase, hsession, htype, hstep]
  rw [← abandonUnit_eq hitems hfault, ← hdo]
  rfl

/-- The clause of O32 about the SEQ_RESULT of an abandoned step. -/
theorem recordWrite_seqResult {r : RecordReq} {s : State} {w : SeqWork} (hfatal : s.chip.fatal = false) (hphase : s.chip.phase = .ready)
    (hd3 : s.pcie.d3 = false) (hchip : s.link.chip < 64) (hcontext : r.context < 2 ^ 16) (hwf : Memory.wf s.hostMem = true)
    (hsession : r.session = true) (htype : r.type = 6) (hgen : (s.session r.context).gen < 256) (hstep : abandonedStep s r.context = some w) :
    ∃ v body, exec (.recordWrite r) s = .next (endWork r.context w.fault v) ∧
      PlacedAs (s.session r.context).outRing 6 r.context (s.session r.context).gen (nextSeq (s.session r.context).seq) 0 0xFFF body s v ∧
      body.getD 0 0 = 0xFFFFFFFF ∧ fld (body.getD 3 0) 15 0 = w.fault ∧ (v.session r.context).seq = nextSeq (s.session r.context).seq ∧
      (v.session r.context).work = (s.session r.context).work ∧ (∀ m, m ≠ r.context → v.session m = s.session m) ∧ v.dram = s.dram ∧
      v.streams = s.streams ∧ v.journal = s.journal := by
  obtain ⟨-, hfault⟩ := abandonedStep_spec hstep
  have hrec : Recorded _ (resultIssued r.context w s) := issueTo_recorded _ _ _ _
  have hsess := resultIssued_sessions r.context w s
  have hself : (resultIssued r.context w s).session r.context = { s.session r.context with seq := nextSeq (s.session r.context).seq } := by
    rw [State.session, hsess, tget_tput_same]
  refine ⟨resultIssued r.context w s, (abandonedResult r.context w s).body, recordWrite_abandoned hfatal hphase hsession htype hstep, ?_, rfl,
    abandonedResult_fault _ _ (fault_lt hfault), by rw [hself], by rw [hself], fun m hm => ?_, hrec.dram, hrec.streams, hrec.journal⟩
  · have hplaced := issueTo_placed (o := (s.session r.context).outRing) (closesNext s r.context) (r := abandonedResult r.context w s)
      (s := { s with free := s.free + 1 }) (show 6 < 2 ^ 8 by decide) hchip hgen hcontext
      (show 0xFFF < 2 ^ 12 by decide) (show 8 < 8 * 65535 - 8 by decide) hd3 hwf
    exact hplaced.congr rfl rfl rfl rfl
  · rw [State.session, hsess, tget_tput_other _ _ _ hm, State.session]

end Sys2Proof.AbandonedSteps
end

section
/-! RECORD_WRITE of an OUT Niche: the BAND_RESULT it hands over is placed when its turn has come, and kept until then (04 R118; 07 R195; 09 R226). -/

namespace Sys2Proof.BandResults

open Sys2Proof.Machine Sys2Proof.Laws Sys2Proof.RecordWriter Sys2Proof.RingWrites Sys2Proof.RecordWords

/-! ### Size of the body -/

theorem bytesWords_length_le (bs : List Byte) : (bytesWords bs).length ≤ bs.length := by
  induction bs using bytesWords.induct with
  | case1 a b c d t ih =>
    simp only [bytesWords, List.length_cons]
    omega
  | case2 => exact Nat.le_refl _
  | case3 t hlong hsome =>
    rw [bytesWords.eq_3 t hlong hsome]
    exact List.length_pos_iff.mpr hsome

/-- Consecutive slices of one size make up the front of the list. -/
theorem slices_flatten {α : Type} (l : List α) (k n : Nat) :
    ((List.range n).map (fun i => (l.drop (i * k)).take k)).flatten = l.take (n * k) := by
  induction n with
  | zero => simp
  | succ n ih => simp [List.range_succ, ih, Nat.succ_mul, List.take_add]

/-- The entries that a record shows are no more bytes than the body that was handed over. -/
theorem shown_entries_length (s : State) (x : Run) (slots : List (Option SlotRef)) (body : List Word) :
    (shownOutput s x (bodyOutput slots body)).entries.flatten.length ≤ 4 * body.length := by
  have hkept : (shownOutput s x (bodyOutput slots body)).entries.Sublist (bodyOutput slots body).entries := by
    have hsub := (List.filter_sublist (p := fun e : Nat × List Byte => match (bodyOutput slots body).slots.getD e.1 none with
      | some k => !ignoredSlot s x k
      | none => true) (l := (List.range (bodyOutput slots body).entries.length).zip (bodyOutput slots body).entries)).map Prod.snd
    rw [List.map_snd_zip (by simp)] at hsub
    exact hsub
  have hall : (bodyOutput slots body).entries.flatten =
      (wordsBytes (body.drop 8)).take (fld (body.getD 0 0) 31 16 * fld (body.getD 0 0) 15 0) := slices_flatten _ _ _
  have hle := hkept.flatten.length_le
  rw [hall, List.length_take, Posting.wordsBytes_length, List.length_drop] at hle
  omega

theorem resultBody_length (o : OutputData) (part status : Nat) (entries : List (List Byte)) :
    (resultBody o part status entries).length ≤ 8 + entries.flatten.length := by
  have := bytesWords_length_le entries.flatten
  simp only [resultBody, List.cons_append, List.nil_append, List.length_cons]
  omega

/-! ### Flags and ring of a record -/

/-- Flags and times aside, the request stays as it is. -/
theorem fillFlags_keeps (s : State) (r : RecordReq) : (fillFlags s r).session = r.session ∧ (fillFlags s r).context = r.context ∧
    (fillFlags s r).type = r.type ∧ (fillFlags s r).don = r.don ∧ (fillFlags s r).band = r.band ∧ (fillFlags s r).body = r.body := by
  unfold fillFlags
  split
  · exact ⟨rfl, rfl, rfl, rfl, rfl, rfl⟩
  · dsimp only
    split
    · exact ⟨rfl, rfl, rfl, rfl, rfl, rfl⟩
    · split
      · exact ⟨rfl, rfl, rfl, rfl, rfl, rfl⟩
      · exact ⟨rfl, rfl, rfl, rfl, rfl, rfl⟩

/-- A record about a picture goes to the ring in force for it (04 R84). -/
theorem ringOf_picture {s : State} {r : RecordReq} {p : Picture} (hsession : r.session = false)
    (hpic : picOf (s.stream r.context) r.don.toNat = some p) : ringOf s r = p.outRing := by
  unfold ringOf
  rw [picOf] at hpic
  simp [hsession, hpic]

/-! ### The record counted as issued (15 R355) -/

/-- Picture `q` with one more record of the band counted as issued. -/
def bandIssued (band : Nat) (q : Picture) : Picture := { q with issued := tput q.issued band (tget q.issued band 0 + 1) }

/-- The part with one more record of the band counted as issued. -/
def recordCounted (n don band : Nat) (s : State) : State := modPic n don (bandIssued band) s

theorem countRecord_issues {n don band : Nat} {s : State} {p : Picture} (hpic : picOf (s.stream n) don = some p) (hnew : tget p.discard band 0 = 0) :
    countRecord n don band s = (false, recordCounted n don band s) := by
  unfold countRecord
  simp only [hpic, hnew, gt_iff_lt, Nat.lt_irrefl, if_false]
  rfl

/-- One picture of the slot after the count. -/
def countedIn (don band : Nat) (q : Picture) : Picture := if q.don = don then bandIssued band q else q

theorem countedIn_eq (don band : Nat) (q : Picture) : ∃ l, countedIn don band q = { q with issued := l } := by
  unfold countedIn
  split
  · exact ⟨_, rfl⟩
  · exact ⟨_, rfl⟩

theorem recordCounted_stream (n don band : Nat) (s : State) :
    (recordCounted n don band s).stream n = { s.stream n with pics := (s.stream n).pics.map (countedIn don band) } := stream_modStream s n _

theorem picOf_recordCounted {n don band : Nat} {s : State} {p : Picture} (hpic : picOf (s.stream n) don = some p) :
    picOf ((recordCounted n don band s).stream n) don = some (countedIn don band p) := by
  have hpred : (fun q : Picture => decide (q.don = don)) ∘ countedIn don band = fun q => decide (q.don = don) := by
    funext q
    obtain ⟨_, h⟩ := countedIn_eq don band q
    simp [h]
  rw [recordCounted_stream, picOf, List.find?_map, hpred]
  rw [picOf] at hpic
  rw [hpic]
  rfl

/-- Whether a band is past does not depend on the count of its records. -/
theorem bandPast_recordCounted (n don band : Nat) (s : State) (q : Picture) (b : Nat) :
    bandPast (recordCounted n don band s) n (countedIn don band q) b = bandPast s n q b := by
  obtain ⟨_, h⟩ := countedIn_eq don band q
  have hsched : schedOf (recordCounted n don band s) = schedOf s := rfl
  have hruns : streamRuns ((recordCounted n don band s).stream n) = streamRuns (s.stream n) := by
    rw [recordCounted_stream]; rfl
  rw [h]
  simp only [bandPast, hsched, hruns]

/-- The turn of a record does not depend on the count. -/
theorem recordTurn_recordCounted (n don band d b : Nat) (s : State) :
    recordTurn (recordCounted n don band s) n d b = recordTurn s n d b := by
  have hpics : ∀ q : Picture,
      (if donLt (countedIn don band q).don d then (countedIn don band q).statusDone || (countedIn don band q).dropped
        else decide ((countedIn don band q).don ≠ d) || (List.range b).all (bandPast (recordCounted n don band s) n (countedIn don band q))) =
      (if donLt q.don d then q.statusDone || q.dropped else decide (q.don ≠ d) || (List.range b).all (bandPast s n q)) := by
    intro q
    have hpast : bandPast (recordCounted n don band s) n (countedIn don band q) = bandPast s n q := funext (bandPast_recordCounted n don band s q)
    rw [hpast]
    obtain ⟨_, h⟩ := countedIn_eq don band q
    rw [h]
  unfold recordTurn
  rw [recordCounted_stream]
  simp only [List.all_map, Function.comp_def, hpics]
  rfl

/-! ### Sessions fed by an output (09 R226) -/

/-- Between the two states only sessions and counters change. -/
def FedSessions (s t : State) : Prop := ∃ l ob, t = { s with sessions := l, obs := ob }

theorem FedSessions.trans {s t u : State} (h : FedSessions s t) (h' : FedSessions t u) : FedSessions s u := by
  obtain ⟨_, _, rfl⟩ := h
  obtain ⟨_, _, rfl⟩ := h'
  exact ⟨_, _, rfl⟩

theorem feedSessions_fed (slot : Nat) (o : OutputData) (flags : Nat) (entries : List (List Byte)) (s : State) :
    FedSessions s (feedSessions slot o flags entries s) := by
  unfold feedSessions
  generalize s.sessions.filter _ = l
  induction l generalizing s with
  | nil => exact ⟨_, _, rfl⟩
  | cons e l ih =>
    refine FedSessions.trans ?_ (ih _)
    dsimp only
    split
    · exact ⟨_, _, rfl⟩
    · exact ⟨_, _, rfl⟩

theorem feedSessions_none {slot flags : Nat} {o : OutputData} {entries : List (List Byte)} {s : State}
    (h : ∀ y ∈ s.sessions, fedBy slot o.output y.2 = false) : feedSessions slot o flags entries s = s := by
  have hnone : s.sessions.filter (fun e => fedBy slot o.output e.2) = [] := by
    rw [List.filter_eq_nil_iff]
    exact fun y hy => by simp [h y hy]
  rw [feedSessions, hnone]
  rfl

/-! ### A record handed to the record writer (04 R118) -/

/-- The sessions that an output feeds are fed where there is one. -/
def fedIfAny (n : Nat) (f : RecordReq) (feed : Option OutputData) (s : State) : State :=
  match feed with
  | some o => feedSessions n o (b2n f.concealed + 2 * b2n f.catching) o.entries s
  | none => s

theorem fedIfAny_fed (n : Nat) (f : RecordReq) (feed : Option OutputData) (s : State) : FedSessions s (fedIfAny n f feed s) := by
  cases feed with
  | some o => exact feedSessions_fed n o _ _ s
  | none => exact ⟨_, _, rfl⟩

theorem fedIfAny_none {n : Nat} {f : RecordReq} {feed : Option OutputData} {s : State}
    (h : ∀ o, feed = some o → ∀ y ∈ s.sessions, fedBy n o.output y.2 = false) : fedIfAny n f feed s = s := by
  cases feed with
  | some o => exact feedSessions_none (h o rfl)
  | none => rfl

theorem placeLate_eq (n : Nat) (l : LateRec) (s : State) : placeLate n l s =
    fedIfAny n (fillFlags s l.req) l.feed (issueTo (ringOf s (fillFlags s l.req)) l.last (fillFlags s l.req) s) := by
  unfold placeLate fedIfAny
  cases l.feed <;> rfl

/-- A record whose turn has come is placed: with the next SEQ, in the ring of its picture. -/
theorem placeLate_places {n : Nat} {l : LateRec} {s : State} {p : Picture} (hsession : l.req.session = false) (hcontext : l.req.context = n)
    (hpic : picOf (s.stream n) l.req.don.toNat = some p) (htype : l.req.type < 2 ^ 8) (hchip : s.link.chip < 64) (hgen : (s.stream n).gen < 2 ^ 8)
    (hn : n < 2 ^ 16) (hband : l.req.band < 2 ^ 12) (hbody : l.req.body.length < 8 * 65535 - 8) (hd3 : s.pcie.d3 = false)
    (hwf : Memory.wf s.hostMem = true) :
    PlacedAs p.outRing l.req.type n (s.stream n).gen (nextSeq (s.stream n).seq) l.req.don l.req.band l.req.body s (placeLate n l s) ∧
      (placeLate n l s).streams = tput s.streams n { s.stream n with seq := nextSeq (s.stream n).seq } ∧ (placeLate n l s).dram = s.dram ∧
      ((∀ o, l.feed = some o → ∀ y ∈ s.sessions, fedBy n o.output y.2 = false) → (placeLate n l s).sessions = s.sessions) := by
  obtain ⟨hs, hc, ht, hdon, hb, hbd⟩ := fillFlags_keeps s l.req
  rw [hsession] at hs
  rw [hcontext] at hc
  rw [placeLate_eq]
  generalize fillFlags s l.req = f at hs hc ht hdon hb hbd ⊢
  subst hc
  have hring : ringOf s f = p.outRing := ringOf_picture hs (hdon.symm ▸ hpic)
  have hgenOf : genOf f s = (s.stream f.context).gen := if_neg (by simp [hs])
  have hseqOf : seqOf f s = nextSeq (s.stream f.context).seq := congrArg nextSeq (if_neg (by simp [hs]))
  have hraised : seqRaised f s = s.setStream f.context { s.stream f.context with seq := nextSeq (s.stream f.context).seq } := by
    rw [← hseqOf]
    exact if_neg (by simp [hs])
  have hrec := issueTo_recorded (ringOf s f) l.last f s
  have hplaced := issueTo_placed (o := ringOf s f) l.last (ht ▸ htype) hchip (hgenOf ▸ hgen) hn (hb ▸ hband) (hbd ▸ hbody) hd3 hwf
  rw [hraised] at hrec
  rw [hgenOf, hseqOf, ht, hdon, hb, hbd, hring] at hplaced
  rw [hring] at hrec ⊢
  generalize issueTo p.outRing l.last f s = v at hrec hplaced ⊢
  have hfed := fedIfAny_fed f.context f l.feed v
  refine ⟨?_, ?_, ?_, fun hnone => ?_⟩
  · obtain ⟨_, _, h⟩ := hfed
    exact hplaced.congr rfl rfl (by rw [h]) (by rw [h])
  · obtain ⟨_, _, h⟩ := hfed
    rw [h]
    exact hrec.streams
  · obtain ⟨_, _, h⟩ := hfed
    rw [h]
    exact hrec.dram
  · rw [fedIfAny_none (by rw [hrec.sessions]; exact hnone)]
    exact hrec.sessions

section Counted

variable {n : Nat} {l : LateRec} {s : State} {p : Picture} (hpic : picOf (s.stream n) l.req.don.toNat = some p)
  (hnew : tget p.discard l.req.band 0 = 0)
include hpic hnew

/-- A record whose turn has come is placed, and counted as issued. -/
theorem bandRecord_places (hturn : recordTurn s n l.req.don.toNat l.req.band = true)
    (hfirst : ∀ q ∈ (s.stream n).outbox, q.req.don ≠ l.req.don ∨ q.req.band ≠ l.req.band) :
    bandRecord n l.last l.req l.feed s = placeLate n l (recordCounted n l.req.don.toNat l.req.band s) := by
  have houtbox : ((recordCounted n l.req.don.toNat l.req.band s).stream n).outbox = (s.stream n).outbox := by rw [recordCounted_stream]
  have hnone : (s.stream n).outbox.all (fun q => decide (q.req.don ≠ l.req.don) || decide (q.req.band ≠ l.req.band)) = true := by
    rw [List.all_eq_true]
    exact fun q hq => by simpa using hfirst q hq
  unfold bandRecord
  simp only [countRecord_issues hpic hnew, recordTurn_recordCounted, hturn, houtbox, hnone, Bool.and_self, Bool.false_eq_true, if_false, if_true]

/-- Before its turn a record is kept, and counted as issued. -/
theorem bandRecord_keeps (hturn : recordTurn s n l.req.don.toNat l.req.band = false) :
    bandRecord n l.last l.req l.feed s =
      (recordCounted n l.req.don.toNat l.req.band s).modStream n (fun x => { x with outbox := x.outbox ++ [l] }) := by
  unfold bandRecord
  simp only [countRecord_issues hpic hnew, recordTurn_recordCounted, hturn, Bool.false_and, Bool.false_eq_true, if_false]

end Counted

end Sys2Proof.BandResults
end

section
/-! RECORD_WRITE as O32 states it: of a running OUT Niche, of an abandoned step, and of neither (04 R116-R118). -/

namespace Sys2Proof.RecordWrites

open Sys2Proof.Machine Sys2Proof.Laws Sys2Proof.RecordWriter Sys2Proof.RingWrites Sys2Proof.RecordWords Sys2Proof.AbandonedSteps
open Sys2Proof.BandResults Sys2Proof.CoalExpiry

/-! ### The BAND_RESULT of a running OUT Niche -/

/-- The output a request shows, without the entries of pad slots (07 R195). -/
def outShown (r : RecordReq) (s : State) (q : Run) : OutputData := shownOutput s q (bodyOutput r.slots r.body)

/-- STATUS of the request's body. -/
def outStatus (r : RecordReq) : Nat := fld (r.body.getD 3 0) 15 0

/-- Body of the record written for the request. -/
def outBody (r : RecordReq) (s : State) (q : Run) : List Word :=
  resultBody (outShown r s q) (fld (r.body.getD 2 0) 31 16) (outStatus r) (outShown r s q).entries

/-- The record as the OUT Niche hands it over, with what it feeds. -/
def outRecord (r : RecordReq) (s : State) (q : Run) : LateRec :=
  { req := { bandRec r.context 3 q.don r.band (r.typeFlags % 2) (outStatus r) (safeBand s q) (outBody r s q) with don := r.don }, last := false
    feed := if outStatus r = 0 then some (outShown r s q) else none }

theorem outBody_length {r : RecordReq} (s : State) (q : Run) (h : bodyOk r.body = true) : (outBody r s q).length < 8 * 65535 - 8 := by
  have hbody : r.body.length ≤ 8 * 4095 - 8 := by
    simp only [bodyOk, inRange, Bool.and_eq_true, decide_eq_true_iff] at h
    exact h.2
  have hentries := shown_entries_length s q r.slots r.body
  have hwords := resultBody_length (outShown r s q) (fld (r.body.getD 2 0) 31 16) (outStatus r) (outShown r s q).entries
  rw [outBody]
  rw [outShown] at hwords ⊢
  omega

section Handed

variable {r : RecordReq} {s : State} {q : Run} (hfatal : s.chip.fatal = false) (hphase : s.chip.phase = .ready) (hstream : r.session = false)
  (htype : r.type = 3) (hopen : (s.stream r.context).isOpen = true) (hrun : outRunning s r.context r.don.toNat r.band = some q)
  (hbody : bodyOk r.body = true) (hout : outputOk (bodyOutput r.slots r.body) = true) (hentry : fld (r.body.getD 1 0) 15 0 = entryOf s q)
include hfatal hphase hstream htype hopen hrun hbody hout hentry

omit htype hopen hbody hout hentry in
/-- An OUT Niche whose ring holds records waits (03 R54). -/
theorem recordWrite_waits (hholds : ringHolds s q = true) : exec (.recordWrite r) s = .next s := by
  have hdo : doRecordWrite r s = s := by
    simp [doRecordWrite, hfatal, hphase, hstream, hrun, hholds]
  exact congrArg Host.Outcome.next hdo

theorem recordWrite_hands (hfree : ringHolds s q = false) :
    exec (.recordWrite r) s = .next (bandRecord r.context false (outRecord r s q).req (outRecord r s q).feed s) := by
  have hentryOf : (bodyOutput r.slots r.body).entry = entryOf s q := hentry
  have hdo : doRecordWrite r s = bandRecord r.context false (outRecord r s q).req (outRecord r s q).feed s := by
    unfold doRecordWrite
    simp only [hfatal, hphase, hstream, htype, hopen, hrun, hbody, hout, hentryOf, hfree, ne_eq, not_true_eq_false, decide_false, Bool.not_true,
      Bool.or_false, Bool.false_eq_true, if_false]
    rfl
  exact congrArg Host.Outcome.next hdo

variable {p : Picture} (hpic : picOf (s.stream r.context) r.don.toNat = some p) (hnew : tget p.discard r.band 0 = 0) (hfree : ringHolds s q = false)
include hpic hnew hfree

/-- Before its turn the record is kept (04 R118). -/
theorem recordWrite_keeps (hturn : recordTurn s r.context r.don.toNat r.band = false) :
    ∃ t, exec (.recordWrite r) s = .next t ∧ t.hostMem = s.hostMem ∧ (t.stream r.context).seq = (s.stream r.context).seq ∧
      (t.stream r.context).outbox.length = (s.stream r.context).outbox.length + 1 ∧ t.outq = s.outq ∧ t.sessions = s.sessions := by
  have hkept := bandRecord_keeps (l := outRecord r s q) hpic hnew hturn
  refine ⟨_, (recordWrite_hands hfatal hphase hstream htype hopen hrun hbody hout hentry hfree).trans (congrArg _ hkept), rfl, ?_, ?_, rfl, rfl⟩
  · rw [stream_modStream, recordCounted_stream]
  · rw [stream_modStream, recordCounted_stream]
    exact List.length_append

/-- A record whose turn has come is placed (04 R118). -/
theorem recordWrite_places (hd3 : s.pcie.d3 = false) (hchip : s.link.chip < 64) (hcontext : r.context < 2 ^ 16) (hwf : Memory.wf s.hostMem = true)
    (hgen : (s.stream r.context).gen < 256) (hband : r.band < 0xFFF) (hturn : recordTurn s r.context r.don.toNat r.band = true)
    (hfirst : ∀ l ∈ (s.stream r.context).outbox, l.req.don ≠ r.don ∨ l.req.band ≠ r.band) :
    ∃ t, exec (.recordWrite r) s = .next t ∧
      PlacedAs p.outRing 3 r.context (s.stream r.context).gen (nextSeq (s.stream r.context).seq) r.don r.band (outBody r s q) s t ∧
      (t.stream r.context).seq = nextSeq (s.stream r.context).seq ∧ (∀ m, m ≠ r.context → t.stream m = s.stream m) ∧ t.dram = s.dram ∧
      (outStatus r ≠ 0 ∨ (∀ y ∈ s.sessions, fedBy r.context (fld (r.body.getD 1 0) 31 16) y.2 = false) → t.sessions = s.sessions) := by
  have hplaces := bandRecord_places (l := outRecord r s q) hpic hnew hturn hfirst
  have hgenSame : ((recordCounted r.context r.don.toNat r.band s).stream r.context).gen = (s.stream r.context).gen := by rw [recordCounted_stream]
  have hseqSame : ((recordCounted r.context r.don.toNat r.band s).stream r.context).seq = (s.stream r.context).seq := by rw [recordCounted_stream]
  obtain ⟨hplaced, hwritten, hdram, hsessions⟩ := placeLate_places (n := r.context) (l := outRecord r s q)
    (s := recordCounted r.context r.don.toNat r.band s) rfl rfl (picOf_recordCounted hpic) (show 3 < 2 ^ 8 by decide) hchip (hgenSame.symm ▸ hgen)
    hcontext (show r.band < 2 ^ 12 by omega) (outBody_length s q hbody) hd3 hwf
  obtain ⟨issued, hcounted⟩ := countedIn_eq r.don.toNat r.band p
  rw [hgenSame, hseqSame, hcounted] at hplaced
  refine ⟨placeLate r.context (outRecord r s q) (recordCounted r.context r.don.toNat r.band s),
    (recordWrite_hands hfatal hphase hstream htype hopen hrun hbody hout hentry hfree).trans (congrArg _ hplaces),
    hplaced.congr rfl rfl rfl rfl, ?_, fun m hm => ?_, hdram, fun hunfed => hsessions (fun o hfeed => ?_)⟩
  · rw [stream_written hwritten, hseqSame]
  · exact (stream_written_other hwritten hm).trans (stream_setStream_other s _ hm)
  · obtain hstatus | hnone := hunfed
    · exact absurd hfeed (by simp [outRecord, hstatus])
    · have ho : o = outShown r s q := by
        simp only [outRecord, Option.ite_none_right_eq_some, Option.some.injEq] at hfeed
        exact hfeed.2.symm
      rw [ho]
      exact hnone

end Handed

/-! ### Nothing to write -/

/-- Of another type, or where no OUT Niche of the band runs or no step is abandoned, nothing is placed (log 107). -/
theorem recordWrite_none {r : RecordReq} {s : State}
    (h : r.session = false ∧ (r.type ≠ 3 ∨ outRunning s r.context r.don.toNat r.band = none) ∨
      r.session = true ∧ (r.type ≠ 6 ∨ abandonedStep s r.context = none)) : exec (.recordWrite r) s = .next s := by
  suffices hdo : doRecordWrite r s = s from congrArg Host.Outcome.next hdo
  unfold doRecordWrite
  obtain ⟨hsession, hnone⟩ | ⟨hsession, hnone⟩ := h
  · cases hrun : outRunning s r.context r.don.toNat r.band with
    | none => simp [hsession]
    | some q =>
      have htype : r.type ≠ 3 := hnone.resolve_right (by simp [hrun])
      simp [hsession, htype]
  · cases hstep : abandonedStep s r.context with
    | none => simp [hsession]
    | some w =>
      have htype : r.type ≠ 6 := hnone.resolve_right (by simp [hstep])
      simp [hsession, htype]

/-- Settles O32: RECORD_WRITE of an OUT Niche, of an abandoned step and of neither, then the expiry of OUT_COAL and the release of held records. -/
theorem recordsPlaced : Obligations.RecordsPlaced := by
  unfold Obligations.RecordsPlaced
  refine ⟨fun r s hfatal hphase hd3 hchip hcontext hwf => ⟨?_, ?_, recordWrite_none⟩, fun o s hd3 => ⟨?_, heldRecordRelease_drops o hd3⟩⟩
  · intro hstream p q htype hopen _ hgen hpic hband hnew hrun hbody hout hentry
    refine ⟨recordWrite_waits hfatal hphase hstream hrun,
      recordWrite_keeps hfatal hphase hstream htype hopen hrun hbody hout hentry hpic hnew, fun hfree hturn hfirst => ?_⟩
    obtain ⟨t, hexec, hplaced, hrest⟩ :=
      recordWrite_places hfatal hphase hstream htype hopen hrun hbody hout hentry hpic hnew hfree hd3 hchip hcontext hwf hgen hband hturn hfirst
    refine ⟨t, hexec, fun hheld => ?_, hrest⟩
    have hfields := hplaced hheld
    simp only [Laid, HandedOver, and_assoc] at hfields
    rw [htype]
    exact hfields
  · intro hsession htype hgen w hstep
    obtain ⟨v, body, hexec, hplaced, hrest⟩ := recordWrite_seqResult hfatal hphase hd3 hchip hcontext hwf hsession htype hgen hstep
    refine ⟨v, body, hexec, fun hheld => ?_, hrest⟩
    have hfields := hplaced hheld
    simp only [Laid, HandedOver, and_assoc] at hfields
    rw [htype]
    exact hfields
  · intro hrecs hahead hdue ho
    exact outCoalExpiry_covers hd3 hrecs hahead hdue ho

end Sys2Proof.RecordWrites
end

section
/-! What placing records, settling a stream and signalling completions leave alone: the memory of the cores, device memory and track
contexts (04 R118; 07 R176). -/

namespace Sys2Proof.NicheEnds

open Sys2Proof.Machine Sys2Proof.Laws Sys2Proof.RasterTime Sys2Proof.RecordWriter Sys2Proof.RecordWords Sys2Proof.BandResults

/-! ### A tripped safety state (14 R315, R316) -/

/-- Safety is tripped, and SAFE_n low. -/
def Tripped (s : State) : Prop := s.safety.state = 2 ∧ s.safety.safeN = false

/-- A cause does not end a trip. -/
theorem detect_tripped {k : Nat} {s : State} (h : Tripped s) : Tripped (detect k s) := by
  obtain ⟨hstate, hsafe⟩ := h
  unfold detect
  dsimp only
  split
  · next h' => rw [hstate] at h'; cases h'
  · rw [Tripped, Opening.setSafety_safety]
    exact ⟨hstate, hsafe⟩
  · exact ⟨hstate, hsafe⟩

theorem detect_trips {k : Nat} {s : State} (h : s.safety.state = 1) : Tripped (detect k s) :=
  ⟨(Opening.detect_armed h).1, (Opening.detect_armed h).2.1⟩

theorem Tripped.congr {s t : State} (ht : t.safety = s.safety) (h : Tripped s) : Tripped t := by
  rw [Tripped, ht]
  exact h

theorem setCause_safety (k : Nat) (s : State) : (setCause k s).safety = s.safety := kept_safety (setCause_kept k s)

theorem tailWriteBack_safety (o : Nat) (s : State) : (tailWriteBack o s).safety = s.safety := by
  rw [tailWriteBack_eq]
  split
  · rw [setCause_safety, emit_safety]; rfl
  · rw [emit_safety]; rfl

theorem placeRec_safety (o : Nat) (b : BuiltRec) (s : State) : (placeRec o b s).safety = s.safety := by
  have hwritten : (written o b s).safety = s.safety := rfl
  rw [placeRec_eq, coalesce]
  split
  · rw [emit_safety, hwritten]
  · split
    · rw [tailWriteBack_safety, emit_safety, hwritten]
    · rw [emit_safety, hwritten]

theorem beginHold_tripped {o : Nat} {full : Bool} {s : State} (h : Tripped s) : Tripped (beginHold o full s) := by
  have hnoted : Tripped (holdNoted o full s) := by
    unfold holdNoted
    split
    · exact h.congr (setCause_safety _ _)
    · exact h
  obtain heq | heq := beginHold_eq o full s
  · rw [heq]; exact detect_tripped hnoted
  · rw [heq]; exact hnoted

theorem putRec_tripped {o : Nat} {b : BuiltRec} {s : State} (h : Tripped s) : Tripped (putRec o b s) := by
  unfold putRec
  dsimp only
  split
  · exact h.congr (placeRec_safety o b s)
  · exact (beginHold_tripped h).congr rfl

/-! ### Work kept -/

/-- From `s` to `t` device memory, track contexts with the commit log, scratchpads and accumulators stay, a trip of safety lasts, and no Niche
begins to run. -/
structure WorkKept (s t : State) : Prop where
  dram : t.dram = s.dram
  tracks : t.tracks = s.tracks
  embs : t.embs = s.embs
  log : t.recov.taeLog = s.recov.taeLog
  mem : ∀ k, (t.core k).spad = (s.core k).spad ∧ (t.core k).acc = (s.core k).acc
  tripped : Tripped s → Tripped t
  running : ∀ q ∈ t.runs, q.st = .running → q ∈ s.runs

namespace WorkKept

theorem refl (s : State) : WorkKept s s := ⟨rfl, rfl, rfl, rfl, fun _ => ⟨rfl, rfl⟩, id, fun _ hq _ => hq⟩

theorem trans {s t u : State} (h : WorkKept s t) (h' : WorkKept t u) : WorkKept s u where
  dram := h'.dram.trans h.dram
  tracks := h'.tracks.trans h.tracks
  embs := h'.embs.trans h.embs
  log := h'.log.trans h.log
  mem k := ⟨(h'.mem k).1.trans (h.mem k).1, (h'.mem k).2.trans (h.mem k).2⟩
  tripped htrip := h'.tripped (h.tripped htrip)
  running q hq hst := h.running q (h'.running q hq hst) hst

theorem of_ite {s : State} {c : Prop} [Decidable c] {a b : State} (ha : WorkKept s a) (hb : WorkKept s b) : WorkKept s (if c then a else b) :=
  Laws.of_ite ha hb

theorem forAll {α : Type} (l : List α) {f : α → State → State} (hf : ∀ a s, WorkKept s (f a s)) (s : State) : WorkKept s (forAll l f s) := by
  induction l generalizing s with
  | nil => exact refl s
  | cons a l ih => exact (hf a s).trans (ih (f a s))

/-- Streams, sessions, counters and the free values are no part of what is kept. -/
theorem outside (s : State) (streams : Tab Stream) (sessions : Tab Session) (obs : Obs) (free : Nat) :
    WorkKept s { s with streams := streams, sessions := sessions, obs := obs, free := free } :=
  ⟨rfl, rfl, rfl, rfl, fun _ => ⟨rfl, rfl⟩, id, fun _ hq _ => hq⟩

/-- A change of the runs that starts none. -/
theorem changedRuns (s : State) (l : List Run) (h : ∀ q ∈ l, q.st = .running → q ∈ s.runs) : WorkKept s { s with runs := l } :=
  ⟨rfl, rfl, rfl, rfl, fun _ => ⟨rfl, rfl⟩, id, h⟩

theorem filteredRuns (s : State) (p : Run → Bool) : WorkKept s { s with runs := s.runs.filter p } :=
  changedRuns s _ (fun _ hq _ => List.mem_of_mem_filter hq)

theorem mappedRuns (s : State) {f : Run → Run} (h : ∀ r, (f r).st = .running → f r = r) : WorkKept s { s with runs := s.runs.map f } := by
  refine changedRuns s _ (fun q hq hst => ?_)
  obtain ⟨r, hr, rfl⟩ := List.mem_map.mp hq
  rw [h r hst]
  exact hr

theorem of_recorded {s t : State} (h : Recorded s t) (htrip : Tripped s → Tripped t) : WorkKept s t := by
  obtain ⟨_, _, _, _, _, _, _, _, _, _, _, _, rfl⟩ := h
  exact ⟨rfl, rfl, rfl, rfl, fun _ => ⟨rfl, rfl⟩, htrip, fun _ hq _ => hq⟩

theorem detect (k : Nat) (s : State) : WorkKept s (detect k s) := of_recorded (.detect s k) detect_tripped

theorem emit (kind src ctx niche don band a0 a1 : Nat) (s : State) : WorkKept s (emit kind src ctx niche don band a0 a1 s) :=
  of_recorded (.emit s _ _ _ _ _ _ _ _) (fun h => h.congr (emit_safety _ _ _ _ _ _ _ _ s))

theorem count (key k : Nat) (s : State) : WorkKept s (count key k s) := outside s _ _ _ _

theorem modStream (n : Nat) (f : Stream → Stream) (s : State) : WorkKept s (s.modStream n f) := outside s _ _ _ _

theorem modSession (n : Nat) (f : Session → Session) (s : State) : WorkKept s (s.modSession n f) := outside s _ _ _ _

/-- A change of a core beside its scratchpad and accumulators. -/
theorem modCore (c : Nat) {f : Core → Core} (h : ∀ k, (f k).spad = k.spad ∧ (f k).acc = k.acc) (s : State) : WorkKept s (s.modCore c f) := by
  refine ⟨rfl, rfl, rfl, rfl, fun k => ?_, id, fun _ hq _ => hq⟩
  by_cases hk : k = c
  · subst hk
    rw [core_modCore]
    exact h _
  · rw [core_modCore_other s f hk]
    exact ⟨rfl, rfl⟩

end WorkKept

/-! ### Placing records (04 R118; 09 R226) -/

theorem issueTo_workKept (o : Nat) (last : Bool) (r : RecordReq) (s : State) : WorkKept s (issueTo o last r s) := by
  have hraised : WorkKept s (seqRaised r s) := .of_ite (.modSession _ _ s) (.modStream _ _ s)
  exact hraised.trans (.of_recorded (issueTo_recorded o last r s) (issueTo_eq o last r s ▸ putRec_tripped))

theorem placeLate_workKept (n : Nat) (l : LateRec) (s : State) : WorkKept s (placeLate n l s) := by
  rw [placeLate_eq]
  have hissued := issueTo_workKept (ringOf s (fillFlags s l.req)) l.last (fillFlags s l.req) s
  obtain ⟨_, _, h⟩ := fedIfAny_fed n (fillFlags s l.req) l.feed (issueTo (ringOf s (fillFlags s l.req)) l.last (fillFlags s l.req) s)
  rw [h]
  exact hissued.trans (.outside _ _ _ _ _)

theorem countRecord_workKept (n don band : Nat) (s : State) : WorkKept s (countRecord n don band s).2 := by
  unfold countRecord
  dsimp only
  split
  · split <;> exact .outside _ _ _ _ _
  · split
    · exact .refl s
    · split <;> exact .outside _ _ _ _ _

theorem bandRecord_workKept (n : Nat) (last : Bool) (r : RecordReq) (feed : Option OutputData) (s : State) :
    WorkKept s (bandRecord n last r feed s) := by
  unfold bandRecord
  have hcount := countRecord_workKept n r.don.toNat r.band s
  exact .of_ite hcount (.of_ite (hcount.trans (placeLate_workKept _ _ _)) (hcount.trans (.modStream _ _ _)))

/-- A PICTURE_STATUS is counted where the picture is concealed, may take a free value, and is issued (04 R107, R118). -/
theorem statusRecord_workKept (n : Nat) (p : Picture) (s : State) : WorkKept s (statusRecord n p s) := by
  unfold statusRecord
  dsimp only
  refine WorkKept.trans ?_ (issueTo_workKept _ _ _ _)
  have hcounted : WorkKept s (if p.concealed then count (ctrSlot n 5) 1 s else s) := .of_ite (.count _ _ s) (.refl s)
  exact .of_ite (hcounted.trans (.outside _ _ _ _ _)) hcounted

theorem writeStatus_workKept (n : Nat) (p : Picture) (s : State) : WorkKept s (writeStatus n p s) :=
  (statusRecord_workKept n p s).trans (.outside _ _ _ _ _)

theorem placeDue_workKept (n fuel : Nat) (s : State) : WorkKept s (placeDue n fuel s) := by
  induction fuel generalizing s with
  | zero => exact .refl s
  | succ fuel ih =>
    unfold placeDue
    split
    · exact ((WorkKept.modStream _ _ s).trans (placeLate_workKept _ _ _)).trans (ih _)
    · split
      · exact .of_ite ((writeStatus_workKept _ _ s).trans (ih _)) (.refl s)
      · split
        · exact ((statusRecord_workKept _ _ s).trans (.modStream _ _ _)).trans (ih _)
        · exact .refl s

/-! ### Settling a stream (04 R98; 02 R26) -/

theorem dropRuns_workKept (n don : Nat) (s : State) : WorkKept s (dropRuns n don s) := .filteredRuns s _

theorem sweepPics_workKept (n : Nat) (s : State) : WorkKept s (sweepPics n s) :=
  (WorkKept.outside s _ _ _ _).trans (.forAll _ (fun _ t => dropRuns_workKept _ _ t) _)

theorem settle_workKept (n : Nat) (s : State) : WorkKept s (settle n s) := (placeDue_workKept _ _ s).trans (sweepPics_workKept _ _)

theorem sweepBlocks_workKept (n : Nat) (s : State) : WorkKept s (sweepBlocks n s) :=
  ((placeDue_workKept _ _ s).trans (.modStream _ _ _)).trans (.forAll _ (fun _ t => dropRuns_workKept _ _ t) _)

/-! ### Signalling completions (07 R176) -/

theorem readyRun_cases (s : State) (x : Run) : readyRun s x = x ∨ (readyRun s x).st = .ready := by
  unfold readyRun
  split
  · exact .inl rfl
  · split
    · exact .inl rfl
    · refine (ite_eq_or_eq _ _ _).elim (fun h => .inr ?_) .inl
      rw [h]

/-- A run that is signalled ready does not run yet. -/
theorem readyRun_running {s : State} {x : Run} (h : (readyRun s x).st = .running) : readyRun s x = x := by
  obtain hsame | hready := readyRun_cases s x
  · exact hsame
  · rw [h] at hready
    cases hready

theorem refresh_workKept (s : State) : WorkKept s (refresh s) := .mappedRuns s (fun _ => readyRun_running)

theorem endUnit_workKept (n status : Nat) (s : State) : WorkKept s (endUnit n status s) := .outside s _ _ _ _

theorem sweepGroup_workKept (x : Run) (s : State) : WorkKept s (sweepGroup x s) :=
  .of_ite ((WorkKept.filteredRuns s _).trans (.forAll _ (fun _ t => endUnit_workKept _ _ t) _)) (.refl s)

theorem afterRun_workKept (x : Run) (s : State) : WorkKept s (afterRun x s) :=
  (refresh_workKept s).trans
    (.of_ite (sweepGroup_workKept x _) (.of_ite (.refl _) (.of_ite (sweepBlocks_workKept _ _) (settle_workKept _ _))))

end Sys2Proof.NicheEnds
end

section
/-! The end of a run, in order or by a fault (07 R176, R194; 15 R343). -/

namespace Sys2Proof.NicheEnds

open Sys2Proof.Machine Sys2Proof.Laws

/-! ### The end of a run (07 R176, R183; 14 R321) -/

/-- The Niche that `x` describes does not run. -/
def Stopped (x : Run) (s : State) : Prop := ∀ q ∈ s.runs, q.isRun x = true → q.st ≠ .running

theorem WorkKept.stopped {s t : State} {x : Run} (h : WorkKept s t) (hs : Stopped x s) : Stopped x t :=
  fun q hq hrun hst => hs q (h.running q hq hst) hrun hst

/-- A change of all runs after which none that `x` describes is under way stops it. -/
theorem stopped_map {s : State} {x : Run} {f : Run → Run} (h : ∀ r, (f r).isRun x = true → (f r).st ≠ .running) :
    Stopped x { s with runs := s.runs.map f } := by
  intro q hq hrun
  obtain ⟨r, -, rfl⟩ := List.mem_map.mp hq
  exact h r hrun

theorem traceEnd_workKept (u : UnitId) (ctx niche don band status : Nat) (s : State) : WorkKept s (traceEnd u ctx niche don band status s) :=
  (WorkKept.outside s _ _ _ _).trans (.emit _ _ _ _ _ _ _ _ _)

theorem noteCast_workKept (x : Run) (n : NicheEntry) (s : State) : WorkKept s (noteCast x n s) := by
  unfold noteCast
  split
  · exact .refl s
  · refine .of_ite (WorkKept.trans (.modCore _ ?_ s) (.filteredRuns _ _)) (.modCore _ ?_ s)
    all_goals exact fun _ => ⟨rfl, rfl⟩

/-- The run with its output written: it is done, or waits for its copies to land (07 R183). -/
def ended (copies : List (Nat × Nat × List Byte)) (r : Run) : Run := { r with st := if copies.isEmpty then .done else .landing }

theorem ended_st (copies : List (Nat × Nat × List Byte)) (r : Run) : (ended copies r).st ≠ .running := by
  unfold ended
  dsimp only
  split <;> simp

/-- The copies of `x` are in flight. -/
def launched (x : Run) (n : NicheEntry) (copies : List (Nat × Nat × List Byte)) (s : State) : State :=
  if copies.isEmpty then s
  else { s with recov := { s.recov with xchgs := s.recov.xchgs ++ [
    { sender := n.unit, ref := x.ref, owner := x.owner, seq := x.seq, don := x.don, niche := x.niche, since := s.now, writes := copies }] } }

theorem launched_workKept (x : Run) (n : NicheEntry) (copies : List (Nat × Nat × List Byte)) (s : State) : WorkKept s (launched x n copies s) :=
  .of_ite (.refl s) ⟨rfl, rfl, rfl, rfl, fun _ => ⟨rfl, rfl⟩, id, fun _ hq _ => hq⟩

/-- The end of `x` counted and traced. -/
def endTold (u : UnitId) (x : Run) (s : State) : State :=
  traceEnd u x.ctx x.niche (if x.seq then 0 else x.don) x.band x.status (match coreOf u with | some c => count (ctrCore c 18) 1 s | none => s)

theorem endTold_workKept (u : UnitId) (x : Run) (s : State) : WorkKept s (endTold u x s) := by
  refine WorkKept.trans ?_ (traceEnd_workKept _ _ _ _ _ _ _)
  split
  · exact .count _ _ s
  · exact .refl s

/-- The end of a run in its stages: told of, ended, its copies launched, a Proof cast set noted, and what follows. -/
theorem endRun_eq (u : UnitId) (x : Run) (n : NicheEntry) (s : State) : endRun u x n s =
    afterRun x (noteCast x n (launched x n (nicheCopies s n) (modRun x (ended (nicheCopies s n)) (endTold u x s)))) := rfl

theorem modRun_workKept {x : Run} {f : Run → Run} (h : ∀ r, (f r).st ≠ .running) (s : State) : WorkKept s (modRun x f s) := by
  refine .mappedRuns s (fun r hr => ?_)
  split at hr
  · exact absurd hr (h r)
  · next hx => rw [if_neg hx]

theorem endRun_workKept (u : UnitId) (x : Run) (n : NicheEntry) (s : State) : WorkKept s (endRun u x n s) := by
  rw [endRun_eq]
  exact (((endTold_workKept u x s).trans (modRun_workKept (ended_st _) _)).trans (launched_workKept _ _ _ _)).trans
    ((noteCast_workKept _ _ _).trans (afterRun_workKept _ _))

theorem endRun_stopped (u : UnitId) (x : Run) (n : NicheEntry) (s : State) : Stopped x (endRun u x n s) := by
  have hended : Stopped x (modRun x (ended (nicheCopies s n)) (endTold u x s)) := by
    refine stopped_map (fun r hr => ?_)
    split
    · exact ended_st _ r
    · next hx => rw [if_neg hx] at hr; exact absurd hr hx
  rw [endRun_eq]
  exact ((launched_workKept _ _ _ _).trans ((noteCast_workKept _ _ _).trans (afterRun_workKept _ _))).stopped hended

/-! ### Faulted runs (07 Table 7.7; 15 R343, Table 15.4) -/

theorem skipOne_running {t : Schedule} {now status : Nat} {wide : Bool} {r : Run} (h : (skipOne t now status wide r).st = .running) :
    skipOne t now status wide r = r := by
  unfold skipOne at h ⊢
  split at h
  · dsimp only at h
    split at h <;> cases h
  · next hst => rw [if_neg hst]

/-- What skipping from `x` makes of a run. -/
def skippedFrom (t : Schedule) (ks : List Nat) (now : Nat) (x : Run) (status : Nat) (wide : Bool) (r : Run) : Run :=
  if r.isRun x then { r with st := .skipped, status := status, wide := wide }
  else if r.same x && ks.contains r.niche then skipOne t now status wide r else r

theorem skippedFrom_running {t : Schedule} {ks : List Nat} {now : Nat} {x : Run} {status : Nat} {wide : Bool} {r : Run}
    (h : (skippedFrom t ks now x status wide r).st = .running) : skippedFrom t ks now x status wide r = r ∧ r.isRun x = false := by
  unfold skippedFrom at h ⊢
  split at h
  · cases h
  · next hx =>
    rw [if_neg hx]
    refine ⟨?_, Bool.eq_false_iff.mpr hx⟩
    split at h
    · next hreach => rw [if_pos hreach, skipOne_running h]
    · next hreach => rw [if_neg hreach]

theorem skipFrom_eq {x : Run} {status : Nat} {wide : Bool} {s : State} {t : Schedule} (h : schedOf s x.ref = some t) : skipFrom x status wide s =
    refresh { s with runs := s.runs.map (skippedFrom t (reachable s t x wide t.niches.length [x.niche]) s.now x status wide) } := by
  unfold skipFrom
  rw [h]
  rfl

theorem skipFrom_workKept (x : Run) (status : Nat) (wide : Bool) (s : State) : WorkKept s (skipFrom x status wide s) := by
  cases h : schedOf s x.ref with
  | none =>
    rw [skipFrom, h]
    exact .refl s
  | some t =>
    rw [skipFrom_eq h]
    exact (WorkKept.mappedRuns s (fun r hr => (skippedFrom_running hr).1)).trans (refresh_workKept _)

theorem skipFrom_stopped {x : Run} {status : Nat} {wide : Bool} {s : State} {t : Schedule} (h : schedOf s x.ref = some t) :
    Stopped x (skipFrom x status wide s) := by
  rw [skipFrom_eq h]
  refine (refresh_workKept _).stopped (stopped_map (fun r hrun hst => ?_))
  obtain ⟨hsame, hother⟩ := skippedFrom_running hst
  rw [hsame, hother] at hrun
  cases hrun

/-- A run of a pack group that starts again from the first Niche (15 Table 15.4). -/
def rerun (x r : Run) : Run := if r.same x then { r with st := .waiting, reruns := 1 } else r

theorem rerun_running {x r : Run} (h : (rerun x r).st = .running) : rerun x r = r ∧ r.same x = false := by
  unfold rerun at h ⊢
  split at h
  · cases h
  · next hx => exact ⟨if_neg hx, Bool.eq_false_iff.mpr hx⟩

/-- The sessions of the group are stopped before its Niches run again. -/
def groupStopped (x : Run) (s : State) : State :=
  forAll ((packSegs s x.owner x.don).filter (· ≠ 0)) (fun g => stopWork (unitOf (runNiche s x)) (g - 1)) s

theorem groupStopped_workKept (x : Run) (s : State) : WorkKept s (groupStopped x s) := .forAll _ (fun _ t => .outside t _ _ _ _) s

/-- The group rerun, without the signals that follow. -/
def groupRerun (x : Run) (s : State) : State :=
  { s with
    runs := s.runs.map (rerun x)
    recov := { s.recov with xchgs := s.recov.xchgs.filter (fun y =>
      !(y.seq && decide (y.ref = x.ref) && decide (y.owner = x.owner) && decide (y.don = x.don))) } }

theorem groupRerun_workKept (x : Run) (s : State) : WorkKept s (groupRerun x s) := by
  obtain ⟨hdram, htracks, hembs, -, hmem, htrip, hrunning⟩ := WorkKept.mappedRuns s (f := rerun x) (fun r hr => (rerun_running hr).1)
  exact ⟨hdram, htracks, hembs, rfl, hmem, htrip, hrunning⟩

theorem groupRerun_stopped (x : Run) (s : State) : Stopped x (groupRerun x s) := by
  intro q hq hrun hst
  obtain ⟨r, -, rfl⟩ := List.mem_map.mp hq
  obtain ⟨hsame, hother⟩ := rerun_running hst
  rw [hsame, Run.isRun, hother] at hrun
  cases hrun

theorem rerunGroup_eq (x : Run) (s : State) : rerunGroup x s = refresh (groupRerun x (groupStopped x s)) := rfl

theorem rerunGroup_workKept (x : Run) (s : State) : WorkKept s (rerunGroup x s) :=
  ((groupStopped_workKept x s).trans (groupRerun_workKept x _)).trans (refresh_workKept _)

theorem rerunGroup_stopped (x : Run) (s : State) : Stopped x (rerunGroup x s) := (refresh_workKept _).stopped (groupRerun_stopped x _)

/-- An aborted run changes no core's memory and starts nothing; where its schedule is known it stops. -/
theorem abortRun_ends (x : Run) (status : Nat) (s : State) :
    WorkKept s (abortRun x status s) ∧ ((schedOf s x.ref).isSome = true → Stopped x (abortRun x status s)) := by
  have hskip := skipFrom_workKept x status true s
  have hstop (h : (schedOf s x.ref).isSome = true) : Stopped x (skipFrom x status true s) :=
    skipFrom_stopped (Option.some_get h).symm
  unfold abortRun
  split
  · split
    · exact ⟨rerunGroup_workKept x s, fun _ => rerunGroup_stopped x s⟩
    · exact ⟨hskip, hstop⟩
  · split
    · next c e hcast =>
      refine ⟨(WorkKept.filteredRuns s _).trans (.modCore c ?_ _), fun _ q hq hrun => ?_⟩
      · exact fun _ => ⟨rfl, rfl⟩
      have hother : q.cast ≠ some (c, e) := by simpa using (List.mem_filter.mp hq).2
      have hsame : q.cast = x.cast := by
        simp only [Run.isRun, Run.same, Bool.and_eq_true, decide_eq_true_eq] at hrun
        obtain ⟨⟨-, hsame⟩, -⟩ := hrun
        exact hsame
      exact absurd (hsame.trans hcast) hother
    · exact ⟨hskip, hstop⟩

theorem faultRun_ends (x : Run) (status : Nat) (s : State) :
    WorkKept s (faultRun x status s) ∧ ((schedOf s x.ref).isSome = true → Stopped x (faultRun x status s)) := by
  unfold faultRun
  split
  · exact abortRun_ends x status s
  · exact ⟨skipFrom_workKept x status false s, fun h => skipFrom_stopped (Option.some_get h).symm⟩

end Sys2Proof.NicheEnds
end

section
/-! Shares of pool buffers that a Niche releases (11 R274), and the sessions behind the end of a run (09 R226). -/

namespace Sys2Proof.NicheEnds

open Sys2Proof.Machine Sys2Proof.Laws Sys2Proof.RasterTime Sys2Proof.RecordWriter Sys2Proof.BandResults

/-! ### Shares of pool buffers (11 R274) -/

theorem recorded_withDram {s t : State} (h : Recorded s t) (d : Dram) : Recorded { s with dram := d } { t with dram := d } := by
  obtain ⟨_, _, _, _, _, _, _, _, _, _, _, _, rfl⟩ := h
  exact ⟨_, _, _, _, _, _, _, _, _, _, _, _, rfl⟩

theorem recorded_armatures {s t : State} (h : Recorded s t) : t.armatures = s.armatures := by
  obtain ⟨_, _, _, _, _, _, _, _, _, _, _, _, rfl⟩ := h
  rfl

theorem detect_dram (k : Nat) (s : State) : (detect k s).dram = s.dram := (Recorded.detect s k).dram

/-- A decrement changes device memory's own state, and at 0 it may trip safety (14 Table 14.2). -/
theorem release_cases (a : Alloc) (s : State) : ∃ d, release a s = { s with dram := d } ∨ release a s = detect 17 { s with dram := d } := by
  unfold release
  split
  · exact ⟨_, .inl rfl⟩
  · split
    · exact ⟨_, .inl rfl⟩
    · split
      · exact ⟨_, .inl rfl⟩
      · exact ⟨_, .inl rfl⟩
      · exact ⟨_, .inr rfl⟩

/-- What a decrement makes of device memory depends on device memory alone. -/
theorem release_dram_congr (a : Alloc) {s t : State} (h : t.dram = s.dram) : (release a t).dram = (release a s).dram := by
  have hpart : t.part = s.part := by
    funext k
    simp only [State.part, h]
  unfold release
  simp only [h, hpart]
  split
  · simp only [freeRun, h]
  · split
    · rfl
    · split
      · rfl
      · simp only [freeBuf, State.setPart, h, hpart]
      · simp only [detect_dram, State.setPart, h]

/-- Releasing a share changes device memory's own state, and may trip safety. -/
theorem releaseShare_cases (a : Nat) (s : State) :
    ∃ d, releaseShare a s = { s with dram := d } ∨ releaseShare a s = detect 17 { s with dram := d } := by
  unfold releaseShare
  cases partitionAt s.dram a with
  | none => exact ⟨_, .inl rfl⟩
  | some p =>
    simp only [Option.elim_some]
    split
    · exact ⟨_, .inl rfl⟩
    · exact release_cases _ { s with dram := dropReader a s.dram }

theorem releaseShare_recorded (a : Nat) (s : State) : Recorded { s with dram := (releaseShare a s).dram } (releaseShare a s) := by
  obtain ⟨d, h | h⟩ := releaseShare_cases a s
  · rw [h]; exact .refl _
  · rw [h, detect_dram]; exact .detect _ _

theorem releaseShare_dram_congr (a : Nat) {s t : State} (h : t.dram = s.dram) : (releaseShare a t).dram = (releaseShare a s).dram := by
  unfold releaseShare
  rw [h]
  cases partitionAt s.dram a with
  | none => exact h
  | some p =>
    simp only [Option.elim_some]
    split
    · exact h
    · exact release_dram_congr _ rfl

/-- The shares named are released. -/
def sharesReleased (l : List Nat) (s : State) : State := forAll l releaseShare s

theorem forAll_cons {α : Type} (a : α) (l : List α) (f : α → State → State) (s : State) : forAll (a :: l) f s = forAll l f (f a s) := rfl

theorem sharesReleased_cons (a : Nat) (l : List Nat) (s : State) : sharesReleased (a :: l) s = sharesReleased l (releaseShare a s) :=
  forAll_cons a l releaseShare s

theorem sharesReleased_recorded (l : List Nat) (s : State) : Recorded { s with dram := (sharesReleased l s).dram } (sharesReleased l s) := by
  induction l generalizing s with
  | nil => exact .refl s
  | cons a l ih =>
    rw [sharesReleased_cons]
    exact (recorded_withDram (releaseShare_recorded a s) _).trans (ih (releaseShare a s))

/-- What device memory does not bear on and a detected cause keeps, released shares keep. -/
theorem sharesReleased_keeps {P : State → Prop} (hdram : ∀ s d, P s → P { s with dram := d }) (hdetect : ∀ k s, P s → P (detect k s))
    (l : List Nat) {s : State} (h : P s) : P (sharesReleased l s) := by
  induction l generalizing s with
  | nil => exact h
  | cons a l ih =>
    rw [sharesReleased_cons]
    refine ih ?_
    obtain ⟨d, hr | hr⟩ := releaseShare_cases a s
    · rw [hr]; exact hdram s d h
    · rw [hr]; exact hdetect 17 _ (hdram s d h)

theorem sharesReleased_tripped (l : List Nat) {s : State} (h : Tripped s) : Tripped (sharesReleased l s) :=
  sharesReleased_keeps (fun _ _ => id) (fun _ _ => detect_tripped) l h

/-- Safety is armed or tripped, so that the next cause finds it tripped or trips it. -/
def ArmedOrTripped (s : State) : Prop := s.safety.state = 1 ∨ Tripped s

theorem ArmedOrTripped.detect {k : Nat} {s : State} (h : ArmedOrTripped s) : Tripped (detect k s) := h.elim detect_trips detect_tripped

theorem sharesReleased_armedOrTripped (l : List Nat) {s : State} (h : ArmedOrTripped s) : ArmedOrTripped (sharesReleased l s) :=
  sharesReleased_keeps (fun _ _ => id) (fun _ _ ht => .inr ht.detect) l h

theorem sharesReleased_dram_congr (l : List Nat) {s t : State} (h : t.dram = s.dram) : (sharesReleased l t).dram = (sharesReleased l s).dram := by
  induction l generalizing s t with
  | nil => exact h
  | cons a l ih =>
    rw [sharesReleased_cons, sharesReleased_cons]
    exact ih (releaseShare_dram_congr a h)

theorem sharesReleased_workKept (l : List Nat) (s : State) : WorkKept { s with dram := (sharesReleased l s).dram } (sharesReleased l s) :=
  .of_recorded (sharesReleased_recorded l s) (fun h => sharesReleased_tripped l (s := s) h)

/-! ### Sessions at the end of a run of a stream whose outbox is empty (04 R118; 09 R226) -/

/-- A record of slot `n` raises its SEQ; its outbox and the sessions stay. -/
theorem issueTo_stream_frame {o n : Nat} {last : Bool} {r : RecordReq} {s t : State} (hsession : r.session = false) (hcontext : r.context = n)
    (hsessions : t.sessions = s.sessions) (hstreams : t.streams = s.streams) :
    (issueTo o last r t).sessions = s.sessions ∧ ((issueTo o last r t).stream n).outbox = (s.stream n).outbox := by
  subst hcontext
  have hrec := issueTo_stream_recorded o last hsession t
  refine ⟨hrec.sessions.trans hsessions, ?_⟩
  rw [stream_written hrec.streams, State.stream, hstreams, State.stream]

theorem statusRecord_frame (n : Nat) (p : Picture) (s : State) :
    (statusRecord n p s).sessions = s.sessions ∧ ((statusRecord n p s).stream n).outbox = (s.stream n).outbox := by
  have hcounted : ∀ c : Bool, (if c then count (ctrSlot n 5) 1 s else s).sessions = s.sessions ∧
      (if c then count (ctrSlot n 5) 1 s else s).streams = s.streams := by
    rintro (_ | _) <;> exact ⟨rfl, rfl⟩
  obtain ⟨hsessions, hstreams⟩ := hcounted p.concealed
  unfold statusRecord
  dsimp only
  refine issueTo_stream_frame ?_ ?_ ?_ ?_
  · exact (fillFlags_keeps _ _).1
  · exact (fillFlags_keeps _ _).2.1
  · split <;> exact hsessions
  · split <;> exact hstreams

theorem placeDue_sessions {n fuel : Nat} {s : State} (h : (s.stream n).outbox = []) : (placeDue n fuel s).sessions = s.sessions := by
  induction fuel generalizing s with
  | zero => rfl
  | succ fuel ih =>
    have hnone : nextLate s n = none := by simp [nextLate, h]
    unfold placeDue
    rw [hnone]
    dsimp only
    split
    · next p _ =>
      obtain ⟨hsessions, houtbox⟩ := statusRecord_frame n p s
      split
      · rw [ih] <;> simp [writeStatus, modPic, hsessions, houtbox, h]
      · rfl
    · split
      · next a p _ =>
        obtain ⟨hsessions, houtbox⟩ := statusRecord_frame n p s
        rw [ih] <;> simp [hsessions, houtbox, h]
      · rfl

theorem forAll_sessions {α : Type} (l : List α) {f : α → State → State} (hf : ∀ a s, (f a s).sessions = s.sessions) (s : State) :
    (forAll l f s).sessions = s.sessions := by
  induction l generalizing s with
  | nil => rfl
  | cons a l ih => rw [forAll_cons, ih, hf]

theorem settle_sessions {n : Nat} {s : State} (h : (s.stream n).outbox = []) : (settle n s).sessions = s.sessions := by
  unfold settle sweepPics
  dsimp only
  rw [forAll_sessions]
  · exact placeDue_sessions h
  · exact fun _ _ => rfl

theorem sweepBlocks_sessions {n : Nat} {s : State} (h : (s.stream n).outbox = []) : (sweepBlocks n s).sessions = s.sessions := by
  unfold sweepBlocks
  dsimp only
  rw [forAll_sessions]
  · exact placeDue_sessions h
  · exact fun _ _ => rfl

theorem afterRun_sessions {x : Run} {s : State} (hseq : x.seq = false) (h : (s.stream x.owner).outbox = []) : (afterRun x s).sessions = s.sessions := by
  unfold afterRun
  simp only [hseq, Bool.false_eq_true, if_false]
  split
  · rfl
  · split
    · exact sweepBlocks_sessions h
    · exact settle_sessions h

/-- Up to what follows it, the end of a run leaves streams and sessions alone. -/
theorem noteCast_frame (x : Run) (n : NicheEntry) (s : State) : (noteCast x n s).sessions = s.sessions ∧ (noteCast x n s).streams = s.streams := by
  unfold noteCast
  split
  · exact ⟨rfl, rfl⟩
  · dsimp only
    split
    · exact ⟨rfl, rfl⟩
    · exact ⟨rfl, rfl⟩

theorem endTold_frame (u : UnitId) (x : Run) (s : State) : (endTold u x s).sessions = s.sessions ∧ (endTold u x s).streams = s.streams := by
  unfold endTold traceEnd
  rw [emit_sessions, emit_streams]
  split
  · exact ⟨rfl, rfl⟩
  · exact ⟨rfl, rfl⟩

theorem launched_frame (x : Run) (n : NicheEntry) (copies : List (Nat × Nat × List Byte)) (s : State) :
    (launched x n copies s).sessions = s.sessions ∧ (launched x n copies s).streams = s.streams := by
  unfold launched
  split
  · exact ⟨rfl, rfl⟩
  · exact ⟨rfl, rfl⟩

theorem endRun_sessions {u : UnitId} {x : Run} {n : NicheEntry} {s : State} (hseq : x.seq = false) (h : (s.stream x.owner).outbox = []) :
    (endRun u x n s).sessions = s.sessions := by
  obtain ⟨htold, htoldStreams⟩ := endTold_frame u x s
  obtain ⟨hlaunched, hlaunchedStreams⟩ := launched_frame x n (nicheCopies s n) (modRun x (ended (nicheCopies s n)) (endTold u x s))
  obtain ⟨hnoted, hnotedStreams⟩ := noteCast_frame x n (launched x n (nicheCopies s n) (modRun x (ended (nicheCopies s n)) (endTold u x s)))
  have hstreams := hnotedStreams.trans (hlaunchedStreams.trans htoldStreams)
  rw [endRun_eq, afterRun_sessions hseq]
  · exact hnoted.trans (hlaunched.trans htold)
  · rw [State.stream, hstreams]
    exact h

end Sys2Proof.NicheEnds
end

section
/-! The effect of a Niche by its station: products and vector Niches (06 R157, R160), crop lists (05 R120), track association (08 R214). -/

namespace Sys2Proof.NicheEnds

open Sys2Proof.Machine Sys2Proof.Laws

/-! ### Effect of a product or vector Niche (06 R157, R160; 09 R224, R228) -/

/-- Scratchpad and accumulators that a product leaves, with its counts: a SEQ Niche of a pack group works on the pages of its batch. -/
def mxOutcome (n : NicheEntry) (x : Run) (s : State) : Mem × Tab Word × Nat × Nat :=
  let batch := runBatch s x
  let d := MxDesc.ofWords (n.station = 5 || n.indep) n.engine n.desc
  let sp := (s.core n.unit).spad
  match (if n.station = 5 ∧ x.seq = true then n.kv else none) with
  | some (layer, head, value) =>
    d.runOn (fun r k => !value && batch.masked s d.n r k) sp (batch.weights s layer head value d sp) (s.core n.unit).acc
  | none => d.run sp (s.core n.unit).acc

/-- Operand b of a vector Niche of a pack group: the value scales of its pages where it multiplies probabilities by them (09 R224). -/
def scaledOperand (batch : Batch) (kv : Option (Nat × Nat × Bool)) (d : VxDesc) (sp : Mem) (s : State) : Mem :=
  match kv with
  | some (layer, head, true) => if d.op = 0x03 && decide (d.srcB ≠ noAddr) then batch.scales s layer head d sp else sp
  | _ => sp

/-- Scratchpad that a vector Niche leaves, with its count. -/
def vxOutcome (n : NicheEntry) (x : Run) (s : State) : Mem × Nat :=
  let batch := runBatch s x
  let d := VxDesc.ofWords n.desc
  let sp := (s.core n.unit).spad
  if x.seq = true then
    d.runOn (fun r => decide (batch.rowSeg r = 0)) sp (scaledOperand batch n.kv d sp s) (s.core n.unit).acc
  else d.run sp (s.core n.unit).acc

/-- Core `c` as its Niche leaves it, with what was counted. -/
def coreDone (c : Nat) (f : Core → Core) (ob : Obs) (s : State) : State := { s.modCore c f with obs := ob }

theorem applyMxOn_done (c : Nat) (masked : Nat → Nat → Bool) (wt : Mem → Mem) (d : MxDesc) (s : State) :
    let o := d.runOn masked (s.core c).spad (wt (s.core c).spad) (s.core c).acc
    ∃ ob, applyMxOn c masked wt d s = coreDone c (fun k => { k with spad := o.1, acc := o.2.1 }) ob s := ⟨_, rfl⟩

theorem applyVxOn_done (c : Nat) (pad : Nat → Bool) (wt : Mem → Mem) (d : VxDesc) (s : State) :
    let o := d.runOn pad (s.core c).spad (wt (s.core c).spad) (s.core c).acc
    ∃ ob, applyVxOn c pad wt d s = coreDone c (fun k => { k with spad := o.1 }) ob s := ⟨_, rfl⟩

theorem seqVx_done (batch : Batch) (c : Nat) (kv : Option (Nat × Nat × Bool)) (d : VxDesc) (s : State) :
    let o := d.runOn (fun r => decide (batch.rowSeg r = 0)) (s.core c).spad (scaledOperand batch kv d (s.core c).spad s) (s.core c).acc
    ∃ ob, seqVx batch c kv d s = coreDone c (fun k => { k with spad := o.1 }) ob s := by
  unfold seqVx scaledOperand
  rcases kv with _ | ⟨layer, head, _ | _⟩
  · exact applyVxOn_done c _ id d s
  · exact applyVxOn_done c _ id d s
  · dsimp only
    split
    · exact applyVxOn_done c _ (batch.scales s layer head d) d s
    · exact applyVxOn_done c _ id d s

/-- The Niche waits for the keys and values that its pages take (09 R225). -/
def awaitsKv (s : State) (x : Run) : Prop := x.seq = true ∧ (runNiche s x).kv.isSome = true ∧ (runBatch s x).kvReady s = false

theorem nicheEffect_awaits {x : Run} {s : State} (r : NicheResult) (h : awaitsKv s x) : nicheEffect x (runNiche s x) r s = (s, false) := by
  obtain ⟨hseq, hkv, hready⟩ := h
  simp [nicheEffect, hseq, hkv, hready]

/-- With nothing to wait for, the effect is that of its station. -/
theorem not_awaitsKv {x : Run} {s : State} (h : ¬ awaitsKv s x) : (x.seq && (runNiche s x).kv.isSome && !(runBatch s x).kvReady s) = false := by
  simpa [awaitsKv] using h

theorem nicheEffect_mx {x : Run} {s : State} (r : NicheResult) (hready : ¬ awaitsKv s x)
    (hst : (runNiche s x).station = 2 ∨ (runNiche s x).station = 5) : ∃ ob, nicheEffect x (runNiche s x) r s =
      (writeBoxes x r (coreDone (runNiche s x).unit
        (fun k => { k with spad := (mxOutcome (runNiche s x) x s).1, acc := (mxOutcome (runNiche s x) x s).2.1 }) ob s), true) := by
  have hgo := not_awaitsKv hready
  unfold nicheEffect mxOutcome
  rw [hgo]
  generalize runNiche s x = n at hst ⊢
  obtain h | h := hst
  · simp only [h]
    exact ⟨_, rfl⟩
  · simp only [h]
    cases hseq : x.seq with
    | false => exact ⟨_, rfl⟩
    | true =>
      cases hkv : n.kv with
      | none => exact ⟨_, rfl⟩
      | some p => exact ⟨_, rfl⟩

theorem nicheEffect_vx {x : Run} {s : State} (r : NicheResult) (hready : ¬ awaitsKv s x) (hst : (runNiche s x).station = 3) :
    ∃ ob, nicheEffect x (runNiche s x) r s =
      (writeBoxes x r (coreDone (runNiche s x).unit (fun k => { k with spad := (vxOutcome (runNiche s x) x s).1 }) ob s), true) := by
  have hgo := not_awaitsKv hready
  unfold nicheEffect vxOutcome
  rw [hgo]
  generalize runNiche s x = n at hst ⊢
  simp only [hst]
  cases hseq : x.seq with
  | false => exact ⟨_, rfl⟩
  | true =>
    obtain ⟨ob, h⟩ := seqVx_done (runBatch s x) n.unit n.kv (VxDesc.ofWords n.desc) s
    exact ⟨ob, congrArg (fun t => (writeBoxes x r t, true)) h⟩

/-! ### Crop lists (05 R120) -/

/-- What crop lists make of device memory depends on device memory and the runs of the trigger alone. -/
theorem writeBoxes_dram_congr (x : Run) (r : NicheResult) {s t : State} (hdram : t.dram = s.dram) (hruns : t.runs = s.runs)
    (harms : t.armatures = s.armatures) : (writeBoxes x r t).dram = (writeBoxes x r s).dram := by
  have hniche : runNiche t = runNiche s := funext (Dispatch.runNiche_congr harms)
  simp only [writeBoxes, hdram, hruns, hniche]

/-! ### Track association (08 R214; 15 R352) -/

/-- Picture `q` with one more TRK Niche of the band done, where it is picture `don`. -/
def trkNoted (don band : Nat) (q : Picture) : Picture :=
  if q.don = don then { q with trkDone := tput q.trkDone band (tget q.trkDone band 0 + 1) } else q

/-- One more TRK Niche of the band is done (15 R355). -/
def trkCounted (n don band : Nat) (s : State) : State :=
  modPic n don (fun p => { p with trkDone := tput p.trkDone band (tget p.trkDone band 0 + 1) }) s

theorem trkNoted_eq (don band : Nat) (q : Picture) : ∃ l, trkNoted don band q = { q with trkDone := l } := by
  unfold trkNoted
  split
  · exact ⟨_, rfl⟩
  · exact ⟨_, rfl⟩

theorem trkCounted_stream (n don band : Nat) (s : State) :
    (trkCounted n don band s).stream n = { s.stream n with pics := (s.stream n).pics.map (trkNoted don band) } := stream_modStream s n _

theorem picOf_trkCounted (n don band d : Nat) (s : State) :
    picOf ((trkCounted n don band s).stream n) d = (picOf (s.stream n) d).map (trkNoted don band) := by
  have hpred : (fun q : Picture => decide (q.don = d)) ∘ trkNoted don band = fun q => decide (q.don = d) := by
    funext q
    obtain ⟨_, h⟩ := trkNoted_eq don band q
    simp [h]
  rw [trkCounted_stream, picOf, List.find?_map, hpred]
  rfl

theorem haloOf_trkCounted (n don band arm : Nat) (s : State) : haloOf (trkCounted n don band s) arm n = haloOf s arm n := by
  simp only [haloOf, slotFigures, trkCounted_stream]
  rfl

theorem bound_trkCounted (n don band : Nat) (s : State) : bound (trkCounted n don band s) n = bound s n := by
  simp only [bound, trkCounted_stream]
  rfl

/-- The tick in which LINE reached a band does not depend on the count. -/
theorem reachedAt_trkCounted (n don band : Nat) (s : State) (q : Picture) (b : Nat) :
    reachedAt ((trkCounted n don band s).stream n) (trkNoted don band q) b = reachedAt (s.stream n) q b := by
  have hpics : ∀ p, (!donLt (trkNoted don band p).don q.don || (trkNoted don band p).whole || (trkNoted don band p).dropped) =
      (!donLt p.don q.don || p.whole || p.dropped) := by
    intro p
    obtain ⟨_, h⟩ := trkNoted_eq don band p
    rw [h]
    rfl
  obtain ⟨_, h⟩ := trkNoted_eq don band q
  rw [trkCounted_stream, h]
  simp only [reachedAt, List.all_map, Function.comp_def, hpics]

/-- t_0 of a band does not depend on the count. -/
theorem t0Of_trkCounted (n don band : Nat) (s : State) (q : Picture) (b : Nat) :
    t0Of (trkCounted n don band s) n (trkNoted don band q) b = t0Of s n q b := by
  have hsched : picSched (trkCounted n don band s) n (trkNoted don band q) = picSched s n q := by
    obtain ⟨_, h⟩ := trkNoted_eq don band q
    rw [h]
    simp only [picSched, bound_trkCounted]
    rfl
  have hline : trigLineOf (trkCounted n don band s) n (trkNoted don band q) b = trigLineOf s n q b := by
    simp only [trigLineOf, hsched, haloOf_trkCounted, trkCounted_stream]
    obtain ⟨_, h⟩ := trkNoted_eq don band q
    rw [h]
  have htd : tdOf (trkCounted n don band s) n (trkNoted don band q) b = tdOf s n q b := by
    simp only [tdOf, hline, trkCounted_stream]
    obtain ⟨_, h⟩ := trkNoted_eq don band q
    rw [h]
    rfl
  simp only [t0Of, htd, reachedAt_trkCounted]

theorem recT0_trkCounted (n don band d b : Nat) (s : State) : recT0 (trkCounted n don band s) n d b = recT0 s n d b := by
  have hcodec : ((trkCounted n don band s).stream n).cfg = (s.stream n).cfg := by rw [trkCounted_stream]
  have hticks : ((trkCounted n don band s).stream n).blockTicks = (s.stream n).blockTicks := by rw [trkCounted_stream]
  simp only [recT0, hcodec, hticks, picOf_trkCounted]
  cases picOf (s.stream n) d with
  | none => rfl
  | some p => simp only [Option.map_some, t0Of_trkCounted]

/-- A commit log whose record is handed over is applied. -/
theorem settleTrk_handTrk {s : State} {l : TaeLog} (h : s.recov.taeLog = some l) : settleTrk (handTrk s) =
    { s with tracks := l.tracks, embs := l.embs, recov := { s.recov with taeLog := none } } := by
  simp [settleTrk, handTrk, h]

theorem reachable_congr {s t : State} (h : t.runs = s.runs) (sched : Schedule) (x : Run) (wide : Bool) (fuel : Nat) (seen : List Nat) :
    reachable t sched x wide fuel seen = reachable s sched x wide fuel seen := by
  induction fuel generalizing seen with
  | zero => rfl
  | succ fuel ih => simp only [reachable, h, ih]

/-- The crop-list Niches that lead to a TRK Niche depend on runs and Armatures alone. -/
theorem embedders_congr {s t : State} (hruns : t.runs = s.runs) (harms : t.armatures = s.armatures) (x : Run) : embedders t x = embedders s x := by
  have hniche : runNiche t = runNiche s := funext (Dispatch.runNiche_congr harms)
  have hsched : schedOf t x.ref = schedOf s x.ref := by simp only [schedOf, harms]
  simp only [embedders, hniche, hsched, hruns, reachable_congr hruns]

/-- What association makes of the contexts: the values of TRACK_CONFIG that the picture fixed, and T0_TICK `t0` of the band. -/
def trkOutcomeAt (t0 : Nat) (n : NicheEntry) (x : Run) (y : Stream) (s : State) : TrkOut :=
  let d := TrkDesc.ofWords n.desc
  let cfg := ((picOf y x.don).bind (·.trkCfg)).getD y.track
  trkRun d cfg y.gen x.don (t0 % 2 ^ 32) (s.core d.detCore).spad (s.core d.embCore).spad (padRow (embedders s x)) { tracks := s.tracks, embs := s.embs }

/-- The outcome of a TRK Niche that completes in `s`. -/
def trkOutcome (n : NicheEntry) (x : Run) (s : State) : TrkOut := trkOutcomeAt (recT0 s x.owner x.don x.band) n x (s.stream x.owner) s

theorem trkOutcomeAt_trkCounted (t0 : Nat) (n : NicheEntry) (x : Run) (y : Stream) (k don band : Nat) (s : State) :
    trkOutcomeAt t0 n x y (trkCounted k don band s) = trkOutcomeAt t0 n x y s := by
  have hembedders : embedders (trkCounted k don band s) x = embedders s x :=
    embedders_congr (s := s) (t := trkCounted k don band s) rfl rfl x
  unfold trkOutcomeAt
  rw [hembedders]
  rfl

/-- The TRACK_UPDATE of a TRK Niche. -/
def trkRecord (x : Run) (o : TrkOut) (s : State) : RecordReq := bandRec x.owner 5 x.don x.band o.flags o.status (safeBand s x) o.body

/-- An outcome is logged, its TRACK_UPDATE handed over, and the log applied. -/
def trkCommitted (x : Run) (o : TrkOut) (s : State) : State :=
  settleTrk (handTrk (bandRecord x.owner false (trkRecord x o (logTrk x o.mem s)) none (logTrk x o.mem s)))

/-- The counts of a TRK Niche. -/
def trkTold (x : Run) (o : TrkOut) (s : State) : State :=
  count (ctrSlot x.owner 9) o.dropped (count (ctrSlot x.owner 10) o.full (count (ctrSlot x.owner 11) o.omitted s))

theorem runTrk_eq {x : Run} {n : NicheEntry} {s : State} (h : x.status = 0) : runTrk x n s =
    trkTold x (trkOutcome n x s) (trkCommitted x (trkOutcome n x s) (trkCounted x.owner x.don x.band s)) := by
  have houtcome : trkOutcomeAt (recT0 (trkCounted x.owner x.don x.band s) x.owner x.don x.band) n x (s.stream x.owner)
      (trkCounted x.owner x.don x.band s) = trkOutcome n x s := by
    rw [trkOutcomeAt_trkCounted, recT0_trkCounted, trkOutcome]
  rw [← houtcome]
  unfold runTrk trkTold trkCommitted trkRecord trkOutcomeAt
  dsimp only
  rw [if_neg (by simp [h])]
  rfl

/-- The contexts as association leaves them, with the commit log empty. -/
def trkApplied (m : TrkMem) (s : State) : State := { s with tracks := m.tracks, embs := m.embs, recov := { s.recov with taeLog := none } }

/-- The contexts take effect together with the record: beside them only what a record may change does. -/
theorem trkCommitted_workKept (x : Run) (o : TrkOut) (s : State) : WorkKept (trkApplied o.mem s) (trkCommitted x o s) := by
  obtain ⟨hdram, -, -, hlog, hmem, htrip, hrunning⟩ :=
    bandRecord_workKept x.owner false (trkRecord x o (logTrk x o.mem s)) none (logTrk x o.mem s)
  rw [trkCommitted, settleTrk_handTrk hlog]
  exact ⟨hdram, rfl, rfl, rfl, hmem, htrip, hrunning⟩

theorem runTrk_workKept {x : Run} {n : NicheEntry} {s : State} (h : x.status = 0) :
    WorkKept (trkApplied (trkOutcome n x s).mem s) (runTrk x n s) := by
  have hcounted : WorkKept (trkApplied (trkOutcome n x s).mem s) (trkApplied (trkOutcome n x s).mem (trkCounted x.owner x.don x.band s)) :=
    .outside _ _ _ _ _
  rw [runTrk_eq h]
  exact (hcounted.trans (trkCommitted_workKept x _ _)).trans (((WorkKept.count _ _ _).trans (.count _ _ _)).trans (.count _ _ _))

end Sys2Proof.NicheEnds
end

section
/-! NICHE_COMPLETE as O38 states it (05 R120; 06 R157, R160; 07 R176; 08 R214; 11 R266, R274). -/

namespace Sys2Proof.NicheEnds

open Sys2Proof.Machine Sys2Proof.Laws

/-! ### NICHE_COMPLETE by its outcome -/

/-- A Niche that consumed an uncorrectable sector is told of, where it serves a safety-class stream (11 R266). -/
def eccDetected (n : NicheEntry) (r : NicheResult) (s : State) : State := if n.safety then detect (if r.sram then 1 else 2) s else s

theorem eccDetected_workKept (n : NicheEntry) (r : NicheResult) (s : State) : WorkKept s (eccDetected n r s) :=
  .of_ite (.detect _ s) (.refl s)

theorem eccDetected_armatures (n : NicheEntry) (r : NicheResult) (s : State) : (eccDetected n r s).armatures = s.armatures := by
  unfold eccDetected
  split
  · exact recorded_armatures (.detect s _)
  · rfl

theorem eccDetected_tripped {n : NicheEntry} {r : NicheResult} {s : State} (hsafety : n.safety = true) (h : ArmedOrTripped s) :
    Tripped (eccDetected n r s) := by
  rw [eccDetected, if_pos hsafety]
  exact h.detect

theorem eccRun_eq {u : UnitId} {x : Run} {n : NicheEntry} {r : NicheResult} {s : State} (htrk : n.station ≠ 4) (hout : n.station ≠ 7) :
    eccRun u x n r s = afterRun x (traceEnd u x.ctx x.niche (if x.seq then 0 else x.don) x.band stEcc (faultRun x stEcc (eccDetected n r s))) := by
  unfold eccRun
  simp only [htrk, hout, if_false]
  rfl

theorem eccRun_ends {u : UnitId} {x : Run} {n : NicheEntry} {r : NicheResult} {s : State} (htrk : n.station ≠ 4) (hout : n.station ≠ 7)
    (hsched : (schedOf s x.ref).isSome = true) : WorkKept (eccDetected n r s) (eccRun u x n r s) ∧ Stopped x (eccRun u x n r s) := by
  have hknown : schedOf (eccDetected n r s) x.ref = schedOf s x.ref := by simp only [schedOf, eccDetected_armatures]
  obtain ⟨hkept, hstopped⟩ := faultRun_ends x stEcc (eccDetected n r s)
  have hafter := (traceEnd_workKept u x.ctx x.niche (if x.seq then 0 else x.don) x.band stEcc (faultRun x stEcc (eccDetected n r s))).trans
    (afterRun_workKept x _)
  rw [eccRun_eq htrk hout]
  exact ⟨hkept.trans hafter, hafter.stopped (hstopped (hknown ▸ hsched))⟩

/-- A Niche with a station other than the decoder's is in a schedule that the part holds. -/
theorem schedOf_isSome {s : State} {x : Run} (h : (runNiche s x).station ≠ 0) : (schedOf s x.ref).isSome = true := by
  cases hsched : schedOf s x.ref with
  | some t => rfl
  | none => exact absurd (by simp [runNiche, nicheAt, hsched]; rfl) h

theorem takesWork_up {s : State} (h : takesWork s = true) : live s = true ∧ domainUp s = true := by
  simp only [takesWork, computeUp, Bool.and_eq_true] at h
  obtain ⟨hlive, hdomain, -⟩ := h
  exact ⟨hlive, hdomain⟩

section Complete

variable {u : UnitId} {r : NicheResult} {x : Run} {s : State} (hwork : takesWork s = true) (hup : unitUp s u = true) (hrun : running s u = some x)
  (hhung : s.recov.hung.contains (unitOf (runNiche s x)) = false)
include hwork hup hrun hhung

theorem nicheComplete_effect (hecc : r.eccFault = false) : exec (.nicheComplete u r) s =
    .next (if (nicheEffect x (runNiche s x) r s).2 then endRun u x (runNiche s x) (sharesReleased r.released (nicheEffect x (runNiche s x) r s).1)
      else (nicheEffect x (runNiche s x) r s).1) := by
  obtain ⟨hlive, hdomain⟩ := takesWork_up hwork
  simp only [exec, execNicheComplete, doNicheComplete, hlive, hdomain, hup, hrun, hhung, hecc, Bool.not_true, Bool.or_self, Bool.false_eq_true, if_false]
  rfl

theorem nicheComplete_ecc (hecc : r.eccFault = true) : exec (.nicheComplete u r) s =
    .next (eccRun u x (runNiche s x) r (sharesReleased r.released s)) := by
  obtain ⟨hlive, hdomain⟩ := takesWork_up hwork
  simp only [exec, execNicheComplete, doNicheComplete, hlive, hdomain, hup, hrun, hhung, hecc, Bool.not_true, Bool.or_self, Bool.false_eq_true, if_false,
    if_true]
  rfl

/-- A Niche that goes on waiting leaves what its effect does. -/
theorem nicheComplete_waits (hecc : r.eccFault = false) {t : State} (heff : nicheEffect x (runNiche s x) r s = (t, false)) :
    exec (.nicheComplete u r) s = .next t := by
  rw [nicheComplete_effect hwork hup hrun hhung hecc, heff]
  rfl

theorem nicheComplete_ends (hecc : r.eccFault = false) {t : State} (heff : nicheEffect x (runNiche s x) r s = (t, true)) :
    exec (.nicheComplete u r) s = .next (endRun u x (runNiche s x) (sharesReleased r.released t)) := by
  rw [nicheComplete_effect hwork hup hrun hhung hecc, heff]
  rfl

/-- A Niche whose effect is on core `c` and on the crop lists of its trigger. -/
theorem coreNiche_completes (hecc : r.eccFault = false) {c : Nat} {f : Core → Core} {ob : Obs}
    (heff : nicheEffect x (runNiche s x) r s = (writeBoxes x r (coreDone c f ob s), true)) :
    ∃ t, exec (.nicheComplete u r) s = .next t ∧ (t.core c).spad = (f (s.core c)).spad ∧ (t.core c).acc = (f (s.core c)).acc ∧
      (∀ k, k ≠ c → (t.core k).spad = (s.core k).spad ∧ (t.core k).acc = (s.core k).acc) ∧ Stopped x t ∧
      t.dram = (sharesReleased r.released (writeBoxes x r s)).dram ∧ t.tracks = s.tracks ∧
      (x.seq = false → (s.stream x.owner).outbox = [] → t.sessions = s.sessions) := by
  have hreleased := sharesReleased_workKept r.released (writeBoxes x r (coreDone c f ob s))
  have hrecorded := sharesReleased_recorded r.released (writeBoxes x r (coreDone c f ob s))
  have hkept := hreleased.trans (endRun_workKept u x (runNiche s x) _)
  have hboxes := writeBoxes_dram_congr x r (s := s) (t := coreDone c f ob s) rfl rfl rfl
  have hmem (k : Nat) : _ = ((s.modCore c f).core k).spad ∧ _ = ((s.modCore c f).core k).acc := hkept.mem k
  have hown := hmem c
  rw [core_modCore] at hown
  have hothers (k : Nat) (hk : k ≠ c) := core_modCore_other s f hk ▸ hmem k
  refine ⟨_, nicheComplete_ends hwork hup hrun hhung hecc heff, hown.1, hown.2, hothers, endRun_stopped _ _ _ _,
    hkept.dram.trans (sharesReleased_dram_congr _ hboxes), hkept.tracks, fun hseq houtbox => ?_⟩
  refine (endRun_sessions hseq ?_).trans hrecorded.sessions
  rw [State.stream, hrecorded.streams]
  exact houtbox

end Complete

/-! ### The outcomes of NICHE_COMPLETE -/

/-- The run that is given a new state has it. -/
theorem modRun_st {x : Run} {st : RunSt} {s : State} {q : Run} (hq : q ∈ (modRun x (fun y => { y with st := st }) s).runs) (hrun : q.isRun x = true) :
    q.st = st := by
  obtain ⟨y, -, rfl⟩ := List.mem_map.mp hq
  split
  · rfl
  · next hx => rw [if_neg hx] at hrun; exact absurd hrun hx

section Outcomes

variable {u : UnitId} {r : NicheResult} {x : Run} {s : State} (hwork : takesWork s = true) (hup : unitUp s u = true) (hrun : running s u = some x)
  (hhung : s.recov.hung.contains (unitOf (runNiche s x)) = false)
include hwork hup hrun hhung

/-- A product writes scratchpad and accumulators of its own core (06 R157; 09 R224). -/
theorem mxNiche_completes (hecc : r.eccFault = false) (hready : ¬ awaitsKv s x) (hst : (runNiche s x).station = 2 ∨ (runNiche s x).station = 5) :
    ∃ t, exec (.nicheComplete u r) s = .next t ∧ (t.core (runNiche s x).unit).spad = (mxOutcome (runNiche s x) x s).1 ∧
      (t.core (runNiche s x).unit).acc = (mxOutcome (runNiche s x) x s).2.1 ∧
      (∀ k, k ≠ (runNiche s x).unit → (t.core k).spad = (s.core k).spad ∧ (t.core k).acc = (s.core k).acc) ∧ Stopped x t ∧
      t.dram = (sharesReleased r.released (writeBoxes x r s)).dram ∧ t.tracks = s.tracks ∧
      (x.seq = false → (s.stream x.owner).outbox = [] → t.sessions = s.sessions) := by
  obtain ⟨ob, heff⟩ := nicheEffect_mx r hready hst
  exact coreNiche_completes hwork hup hrun hhung hecc heff

/-- A vector Niche writes its core's scratchpad (06 R160). -/
theorem vxNiche_completes (hecc : r.eccFault = false) (hready : ¬ awaitsKv s x) (hst : (runNiche s x).station = 3) :
    ∃ t, exec (.nicheComplete u r) s = .next t ∧ (t.core (runNiche s x).unit).spad = (vxOutcome (runNiche s x) x s).1 ∧
      (t.core (runNiche s x).unit).acc = (s.core (runNiche s x).unit).acc ∧
      (∀ k, k ≠ (runNiche s x).unit → (t.core k).spad = (s.core k).spad ∧ (t.core k).acc = (s.core k).acc) ∧ Stopped x t ∧
      t.dram = (sharesReleased r.released (writeBoxes x r s)).dram ∧ t.tracks = s.tracks := by
  obtain ⟨ob, heff⟩ := nicheEffect_vx r hready hst
  obtain ⟨t, hexec, hspad, hacc, hothers, hstopped, hdram, htracks, -⟩ := coreNiche_completes hwork hup hrun hhung hecc heff
  exact ⟨t, hexec, hspad, hacc, hothers, hstopped, hdram, htracks⟩

/-- Track association changes its contexts with its record, and no core (08 R214). -/
theorem trkNiche_completes (hecc : r.eccFault = false) (hst : (runNiche s x).station = 4) (hstatus : x.status = 0) (hseq : x.seq = false) :
    ∃ t, exec (.nicheComplete u r) s = .next t ∧ t.tracks = (trkOutcome (runNiche s x) x s).mem.tracks ∧
      t.embs = (trkOutcome (runNiche s x) x s).mem.embs ∧ t.dram = (sharesReleased r.released s).dram ∧
      ∀ k, (t.core k).spad = (s.core k).spad ∧ (t.core k).acc = (s.core k).acc := by
  have heff : nicheEffect x (runNiche s x) r s = (runTrk x (runNiche s x) s, true) := by
    simp [nicheEffect, hseq, hst]
  obtain ⟨hdram, htracks, hembs, -, hmem, -⟩ := runTrk_workKept (n := runNiche s x) (s := s) hstatus
  have hreleased := (sharesReleased_workKept r.released (runTrk x (runNiche s x) s)).trans (endRun_workKept u x (runNiche s x) _)
  exact ⟨_, nicheComplete_ends hwork hup hrun hhung hecc heff, hreleased.tracks.trans htracks, hreleased.embs.trans hembs,
    hreleased.dram.trans (sharesReleased_dram_congr _ hdram),
    fun k => ⟨(hreleased.mem k).1.trans (hmem k).1, (hreleased.mem k).2.trans (hmem k).2⟩⟩

/-- A Niche of a core that consumed an uncorrectable sector ends without its effect, and one that serves a safety-class stream trips (11 R266). -/
theorem eccNiche_completes (hecc : r.eccFault = true) (hst : (runNiche s x).station = 2 ∨ (runNiche s x).station = 3 ∨ (runNiche s x).station = 5) :
    ∃ t, exec (.nicheComplete u r) s = .next t ∧ (∀ k, (t.core k).spad = (s.core k).spad ∧ (t.core k).acc = (s.core k).acc) ∧
      t.dram = (sharesReleased r.released s).dram ∧ t.tracks = s.tracks ∧ Stopped x t ∧
      ((runNiche s x).safety = true → s.safety.state = 1 → Tripped t) := by
  have hreleased := sharesReleased_workKept r.released s
  have hsched : (schedOf (sharesReleased r.released s) x.ref).isSome = true := by
    have hheld : schedOf (sharesReleased r.released s) x.ref = schedOf s x.ref := by
      simp only [schedOf, recorded_armatures (sharesReleased_recorded r.released s)]
    exact hheld ▸ schedOf_isSome (by omega)
  obtain ⟨hended, hstopped⟩ := eccRun_ends (u := u) (r := r) (n := runNiche s x) (by omega) (by omega) hsched
  have hkept := hreleased.trans ((eccDetected_workKept (runNiche s x) r _).trans hended)
  refine ⟨_, nicheComplete_ecc hwork hup hrun hhung hecc, hkept.mem, hkept.dram, hkept.tracks, hstopped, fun hsafety harmed =>
    hended.tripped (eccDetected_tripped hsafety (sharesReleased_armedOrTripped _ (.inl harmed)))⟩

/-- An OUT Niche whose ring holds records goes back to waiting (03 R54). -/
theorem outNiche_waits (hecc : r.eccFault = false) (hst : (runNiche s x).station = 7) (hseq : x.seq = false) (hholds : ringHolds s x = true) :
    exec (.nicheComplete u r) s = .next (modRun x (fun q => { q with st := .ready }) s) :=
  nicheComplete_waits hwork hup hrun hhung hecc (by simp [nicheEffect, hseq, hst, stepOut, hholds])

/-- An ENC Niche with slices left waits (04 R115). -/
theorem encNiche_waits (hecc : r.eccFault = false) (hst : (runNiche s x).station = 6) (hleft : x.encDone = false)
    (hmode : (s.stream x.owner).cfg.evMode ≠ 0) : exec (.nicheComplete u r) s = .next s :=
  nicheComplete_waits hwork hup hrun hhung hecc (by simp [nicheEffect, hst, hleft, hmode])

end Outcomes

/-- Settles O38: by the Niche's station, with one that consumed an uncorrectable sector apart. What follows the end of a run (`endRun_workKept`,
`eccRun_ends`) leaves device memory, track contexts and the cores' memory alone. -/
theorem nicheCompleted : Obligations.NicheCompleted := by
  unfold Obligations.NicheCompleted
  intro u r x s hwork hup hrun n hhung
  refine ⟨fun hecc hwaits => nicheComplete_waits hwork hup hrun hhung hecc (nicheEffect_awaits r hwaits),
    fun hecc hready hst => mxNiche_completes hwork hup hrun hhung hecc hready hst,
    fun hecc hready hst => vxNiche_completes hwork hup hrun hhung hecc hready hst,
    fun hecc hst hstatus hseq => trkNiche_completes hwork hup hrun hhung hecc hst hstatus hseq,
    fun hecc hst => eccNiche_completes hwork hup hrun hhung hecc hst,
    fun hecc hst hleft hmode => encNiche_waits hwork hup hrun hhung hecc hst hleft hmode,
    fun hecc hst hseq hholds => ⟨_, outNiche_waits hwork hup hrun hhung hecc hst hseq hholds, rfl, rfl, rfl, fun q hq hrun => ?_⟩⟩
  exact modRun_st hq hrun

end Sys2Proof.NicheEnds
end

section
/-! MAQUETTE_DROP and ARMATURE_COMMIT return pool buffers (07 R167; 11 R274): device memory does not stay where a returned buffer is noted to hold a page of a
closed session, since VALID clears in the page's header (09 R231). -/

namespace Sys2Proof.ReturnedPages

open Sys2Proof.Machine Sys2Proof.Laws

/-! ### A buffer that held a page -/

/-- A protected buffer of 1,024 bytes. -/
def modelBuffer : Alloc := { addr := 0x10000000, bytes := 1536, pool := 1, ecc := true }

/-- Device memory with one share of that buffer, noted to hold a page of a closed session, whose header stands elsewhere with VALID set. -/
def pageNoted : Dram :=
  { Dram.reset with refs := [(modelBuffer.addr, 1)], pagesLeft := [(modelBuffer.addr, 0x20000000)], cells := [(0x20000000, 1)] }

/-- A command of host queue 0 that waits at position 1: opcode and CONTEXT. -/
def command (op ctx : Nat) : JEntry :=
  { jpos := 1, port := .host, queue := 0, asn := 1, pkt := [w32 op, 0, w32 ctx, 0] ++ List.replicate 12 0, data := [], tick := 0, st := .waiting,
    cpls := [], posted := 0, waited := 0, origin := none, fwd := none, began := none, client := 0, place := 0, during := false }

/-- A running part with that command and that memory. -/
def holding (e : JEntry) : State :=
  { State.reset with chip := { Chip.reset with phase := .ready }, journal := [e], jpos := 1, dram := pageNoted }

/-! ### MAQUETTE_DROP -/

/-- The buffer belongs to Maquette 1, which nothing uses. -/
def dropping : State := { holding (command 0x21 1) with maquettes := [(1, { pkg := default, allocs := [modelBuffer] })] }

theorem dropping_runs : Runs dropping 1 0x21 (command 0x21 1) := ⟨by decide +kernel, by decide +kernel, by decide +kernel⟩

theorem dropping_clears_valid : (doMaquetteDrop 1 dropping).dram.cells = [] := by decide +kernel

/-- Refutes O33: it claims that a MAQUETTE_DROP leaves every byte of DRAM, in every state. The buffers it returns go to their free stores, and VALID clears in
the header of a page that is noted to stand in one (09 R231). The statement has no premise that the buffers of Maquettes are apart from the pages of closed
sessions, and in `dropping` they are not. -/
theorem not_maquettes : ¬ Obligations.Maquettes := by
  unfold Obligations.Maquettes
  intro h
  obtain ⟨-, hdrop⟩ := h 1 default (command 0x21 1) dropping
  obtain ⟨-, -, hreturned⟩ := hdrop dropping_runs
  obtain ⟨v, hexec, -, hcells, -⟩ := hreturned (by decide +kernel) (by decide +kernel)
  have ht : doMaquetteDrop 1 dropping = finish 1 stOk [] v := by
    injection hexec
  have hcleared := dropping_clears_valid
  rw [ht, kept_dram (finish_kept 1 stOk [] v), hcells] at hcleared
  exact absurd hcleared (by decide +kernel)

/-! ### ARMATURE_COMMIT -/

/-- A session model without pack groups: no Niche, one candidate schedule for one core. -/
def idleModel : MaqEntry :=
  { (default : MaqEntry) with
    kind := .session, cands := [{ cores := 1, halo := 0, lines := [], bands := [], contents := [] }], lanes := 1, layers := 1, heads := 1, itemBytes := 1
    laneRows := 1 }

/-- A commit block that binds entry 0 of Maquette 1 as session model 0, on core 0. -/
def idleBlock : List Word := [0x00010100, 1] ++ List.replicate 14 0 ++ [0x80010000, 0, 0, 0, 0, 0, 0, 0]

/-- Its schedule: the model's pack groups, which are none. -/
def idlePlan : CommitPlan :=
  { main := { (default : Schedule) with packs := [{ model := 0, groups := 0, lanes := 1, rows := 1, firstNiche := 0, nicheCount := 0 }], collisionFree := true }
    variants := [], contents := [] }

/-- The buffer belongs to the Armature of handle 3, which is not active and which nothing uses. -/
def committing : State :=
  { holding (command 0x22 3) with
    maquettes := [(1, { pkg := { (default : Package) with entries := [idleModel] }, allocs := [] })]
    armatures := [(3, { (default : Armature) with allocs := [modelBuffer] })] }

theorem committing_runs : Runs committing 1 0x22 (command 0x22 3) := ⟨by decide +kernel, by decide +kernel, by decide +kernel⟩

theorem idlePlan_resolves : planOk committing idleBlock idlePlan = true := by decide +kernel

theorem committing_passes : firstFail (commitChecks committing idleBlock idlePlan) = none := by decide +kernel

/-- The plan has no table that needs a buffer. -/
theorem idlePlan_allocated :
    allocAll false true (planAllocs idlePlan) [] (beginCmd (command 0x22 3) committing) = (some [], beginCmd (command 0x22 3) committing) := by
  rw [show planAllocs idlePlan = [] by decide +kernel]
  rfl

theorem committing_clears_valid : (doArmatureCommit 1 idleBlock idlePlan committing).dram.cells = [] := by decide +kernel

/-- Refutes O34: it claims that a commit changes no byte of DRAM but those of its tables, in every state. The Armature that it replaces returns its buffers
where nothing uses it any more, and VALID clears in the header of a page that is noted to stand in one (09 R231). The statement has no premise that the buffers
of Armatures are apart from the pages of closed sessions, and in `committing` they are not. -/
theorem not_armatureCommitted : ¬ Obligations.ArmatureCommitted := by
  unfold Obligations.ArmatureCommitted
  intro h
  obtain ⟨-, hfree⟩ := h 1 idleBlock idlePlan (command 0x22 3) committing committing_runs (.inl idlePlan_resolves) (.inl (by decide))
  obtain ⟨-, -, -, hcommits⟩ := hfree (by decide +kernel)
  obtain ⟨v, k, hexec, -, -, -, -, -, hcells, -⟩ := hcommits 3 [] _ (by decide +kernel) committing_passes idlePlan_allocated
  have ht := Host.Outcome.next.inj hexec
  have hcleared := committing_clears_valid
  rw [ht, kept_dram (finishCtx_kept 1 _ 0 3 _ v), hcells] at hcleared
  exact absurd hcleared (by decide +kernel)

end Sys2Proof.ReturnedPages
end

section
/-! EVIDENCE_SLICE (04 R112-R118): the turn of its record goes by a DON of 32 bits, and the statement's by the DON of the run, which it does not bound. -/

namespace Sys2Proof.Evidence

open Sys2Proof.Machine

/-- Niche 0 of the schedule: the encoder's. -/
def encNiche : NicheEntry := { (default : NicheEntry) with station := 6 }

/-- The Niche runs for band 1 of a picture whose DON is 2^32. -/
def encoding : Run := { (default : Run) with don := 2 ^ 32, band := 1, st := .running }

/-- It waits for band 0 of the picture with DON 0. -/
def earlier : Run := { (default : Run) with st := .waiting }

/-- The picture that is encoded, 32 by 32 samples. -/
def wrappedPicture : Picture := { (default : Picture) with don := 2 ^ 32, w := 32, h := 32, depth := 8 }

/-- One slice: the one CTU row of a crop of 32 by 32 samples. -/
def oneRow : SliceOut :=
  { evid := 0, cropX := 0, cropY := 0, cropW := 32, cropH := 32, rowBytes := [100], bytes := 100, slot := none, nextCtu := none }

/-- A running part whose slot 0 has that picture encoded. -/
def wrapped : State :=
  { State.reset with
    chip := { Chip.reset with phase := .ready }
    armatures := [(0, { (default : Armature) with plan := { (default : CommitPlan) with main := { (default : Schedule) with niches := [encNiche] } } })]
    streams := [(0, { Stream.reset with isOpen := true, cfg := { Stream.reset.cfg with evMode := 1, evRows := 1 }, pics := [wrappedPicture] })]
    runs := [encoding, earlier] }

theorem wrapped_encodes :
    takesWork wrapped = true ∧ running wrapped (.enc 0) = some encoding ∧ encoding.encDone = false ∧
    picOf (wrapped.stream encoding.owner) encoding.don = some wrappedPicture ∧ (wrapped.stream encoding.owner).cfg.evMode ≠ 0 := by
  decide +kernel

/-- Its slice is a whole one, of a crop that is not empty. -/
theorem oneRow_whole :
    let crop := encoding.crop.getD (clipCrop wrappedPicture oneRow)
    let rows := cropRows (cropHeight wrapped encoding crop)
    0 < crop.2.2.2.1 ∧ 0 < rows ∧ sliceOk (wrapped.stream encoding.owner).cfg encoding rows oneRow = true := by
  decide +kernel

/-- By its whole DON the record's turn has come, and no record waits before it. -/
theorem wrapped_turn :
    tget wrappedPicture.discard encoding.band 0 = 0 ∧ recordTurn wrapped encoding.owner encoding.don encoding.band = true ∧
    (wrapped.stream encoding.owner).outbox = [] := by
  decide +kernel

/-- The record has the DON modulo 2^32, which is 0, and waits for the earlier band of that picture: none is issued. -/
theorem wrapped_issues_none :
    (wrapped.stream encoding.owner).seq = 0 ∧ ((doEvidenceSlice 0 oneRow wrapped).stream encoding.owner).seq = 0 := by
  decide +kernel

/-- Refutes O39: it claims that the record of a slice is issued when its turn has come by the DON of its run, in every state. A record has a DON of 32
bits (04 R116), and its turn is that of this number (04 R118). The statement has no premise that the DON of the run is below 2^32, and in `wrapped` it is
2^32 itself, so that the record waits for band 0 of DON 0. -/
theorem not_exchangesStripsAndEvidence : ¬ Obligations.ExchangesStripsAndEvidence := by
  unfold Obligations.ExchangesStripsAndEvidence
  intro h
  obtain ⟨-, -, hslice⟩ := h
  obtain ⟨hwork, hrun, hleft, hpic, hmode⟩ := wrapped_encodes
  obtain ⟨hwide, hrows, hwhole⟩ := oneRow_whole
  obtain ⟨hdiscard, hturn, houtbox⟩ := wrapped_turn
  obtain ⟨-, hissues⟩ := hslice 0 oneRow encoding wrappedPicture wrapped hwork hrun hleft hpic hmode hwide hrows rfl
  obtain ⟨t, hexec, -, -, -, hseq, -⟩ := hissues hwhole (by decide +kernel) (by decide +kernel)
  have ht : doEvidenceSlice 0 oneRow wrapped = t := by
    injection hexec
  obtain ⟨hbefore, hafter⟩ := wrapped_issues_none
  rw [ht, hseq hdiscard hturn houtbox, hbefore] at hafter
  exact absurd hafter (by decide)

end Sys2Proof.Evidence
end

section
/-! TRACK_CONFIG and TRACK_QUERY (08 R199, R216; 11 R266): the check for an audio stream, the values kept for the next picture, the images cut at the end of the
buffer. -/

namespace Sys2Proof.TrackCommands

open Sys2Proof.Machine Sys2Proof.Laws

/-! ### The checks of the stream -/

theorem streamCheck_open {s : State} {e : JEntry} (hcheck : streamCheck s e = none) :
    (s.stream e.ctx).isOpen = true ∧ (s.stream e.ctx).closing = none := by
  simp only [streamCheck] at hcheck
  split_ifs at hcheck with hclosed hclosing
  exact ⟨by simpa using hclosed, by simpa using hclosing⟩

/-- An audio stream has no context for these commands. -/
theorem videoCheck_audio {s : State} {e : JEntry} (hcheck : streamCheck s e = none) (haudio : (s.stream e.ctx).cfg.codec = 2) :
    videoCheck s e = some stBadContext := by
  obtain ⟨hopen, hclosing⟩ := streamCheck_open hcheck
  simp [videoCheck, hopen, hclosing, haudio]

theorem videoCheck_video {s : State} {e : JEntry} (hvideo : (s.stream e.ctx).cfg.codec ≠ 2) : videoCheck s e = streamCheck s e := by
  simp [videoCheck, hvideo]

/-! ### TRACK_CONFIG -/

theorem exec_trackConfig_rejected {j st : Nat} {e : JEntry} {s : State} (hruns : Runs s j 0x40 e) (hcheck : videoCheck s e = some st) :
    exec (.trackConfig j) s = .next (finish j st [] (beginCmd e s)) := by
  obtain ⟨he, hbegin, hstatic⟩ := hruns
  have hbody : videoCheck (beginCmd e s) e = some st := hcheck
  simp only [exec, execTrackConfig, doTrackConfig, runCmd_body he hbegin hstatic, hbody]

/-- Values in range wait in the slot for the first TRK Niche of a picture (R199). -/
theorem exec_trackConfig_checked {j : Nat} {e : JEntry} {s : State} (hruns : Runs s j 0x40 e) (hcheck : videoCheck s e = none) :
    exec (.trackConfig j) s = .next (
      if (TrackCfg.ofEntry e).ok then
        finish j stOk [] ((beginCmd e s).setStream e.ctx { s.stream e.ctx with trackNext := some (TrackCfg.ofEntry e) })
      else finish j stBadParam [] (beginCmd e s)) := by
  obtain ⟨he, hbegin, hstatic⟩ := hruns
  have hbody : videoCheck (beginCmd e s) e = none := hcheck
  simp only [exec, execTrackConfig, doTrackConfig, runCmd_body he hbegin hstatic, hbody]
  rfl

/-! ### An image cut at an entry -/

/-- The first `k` entries are those that fit into `room` bytes. -/
structure Fits (entries : List (List Byte)) (room k : Nat) : Prop where
  listed : k ≤ entries.length
  fit : (entries.take k).flatten.length ≤ room
  tight : k < entries.length → room < (entries.take (k + 1)).flatten.length

theorem Fits.nil {room : Nat} : Fits [] room 0 := ⟨Nat.le_refl 0, Nat.zero_le room, fun h => absurd h (Nat.lt_irrefl 0)⟩

theorem Fits.stop {x : List Byte} {l : List (List Byte)} {room : Nat} (h : room < x.length) : Fits (x :: l) room 0 :=
  ⟨Nat.zero_le _, Nat.zero_le room, fun _ => by simpa using h⟩

theorem Fits.cons {x : List Byte} {l : List (List Byte)} {room k : Nat} (h : x.length ≤ room) (hl : Fits l (room - x.length) k) :
    Fits (x :: l) room (k + 1) := by
  obtain ⟨hlisted, hfit, htight⟩ := hl
  refine ⟨by simpa using hlisted, ?_, fun hk => ?_⟩
  · simp only [List.take_succ_cons, List.flatten_cons, List.length_append]
    omega
  · have hrest := htight (by simpa using hk)
    simp only [List.take_succ_cons, List.flatten_cons, List.length_append] at hrest ⊢
    omega

theorem cutImage_go_fits (l : List (List Byte)) (room : Nat) (acc : List Byte) (n : Nat) :
    ∃ k, Fits l room k ∧ cutImage.go l room acc n = (acc ++ (l.take k).flatten, n + k, decide (k ≠ l.length)) := by
  induction l generalizing room acc n with
  | nil => exact ⟨0, .nil, by simp [cutImage.go]⟩
  | cons x l ih =>
    by_cases hx : x.length ≤ room
    · obtain ⟨k, hk, hgo⟩ := ih (room - x.length) (acc ++ x) (n + 1)
      refine ⟨k + 1, .cons hx hk, ?_⟩
      rw [cutImage.go, if_pos hx, hgo]
      simp [Nat.add_comm 1 k, Nat.add_assoc]
    · exact ⟨0, .stop (by omega), by simp [cutImage.go, hx]⟩

/-- An image is its leading entries that fit, with their number and whether any is left out. -/
theorem cutImage_fits (l : List (List Byte)) (room : Nat) :
    ∃ k, Fits l room k ∧ cutImage l room = ((l.take k).flatten, k, decide (k ≠ l.length)) := by
  obtain ⟨k, hk, hgo⟩ := cutImage_go_fits l room [] 0
  exact ⟨k, hk, by simpa [cutImage] using hgo⟩

/-- An image that counts entries: the entries that fit stand in host memory, and the completion tells how many of how many. -/
theorem writeImage_entries (j addr room : Nat) (l : List (List Byte)) (s : State) :
    ∃ k, Fits l room k ∧ writeImage j addr room l true s =
      finish j (if k = l.length then stOk else stTruncated) [w32 k, w32 l.length]
        { s with hostMem := mwrite s.hostMem addr (l.take k).flatten } := by
  obtain ⟨k, hk, hcut⟩ := cutImage_fits l room
  refine ⟨k, hk, ?_⟩
  by_cases hall : k = l.length <;> simp [writeImage, hcut, hall, hostWrite]

/-! ### TRACK_QUERY -/

/-- The slot whose contexts a TRACK_QUERY reads, none for those of every slot. -/
def queriedSlot (e : JEntry) : Option Nat := if e.ctx = 0xFFFF then none else some e.ctx

/-- The live contexts a TRACK_QUERY reads, by ascending index. -/
def queriedTracks (e : JEntry) (s : State) : Tab Track :=
  s.tracks.filter (fun t => t.2.live && (decide (e.ctx = 0xFFFF) || decide (t.2.slot = e.ctx)))

theorem trackImages_queried (e : JEntry) (s : State) :
    trackImages s (queriedSlot e) = (queriedTracks e s).map (fun t => wordsBytes (t.2.image t.1)) := by
  by_cases hall : e.ctx = 0xFFFF <;> simp [trackImages, queriedSlot, queriedTracks, hall]

theorem exec_trackQuery_rejected {j st : Nat} {e : JEntry} {s : State} (hruns : Runs s j 0x41 e) (hslot : e.ctx ≠ 0xFFFF)
    (hcheck : videoCheck s e = some st) : exec (.trackQuery j) s = .next (finish j st [] (beginCmd e s)) := by
  obtain ⟨he, hbegin, hstatic⟩ := hruns
  have hbody : videoCheck (beginCmd e s) e = some st := hcheck
  simp [exec, execTrackQuery, doTrackQuery, runCmd_body he hbegin hstatic, hslot, hbody]

/-- No stream is checked where CONTEXT is 0xFFFF (R216). -/
theorem exec_trackQuery_checked {j : Nat} {e : JEntry} {s : State} (hruns : Runs s j 0x41 e)
    (hcheck : e.ctx = 0xFFFF ∨ e.ctx ≠ 0xFFFF ∧ videoCheck s e = none) :
    exec (.trackQuery j) s = .next (
      if tracksBad s (queriedSlot e) then finish j stEcc [] (beginCmd e s)
      else writeImage j (e.param64 0) (e.param 2).toNat (trackImages s (queriedSlot e)) true (beginCmd e s)) := by
  obtain ⟨he, hbegin, hstatic⟩ := hruns
  have hbad (slot : Option Nat) : tracksBad (beginCmd e s) slot = tracksBad s slot := rfl
  have himages (slot : Option Nat) : trackImages (beginCmd e s) slot = trackImages s slot := rfl
  simp only [exec, execTrackQuery, doTrackQuery, runCmd_body he hbegin hstatic, hbad, himages, queriedSlot]
  obtain hall | ⟨hslot, hnone⟩ := hcheck
  · simp [hall]
  · have hbody : videoCheck (beginCmd e s) e = none := hnone
    simp [hslot, hbody]

/-- The images that fit stand at the buffer, and nothing else of host memory is written before the completion. -/
theorem exec_trackQuery_images {j : Nat} {e : JEntry} {s : State} (hruns : Runs s j 0x41 e)
    (hcheck : e.ctx = 0xFFFF ∨ e.ctx ≠ 0xFFFF ∧ videoCheck s e = none) (hgood : tracksBad s (queriedSlot e) = false) :
    let live := queriedTracks e s
    let images := live.map (fun t => wordsBytes (t.2.image t.1))
    ∃ k, Fits images (e.param 2).toNat k ∧
      exec (.trackQuery j) s = .next (finish j (if k = live.length then stOk else stTruncated) [w32 k, w32 live.length]
        { beginCmd e s with hostMem := mwrite s.hostMem (join64 (e.param 0) (e.param 1)) (images.take k).flatten }) := by
  dsimp only
  obtain ⟨k, hk, himage⟩ := writeImage_entries j (e.param64 0) (e.param 2).toNat (trackImages s (queriedSlot e)) (beginCmd e s)
  rw [trackImages_queried] at hk himage
  refine ⟨k, hk, ?_⟩
  rw [exec_trackQuery_checked hruns hcheck, if_neg (by simp [hgood]), trackImages_queried, himage, List.length_map]
  rfl

/-- Settles O29: the check of the stream, then the range of the values or the sectors of the contexts, then the images that fit. -/
theorem trackCommands : Obligations.TrackCommands := by
  unfold Obligations.TrackCommands
  refine fun j e s => ⟨fun ⟨hruns, hcheck⟩ => ?_, fun ⟨hruns, hcheck⟩ hctx haudio => ?_, fun hruns hcheck => ?_⟩
  · split
    · next haudio => exact exec_trackConfig_rejected hruns (videoCheck_audio hcheck haudio)
    · next hvideo => exact exec_trackConfig_checked hruns ((videoCheck_video hvideo).trans hcheck)
  · exact exec_trackQuery_rejected hruns (by omega) (videoCheck_audio hcheck haudio)
  · have hpassed : e.ctx = 0xFFFF ∨ e.ctx ≠ 0xFFFF ∧ videoCheck s e = none :=
      hcheck.imp_right fun ⟨hnone, hvideo, hctx⟩ => ⟨by omega, (videoCheck_video hvideo).trans hnone⟩
    refine ⟨fun hbad => ?_, fun hgood => ?_⟩
    · exact (exec_trackQuery_checked hruns hpassed).trans (congrArg _ (if_pos hbad))
    · obtain ⟨k, ⟨hlisted, hfit, htight⟩, hexec⟩ := exec_trackQuery_images hruns hpassed hgood
      rw [List.length_map] at hlisted htight
      exact ⟨k, hlisted, hfit, htight, hexec⟩

end Sys2Proof.TrackCommands
end

section
/-! The session commands as they begin (09 R220, R225, R226, R231; 03 R57, R70-R72): the check of the session, then the command's own checks. -/

namespace Sys2Proof.SessionCommands

open Sys2Proof.Machine Sys2Proof.Laws

/-! ### The check of the session -/

section Check

variable {s : State} {e : JEntry}

theorem sessionCheck_notOpen (h : (s.session e.ctx).isOpen = false ∨ (s.session e.ctx).shadow.isSome = true ∨ (s.session e.ctx).pendingOpen.isSome = true) :
    sessionCheck s e = some stBadContext := by
  refine if_pos ?_
  simpa [or_assoc] using h

theorem sessionCheck_closing (hopen : (s.session e.ctx).isOpen = true) (hshadow : (s.session e.ctx).shadow = none)
    (hpending : (s.session e.ctx).pendingOpen = none) (hclosing : (s.session e.ctx).closing.isSome = true) : sessionCheck s e = some stCtxClosing := by
  simp [sessionCheck, hopen, hshadow, hpending, hclosing]

theorem sessionCheck_stale (hopen : (s.session e.ctx).isOpen = true) (hshadow : (s.session e.ctx).shadow = none)
    (hpending : (s.session e.ctx).pendingOpen = none) (hclosing : (s.session e.ctx).closing = none) (hgen : e.gen ≠ (s.session e.ctx).gen) :
    sessionCheck s e = some stStaleGen := by
  simp [sessionCheck, hopen, hshadow, hpending, hclosing, hgen]

end Check

/-! ### Beginning -/

section Begin

variable {j : Nat} {e : JEntry} {s : State}

theorem exec_seqAppend_begins (hruns : Runs s j 0x32 e) (hidle : workingAt s j = none) (hturn : fedFirst s j = false) (r : AppendRun) :
    exec (.seqAppend j r) s = .next (beginAppend j e (beginCmd e s)) := by
  obtain ⟨he, hbegin, hstatic⟩ := hruns
  simp [exec, execSeqAppend, doSeqAppend, hidle, hturn, runCmd_body he hbegin hstatic]

theorem exec_seqStep_begins (hruns : Runs s j 0x33 e) (hhere : forwards s e = false) (hidle : workingAt s j = none) (hturn : fedFirst s j = false)
    (runs : List StepRun) : exec (.seqStep j runs) s = .next (beginStep j e (beginCmd e s)) := by
  obtain ⟨he, hbegin, hstatic⟩ := hruns
  simp [exec, execSeqStep, doSeqStep, hidle, hturn, runForwardable, he, hhere, runCmd_body he hbegin hstatic]

theorem exec_seqOpen_begins (hruns : Runs s j 0x31 e) (hnew : openingAt s j = none) :
    exec (.seqOpen j false) s = .next (openSession j e (beginCmd e s)) := by
  obtain ⟨he, hbegin, hstatic⟩ := hruns
  simp [exec, execSeqOpen, doSeqOpen, hnew, runCmd_body he hbegin hstatic]

/-- The part with session `n` closing, and the fed appends that have not begun discarded and counted (09 R226, R231). -/
def closeBegun (j n : Nat) (s : State) : State :=
  count (ctrFed n) (s.session n).fed.length (s.modSession n (fun x => { x with fed := [], closing := some { j := j, flush := false, freed := false } }))

theorem exec_seqClose_begins (hruns : Runs s j 0x34 e) (hturn : fedFirst s j = false) (hcheck : sessionCheck s e = none) :
    exec (.seqClose j) s = .next (interim j stCloseDraining (s.session e.ctx).gen (closeBegun j e.ctx (beginCmd e s))) := by
  obtain ⟨he, hbegin, hstatic⟩ := hruns
  have hbody : sessionCheck (beginCmd e s) e = none := hcheck
  simp only [exec, execSeqClose, doSeqClose, hturn, runCmd_body he hbegin hstatic, hbody]
  rfl

theorem exec_seqClose_rejected {st : Nat} (hruns : Runs s j 0x34 e) (hturn : fedFirst s j = false) (hcheck : sessionCheck s e = some st) :
    exec (.seqClose j) s = .next (rejectClose j st (true, e.ctx) (beginCmd e s)) := by
  obtain ⟨he, hbegin, hstatic⟩ := hruns
  have hbody : sessionCheck (beginCmd e s) e = some st := hcheck
  simp [exec, execSeqClose, doSeqClose, hturn, runCmd_body he hbegin hstatic, hbody]

end Begin

/-! ### SEQ_OPEN of a session that is open, or with a generation (03 R57, R70) -/

section Open

variable {j : Nat} {e : JEntry} {s : State}

theorem openSession_busy (hnamed : e.ctx ≠ 0xFFFF) (hopen : (s.session e.ctx).isOpen = true) : openSession j e s = finish j stCtxBusy [] s := by
  simp [openSession, hnamed, hopen]

theorem openSession_stale (hnamed : e.ctx ≠ 0xFFFF) (hclosed : (s.session e.ctx).isOpen = false) (hgen : e.gen ≠ 0) :
    openSession j e s = finish j stStaleGen [] s := by
  simp [openSession, hnamed, hclosed, hgen]

end Open

/-! ### The checks of SEQ_APPEND and SEQ_STEP -/

section Work

variable {j : Nat} {e : JEntry} {s : State}

theorem workCheck_unbound {n : Nat} (h : modelEntry s (s.session n).model = none) : workCheck s n = some stBadParam := by
  simp [workCheck, h]

theorem workCheck_lost {n : Nat} (hbound : (modelEntry s (s.session n).model).isSome = true) (hlost : (s.session n).peerLost = true) :
    workCheck s n = some stPeerFlr := by
  simp [workCheck, Option.isNone_eq_false_iff.mpr hbound, hlost]

theorem workCheck_passed {n : Nat} {m : MaqEntry} (hbound : modelEntry s (s.session n).model = some m) (hpeers : (s.session n).peerLost = false) :
    workCheck s n = none := by
  simp [workCheck, hbound, hpeers]

theorem beginAppend_rejected {st : Nat} (h : sessionCheck s e = some st) : beginAppend j e s = finish j st [] s := by
  simp [beginAppend, h]

theorem beginStep_rejected {st : Nat} (h : sessionCheck s e = some st) : beginStep j e s = finish j st [] s := by
  simp [beginStep, h]

/-- The items of the append are none, or do not fit a context that does not slide (09 R225). -/
def Outside (e : JEntry) (x : Session) : Prop := (e.param 2).toNat = 0 ∨ x.slide = false ∧ x.tMax < x.tCtx + (e.param 2).toNat

theorem beginAppend_outside (hcheck : sessionCheck s e = none) (hout : Outside e (s.session e.ctx)) :
    beginAppend j e s = finish j stBadParam [] s := by
  simp only [beginAppend, hcheck]
  exact if_pos (by simpa [Outside] using hout)

/-- The work a SEQ_APPEND brings its session. -/
def appendWork (j : Nat) (e : JEntry) (m : MaqEntry) : SeqWork :=
  { SeqWork.of m (some j) e.asn e.tick 0 (itemsOf e (e.param 2).toNat m.itemBytes) with frames := bit (e.param 3) 0 }

/-- The work a SEQ_STEP brings its session. -/
def stepWork (j : Nat) (e : JEntry) (m : MaqEntry) : SeqWork :=
  { SeqWork.of m (some j) e.asn e.tick (fld (e.param 0) 15 0) [] with endOnEos := bit (e.param 0) 16 }

section Inside

variable (hcheck : sessionCheck s e = none) (hin : ¬ Outside e (s.session e.ctx))
include hcheck hin

theorem beginAppend_unready {st : Nat} (hst : workCheck s e.ctx = some st) : beginAppend j e s = finish j st [] s := by
  simp only [beginAppend, hcheck, hst]
  rw [if_neg (by simpa [Outside] using hin)]

theorem beginAppend_begins {m : MaqEntry} (hready : workCheck s e.ctx = none) (hbound : modelEntry s (s.session e.ctx).model = some m) :
    beginAppend j e s = beginWork e.ctx (appendWork j e m) s := by
  simp only [beginAppend, hcheck, hready, hbound, appendWork]
  rw [if_neg (by simpa [Outside] using hin)]

end Inside

theorem beginStep_outside (hcheck : sessionCheck s e = none) (hout : fld (e.param 0) 15 0 = 0 ∨ 1024 < fld (e.param 0) 15 0) :
    beginStep j e s = finish j stBadParam [] s := by
  simp [beginStep, hcheck, hout]

section InRange

variable (hcheck : sessionCheck s e = none) (hlow : 1 ≤ fld (e.param 0) 15 0) (hhigh : fld (e.param 0) 15 0 ≤ 1024)
include hcheck hlow hhigh

theorem beginStep_unready {st : Nat} (hst : workCheck s e.ctx = some st) : beginStep j e s = finish j st [] s := by
  simp only [beginStep, hcheck, hst]
  rw [if_neg (by simp; omega)]

theorem beginStep_begins {m : MaqEntry} (hready : workCheck s e.ctx = none) (hbound : modelEntry s (s.session e.ctx).model = some m) :
    beginStep j e s = beginWork e.ctx (stepWork j e m) s := by
  simp only [beginStep, hcheck, hready, hbound, stepWork]
  rw [if_neg (by simp; omega)]

end InRange

end Work

/-! ### What the checks answer -/

/-- Of the three commands on an open session, the one whose session fails its check completes with the status of that check. -/
theorem exec_rejected {j st : Nat} {e : JEntry} {s : State} (hturn : fedFirst s j = false) (hidle : workingAt s j = none) (r : AppendRun)
    (runs : List StepRun) {c : Nat × Instr} (hc : c ∈ [((0x32 : Nat), Instr.seqAppend j r), (0x33, .seqStep j runs), (0x34, .seqClose j)])
    (hruns : Runs s j c.1 e) (hhere : c.1 = 0x33 → forwards s e = false) (hcheck : sessionCheck s e = some st) :
    exec c.2 s = .next (if c.1 = 0x34 then rejectClose j st (true, e.ctx) (beginCmd e s) else finish j st [] (beginCmd e s)) := by
  have hbody : sessionCheck (beginCmd e s) e = some st := hcheck
  simp only [List.mem_cons, List.not_mem_nil, or_false] at hc
  obtain rfl | rfl | rfl := hc
  · rw [exec_seqAppend_begins hruns hidle hturn, beginAppend_rejected hbody]
    rfl
  · rw [exec_seqStep_begins hruns (hhere rfl) hidle hturn, beginStep_rejected hbody]
    rfl
  · exact exec_seqClose_rejected hruns hturn hcheck

theorem closeBegun_session (j n : Nat) (s : State) :
    (closeBegun j n s).session n = { s.session n with fed := [], closing := some { j := j, flush := false, freed := false } } :=
  tget_tput_same _ _ _ _

theorem closeBegun_session_other {j n k : Nat} (h : k ≠ n) (s : State) : (closeBegun j n s).session k = s.session k :=
  tget_tput_other _ _ _ h

theorem closeBegun_counts (j n : Nat) (s : State) : tget (closeBegun j n s).obs.ctrs (ctrFed n) 0 =
    (tget s.obs.ctrs (ctrFed n) 0 + (s.session n).fed.length) % 2 ^ 48 :=
  tget_tput_same _ _ _ _

/-- Settles O41: each command is brought to its body by `Runs`, and the body answers with the first check that fails. -/
theorem sessionChecks : Obligations.SessionChecks := by
  unfold Obligations.SessionChecks
  intro j e s hturn hidle hctx
  refine ⟨fun hruns hcheck => ?_, fun hruns hnew hopen => ?_, fun hruns hnew hclosed hgen => ?_, fun r runs c hc hruns hhere => ?_,
    fun r hruns hcheck => ?_, fun runs hruns hhere hcheck => ?_⟩
  · refine ⟨_, exec_seqClose_begins hruns hturn hcheck, closeBegun_session _ _ _, ?_, fun k hk => closeBegun_session_other hk _, rfl, rfl, rfl, rfl⟩
    rw [closeBegun_counts, Nat.mod_mod]
    rfl
  · rw [exec_seqOpen_begins hruns hnew, openSession_busy (s := beginCmd e s) (by omega) hopen]
  · rw [exec_seqOpen_begins hruns hnew, openSession_stale (s := beginCmd e s) (by omega) hclosed hgen]
  · have hrejected (st : Nat) := exec_rejected (st := st) hturn hidle r runs hc hruns hhere
    exact ⟨fun h => hrejected _ (sessionCheck_notOpen h), fun ho hs hp hcl => hrejected _ (sessionCheck_closing ho hs hp hcl),
      fun ho hs hp hcl hg => hrejected _ (sessionCheck_stale ho hs hp hcl hg)⟩
  · dsimp only
    rw [exec_seqAppend_begins hruns hidle hturn]
    exact ⟨fun hout => congrArg _ (beginAppend_outside hcheck hout),
      fun hin hnone => congrArg _ (beginAppend_unready (s := beginCmd e s) hcheck hin (workCheck_unbound hnone)),
      fun hin hbound hlost => congrArg _ (beginAppend_unready (s := beginCmd e s) hcheck hin (workCheck_lost hbound hlost))⟩
  · dsimp only
    rw [exec_seqStep_begins hruns hhere hidle hturn]
    exact ⟨fun hout => congrArg _ (beginStep_outside hcheck hout),
      fun hlow hhigh hnone => congrArg _ (beginStep_unready (s := beginCmd e s) hcheck hlow hhigh (workCheck_unbound hnone)),
      fun hlow hhigh hbound hlost => congrArg _ (beginStep_unready (s := beginCmd e s) hcheck hlow hhigh (workCheck_lost hbound hlost))⟩

end Sys2Proof.SessionCommands
end

section
/-! What the session operations change: one session and device memory (09 R221-R225), a session's collectives with the link plane (12 R293), and the
buffers that a session gives back (09 R231). -/

namespace Sys2Proof.SessionFrames

open Sys2Proof.Machine Sys2Proof.Laws Sys2Proof.RecordWriter

/-! ### One session and device memory -/

/-- The state `s` with session `n` being `x`, and device memory written. -/
def Became (n : Nat) (x : Session) (s t : State) : Prop :=
  (∃ l d, t = { s with sessions := l, dram := d }) ∧ t.session n = x ∧ ∀ k, k ≠ n → t.session k = s.session k

namespace Became

theorem refl (n : Nat) (s : State) : Became n (s.session n) s s := ⟨⟨_, _, rfl⟩, rfl, fun _ _ => rfl⟩

theorem setSession (n : Nat) (x : Session) (s : State) : Became n x s (s.setSession n x) :=
  ⟨⟨_, _, rfl⟩, session_setSession s n x, fun _ hk => session_setSession_other s x hk⟩

section Fields

variable {n : Nat} {x : Session} {s t : State} (h : Became n x s t)
include h

theorem session : t.session n = x := h.2.1
theorem session_other {k : Nat} (hk : k ≠ n) : t.session k = s.session k := h.2.2 k hk
theorem streams : t.streams = s.streams := by obtain ⟨⟨l, d, rfl⟩, -⟩ := h; rfl
theorem safety : t.safety = s.safety := by obtain ⟨⟨l, d, rfl⟩, -⟩ := h; rfl
theorem tracks : t.tracks = s.tracks := by obtain ⟨⟨l, d, rfl⟩, -⟩ := h; rfl
theorem cores : t.cores = s.cores := by obtain ⟨⟨l, d, rfl⟩, -⟩ := h; rfl
theorem hostMem : t.hostMem = s.hostMem := by obtain ⟨⟨l, d, rfl⟩, -⟩ := h; rfl
theorem journal : t.journal = s.journal := by obtain ⟨⟨l, d, rfl⟩, -⟩ := h; rfl
theorem jobs : t.jobs = s.jobs := by obtain ⟨⟨l, d, rfl⟩, -⟩ := h; rfl
theorem link : t.link = s.link := by obtain ⟨⟨l, d, rfl⟩, -⟩ := h; rfl
theorem modelEntry (k : Nat) : modelEntry t k = Machine.modelEntry s k := by obtain ⟨⟨l, d, rfl⟩, -⟩ := h; rfl

theorem trans {y : Session} {u : State} (h' : Became n y t u) : Became n y s u := by
  obtain ⟨⟨l, d, rfl⟩, -, hother⟩ := h
  obtain ⟨⟨l', d', rfl⟩, hy, hother'⟩ := h'
  exact ⟨⟨l', d', rfl⟩, hy, fun k hk => (hother' k hk).trans (hother k hk)⟩

theorem modSession (f : Session → Session) : Became n (f x) s (t.modSession n f) :=
  h.trans (h.session ▸ setSession n (f (t.session n)) t)

theorem modWork (f : SeqWork → SeqWork) : Became n { x with work := x.work.map f } s (modWork n f t) := h.modSession _

/-- Device memory written again. -/
theorem rewritten (d : Dram) : Became n x s { t with dram := d } :=
  h.trans ⟨⟨_, _, rfl⟩, h.session, fun _ _ => rfl⟩

theorem dramWrite (a : Nat) (bs : List Byte) : Became n x s (dramWrite a bs t) := h.rewritten _

theorem writeHeaders : Became n x s (writeHeaders n t) := h.rewritten _

theorem writeKv (k p : Nat) (r : KvRow) : Became n x s (writeKv k p r t) := by
  unfold Machine.writeKv
  split
  · exact h
  · exact (((h.dramWrite _ _).dramWrite _ _).dramWrite _ _).dramWrite _ _

theorem forAll {α : Type} (l : List α) {f : α → State → State} (hf : ∀ a t, Became n x s t → Became n x s (f a t)) : Became n x s (forAll l f t) := by
  induction l generalizing t with
  | nil => exact h
  | cons a l ih => exact ih (hf a t h)

theorem writeRows (k : Nat) (l : List (List KvRow)) : Became n x s (writeRows k l t) :=
  h.forAll _ fun _ _ ha => ha.forAll _ fun _ _ hb => hb.writeKv _ _ _

end Fields

end Became

/-! ### Collectives -/

/-- Between the two states session `n` has sent collectives: its list of them has changed, and what the packets concern. -/
structure Collects (n : Nat) (s t : State) : Prop where
  session : ∃ c, t.session n = { s.session n with colls := c }
  other : ∀ k, k ≠ n → t.session k = s.session k
  streams : t.streams = s.streams
  hostMem : t.hostMem = s.hostMem
  safety : t.safety = s.safety

namespace Collects

theorem refl (n : Nat) (s : State) : Collects n s s := ⟨⟨_, rfl⟩, fun _ _ => rfl, rfl, rfl, rfl⟩

theorem trans {n : Nat} {s t u : State} (h : Collects n s t) (h' : Collects n t u) : Collects n s u where
  session := by
    obtain ⟨c, hc⟩ := h.session
    obtain ⟨c', hc'⟩ := h'.session
    exact ⟨c', by rw [hc', hc]⟩
  other k hk := (h'.other k hk).trans (h.other k hk)
  streams := h'.streams.trans h.streams
  hostMem := h'.hostMem.trans h.hostMem
  safety := h'.safety.trans h.safety

theorem modColls (n : Nat) (c : Session → List (Nat × Nat × Bool)) (j : Nat) (l : Link) (s : State) :
    Collects n s { s.modSession n (fun x => { x with colls := c x }) with jpos := j, link := l } where
  session := ⟨_, tget_tput_same _ _ _ _⟩
  other _ hk := tget_tput_other _ _ _ hk
  streams := rfl
  hostMem := rfl
  safety := rfl

theorem sendCollective (n kind : Nat) (ps : List Word) (p : Nat) (s : State) : Collects n s (sendCollective n kind ps p s) := by
  obtain ⟨l, hl⟩ : ∃ l, Machine.sendCollective n kind ps p s =
      { s.modSession n (fun x => { x with colls := x.colls ++ [(p, s.jpos + 1, false)] }) with jpos := s.jpos + 1, link := l } :=
    Posting.sendSeq_shape _ _ _ _ _ _ _ _ _
  rw [hl]
  exact modColls n _ _ l s

theorem forAll (n kind : Nat) (ps : List Word) (peers : List Nat) (s : State) : Collects n s (forAll peers (Machine.sendCollective n kind ps) s) := by
  induction peers generalizing s with
  | nil => exact refl n s
  | cons p peers ih => exact (sendCollective n kind ps p s).trans (ih _)

end Collects

/-! ### Buffers that go back -/

/-- Between the two states buffers have been released: device memory, and what a fault of the memory plane trips (11 R274). -/
def Released (s t : State) : Prop := ∃ d f p o, t = { s with dram := d, safety := f, pcie := p, obs := o }

namespace Released

theorem refl (s : State) : Released s s := ⟨_, _, _, _, rfl⟩

theorem trans {s t u : State} (h : Released s t) (h' : Released t u) : Released s u := by
  obtain ⟨_, _, _, _, rfl⟩ := h
  obtain ⟨_, _, _, _, rfl⟩ := h'
  exact ⟨_, _, _, _, rfl⟩

theorem release (a : Alloc) (s : State) : Released s (release a s) := by
  unfold Machine.release
  split
  · exact ⟨_, _, _, _, rfl⟩
  · split
    · exact ⟨_, _, _, _, rfl⟩
    · split
      · exact ⟨_, _, _, _, rfl⟩
      · exact ⟨_, _, _, _, rfl⟩
      · obtain ⟨_, _, _, _, _, _, _, _, h⟩ := detect_shape 17 (s.setPart (partKey a.pool a.ecc)
          { s.part (partKey a.pool a.ecc) with underflow := satAdd 32 (s.part (partKey a.pool a.ecc)).underflow 1 })
        exact ⟨_, _, _, _, h⟩

theorem forAll (l : List Alloc) (s : State) : Released s (forAll l Machine.release s) := by
  induction l generalizing s with
  | nil => exact refl s
  | cons a l ih => exact (release a s).trans (ih _)

end Released

/-- A session that has dropped its pages: it holds no buffer, and the rest of the part has released them. -/
theorem dropPages_released (n : Nat) (s : State) :
    Released (s.modSession n (fun x => { x with allocs := [], table := [] })) (dropPages n s) := by
  obtain ⟨d, f, p, o, h⟩ := Released.forAll (s.session n).allocs
    { s with dram := { s.dram with pagesLeft := s.dram.pagesLeft ++
      ((List.range (s.session n).pages.length).zip (s.session n).pages).map (fun p => (p.2.data, regionAddr (s.session n).table (32 * p.1))) } }
  unfold dropPages
  dsimp only
  rw [h]
  exact Released.trans ⟨d, f, p, o, rfl⟩ (.forAll _ _)

theorem dropPages_session (n : Nat) (s : State) : (dropPages n s).session n = { s.session n with allocs := [], table := [] } := by
  obtain ⟨_, _, _, _, h⟩ := dropPages_released n s
  rw [h]
  exact tget_tput_same _ _ _ _

theorem dropPages_session_other {n k : Nat} (hk : k ≠ n) (s : State) : (dropPages n s).session k = s.session k := by
  obtain ⟨_, _, _, _, h⟩ := dropPages_released n s
  rw [h]
  exact tget_tput_other _ _ _ hk

theorem dropPages_streams (n : Nat) (s : State) : (dropPages n s).streams = s.streams := by
  obtain ⟨_, _, _, _, h⟩ := dropPages_released n s
  rw [h]
  rfl

theorem dropPages_hostMem (n : Nat) (s : State) : (dropPages n s).hostMem = s.hostMem := by
  obtain ⟨_, _, _, _, h⟩ := dropPages_released n s
  rw [h]
  rfl

end Sys2Proof.SessionFrames
end

section
/-! SEQ_OPEN (09 R218-R221; 12 R293; 17 R380; 03 R69-R72): its checks, this part's share, the answers of its peers, and the open that waited behind a
close. -/

namespace Sys2Proof.SessionOpening

open Sys2Proof.Machine Sys2Proof.Laws Sys2Proof.SessionCommands Sys2Proof.SessionFrames

/-! ### The checks (03 R57; 09 R218, R219) -/

/-- The open runs as best-effort work: it says so, or its spread meets an Armature committed for another role (17 R380). -/
def asBestEffort (e : JEntry) (s : State) : Bool :=
  (SeqArgs.ofEntry e).be || (decide ((SeqArgs.ofEntry e).spread ≠ 0) && roleDiffers s)

/-- The lane it takes, where it is latency-critical (09 R220). -/
def laneFor (e : JEntry) (s : State) : Option (Nat × Nat) := if asBestEffort e s then none else freeLane s (SeqArgs.ofEntry e).model

section Checks

variable {j n : Nat} {e : JEntry} {m : MaqEntry} {s : State}

theorem openSession_checks (hctx : e.ctx = n ∧ n < 4096 ∨ e.ctx = 0xFFFF ∧ freeSession s = some n) (hclosed : (s.session n).isOpen = false)
    (hgen : e.gen = 0) : openSession j e s = openChecks j n e s := by
  obtain ⟨rfl, hn⟩ | ⟨hany, hfree⟩ := hctx
  · have hnamed : e.ctx ≠ 0xFFFF := by omega
    simp [openSession, hnamed, hclosed, hgen]
  · simp [openSession, hany, hfree, hgen]

section Passed

variable (hbad : SeqArgs.bad s (SeqArgs.ofEntry e) = none) (hbound : modelEntry s (SeqArgs.ofEntry e).model = some m)
  (hfree : e.ctx = 0xFFFF → freeSession s ≠ none)
include hbad hbound hfree

theorem openChecks_noRoute (hspread : spreadOk s (SeqArgs.ofEntry e).spread = false) : openChecks j n e s = finish j stNoRoute [] s := by
  simp only [openChecks, hbad, hbound]
  rw [if_neg (by simpa using hfree), if_pos (by simp [hspread])]

theorem openChecks_noLane (hspread : spreadOk s (SeqArgs.ofEntry e).spread = true) (hlc : asBestEffort e s = false) (hlane : laneFor e s = none) :
    openChecks j n e s = finish j stNoFree [] s := by
  rw [laneFor, hlc, if_neg Bool.false_ne_true] at hlane
  unfold asBestEffort at hlc
  simp only [openChecks, hbad, hbound, hlc]
  rw [if_neg (by simpa using hfree), if_neg (by simp [hspread]), if_pos (by simp [hlane])]

theorem openChecks_admits (hspread : spreadOk s (SeqArgs.ofEntry e).spread = true) (hlane : asBestEffort e s = true ∨ (laneFor e s).isSome = true) :
    openChecks j n e s = admitSession j n e.client (SeqArgs.ofEntry e) m (asBestEffort e s) (laneFor e s) s := by
  unfold laneFor at hlane ⊢
  unfold asBestEffort at hlane ⊢
  simp only [openChecks, hbad, hbound]
  rw [if_neg (by simpa using hfree), if_neg (by simp [hspread]), if_neg]
  obtain h | h := hlane
  · rw [h]; simp
  · rw [Option.isNone_eq_false_iff.mpr h]; simp

end Passed

end Checks

/-! ### Pages (09 R221, R222) -/

theorem makePages_length (layers tMax : Nat) (heads : List Nat) (bufs : List (List Alloc)) :
    (makePages layers tMax heads bufs).length = layers * heads.length * (tMax / 256) := by
  simp [makePages, List.length_flatMap, List.map_const', mul_assoc]

theorem makePages_empty {layers tMax : Nat} {heads : List Nat} {bufs : List (List Alloc)} {p : Page} (h : p ∈ makePages layers tMax heads bufs) :
    p.valid = true ∧ p.tokens = 0 := by
  obtain ⟨_, -, rfl⟩ := List.mem_map.mp h
  exact ⟨rfl, rfl⟩

/-! ### This part's share, then those of the peers (09 R219; 12 R293) -/

section Admit

variable (j n client : Nat) (a : SeqArgs) (m : MaqEntry) (be : Bool) (lane : Option (Nat × Nat)) (bufs : List (List Alloc)) (u : State)

/-- The session from its open on, with its pages in the buffers taken. -/
def shareOf : Session := openedSession (u.session n).gen client a m be lane (headsOn a.spread u.link.chip m.heads) bufs

/-- The part with that session, its page headers written. -/
def sharePlaced : State := writeHeaders n (u.setSession n (shareOf n client a m be lane bufs u))

/-- The part with the peers, if any, asked for their shares. -/
def peersAsked : State :=
  if peersOf u a.spread = [] then sharePlaced n client a m be lane bufs u
  else forAll (peersOf u a.spread)
    (sendCollective n 0 [dw [(a.model, 23, 16), (b2n a.be, 11, 11)], w32 a.tMax, 0, w32 a.spread, hi32 a.spread])
    ((sharePlaced n client a m be lane bufs u).modSession n (fun x => { x with pendingOpen := some j }))

theorem sharePlaced_became : Became n (shareOf n client a m be lane bufs u) u (sharePlaced n client a m be lane bufs u) :=
  (Became.setSession n _ u).writeHeaders

theorem shareOf_pages_length : (shareOf n client a m be lane bufs u).pages.length =
    m.layers * (headsOn a.spread u.link.chip m.heads).length * (a.tMax / 256) :=
  makePages_length _ _ _ _

theorem admitSession_empty {v : State} (halloc : allocAll false false (pageSizes (m.layers * (headsOn a.spread u.link.chip m.heads).length * (a.tMax / 256))) [] u =
    (none, v)) : admitSession j n client a m be lane u = finish j stPoolEmpty [] v := by
  simp only [admitSession, halloc]

theorem admitSession_admits {v : State} (hchip : v.link.chip = u.link.chip)
    (halloc : allocAll false false (pageSizes (m.layers * (headsOn a.spread u.link.chip m.heads).length * (a.tMax / 256))) [] u = (some bufs, v)) :
    admitSession j n client a m be lane u =
      if peersOf v a.spread = [] then
        finishCtx j stOpenOk (v.session n).gen n [w32 (m.layers * (headsOn a.spread u.link.chip m.heads).length * (a.tMax / 256))]
          (peersAsked j n client a m be lane bufs v)
      else peersAsked j n client a m be lane bufs v := by
  have hpages : ((sharePlaced n client a m be lane bufs v).session n).pages.length =
      m.layers * (headsOn a.spread v.link.chip m.heads).length * (a.tMax / 256) := by
    rw [(sharePlaced_became n client a m be lane bufs v).session, shareOf_pages_length]
  have hpeers : peersOf (sharePlaced n client a m be lane bufs v) a.spread = peersOf v a.spread := rfl
  unfold admitSession
  dsimp only
  rw [halloc, ← hchip, ← hpages]
  change (if (peersOf (sharePlaced n client a m be lane bufs v) a.spread).isEmpty = true then
    finishCtx j stOpenOk (v.session n).gen n [w32 ((sharePlaced n client a m be lane bufs v).session n).pages.length]
      (sharePlaced n client a m be lane bufs v) else _) = _
  rw [hpeers]
  by_cases hnone : peersOf v a.spread = []
  · simp only [peersAsked, hnone, List.isEmpty_nil, if_true]
  · simp only [peersAsked, List.isEmpty_iff, if_neg hnone]
    rfl

theorem peersAsked_frame :
    (∃ c, (peersAsked j n client a m be lane bufs u).session n = { shareOf n client a m be lane bufs u with
      pendingOpen := if peersOf u a.spread = [] then none else some j, colls := c }) ∧
    (∀ k, k ≠ n → (peersAsked j n client a m be lane bufs u).session k = u.session k) ∧
    (peersAsked j n client a m be lane bufs u).streams = u.streams ∧ (peersAsked j n client a m be lane bufs u).hostMem = u.hostMem ∧
    (peersAsked j n client a m be lane bufs u).safety = u.safety ∧
    (peersOf u a.spread = [] → (peersAsked j n client a m be lane bufs u).link = u.link) := by
  have hplaced := sharePlaced_became n client a m be lane bufs u
  unfold peersAsked
  by_cases hpeers : peersOf u a.spread = []
  · simp only [if_pos hpeers]
    exact ⟨⟨_, hplaced.session⟩, fun k hk => hplaced.session_other hk, hplaced.streams, hplaced.hostMem, hplaced.safety, fun _ => hplaced.link⟩
  · simp only [if_neg hpeers]
    have hwaits := hplaced.modSession (fun x => { x with pendingOpen := some j })
    obtain ⟨⟨c, hc⟩, hother, hstreams, hmem, hsafety⟩ := Collects.forAll n 0
      [dw [(a.model, 23, 16), (b2n a.be, 11, 11)], w32 a.tMax, 0, w32 a.spread, hi32 a.spread] (peersOf u a.spread)
      ((sharePlaced n client a m be lane bufs u).modSession n (fun x => { x with pendingOpen := some j }))
    rw [hwaits.session] at hc
    exact ⟨⟨c, hc⟩, fun k hk => (hother k hk).trans (hwaits.session_other hk), hstreams.trans hwaits.streams, hmem.trans hwaits.hostMem,
      hsafety.trans hwaits.safety, fun h => absurd h hpeers⟩

end Admit

/-! ### The answers of the peers (09 R219; 12 R293) -/

section Answers

variable {j n : Nat} {s : State} (hopening : openingAt s j = some n)
include hopening

theorem exec_seqOpen_answered (hlive : live s = true) : exec (.seqOpen j true) s = .next (finishOpen j n s) := by
  simp [exec, execSeqOpen, doSeqOpen, hopening, hlive]

/-- Until every peer has answered, neither row of the open is an event. -/
theorem exec_seqOpen_waits (hcolls : (s.session n).colls ≠ []) (b : Bool) : exec (.seqOpen j b) s = .next s := by
  simp [exec, execSeqOpen, doSeqOpen, hopening, finishOpen, hcolls]

end Answers

theorem finishOpen_opens {j n : Nat} {s : State} (hcolls : (s.session n).colls = []) (hfail : (s.session n).collFail = 0) : finishOpen j n s =
    finishCtx j stOpenOk (s.session n).gen n [w32 ((s.session n).pages.length + ((s.session n).accepted.map (·.2)).sum)]
      (s.setSession n { s.session n with pendingOpen := none, accepted := [], opening := false }) := by
  simp [finishOpen, hcolls, hfail, State.modSession]

/-- The part with the peers that accepted asked to close their shares, and session `n` closed again (09 R219). -/
def openCancelled (n : Nat) (s : State) : State :=
  (dropPages n (forAll ((s.session n).accepted.map (·.1)) (sendCollective n 3 [0, 0, 0, 0, 0]) s)).setSession n (Session.closed (s.session n).gen)

theorem finishOpen_cancels {j n : Nat} {s : State} (hcolls : (s.session n).colls = []) (hfail : (s.session n).collFail ≠ 0) : finishOpen j n s =
    finish j (if (s.session n).peerLost then stPeerFlr else stPeerRejected)
      [0, 0, 0, if (s.session n).peerLost then 0 else w32 (s.session n).collFail] (openCancelled n s) := by
  simp [finishOpen, hcolls, hfail, cancelOpen, openCancelled]

theorem openCancelled_session_other {n k : Nat} (hk : k ≠ n) (s : State) : (openCancelled n s).session k = s.session k := by
  unfold openCancelled
  rw [session_setSession_other _ _ hk, dropPages_session_other hk]
  exact (Collects.forAll _ _ _ _ _).other k hk

theorem openCancelled_streams (n : Nat) (s : State) : (openCancelled n s).streams = s.streams :=
  (dropPages_streams n _).trans (Collects.forAll _ _ _ _ _).streams

/-! ### The open that waited behind a close (03 R72) -/

/-- A SEQ_OPEN that may run is no command for another part (03 R74). -/
theorem seqOpen_named {e : JEntry} {chip : Nat} (hop : e.opcode = 0x31) (hctx : e.ctx < 4096) (h : staticCheck chip e = none) :
    e.named chip = some (true, e.ctx) := by
  have hhere : e.remoteTo chip = false := by
    cases hr : e.remoteTo chip with
    | false => rfl
    | true =>
      unfold staticCheck at h
      rw [hop] at h
      cases hp : e.port <;> simp [opInfo, OpInfo.allows, hr, hp] at h
  simp [JEntry.named, hhere, hop, opInfo, hctx]

theorem runs_opcode {s : State} {j op : Nat} {e : JEntry} (h : Runs s j op e) : e.opcode = op := by
  obtain ⟨he, hbegin, -⟩ := h
  unfold mayBegin at hbegin
  rw [he] at hbegin
  simp only [Bool.and_eq_true, decide_eq_true_eq] at hbegin
  tauto

/-- It runs as it would have run, and its session is busy while it waits for its peers. -/
theorem doDeferredOpenRun_session {j n : Nat} {e : JEntry} {s s0 : State} (hruns : Runs s j 0x31 e) (hctx : e.ctx = n) (hn : n < 4096)
    (hentry : s0.entry? j = some { e with st := .deferred }) (hopening : (s0.session n).opening = true)
    (hs : clearDeferred (true, n) (modEntry j (fun y => { y with st := .waiting }) s0) = s) :
    ({ e with st := .deferred } : JEntry).named s0.link.chip = some (true, n) ∧
    doDeferredOpenRun j s0 = endOpening j (true, n) (runCmd j 0x31 s (openSession j)) := by
  have hop := runs_opcode hruns
  obtain ⟨he, hbegin, hcheck⟩ := hruns
  have hlink : s.link.chip = s0.link.chip := by rw [← hs]; rfl
  have hnamed : ({ e with st := .deferred } : JEntry).named s0.link.chip = some (true, n) := by
    rw [← hctx, ← hlink]
    exact seqOpen_named hop (hctx ▸ hn) hcheck
  refine ⟨hnamed, ?_⟩
  unfold doDeferredOpenRun
  rw [hentry]
  dsimp only
  rw [hnamed]
  dsimp only
  rw [if_neg (by simp [openingOf, hopening]), hs]
  have hmay : mayBegin s j ({ e with st := .deferred } : JEntry).opcode = true := by
    change mayBegin s j e.opcode = true
    rw [hop, hbegin]
  rw [if_pos hmay]
  change endOpening j (true, n) (runCmd j e.opcode s (openSession j)) = _
  rw [hop]

theorem endOpening_session (j n : Nat) (s : State) :
    endOpening j (true, n) s = s.modSession n (fun x => { x with opening := decide (x.pendingOpen = some j) }) := by
  by_cases h : (s.session n).pendingOpen = some j <;> simp [endOpening, State.modSession, h]

/-- Settles O40: the checks passed, this part's share is placed (`sharePlaced`) and the peers are asked (`peersAsked`); met again, the open ends with their
answers; the open that waited behind a close runs the same command. -/
theorem sessionOpened : Obligations.SessionOpened := by
  unfold Obligations.SessionOpened
  refine ⟨fun j n e m s => ?_, fun j n s hopening hlive hcolls => ⟨fun hok => ?_, fun hfail => ?_⟩, fun j n s hopening hcolls b => ?_,
    fun j n e s s0 hruns hnew hctx hn hentry hopening hs => ?_⟩
  · dsimp only
    intro hruns hnew hctx hclosed hgen hbad hbound
    have hfree : e.ctx = 0xFFFF → freeSession s ≠ none := fun hany => by
      obtain ⟨h, h'⟩ | ⟨-, h⟩ := hctx
      · omega
      · simp [h]
    have hopens : exec (.seqOpen j false) s = .next (openChecks j n e (beginCmd e s)) :=
      (exec_seqOpen_begins hruns hnew).trans (congrArg _ (openSession_checks (s := beginCmd e s) hctx hclosed hgen))
    refine ⟨fun hspread => ?_, fun hspread hlc hlane => ?_, fun bufs u hspread hlane halloc => ⟨?_, ?_⟩⟩
    · exact hopens.trans (congrArg _ (openChecks_noRoute (s := beginCmd e s) hbad hbound hfree hspread))
    · exact hopens.trans (congrArg _ (openChecks_noLane (s := beginCmd e s) hbad hbound hfree hspread hlc hlane))
    · rintro rfl
      exact hopens.trans (congrArg _ ((openChecks_admits (s := beginCmd e s) hbad hbound hfree hspread hlane).trans
        (admitSession_empty _ _ _ _ _ _ _ _ halloc)))
    · intro hsome
      obtain ⟨bufs, rfl⟩ := Option.isSome_iff_exists.mp hsome
      obtain ⟨d, hu, -⟩ := Opening.allocAll_taken halloc
      have hchip : u.link.chip = (beginCmd e s).link.chip := by rw [hu]
      have hadmits := hopens.trans (congrArg _ ((openChecks_admits (s := beginCmd e s) hbad hbound hfree hspread hlane).trans
        (admitSession_admits j n _ _ m _ _ bufs _ hchip halloc)))
      obtain ⟨⟨c, hsession⟩, hother, hstreams, hmem, hsafety, hlink⟩ :=
        peersAsked_frame j n e.client (SeqArgs.ofEntry e) m (asBestEffort e (beginCmd e s)) (laneFor e (beginCmd e s)) bufs u
      subst hu
      refine ⟨_, _, hadmits, hsession, rfl, rfl, rfl, rfl, rfl, rfl, rfl, rfl, rfl, rfl, rfl, rfl, rfl, ?_, ?_, hother, hstreams, hmem, hsafety, hlink⟩
      · exact makePages_length _ _ _ _
      · exact fun p hp => makePages_empty hp
  · rw [exec_seqOpen_answered hopening hlive, finishOpen_opens hcolls hok]
  · refine ⟨openCancelled n s, ?_, session_setSession _ _ _, fun k hk => openCancelled_session_other hk s, openCancelled_streams n s⟩
    rw [exec_seqOpen_answered hopening hlive, finishOpen_cancels hcolls hfail]
  · exact exec_seqOpen_waits hopening hcolls b
  · obtain ⟨hnamed, hrun⟩ := doDeferredOpenRun_session hruns hctx hn hentry hopening hs
    refine ⟨runCmd j 0x31 s (openSession j), ?_, ?_⟩
    · simp [exec, execSeqOpen, doSeqOpen, hnew]
    · rw [← endOpening_session, ← hrun]
      simp [exec, execDeferredOpenRun, hentry, hnamed]

end Sys2Proof.SessionOpening
end

section
/-! The work of a session (09 R220, R225, R228, R230, R232): what the operations of a unit make of its session. Each leaves the part as it was but for that
session and device memory (`Became`), for the jobs of best-effort work, and for what a record does. -/

namespace Sys2Proof.SessionWork

open Sys2Proof.Machine Sys2Proof.Laws Sys2Proof.SessionFrames Sys2Proof.RecordWriter

variable {n : Nat} {x : Session} {s t : State}

/-! ### Room for the rows (09 R225) -/

/-- Slides that `k` positions need. -/
def slides (x : Session) (k : Nat) : Nat := if x.slide then slidesFor x.tMax k x.tCtx else 0

/-- The session after `m` slides. -/
def slidBy (m : Nat) (x : Session) : Session := { x with pages := slidePages^[m] x.pages, tCtx := x.tCtx - 256 * m }

theorem slideTimes_became (h : Became n x s t) (m : Nat) : Became n (slidBy m x) s (slideTimes n m t) := by
  induction m generalizing x t with
  | zero => exact h
  | succ m ih =>
    have hone := ih (h.modSession (fun x => { x with pages := slidePages x.pages, tCtx := x.tCtx - 256 }))
    have htimes : slidBy m { x with pages := slidePages x.pages, tCtx := x.tCtx - 256 } = slidBy (m + 1) x := by
      simp only [slidBy, Function.iterate_succ_apply, Nat.sub_sub, Nat.mul_add, Nat.mul_one, Nat.add_comm]
    rw [htimes] at hone
    exact hone

theorem slideIf_became (h : Became n x s t) (k : Nat) : Became n (slidBy (slides x k) x) s (slideIf n k t).2 := by
  unfold slideIf
  simp only [h.session]
  by_cases hnone : slides x k = 0
  · rw [if_pos (by exact hnone), hnone]
    exact h
  · rw [if_neg (by exact hnone)]
    exact (slideTimes_became h _).writeHeaders

/-! ### A unit begins (09 R220, R225, R228, R230) -/

theorem peersOf_zero (s : State) : peersOf s 0 = [] := by simp [peersOf, spreadChips, maskList]

theorem modWork_became {w : SeqWork} (h : Became n x s t) (hw : x.work = some w) (f : SeqWork → SeqWork) :
    Became n { x with work := some (f w) } s (modWork n f t) := by
  have hmod := h.modWork f
  rw [hw, Option.map_some] at hmod
  exact hmod

/-- On one part every layer counts as gathered. -/
theorem sendUnit_became {w : SeqWork} (h : Became n x s t) (hw : x.work = some w) (hspread : x.spread = 0) (kind k : Nat) :
    Became n { x with work := some { w with layer := w.layers } } s (sendUnit n kind k t) := by
  have hpeers : peersOf t x.spread = [] := by rw [hspread, peersOf_zero]
  unfold sendUnit
  simp only [h.session, hpeers, List.isEmpty_nil, if_true]
  exact modWork_became h hw _

/-- Whether a region holds the units depends on the model and the class of the session alone. -/
theorem noFit_became (h : Became n x s t) (hmodel : x.model = (s.session n).model) (hbe : x.be = (s.session n).be) : noFit t n = noFit s n := by
  simp only [noFit, h.session, h.modelEntry, hmodel, hbe]
  obtain ⟨⟨l, d, rfl⟩, -⟩ := h
  rfl

theorem modelPlace_of_entry {m : MaqEntry} {model : Nat} (h : modelEntry s model = some m) : ∃ p, modelPlace s model = some p := by
  obtain ⟨a, ha, hb⟩ := Option.bind_eq_some_iff.mp h
  obtain ⟨b, hbinding, -⟩ := Option.bind_eq_some_iff.mp hb
  exact ⟨_, by rw [modelPlace, ha, Option.bind_some, hbinding, Option.map_some]⟩

/-- The part with the job of a unit, where its session is one of best-effort work (10 R238). -/
def Queued (n : Nat) (be : Bool) (s s' : State) : Prop :=
  (be = false → s' = s) ∧ (be = true → ∃ b, s' = { s with jobs := s.jobs ++ [b] } ∧ b.sess = some n ∧ b.core = none)

/-- A unit whose Niches wait for a trigger, or for gaps. -/
def readied (w : SeqWork) : SeqWork := { w with phase := .ready, fault := 0 }

theorem queueUnit_readies {w : SeqWork} {m : MaqEntry} (h : Became n x s t) (hw : x.work = some w) (hbound : modelEntry s x.model = some m)
    (hfits : x.be = true → noFit t n = false ∧ m.niches ≠ []) :
    ∃ s', Queued n x.be s s' ∧ Became n { x with work := some (readied w) } s' (queueUnit n t) := by
  have hready {s' t' : State} (h' : Became n x s' t') : Became n { x with work := some (readied w) } s'
      (modWork n (fun w => { w with phase := .ready, fault := 0 }) t') := modWork_became h' hw _
  generalize ({ x with work := some (readied w) } : Session) = y at hready
  unfold queueUnit
  simp only [h.session, hw, h.modelEntry, hbound, Option.isNone_some, Bool.false_eq_true, if_false]
  cases hbe : x.be with
  | false => exact ⟨s, ⟨fun _ => rfl, by simp⟩, hready h⟩
  | true =>
    obtain ⟨hfit, hniches⟩ := hfits hbe
    obtain ⟨p, hp⟩ := modelPlace_of_entry ((h.modelEntry _).trans hbound)
    simp only [Bool.not_true, Bool.false_eq_true, if_false, hfit, hp, List.isEmpty_iff, hniches]
    refine ⟨{ s with jobs := s.jobs ++ [unitJob t n w p.1 p.2] }, ⟨by simp, fun _ => ⟨_, rfl, rfl, rfl⟩⟩, hready ?_⟩
    obtain ⟨⟨l, d, rfl⟩, hx, hother⟩ := h
    exact ⟨⟨l, d, rfl⟩, hx, hother⟩

/-- The session with a unit of `k` positions ready: it has slid for their rows, and `b` tells whether the unit has slid. -/
def unitReady (b : Bool) (k : Nat) (w : SeqWork) (x : Session) : Session :=
  { slidBy (slides x k) x with work := some (readied { w with layer := w.layers, slid := b, kv := none, stopped := none }) }

theorem beginUnit_readies {w : SeqWork} {m : MaqEntry} (h : Became n x s t) (hw : x.work = some w) (hspread : x.spread = 0)
    (hbound : modelEntry s x.model = some m) (hfits : x.be = true → noFit t n = false ∧ m.niches ≠ []) (kind k : Nat) :
    ∃ b s', Queued n x.be s s' ∧ Became n (unitReady b k w x) s' (beginUnit n kind k t) := by
  have hself : Became n x t t := h.session ▸ Became.refl n t
  have hslid := modWork_became (w := { w with layer := w.layers }) (slideIf_became (sendUnit_became hself hw hspread kind k) k) rfl
    (fun w => { w with slid := w.slid || (slideIf n k (sendUnit n kind k t)).1, kv := none, stopped := none })
  have hfits' := fun hbe => (hfits hbe).imp_left (noFit_became hslid (h.session ▸ rfl) (h.session ▸ rfl)).trans
  obtain ⟨s', hq, hr⟩ := queueUnit_readies (h.trans hslid) rfl hbound hfits'
  exact ⟨_, s', hq, hr⟩

/-! ### The next unit, or the end (09 R225) -/

section Next

variable {w : SeqWork} (hw : (t.session n).work = some w)
include hw

theorem nextUnit_chunk (hitems : w.items ≠ []) : nextUnit n t =
    beginUnit n 2 (min w.items.length w.laneRows) (modWork n (fun y => { y with chunk := min w.items.length w.laneRows }) t) := by
  simp [nextUnit, hw, hitems]

theorem nextUnit_step (hitems : w.items = []) (hmore : w.i < w.steps) (hroom : (t.session n).slide = true ∨ (t.session n).tCtx ≠ (t.session n).tMax) :
    nextUnit n t = beginUnit n 1 1 t := by
  simp [nextUnit, hw, hitems, hmore, hroom]

theorem nextUnit_ends (hitems : w.items = []) (hend : w.steps ≤ w.i ∨ (t.session n).slide = false ∧ (t.session n).tCtx = (t.session n).tMax) :
    nextUnit n t = endWork n 0 t := by
  have hdone : ¬ (w.i < w.steps ∧ ((t.session n).slide = true ∨ (t.session n).tCtx ≠ (t.session n).tMax)) := by
    obtain h | ⟨h, h'⟩ := hend
    · omega
    · simp [h, h']
  simp [nextUnit, hw, hitems, hdone]

end Next

/-! ### The end of the work -/

/-- The session without its work. -/
def unworked (x : Session) : Session := { x with work := none, gathers := [], headRows := [] }

/-- The part without the jobs of a session. -/
def withoutJobs (n : Nat) (s : State) : State := { s with jobs := s.jobs.filter (fun b => decide (b.sess ≠ some n)) }

/-- The part with the work of session `n` ended, its command not yet completed. -/
def ended (n : Nat) (t : State) : State := (withoutJobs n t).modSession n unworked

theorem ended_became (h : Became n x s t) : Became n (unworked x) (withoutJobs n s) (ended n t) := by
  refine Became.modSession ?_ unworked
  obtain ⟨⟨l, d, rfl⟩, hx, hother⟩ := h
  exact ⟨⟨l, d, rfl⟩, hx, hother⟩

theorem endWork_completes {j st : Nat} {w : SeqWork} (hw : (t.session n).work = some w) (hj : w.j = some j) :
    endWork n st t = finish j st [w32 (t.session n).tCtx, w32 w.i] (ended n t) := by
  simp only [endWork, hw, hj]
  rfl

theorem endWork_fed {st : Nat} {w : SeqWork} (hw : (t.session n).work = some w) (hj : w.j = none) : endWork n st t = ended n t := by
  simp only [endWork, hw, hj]
  rfl

/-! ### What is committed (09 R225) -/

/-- The session with `k` written positions committed. -/
def committed (k : Nat) (x : Session) : Session := { x with pages := x.pages.map (Page.commit (x.pos + k)), tCtx := x.tCtx + k, pos := x.pos + k }

theorem commitRows_became (h : Became n x s t) (k : Nat) : Became n (committed k x) s (commitRows n k t) :=
  (h.modSession (fun x => { x with pages := x.pages.map (Page.commit (x.pos + k)), tCtx := x.tCtx + k, pos := x.pos + k })).writeHeaders

/-! ### Records of a session (09 R232) -/

/-- What handing a record over changes lies outside the session. -/
theorem Became.recorded {t' : State} (h : Became n x s t) (hr : Recorded t t') : ∃ s', Recorded s s' ∧ Became n x s' t' := by
  obtain ⟨⟨q, d, rfl⟩, hx, hother⟩ := h
  obtain ⟨oq, hm, sf, c, r, a, e, b, l, y, z, k, rfl⟩ := hr
  exact ⟨_, ⟨oq, hm, sf, c, r, a, e, b, l, y, z, k, rfl⟩, ⟨q, d, rfl⟩, hx, hother⟩

/-- A record of the session raises its SEQ. -/
theorem issueTo_became {r : RecordReq} (h : Became n x s t) (hsession : r.session = true) (hcontext : r.context = n) (o : Nat) (last : Bool) :
    ∃ s', Recorded s s' ∧ Became n { x with seq := nextSeq x.seq } s' (issueTo o last r t) := by
  have hraised : Became n { x with seq := nextSeq x.seq } s (RecordWords.seqRaised r t) := by
    have hseq := h.modSession (fun y => { y with seq := RecordWords.seqOf r t })
    simp only [RecordWords.seqOf, hsession, hcontext, h.session, if_true] at hseq
    simpa only [RecordWords.seqRaised, RecordWords.seqOf, hsession, hcontext, h.session, if_true] using hseq
  exact Became.recorded hraised (RecordWords.issueTo_recorded o last r t)

end Sys2Proof.SessionWork
end

section
/-! SEQ_APPEND, SEQ_STEP and fed appends on one part (09 R225, R226, R228, R230, R232): work taken up, chunks and steps committed, work abandoned. -/

namespace Sys2Proof.SessionAdvance

open Sys2Proof.Machine Sys2Proof.Laws Sys2Proof.SessionCommands Sys2Proof.SessionFrames Sys2Proof.SessionWork Sys2Proof.RecordWriter

/-! ### What the other parts of the machine see -/

/-- Between the two states the other sessions, the streams, safety, the tracks and the cores stay. -/
def Alone (n : Nat) (s v : State) : Prop :=
  (∀ k, k ≠ n → v.session k = s.session k) ∧ v.streams = s.streams ∧ v.safety = s.safety ∧ v.tracks = s.tracks ∧ v.cores = s.cores

theorem Alone.trans {n : Nat} {s t u : State} (h : Alone n s t) (h' : Alone n t u) : Alone n s u := by
  obtain ⟨hother, hstreams, hsafety, htracks, hcores⟩ := h
  obtain ⟨hother', hstreams', hsafety', htracks', hcores'⟩ := h'
  exact ⟨fun k hk => (hother' k hk).trans (hother k hk), hstreams'.trans hstreams, hsafety'.trans hsafety, htracks'.trans htracks,
    hcores'.trans hcores⟩

theorem alone_of_became {n : Nat} {x : Session} {s t : State} (h : Became n x s t) : Alone n s t :=
  ⟨fun _ hk => h.session_other hk, h.streams, h.safety, h.tracks, h.cores⟩

/-- A record changes nothing of that but safety. -/
theorem alone_of_recorded {n : Nat} {x : Session} {s s' t : State} (hr : Recorded s s') (h : Became n x s' t) :
    Alone n s { t with safety := s.safety } := by
  obtain ⟨_, _, _, _, _, _, _, _, _, _, _, _, rfl⟩ := hr
  exact ⟨fun _ hk => h.session_other hk, h.streams, rfl, h.tracks, h.cores⟩

/-- A job queued leaves all but the jobs as it was. -/
theorem queued_shape {n : Nat} {be : Bool} {s s' : State} (h : Queued n be s s') : ∃ l, s' = { s with jobs := l } := by
  obtain ⟨hlc, hbe⟩ := h
  cases be with
  | false => exact ⟨s.jobs, hlc rfl⟩
  | true => obtain ⟨b, h, -⟩ := hbe rfl; exact ⟨_, h⟩

/-! ### Work taken up -/

/-- Session `n`, which was `x`, has taken up work of `items` items and `steps` steps of the model `m`: its first unit is ready, room is made for its rows,
and of best-effort work its job waits for a gap. -/
def TakenUp (n : Nat) (j : Option Nat) (x : Session) (m : MaqEntry) (items steps : Nat) (s v : State) : Prop :=
  ∃ w, (v.session n).work = some w ∧ (v.session n).tCtx = x.tCtx - 256 * slides x (if items = 0 then 1 else w.chunk) ∧ w.j = j ∧ w.items.length = items ∧
    w.chunk = min items (max 1 m.laneRows) ∧ w.steps = steps ∧ w.i = 0 ∧ w.phase = .ready ∧ w.fault = 0 ∧ w.layer = w.layers ∧ Alone n s v ∧
    (x.be = false → v.jobs = s.jobs) ∧ (x.be = true → ∃ b, v.jobs = s.jobs ++ [b] ∧ b.sess = some n ∧ b.core = none)

/-- Work that its session takes up at tick `t`, with a first unit of `k` positions. -/
def firstUnit (k t : Nat) (w : SeqWork) : SeqWork := if w.items = [] then { w with tick := t } else { w with tick := t, chunk := k }

/-- Positions of the first unit. -/
def firstRows (w : SeqWork) : Nat := if w.items = [] then 1 else min w.items.length w.laneRows

section Take

variable {n : Nat} {m : MaqEntry} {w : SeqWork} {s : State} (hspread : (s.session n).spread = 0)
  (hbound : modelEntry s (s.session n).model = some m) (hfits : (s.session n).be = true → noFit s n = false ∧ m.niches ≠ [])
  (hroom : w.items = [] → w.i < w.steps ∧ ((s.session n).slide = true ∨ (s.session n).tCtx ≠ (s.session n).tMax))
include hspread hbound hfits hroom

theorem beginWork_readies : ∃ b s', Queued n (s.session n).be s s' ∧
    Became n (unitReady b (firstRows w) (firstUnit (firstRows w) s.now w) { s.session n with work := some (firstUnit (firstRows w) s.now w) }) s'
      (beginWork n w s) := by
  have hwork : Became n { s.session n with work := some { w with tick := s.now } } s
      (s.modSession n (fun x => { x with work := some { w with tick := s.now } })) := (Became.refl n s).modSession _
  have hw : ((s.modSession n (fun x => { x with work := some { w with tick := s.now } })).session n).work = some { w with tick := s.now } := by
    rw [hwork.session]
  unfold beginWork
  by_cases hitems : w.items = []
  · obtain ⟨hmore, hopen⟩ := hroom hitems
    rw [nextUnit_step hw hitems hmore (by rw [hwork.session]; exact hopen)]
    simp only [firstUnit, firstRows, if_pos hitems]
    exact beginUnit_readies hwork rfl hspread hbound (fun hbe => (hfits hbe).imp_left (noFit_became hwork rfl rfl).trans) 1 1
  · rw [nextUnit_chunk hw hitems]
    simp only [firstUnit, firstRows, if_neg hitems]
    have hchunk := modWork_became hwork rfl (fun y => { y with chunk := min w.items.length w.laneRows })
    exact beginUnit_readies hchunk rfl hspread hbound (fun hbe => (hfits hbe).imp_left (noFit_became hchunk rfl rfl).trans) 2 _

/-- What `Obligations.SessionsAdvance` says of work taken up. -/
theorem beginWork_takenUp (hfresh : w.i = 0 ∧ w.chunk = 0 ∧ w.laneRows = max 1 m.laneRows) :
    TakenUp n w.j (s.session n) m w.items.length w.steps s (beginWork n w s) ∧ (beginWork n w s).hostMem = s.hostMem ∧
    (beginWork n w s).journal = s.journal ∧ ((beginWork n w s).session n).fed = (s.session n).fed := by
  obtain ⟨hi, hchunk, hlane⟩ := hfresh
  obtain ⟨b, s', hq, hv⟩ := beginWork_readies hspread hbound hfits hroom
  obtain ⟨l, hs'⟩ := queued_shape hq
  have hsession := hv.session
  have halone := alone_of_became hv
  subst hs'
  have hkept : (firstUnit (firstRows w) s.now w).j = w.j ∧ (firstUnit (firstRows w) s.now w).items = w.items ∧
      (firstUnit (firstRows w) s.now w).steps = w.steps ∧ (firstUnit (firstRows w) s.now w).i = w.i ∧
      (firstUnit (firstRows w) s.now w).chunk = min w.items.length (max 1 m.laneRows) ∧
      firstRows w = if w.items.length = 0 then 1 else (firstUnit (firstRows w) s.now w).chunk := by
    by_cases hitems : w.items = [] <;> simp [firstUnit, firstRows, hitems, hchunk, hlane]
  obtain ⟨hj, hits, hsteps, hi', hch, hrows⟩ := hkept
  refine ⟨⟨_, congrArg Session.work hsession, ?_, hj, congrArg _ hits, hch, hsteps, hi'.trans hi, rfl, rfl, rfl, halone, fun hbe => ?_, fun hbe => ?_⟩,
    hv.hostMem, hv.journal, by rw [hsession]; rfl⟩
  · rw [hsession]
    exact congrArg (fun k => (s.session n).tCtx - 256 * slides (s.session n) k) hrows
  · rw [hv.jobs, hq.1 hbe]
  · obtain ⟨job, hjob, hnamed⟩ := hq.2 hbe
    exact ⟨job, by rw [hv.jobs, hjob], hnamed⟩

end Take

/-- A step on a context that is full and does not slide ends at once (09 R225). -/
theorem beginWork_full {n j : Nat} {w : SeqWork} {s : State} (hitems : w.items = []) (hj : w.j = some j) (hslide : (s.session n).slide = false)
    (hfull : (s.session n).tCtx = (s.session n).tMax) : ∃ v, beginWork n w s = finish j stOk [w32 (s.session n).tCtx, w32 w.i] v ∧
      Became n (unworked (s.session n)) (withoutJobs n s) v := by
  have hwork : Became n { s.session n with work := some { w with tick := s.now } } s
      (s.modSession n (fun x => { x with work := some { w with tick := s.now } })) := (Became.refl n s).modSession _
  have hw := congrArg Session.work hwork.session
  have hended := ended_became hwork
  refine ⟨_, ?_, hended⟩
  unfold beginWork
  rw [nextUnit_ends hw hitems (.inr ⟨by rw [hwork.session]; exact hslide, by rw [hwork.session]; exact hfull⟩), endWork_completes hw hj, hwork.session]
  rfl

/-! ### The commands take up their work -/

section Commands

variable {j : Nat} {e : JEntry} {m : MaqEntry} {s : State} (hidle : workingAt s j = none) (hturn : fedFirst s j = false) (hcheck : sessionCheck s e = none)
  (hbound : modelEntry s (s.session e.ctx).model = some m) (hpeers : (s.session e.ctx).peerLost = false)
include hidle hturn hcheck hbound hpeers

theorem exec_seqAppend_works (hruns : Runs s j 0x32 e) (hsome : 0 < (e.param 2).toNat)
    (hroom : (s.session e.ctx).slide = true ∨ (s.session e.ctx).tCtx + (e.param 2).toNat ≤ (s.session e.ctx).tMax) (r : AppendRun) :
    exec (.seqAppend j r) s = .next (beginWork e.ctx (appendWork j e m) (beginCmd e s)) := by
  have hin : ¬ Outside e (s.session e.ctx) := by
    rintro (h | ⟨h, h'⟩)
    · omega
    · obtain hr | hr := hroom
      · simp [h] at hr
      · omega
  exact (exec_seqAppend_begins hruns hidle hturn r).trans
    (congrArg _ (beginAppend_begins (s := beginCmd e s) hcheck hin (workCheck_passed hbound hpeers) hbound))

theorem exec_seqStep_works (hruns : Runs s j 0x33 e) (hhere : forwards s e = false) (hlow : 1 ≤ fld (e.param 0) 15 0)
    (hhigh : fld (e.param 0) 15 0 ≤ 1024) (runs : List StepRun) :
    exec (.seqStep j runs) s = .next (beginWork e.ctx (stepWork j e m) (beginCmd e s)) :=
  (exec_seqStep_begins hruns hhere hidle hturn runs).trans
    (congrArg _ (beginStep_begins (s := beginCmd e s) hcheck hlow hhigh (workCheck_passed hbound hpeers) hbound))

end Commands

/-! ### Fed appends (09 R226) -/

/-- The work that a fed append brings. -/
def fedWork (m : MaqEntry) (items : List (List Byte)) (flags tick autoSteps : Nat) : SeqWork :=
  { SeqWork.of m none 0 tick autoSteps items with
    auto := true, endOnEos := true, concealed := decide (flags % 2 = 1), catching := decide (flags / 2 % 2 = 1) }

/-- The part with the oldest fed append of session `n` gone. -/
def fedGone (n : Nat) (rest : List (List (List Byte) × Nat × Nat)) (s : State) : State := s.modSession n (fun x => { x with fed := rest })

/-- And its wait counted under the client of the open (10 R245). -/
def fedBegun (n tick : Nat) (rest : List (List (List Byte) × Nat × Nat)) (s : State) : State :=
  account (s.session n).client (fun a => { a with wait := (a.wait + (s.now - tick)) % 2 ^ 64 }) (fedGone n rest s)

section Fed

variable {n : Nat} {m : MaqEntry} {items : List (List Byte)} {flags tick : Nat} {rest : List (List (List Byte) × Nat × Nat)} {s : State}
  (hfed : (s.session n).fed = (items, flags, tick) :: rest) (hopen : (s.session n).isOpen = true) (hidle : (s.session n).work = none)
  (htakes : takesWork s = true) (hturn : fedTurn s n tick = true) (hbound : modelEntry s (s.session n).model = some m)
  (hpeers : (s.session n).peerLost = false)
include hfed hopen hidle htakes hturn hbound hpeers

theorem exec_fedAppend_discards (hfull : ¬ ((s.session n).slide = true ∨
      (s.session n).tCtx ≠ (s.session n).tMax ∧ (s.session n).tCtx + items.length ≤ (s.session n).tMax)) (r : AppendRun) (runs : List StepRun) :
    exec (.fedAppend n r runs) s = .next (count (ctrFed n) 1 (fedGone n rest s)) := by
  simp only [takesWork, Bool.and_eq_true] at htakes
  have hcond : (!(s.session n).slide && (decide ((s.session n).tCtx = (s.session n).tMax) ||
      decide ((s.session n).tCtx + items.length > (s.session n).tMax))) = true := by
    simp only [not_or, not_and, Bool.not_eq_true] at hfull
    simp only [hfull.1, Bool.not_false, Bool.true_and, Bool.or_eq_true, decide_eq_true_eq]
    by_cases h : (s.session n).tCtx = (s.session n).tMax
    · exact .inl h
    · exact .inr (by have := hfull.2 h; omega)
  simp only [exec, execFedAppend, doFedAppend, htakes, hidle, beginFed, hfed, hopen, hturn, workCheck_passed hbound hpeers, hbound, hcond]
  rfl

theorem exec_fedAppend_works (hroom : (s.session n).slide = true ∨
      (s.session n).tCtx ≠ (s.session n).tMax ∧ (s.session n).tCtx + items.length ≤ (s.session n).tMax) (r : AppendRun) (runs : List StepRun) :
    exec (.fedAppend n r runs) s = .next (beginWork n (fedWork m items flags tick (s.session n).autoSteps) (fedBegun n tick rest s)) := by
  simp only [takesWork, Bool.and_eq_true] at htakes
  have hcond : (!(s.session n).slide && (decide ((s.session n).tCtx = (s.session n).tMax) ||
      decide ((s.session n).tCtx + items.length > (s.session n).tMax))) = false := by
    obtain h | ⟨h, h'⟩ := hroom
    · simp [h]
    · simp [h, Nat.not_lt.mpr h']
  simp only [exec, execFedAppend, doFedAppend, htakes, hidle, beginFed, hfed, hopen, hturn, workCheck_passed hbound hpeers, hbound, hcond]
  rfl

end Fed

end Sys2Proof.SessionAdvance
end

section
/-! Units that end (09 R194, R225, R230, R232): a chunk or a step committed, its rows written while its Niches run, and the unit abandoned by a fault. -/

namespace Sys2Proof.SessionUnits

open Sys2Proof.Machine Sys2Proof.Laws Sys2Proof.SessionFrames Sys2Proof.SessionWork Sys2Proof.SessionAdvance Sys2Proof.RecordWriter

variable {n : Nat} {w : SeqWork} {s : State}

/-! ### Chunks (09 R225) -/

section Chunk

variable {r : AppendRun} (hw : (s.session n).work = some w)
include hw

theorem runChunk_abandons (hitems : w.items ≠ []) (hfault : w.fault ≠ 0) : runChunk n r s = abandonUnit n w s := by
  simp [runChunk, hw, hitems, hfault]

section Ran

variable (hitems : w.items ≠ []) (hfault : w.fault = 0) (hok : chunkOk (s.session n) w r = true) (hagree : rowsAgree w r.rows = true)
include hitems hfault hok hagree

theorem runChunk_commits (hdone : unitDone w = true) : runChunk n r s = commitChunk n r s := by
  simp [runChunk, hw, hitems, hfault, hok, hagree, hdone]

theorem runChunk_writes (hnot : unitDone w = false) (hunder : underWay w = true) : runChunk n r s = takeRows n r.rows s := by
  simp [runChunk, hw, hitems, hfault, hok, hagree, hnot, hunder]

end Ran

theorem takeRows_became (l : List (List KvRow)) :
    Became n { s.session n with work := some { w with kv := some l } } s (takeRows n l s) :=
  modWork_became ((Became.refl n s).writeRows n l) hw _

end Chunk

/-- The work with its chunk taken. -/
def chunkLeft (w : SeqWork) : SeqWork := { w with items := w.items.drop w.chunk, chunk := 0, phase := .idle, slid := false }

/-- The session with a chunk of `k` items committed. -/
def chunkTaken (k : Nat) (w : SeqWork) (x : Session) : Session := { committed k x with lastTok := none, work := some (chunkLeft w) }

theorem commitChunk_became (hw : (s.session n).work = some w) (r : AppendRun) :
    ∃ t, commitChunk n r s = nextUnit n t ∧ Became n (chunkTaken r.rows.length w (s.session n)) s t := by
  have hcommitted := (commitRows_became ((Became.refl n s).writeRows n r.rows) r.rows.length).modSession (fun x => { x with lastTok := none })
  exact ⟨_, rfl, modWork_became hcommitted hw chunkLeft⟩

theorem chunkOk_length {x : Session} {r : AppendRun} (h : chunkOk x w r = true) : r.rows.length = w.chunk := by
  simp only [chunkOk, Bool.and_eq_true, decide_eq_true_eq] at h
  exact h.1.2

/-- The last chunk of an append that no steps follow. -/
theorem commitChunk_last (hw : (s.session n).work = some w) {r : AppendRun} (hlast : w.items.length = w.chunk) (hsteps : w.steps = 0) :
    ∃ t, Became n (chunkTaken r.rows.length w (s.session n)) s t ∧ commitChunk n r s = endWork n 0 t := by
  obtain ⟨t, ht, hb⟩ := commitChunk_became hw r
  have hleft : (chunkLeft w).items = [] := List.drop_eq_nil_of_le hlast.le
  refine ⟨t, hb, ht.trans (nextUnit_ends (congrArg Session.work hb.session) hleft (.inl ?_))⟩
  exact hsteps.le.trans (Nat.zero_le _)

/-- A chunk of a latency-critical session that others follow. -/
theorem commitChunk_next {m : MaqEntry} (hw : (s.session n).work = some w) {r : AppendRun} (hmore : w.chunk < w.items.length)
    (hspread : (s.session n).spread = 0) (hlc : (s.session n).be = false) (hbound : modelEntry s (s.session n).model = some m) :
    ∃ b, Became n (unitReady b (min (w.items.length - w.chunk) w.laneRows) { chunkLeft w with chunk := min (w.items.length - w.chunk) w.laneRows }
      { chunkTaken r.rows.length w (s.session n) with work := some { chunkLeft w with chunk := min (w.items.length - w.chunk) w.laneRows } }) s
      (commitChunk n r s) := by
  obtain ⟨t, ht, hb⟩ := commitChunk_became hw r
  have hleft : (chunkLeft w).items.length = w.items.length - w.chunk := List.length_drop
  have hitems : (chunkLeft w).items ≠ [] := fun h => by
    rw [h] at hleft
    simp at hleft
    omega
  have hk := modWork_became hb rfl (fun y => { y with chunk := min (w.items.length - w.chunk) w.laneRows })
  obtain ⟨b, s', hq, hv⟩ := beginUnit_readies hk rfl hspread hbound (fun hbe => by simp [chunkTaken, committed, hlc] at hbe) 2
    (min (w.items.length - w.chunk) w.laneRows)
  rw [hq.1 hlc] at hv
  refine ⟨b, ?_⟩
  rw [ht, nextUnit_chunk (congrArg Session.work hb.session) hitems, hleft]
  exact hv

/-! ### Steps (09 R225, R232) -/

/-- The token a run of the step entry yields. -/
def tokenOf (r : StepRun) : Word := w32 (argmax (r.logits.map fp32))

/-- The token is an EOS that ends the command. -/
def stopsAt (w : SeqWork) (r : StepRun) : Bool := w.endOnEos && decide (tokenOf r = w.eos)

/-- The work with a step taken. -/
def stepLeft (w : SeqWork) (r : StepRun) : SeqWork :=
  { w with i := w.i + 1, steps := if stopsAt w r then w.i + 1 else w.steps, phase := .idle, slid := false }

/-- The session with a step committed and its SEQ_RESULT issued. -/
def stepTaken (w : SeqWork) (r : StepRun) (x : Session) : Session :=
  { committed 1 x with lastTok := some (tokenOf r), seq := nextSeq x.seq, work := some (stepLeft w r) }

theorem commitStep_became (hw : (s.session n).work = some w) (r : StepRun) :
    ∃ s' t, commitStep n w r s = nextUnit n t ∧ Recorded s s' ∧ Became n (stepTaken w r (s.session n)) s' t := by
  have hcommitted := (commitRows_became ((Became.refl n s).writeRows n [r.rows]) 1).modSession (fun x => { x with lastTok := some (tokenOf r) })
  unfold commitStep
  dsimp only
  generalize hreq : seqResult w n _ _ _ _ _ _ _ = req
  obtain ⟨s', hrec, hissued⟩ := issueTo_became hcommitted (r := req) (by rw [← hreq]; rfl) (by rw [← hreq]; rfl) _ _
  exact ⟨s', _, rfl, hrec, modWork_became hissued hw _⟩

/-- The last step of its work: an EOS that ends the command, none left, or a context that is full and does not slide. -/
def LastStep (w : SeqWork) (r : StepRun) (x : Session) : Prop :=
  (w.endOnEos = true ∧ tokenOf r = w.eos) ∨ w.steps ≤ w.i + 1 ∨ x.slide = false ∧ x.tCtx + 1 = x.tMax

theorem stopsAt_iff {r : StepRun} : stopsAt w r = true ↔ w.endOnEos = true ∧ tokenOf r = w.eos := by simp [stopsAt]

theorem commitStep_last (hw : (s.session n).work = some w) (hitems : w.items = []) {r : StepRun} (hlast : LastStep w r (s.session n)) :
    ∃ s' t, Recorded s s' ∧ Became n (stepTaken w r (s.session n)) s' t ∧ commitStep n w r s = endWork n 0 t := by
  obtain ⟨s', t, ht, hrec, hb⟩ := commitStep_became hw r
  refine ⟨s', t, hrec, hb, ht.trans (nextUnit_ends (congrArg Session.work hb.session) hitems ?_)⟩
  obtain hstop | hsteps | ⟨hslide, hfull⟩ := hlast
  · exact .inl (if_pos (stopsAt_iff.mpr hstop)).le
  · refine .inl ?_
    change (if stopsAt w r then w.i + 1 else w.steps) ≤ w.i + 1
    split <;> omega
  · exact .inr ⟨by rw [hb.session]; exact hslide, by rw [hb.session]; exact hfull⟩

theorem commitStep_next {m : MaqEntry} (hw : (s.session n).work = some w) (hitems : w.items = []) {r : StepRun} (hmore : ¬ LastStep w r (s.session n))
    (hspread : (s.session n).spread = 0) (hlc : (s.session n).be = false) (hbound : modelEntry s (s.session n).model = some m) :
    ∃ b s', Recorded s s' ∧ Became n (unitReady b 1 (stepLeft w r) (stepTaken w r (s.session n))) s' (commitStep n w r s) ∧
      (stepLeft w r).steps = w.steps := by
  obtain ⟨hstop, hsteps, hroom⟩ := not_or.mp hmore |>.imp_right not_or.mp
  obtain ⟨s', t, ht, hrec, hb⟩ := commitStep_became hw r
  have hkept : (stepLeft w r).steps = w.steps := if_neg (mt stopsAt_iff.mp hstop)
  have hbound' : modelEntry s' (s.session n).model = some m := by
    obtain ⟨_, _, _, _, _, _, _, _, _, _, _, _, rfl⟩ := hrec
    exact hbound
  have hopen : (t.session n).slide = true ∨ (t.session n).tCtx ≠ (t.session n).tMax := by
    rw [hb.session]
    cases hslide : (s.session n).slide with
    | false => exact .inr fun hfull => hroom ⟨hslide, hfull⟩
    | true => exact .inl hslide
  obtain ⟨b, s'', hq, hv⟩ := beginUnit_readies hb rfl hspread hbound' (fun hbe => by simp [stepTaken, committed, hlc] at hbe) 1 1
  rw [hq.1 hlc] at hv
  refine ⟨b, s', hrec, ?_, hkept⟩
  rw [ht, nextUnit_step (congrArg Session.work hb.session) hitems (by rw [hkept]; exact not_le.mp hsteps) hopen]
  exact hv

section Steps

variable (hw : (s.session n).work = some w) (hitems : w.items = [])
include hw hitems

theorem runSteps_commits {r : StepRun} (hfault : w.fault = 0) (hok : stepOk (s.session n) w r = true) (hagree : rowsAgree w [r.rows] = true)
    (hdone : unitDone w = true) (rest : List StepRun) : runSteps n (r :: rest) s = runSteps n rest (commitStep n w r s) := by
  simp [runSteps, hw, hitems, hfault, hok, hagree, hdone]

theorem runSteps_abandons (hfault : w.fault ≠ 0) (runs : List StepRun) : runSteps n runs s = abandonUnit n w s := by
  cases runs <;> simp [runSteps, hw, hitems, hfault]

end Steps

theorem runSteps_ended {t : State} (h : (t.session n).work = none) (runs : List StepRun) : runSteps n runs t = t := by
  cases runs <;> simp [runSteps, h]

/-- Of a step whose Niches wait, at most the rows are written. -/
theorem runSteps_ready_cases {y : SeqWork} {t : State} (hwork : (t.session n).work = some y) (hitems : y.items = []) (hphase : y.phase = .ready)
    (hfault : y.fault = 0) (runs : List StepRun) : runSteps n runs t = t ∨ ∃ l, runSteps n runs t = takeRows n l t := by
  have hnot : unitDone y = false := by simp [unitDone, hphase]
  cases runs with
  | nil => exact .inl (by simp [runSteps, hwork, hfault])
  | cons r rest =>
    simp only [runSteps, hwork, hitems, hfault, hnot, List.isEmpty_nil, Bool.not_true, Bool.false_eq_true, if_false, ne_eq, not_true_eq_false]
    split
    · exact .inl rfl
    · split
      · exact .inr ⟨_, rfl⟩
      · exact .inl rfl

theorem runSteps_waits {x : Session} {y : SeqWork} {t : State} (h : Became n x s t) (hy : x.work = some y) (hitems : y.items = []) (hphase : y.phase = .ready)
    (hfault : y.fault = 0) (runs : List StepRun) : ∃ kv, Became n { x with work := some { y with kv := kv } } s (runSteps n runs t) := by
  have hwork : (t.session n).work = some y := by rw [h.session, hy]
  obtain hr | ⟨l, hr⟩ := runSteps_ready_cases hwork hitems hphase hfault runs
  · rw [hr]
    refine ⟨y.kv, ?_⟩
    rw [show ({ x with work := some { y with kv := y.kv } } : Session) = x by rw [← hy]]
    exact h
  · rw [hr]
    exact ⟨_, h.trans (h.session ▸ takeRows_became hwork l)⟩

/-! ### Abandoned units (09 R194, R230) -/

theorem abandonUnit_chunk (hitems : w.items ≠ []) : abandonUnit n w s = endWork n w.fault s := by
  simp [abandonUnit, hitems]

/-- A fault for which the record of a step has a place (09 Table 9.3). -/
def Reported (w : SeqWork) : Prop := w.fault = stLinkDown ∨ w.fault / 256 = 5

theorem abandonUnit_unreported (h : ¬ Reported w) : abandonUnit n w s = endWork n w.fault s := by
  have hcond : (w.items.isEmpty && (decide (w.fault = stLinkDown) || decide (w.fault / 256 = 5))) = false := by
    simp only [Reported, not_or] at h
    simp [h]
  simp only [abandonUnit, hcond]
  rfl

/-- A step abandoned by a fault: at most its record has been issued. -/
theorem abandonUnit_step (hitems : w.items = []) : ∃ q t, abandonUnit n w s = endWork n w.fault t ∧ t.session n = { s.session n with seq := q } ∧
    (Reported w → q = nextSeq (s.session n).seq) ∧ (∀ k, k ≠ n → t.session k = s.session k) ∧ t.streams = s.streams ∧ t.dram = s.dram := by
  by_cases h : Reported w
  · have hissued := AbandonedSteps.resultIssued_sessions n w s
    have hrec : Recorded _ (AbandonedSteps.resultIssued n w s) := RecordWords.issueTo_recorded _ _ _ _
    refine ⟨_, _, AbandonedSteps.abandonUnit_eq (by rw [hitems]; rfl) h, ?_, fun _ => rfl, fun k hk => ?_, hrec.streams, hrec.dram⟩
    · rw [State.session, hissued, tget_tput_same]
    · rw [State.session, hissued, tget_tput_other _ _ _ hk, State.session]
  · exact ⟨_, s, abandonUnit_unreported h, rfl, fun hr => absurd hr h, fun _ _ => rfl, rfl, rfl⟩

end Sys2Proof.SessionUnits
end

section
/-! How T_ctx, POS and the last token of a session move (09 R225-R232), command by command. -/

namespace Sys2Proof.SessionsMove

open Sys2Proof.Machine Sys2Proof.Laws Sys2Proof.SessionCommands Sys2Proof.SessionFrames Sys2Proof.SessionWork Sys2Proof.SessionAdvance
open Sys2Proof.SessionUnits Sys2Proof.RecordWriter

/-! ### Work taken up -/

theorem appendWork_items (j : Nat) (e : JEntry) (m : MaqEntry) : (appendWork j e m).items.length = (e.param 2).toNat := by
  simp [appendWork, SeqWork.of, itemsOf]

section Takes

variable {n : Nat} {m : MaqEntry} {s : State} (hspread : (s.session n).spread = 0) (hbound : modelEntry s (s.session n).model = some m)
  (hpeers : (s.session n).peerLost = false) (hfits : (s.session n).be = true → noFit s n = false ∧ m.niches ≠ [])
include hspread hbound hpeers hfits

theorem seqAppend_takesUp {j : Nat} {e : JEntry} (hruns : Runs s j 0x32 e) (hidle : workingAt s j = none) (hturn : fedFirst s j = false)
    (hctx : e.ctx = n) (hcheck : sessionCheck s e = none) (hsome : 0 < (e.param 2).toNat)
    (hroom : (s.session n).slide = true ∨ (s.session n).tCtx + (e.param 2).toNat ≤ (s.session n).tMax) (r : AppendRun) :
    ∃ v, exec (.seqAppend j r) s = .next v ∧ TakenUp n (some j) (s.session n) m (e.param 2).toNat 0 s v ∧ v.hostMem = s.hostMem ∧
      v.journal = (beginCmd e s).journal := by
  subst hctx
  have hnil : (appendWork j e m).items ≠ [] := fun h => by
    have hlen := appendWork_items j e m
    rw [h] at hlen
    exact absurd hlen hsome.ne
  obtain ⟨htaken, hmem, hjournal, -⟩ := beginWork_takenUp (w := appendWork j e m) (s := beginCmd e s) hspread hbound hfits
    (fun h => absurd h hnil) ⟨rfl, rfl, rfl⟩
  rw [appendWork_items] at htaken
  exact ⟨_, exec_seqAppend_works hidle hturn hcheck hbound hpeers hruns hsome hroom r, htaken, hmem, hjournal⟩

section Step

variable {j : Nat} {e : JEntry} (hruns : Runs s j 0x33 e) (hhere : forwards s e = false) (hidle : workingAt s j = none) (hturn : fedFirst s j = false)
  (hctx : e.ctx = n) (hcheck : sessionCheck s e = none) (hlow : 1 ≤ fld (e.param 0) 15 0) (hhigh : fld (e.param 0) 15 0 ≤ 1024) (runs : List StepRun)
include hruns hhere hidle hturn hctx hcheck hlow hhigh

theorem seqStep_takesUp (hroom : (s.session n).slide = true ∨ (s.session n).tCtx ≠ (s.session n).tMax) :
    ∃ v, exec (.seqStep j runs) s = .next v ∧ TakenUp n (some j) (s.session n) m 0 (fld (e.param 0) 15 0) s v ∧ v.hostMem = s.hostMem ∧
      v.journal = (beginCmd e s).journal := by
  subst hctx
  obtain ⟨htaken, hmem, hjournal, -⟩ := beginWork_takenUp (w := stepWork j e m) (s := beginCmd e s) hspread hbound hfits
    (fun _ => ⟨hlow, hroom⟩) ⟨rfl, rfl, rfl⟩
  exact ⟨_, exec_seqStep_works hidle hturn hcheck hbound hpeers hruns hhere hlow hhigh runs, htaken, hmem, hjournal⟩

omit hspread hfits in
theorem seqStep_full (hslide : (s.session n).slide = false) (hfull : (s.session n).tCtx = (s.session n).tMax) :
    ∃ v, exec (.seqStep j runs) s = .next (finish j stOk [w32 (s.session n).tCtx, 0] v) ∧ (v.session n).tCtx = (s.session n).tCtx ∧
      (v.session n).seq = (s.session n).seq ∧ Alone n s v := by
  subst hctx
  obtain ⟨v, hv, hended⟩ := beginWork_full (w := stepWork j e m) (s := beginCmd e s) (j := j) rfl rfl hslide hfull
  have halone := alone_of_became hended
  refine ⟨v, (exec_seqStep_works hidle hturn hcheck hbound hpeers hruns hhere hlow hhigh runs).trans (congrArg _ hv), ?_, ?_, halone⟩
  · rw [hended.session]; rfl
  · rw [hended.session]; rfl

end Step

section Fed

variable {items : List (List Byte)} {flags tick : Nat} {rest : List (List (List Byte) × Nat × Nat)}
  (hfed : (s.session n).fed = (items, flags, tick) :: rest) (hopen : (s.session n).isOpen = true) (hidle : (s.session n).work = none)
  (htakes : takesWork s = true) (hturn : fedTurn s n tick = true) (r : AppendRun) (runs : List StepRun)
include hfed hopen hidle htakes hturn

theorem fedAppend_takesUp (hitems : items ≠ []) (hroom : (s.session n).slide = true ∨
      (s.session n).tCtx ≠ (s.session n).tMax ∧ (s.session n).tCtx + items.length ≤ (s.session n).tMax) :
    ∃ v, exec (.fedAppend n r runs) s = .next v ∧ TakenUp n none (s.session n) m items.length (s.session n).autoSteps s v ∧
      (v.session n).fed = rest := by
  have hgone : Became n { s.session n with fed := rest } s (fedGone n rest s) := (Became.refl n s).modSession _
  have hsession : (fedBegun n tick rest s).session n = { s.session n with fed := rest } := hgone.session
  have hgoneFit := noFit_became hgone rfl rfl
  have hfit : noFit (fedBegun n tick rest s) n = noFit s n := hgoneFit
  obtain ⟨⟨w, hw⟩, -, -, hrest⟩ := beginWork_takenUp (n := n) (m := m) (w := fedWork m items flags tick (s.session n).autoSteps)
    (s := fedBegun n tick rest s) (by rw [hsession]; exact hspread) (by rw [hsession]; exact hbound)
    (by rw [hsession, hfit]; exact hfits) (fun h => absurd h hitems) ⟨rfl, rfl, rfl⟩
  rw [hsession] at hw hrest
  obtain ⟨hwork, htctx, hj, hits, hchunk, hsteps, hi, hphase, hfault, hlayer, halone, hjobs⟩ := hw
  have hgoneAlone := alone_of_became hgone
  have hbefore : Alone n s (fedBegun n tick rest s) := hgoneAlone
  exact ⟨_, exec_fedAppend_works hfed hopen hidle htakes hturn hbound hpeers hroom r runs,
    ⟨w, hwork, htctx, hj, hits, hchunk, hsteps, hi, hphase, hfault, hlayer, hbefore.trans halone, hjobs⟩, hrest⟩

omit hspread hfits in
theorem fedAppend_discarded (hfull : ¬ ((s.session n).slide = true ∨
      (s.session n).tCtx ≠ (s.session n).tMax ∧ (s.session n).tCtx + items.length ≤ (s.session n).tMax)) :
    ∃ v, exec (.fedAppend n r runs) s = .next v ∧ v.session n = { s.session n with fed := rest } ∧ Alone n s v ∧
      tget v.obs.ctrs (ctrFed n) 0 = (tget s.obs.ctrs (ctrFed n) 0 + 1) % 2 ^ 48 := by
  have hgone : Became n { s.session n with fed := rest } s (fedGone n rest s) := (Became.refl n s).modSession _
  have halone := alone_of_became hgone
  exact ⟨_, exec_fedAppend_discards hfed hopen hidle htakes hturn hbound hpeers hfull r runs, hgone.session, halone,
    tget_tput_same _ _ _ _⟩

end Fed

end Takes

/-! ### Work goes on -/

section Goes

variable {n j : Nat} {w : SeqWork} {s : State} (hat : workingAt s j = some n) (hw : (s.session n).work = some w) (hj : w.j = some j)
  (htakes : takesWork s = true)

include hat htakes in
theorem exec_seqAppend_goesOn (r : AppendRun) : exec (.seqAppend j r) s = .next (runChunk n r s) := by
  have hup : (live s && computeUp s) = true := htakes
  simp only [exec, execSeqAppend, doSeqAppend, hat, whenUp, hup, if_true]

include hat htakes in
theorem exec_seqStep_goesOn (runs : List StepRun) : exec (.seqStep j runs) s = .next (runSteps n runs s) := by
  have hup : (live s && computeUp s) = true := htakes
  simp only [exec, execSeqStep, doSeqStep, hat, whenUp, hup, if_true]

include hat hw hj htakes

theorem seqAppend_abandoned (r : AppendRun) (hitems : w.items ≠ []) (hfault : w.fault ≠ 0) :
    ∃ v, exec (.seqAppend j r) s = .next (finish j w.fault [w32 (s.session n).tCtx, w32 w.i] v) ∧ v.session n = unworked (s.session n) ∧ Alone n s v ∧
      v.dram = s.dram := by
  have hended := ended_became (Became.refl n s)
  have halone := alone_of_became hended
  refine ⟨ended n s, ?_, hended.session, halone, rfl⟩
  rw [exec_seqAppend_goesOn hat htakes, runChunk_abandons hw hitems hfault, abandonUnit_chunk hitems, endWork_completes hw hj]

theorem seqStep_abandoned (runs : List StepRun) (hitems : w.items = []) (hfault : w.fault ≠ 0) :
    ∃ v, exec (.seqStep j runs) s = .next (finish j w.fault [w32 (s.session n).tCtx, w32 w.i] v) ∧
      (v.session n).tCtx = (s.session n).tCtx ∧ (v.session n).pos = (s.session n).pos ∧ (v.session n).lastTok = (s.session n).lastTok ∧
      (v.session n).work = none ∧ (Reported w → (v.session n).seq = (s.session n).seq.succ % 2 ^ 32) ∧
      (∀ k, k ≠ n → v.session k = s.session k) ∧ v.streams = s.streams ∧ v.dram = s.dram := by
  obtain ⟨q, t, ht, hx, hseq, hother, hstreams, hdram⟩ := abandonUnit_step (n := n) (w := w) (s := s) hitems
  have hwt : (t.session n).work = some w := by rw [hx]; exact hw
  have hended := ended_became (Became.refl n t)
  have hsession := hended.session
  rw [hx] at hsession
  refine ⟨ended n t, ?_, ?_, ?_, ?_, ?_, fun h => ?_, fun k hk => (hended.session_other hk).trans (hother k hk), hended.streams.trans hstreams, hdram⟩
  · rw [exec_seqStep_goesOn hat htakes, runSteps_abandons hw hitems hfault, ht, endWork_completes hwt hj, hx]
  · rw [hsession]; rfl
  · rw [hsession]; rfl
  · rw [hsession]; rfl
  · rw [hsession]; rfl
  · rw [hsession]; exact hseq h

section Chunk

variable {r : AppendRun} (hitems : w.items ≠ []) (hfault : w.fault = 0) (hok : chunkOk (s.session n) w r = true) (hagree : rowsAgree w r.rows = true)
include hitems hfault hok hagree

/-- What a committed chunk leaves of its session, with `T_ctx` at `c`. -/
def ChunkCommitted (n : Nat) (w : SeqWork) (c : Nat) (s v : State) : Prop :=
  (v.session n).tCtx = c ∧ (v.session n).pos = (s.session n).pos + w.chunk ∧ (v.session n).lastTok = none ∧
    (v.session n).gen = (s.session n).gen ∧ Alone n s v ∧ v.hostMem = s.hostMem

theorem seqAppend_lastChunk (hdone : unitDone w = true) (hlast : w.items.length = w.chunk) (hsteps : w.steps = 0) :
    ∃ v, exec (.seqAppend j r) s = .next (finish j stOk [w32 ((s.session n).tCtx + w.chunk), w32 w.i] v) ∧
      ChunkCommitted n w ((s.session n).tCtx + w.chunk) s v ∧ (v.session n).work = none := by
  obtain ⟨t, hb, ht⟩ := commitChunk_last hw (r := r) hlast hsteps
  rw [chunkOk_length hok] at hb
  have hended := ended_became hb
  have hsession := hended.session
  have halone := alone_of_became hended
  refine ⟨ended n t, ?_, ⟨?_, ?_, ?_, ?_, halone, hended.hostMem⟩, ?_⟩
  · rw [exec_seqAppend_goesOn hat htakes, runChunk_commits hw hitems hfault hok hagree hdone, ht,
      endWork_completes (w := chunkLeft w) (by rw [hb.session]; rfl) hj, hb.session]
    rfl
  all_goals rw [hsession]; rfl

omit hj in
theorem seqAppend_nextChunk (hdone : unitDone w = true) (hmore : w.chunk < w.items.length) (hspread : (s.session n).spread = 0)
    (hlc : (s.session n).be = false) (hbound : (modelEntry s (s.session n).model).isSome = true) :
    ∃ v y, exec (.seqAppend j r) s = .next v ∧
      ChunkCommitted n w ((s.session n).tCtx + w.chunk - 256 * slides { s.session n with tCtx := (s.session n).tCtx + w.chunk } y.chunk) s v ∧
      v.journal = s.journal ∧ (v.session n).work = some y ∧ y.items = w.items.drop w.chunk ∧ y.chunk = min (w.items.length - w.chunk) w.laneRows ∧
      y.phase = .ready := by
  obtain ⟨m, hm⟩ := Option.isSome_iff_exists.mp hbound
  obtain ⟨b, hb⟩ := commitChunk_next hw (r := r) hmore hspread hlc hm
  rw [chunkOk_length hok] at hb
  have hsession := hb.session
  have halone := alone_of_became hb
  refine ⟨_, _, (exec_seqAppend_goesOn hat htakes r).trans
    (congrArg _ (runChunk_commits hw hitems hfault hok hagree hdone)), ⟨?_, ?_, ?_, ?_, halone, hb.hostMem⟩, hb.journal, congrArg Session.work hsession,
    rfl, rfl, rfl⟩
  all_goals rw [hsession]; rfl

omit hj in
theorem seqAppend_underWay (hnot : unitDone w = false) (hunder : underWay w = true) : ∃ v, exec (.seqAppend j r) s = .next v ∧
    v.session n = { s.session n with work := some { w with kv := some r.rows } } ∧ Alone n s v ∧ v.journal = s.journal ∧ v.hostMem = s.hostMem := by
  have hb := takeRows_became hw r.rows
  exact ⟨_, (exec_seqAppend_goesOn hat htakes r).trans (congrArg _ (runChunk_writes hw hitems hfault hok hagree hnot hunder)), hb.session,
    alone_of_became hb, hb.journal, hb.hostMem⟩

end Chunk

section Step

variable {r : StepRun} (hitems : w.items = []) (hfault : w.fault = 0) (hdone : unitDone w = true) (hok : stepOk (s.session n) w r = true)
  (hagree : rowsAgree w [r.rows] = true) (rest : List StepRun)
include hitems hfault hdone hok hagree

/-- What a committed step leaves of its session, with `T_ctx` at `c`. -/
def StepCommitted (n : Nat) (r : StepRun) (c : Nat) (s v : State) : Prop :=
  (v.session n).tCtx = c ∧ (v.session n).pos = (s.session n).pos + 1 ∧ (v.session n).lastTok = some (tokenOf r) ∧
    (v.session n).seq = ((s.session n).seq + 1) % 2 ^ 32 ∧ Alone n s { v with safety := s.safety }

theorem seqStep_lastStep (hlast : LastStep w r (s.session n)) :
    ∃ v, exec (.seqStep j (r :: rest)) s = .next (finish j stOk [w32 ((s.session n).tCtx + 1), w32 (w.i + 1)] v) ∧
      StepCommitted n r ((s.session n).tCtx + 1) s v ∧ (v.session n).work = none := by
  obtain ⟨s', t, hrec, hb, ht⟩ := commitStep_last hw hitems hlast
  have hended := ended_became hb
  have hsession := hended.session
  have hcommitted := alone_of_recorded hrec hb
  have hwithout := alone_of_became (ended_became (Became.refl n { t with safety := s.safety }))
  have hnone : ((finish j stOk [w32 ((s.session n).tCtx + 1), w32 (w.i + 1)] (ended n t)).session n).work = none := by
    rw [State.session, kept_sessions (finish_kept ..)]
    exact congrArg Session.work hsession
  refine ⟨ended n t, ?_, ⟨?_, ?_, ?_, ?_, hcommitted.trans hwithout⟩, ?_⟩
  · rw [exec_seqStep_goesOn hat htakes, runSteps_commits hw hitems hfault hok hagree hdone, ht,
      endWork_completes (w := stepLeft w r) (by rw [hb.session]; rfl) hj, hb.session]
    exact congrArg _ (runSteps_ended hnone rest)
  all_goals rw [hsession]; rfl

omit hj in
theorem seqStep_nextStep (hmore : ¬ LastStep w r (s.session n)) (hspread : (s.session n).spread = 0) (hlc : (s.session n).be = false)
    (hbound : (modelEntry s (s.session n).model).isSome = true) : ∃ v y, exec (.seqStep j (r :: rest)) s = .next v ∧
      StepCommitted n r ((s.session n).tCtx + 1 - 256 * slides { s.session n with tCtx := (s.session n).tCtx + 1 } 1) s v ∧ v.journal = s.journal ∧
      (v.session n).work = some y ∧ y.i = w.i + 1 ∧ y.steps = w.steps ∧ y.phase = .ready := by
  obtain ⟨m, hm⟩ := Option.isSome_iff_exists.mp hbound
  obtain ⟨b, s', hrec, hb, hkept⟩ := commitStep_next hw hitems hmore hspread hlc hm
  obtain ⟨kv, hv⟩ := runSteps_waits hb rfl hitems rfl rfl rest
  have hsession := hv.session
  have halone := alone_of_recorded hrec hv
  refine ⟨_, _, (exec_seqStep_goesOn hat htakes _).trans (congrArg _ (runSteps_commits hw hitems hfault hok hagree hdone rest)),
    ⟨?_, ?_, ?_, ?_, halone⟩, hv.journal.trans hrec.journal, congrArg Session.work hsession, rfl, hkept, rfl⟩
  all_goals rw [hsession]; rfl

end Step

end Goes

/-- A fed append whose last chunk has run ends without a completion (09 R226). -/
theorem fedAppend_lastChunk {n : Nat} {w : SeqWork} {s : State} {r : AppendRun} (hw : (s.session n).work = some w) (hauto : w.auto = true) (hj : w.j = none)
    (htakes : takesWork s = true) (hitems : w.items ≠ []) (hfault : w.fault = 0) (hdone : unitDone w = true) (hlast : w.items.length = w.chunk)
    (hsteps : w.steps = 0) (hok : chunkOk (s.session n) { w with frames := r.frames } r = true) (hagree : rowsAgree w r.rows = true) :
    ∃ v, exec (.fedAppend n r []) s = .next v ∧ (v.session n).tCtx = (s.session n).tCtx + w.chunk ∧ (v.session n).pos = (s.session n).pos + w.chunk ∧
      (v.session n).lastTok = none ∧ (v.session n).work = none ∧ Alone n s v ∧ v.journal = s.journal := by
  have hframes : Became n { s.session n with work := some { w with frames := r.frames } } s
      (s.modSession n (fun x => { x with work := some { w with frames := r.frames } })) := (Became.refl n s).modSession _
  have hwf := congrArg Session.work hframes.session
  have hrun := runChunk_commits (r := r) hwf hitems hfault (by rw [hframes.session]; exact hok) hagree hdone
  obtain ⟨t, hb, ht⟩ := commitChunk_last hwf (r := r) hlast hsteps
  rw [chunkOk_length hok, hframes.session] at hb
  have hended := ended_became (hframes.trans hb)
  have hsession := hended.session
  have halone := alone_of_became hended
  refine ⟨ended n t, ?_, ?_, ?_, ?_, ?_, halone, hended.journal⟩
  · have hup : (live s && computeUp s) = true := htakes
    simp only [Bool.and_eq_true] at hup
    have hgoes : exec (.fedAppend n r []) s = .next (runSteps n [] (runChunk n r (s.modSession n (fun x =>
        { x with work := some { w with frames := r.frames } })))) := by
      simp [exec, execFedAppend, doFedAppend, goOnFed, hup, hw, hauto]
    rw [hgoes, hrun, ht, endWork_fed (w := chunkLeft { w with frames := r.frames }) (by rw [hb.session]; rfl) hj,
      runSteps_ended (congrArg Session.work hsession)]
  all_goals rw [hsession]; rfl

/-- Settles O42, from what each of the three commands does when it takes up its session and when it goes on with the unit that has run. -/
theorem sessionsAdvance : Obligations.SessionsAdvance := by
  unfold Obligations.SessionsAdvance
  intro room alone taken
  refine ⟨?_, ?_, ?_⟩
  · intro n m s x hspread hbound hpeers hfits
    refine ⟨?_, ?_, ?_⟩
    · intro j e r hruns hidle hturn hctx hcheck hsome hroom
      exact seqAppend_takesUp hspread hbound hpeers hfits hruns hidle hturn hctx hcheck hsome hroom r
    · intro j e runs hruns hhere hidle hturn hctx hcheck hlow hhigh
      exact ⟨seqStep_takesUp hspread hbound hpeers hfits hruns hhere hidle hturn hctx hcheck hlow hhigh runs,
        seqStep_full hbound hpeers hruns hhere hidle hturn hctx hcheck hlow hhigh runs⟩
    · intro r runs items flags tick rest hfed hopen hidle htakes hturn hitems
      exact ⟨fedAppend_takesUp hspread hbound hpeers hfits hfed hopen hidle htakes hturn r runs hitems,
        fedAppend_discarded hbound hpeers hfed hopen hidle htakes hturn r runs⟩
  · intro n j w s hat hw hj htakes x
    refine ⟨?_, seqAppend_abandoned hat hw hj htakes, ?_, seqStep_abandoned hat hw hj htakes⟩
    · intro r hitems hfault hok hagree
      exact ⟨seqAppend_lastChunk hat hw hj htakes hitems hfault hok hagree, seqAppend_nextChunk hat hw htakes hitems hfault hok hagree,
        seqAppend_underWay hat hw htakes hitems hfault hok hagree⟩
    · intro r rest hitems hfault hdone hok hagree
      exact ⟨seqStep_lastStep hat hw hj htakes hitems hfault hdone hok hagree rest,
        seqStep_nextStep hat hw htakes hitems hfault hdone hok hagree rest⟩
  · intro n r w s hw hauto hj htakes hitems hfault hdone hlast hsteps hok hagree
    exact fedAppend_lastChunk hw hauto hj htakes hitems hfault hdone hlast hsteps hok hagree

end Sys2Proof.SessionsMove
end

section
/-! Pack group triggers (09 R228): the lanes that are ready are marked, the group's segments are kept and its Niches released. -/

namespace Sys2Proof.PackTriggers

open Sys2Proof.Machine Sys2Proof.Laws

/-! ### Niches released (05 R25, R30) -/

/-- Between the two states only instances of Niches change, and none is lost. -/
def RunsGrown (s t : State) : Prop := ∃ l, t = { s with runs := l } ∧ s.runs.length ≤ l.length

namespace RunsGrown

theorem refl (s : State) : RunsGrown s s := ⟨s.runs, rfl, le_rfl⟩

theorem trans {s t u : State} (h : RunsGrown s t) (h' : RunsGrown t u) : RunsGrown s u := by
  obtain ⟨_, rfl, hl⟩ := h
  obtain ⟨_, rfl, hl'⟩ := h'
  exact ⟨_, rfl, hl.trans hl'⟩

theorem mapped (s : State) (f : Run → Run) : RunsGrown s { s with runs := s.runs.map f } := ⟨_, rfl, List.length_map f |>.ge⟩

theorem appended (s : State) (l : List Run) : RunsGrown s { s with runs := s.runs ++ l } := ⟨_, rfl, by simp⟩

theorem skipFrom (x : Run) (status : Nat) (wide : Bool) (s : State) : RunsGrown s (skipFrom x status wide s) := by
  unfold Machine.skipFrom
  split
  · exact refl s
  · exact (mapped s _).trans (mapped _ _)

theorem inheritSkip (x : Run) (s : State) : RunsGrown s (inheritSkip x s) := by
  unfold Machine.inheritSkip
  split
  · exact refl s
  · refine of_ite (skipFrom x _ _ s) ?_
    dsimp only
    split
    · exact (mapped s _).trans (mapped _ _)
    · exact refl s

theorem forAll {α : Type} {f : α → State → State} (hf : ∀ a s, RunsGrown s (f a s)) (l : List α) (s : State) : RunsGrown s (forAll l f s) := by
  induction l generalizing s with
  | nil => exact refl s
  | cons a l ih => exact (hf a s).trans (ih _)

theorem releaseNiches (ref : SchedRef) (first cnt owner : Nat) (seq : Bool) (don band : Nat) (s : State) :
    RunsGrown s (releaseNiches ref first cnt owner seq don band s) := by
  unfold Machine.releaseNiches
  split
  · exact refl s
  · exact ((appended s _).trans (forAll inheritSkip _ _)).trans (mapped _ _)

end RunsGrown

/-! ### Lanes marked (09 R228) -/

/-- The phase of lanes whose trigger has fired. -/
def firedPhase (p : Pack) : SeqPhase := if p.nicheCount = 0 then .done else .running

/-- The session with its work in a phase. -/
def inPhase (ph : SeqPhase) (x : Session) : Session := { x with work := x.work.map (fun w => { w with phase := ph }) }

theorem inPhase_twice (ph : SeqPhase) (x : Session) : inPhase ph (inPhase ph x) = inPhase ph x := by
  simp [inPhase, Function.comp_def]

/-- The part with the work of the sessions of the segments `l` in a phase. -/
def lanesMarked (ph : SeqPhase) (l : List Nat) (s : State) : State := forAll l (fun g => modWork (g - 1) (fun w => { w with phase := ph })) s

theorem lanesMarked_shape (ph : SeqPhase) (l : List Nat) (s : State) : ∃ t, lanesMarked ph l s = { s with sessions := t } := by
  induction l generalizing s with
  | nil => exact ⟨_, rfl⟩
  | cons g l ih => obtain ⟨t, ht⟩ := ih (modWork (g - 1) (fun w => { w with phase := ph }) s); exact ⟨t, ht⟩

theorem lanesMarked_session (ph : SeqPhase) {l : List Nat} (hl : ∀ g ∈ l, g ≠ 0) (s : State) (k : Nat) :
    (lanesMarked ph l s).session k = if k + 1 ∈ l then inPhase ph (s.session k) else s.session k := by
  induction l generalizing s with
  | nil => rfl
  | cons g l ih =>
    have hg := hl g List.mem_cons_self
    have htail := ih (fun g h => hl g (List.mem_cons_of_mem _ h)) (modWork (g - 1) (fun w => { w with phase := ph }) s)
    refine htail.trans ?_
    by_cases hk : k = g - 1
    · subst hk
      have hone : (modWork (g - 1) (fun w => { w with phase := ph }) s).session (g - 1) = inPhase ph (s.session (g - 1)) := session_modSession ..
      have hmem : g - 1 + 1 ∈ g :: l := by simp [Nat.sub_add_cancel (Nat.pos_of_ne_zero hg)]
      rw [hone, inPhase_twice, if_pos hmem, ite_self]
    · have hother : (modWork (g - 1) (fun w => { w with phase := ph }) s).session k = s.session k := session_modSession_other _ _ hk
      have hmem : k + 1 ∈ g :: l ↔ k + 1 ∈ l := by
        rw [List.mem_cons]
        exact or_iff_right (by omega)
      rw [hother]
      simp only [hmem]

/-! ### The trigger -/

section Trigger

variable {model group : Nat} {r : SchedRef} {p : Pack} {s : State} (hp : packOf s model = some p)
include hp

/-- The group's trigger names the segments of its lanes. -/
theorem exec_seqTrigger_named : exec (.seqTrigger model group (segments s model group p.lanes)) s = .next (doSeqTrigger model group s) := by
  simp [exec, execSeqTrigger, hp]

theorem exec_seqTrigger_other {g : List Nat} (hg : g ≠ segments s model group p.lanes) : exec (.seqTrigger model group g) s = .next s := by
  simp [exec, execSeqTrigger, hp, hg.symm]

variable (hactive : s.active = some r)
include hactive

theorem doSeqTrigger_waits (hwait : (segments s model group p.lanes).any (· ≠ 0) = false ∨ groupBusy s model group = true) :
    doSeqTrigger model group s = s := by
  unfold doSeqTrigger
  rw [hactive, hp]
  refine ite_eq_left_iff.mpr fun _ => if_pos ?_
  obtain h | h := hwait
  · have hall : (segments s model group p.lanes).all (· = 0) = true := by
      simpa using h
    simp [hall]
  · simp [h]

/-- The part whose group has fired, its Niches not yet released. -/
def fired (model group : Nat) (r : SchedRef) (p : Pack) (s : State) : State :=
  emit 0x01 0x22 0xFFFF 0xFFFFFF 0 0xFFF 0 0
    { lanesMarked (firedPhase p) ((segments s model group p.lanes).filter (· ≠ 0)) s with
      packs := tput s.packs (model * 256 + group) { ref := r, segs := segments s model group p.lanes } }

theorem doSeqTrigger_fires (htakes : takesWork s = true) (hsched : s.noSched = false) (hgroup : group < p.groups)
    (hready : (segments s model group p.lanes).any (· ≠ 0) = true) (hidle : groupBusy s model group = false) : doSeqTrigger model group s =
    releaseNiches r (p.firstNiche + group * p.nicheCount) p.nicheCount model true group 0xFFF (fired model group r p s) := by
  simp only [takesWork, Bool.and_eq_true] at htakes
  obtain ⟨hlive, hup⟩ := htakes
  have hsome : (segments s model group p.lanes).all (· = 0) = false := by
    rw [List.any_eq_true] at hready
    rw [List.all_eq_false]
    simpa using hready
  obtain ⟨t, ht⟩ := lanesMarked_shape (firedPhase p) ((segments s model group p.lanes).filter (· ≠ 0)) s
  have hpacks : (lanesMarked (firedPhase p) ((segments s model group p.lanes).filter (· ≠ 0)) s).packs = s.packs := by rw [ht]
  unfold doSeqTrigger fired
  rw [hactive, hp, ← hpacks]
  simp only [hlive, hup, hsched, hsome, hidle, Nat.not_le.mpr hgroup, decide_false, Bool.not_true, Bool.or_self, Bool.false_eq_true, if_false]
  rfl

omit hp hactive in
/-- What a trigger that fires leaves: the lanes marked and the segments kept; all else but instances and the trace as it was. -/
theorem fired_shape : ∃ b l c q a d, fired model group r p s =
    { lanesMarked (firedPhase p) ((segments s model group p.lanes).filter (· ≠ 0)) s with
      packs := tput s.packs (model * 256 + group) { ref := r, segs := segments s model group p.lanes }
      obs := { s.obs with bufs := b, lost := l }, pcie := { s.pcie with cause := c, recent := q, asserted := a, deassertAt := d } } := by
  obtain ⟨b, l, c, q, a, d, h⟩ := emit_shape 0x01 0x22 0xFFFF 0xFFFFFF 0 0xFFF 0 0
    { lanesMarked (firedPhase p) ((segments s model group p.lanes).filter (· ≠ 0)) s with
      packs := tput s.packs (model * 256 + group) { ref := r, segs := segments s model group p.lanes } }
  obtain ⟨t, ht⟩ := lanesMarked_shape (firedPhase p) ((segments s model group p.lanes).filter (· ≠ 0)) s
  refine ⟨b, l, c, q, a, d, h.trans ?_⟩
  rw [ht]

end Trigger

/-- What `Obligations.GroupsAndCollectives` says of a trigger that fires. -/
theorem seqTrigger_fires {model group : Nat} {r : SchedRef} {p : Pack} {s : State} (htakes : takesWork s = true) (hactive : s.active = some r)
    (hp : packOf s model = some p) (hsched : s.noSched = false) (hgroup : group < p.groups)
    (hready : (segments s model group p.lanes).any (· ≠ 0) = true) (hidle : groupBusy s model group = false) :
    ∃ t, exec (.seqTrigger model group (segments s model group p.lanes)) s = .next t ∧
      tfind t.packs (model * 256 + group) = some { ref := r, segs := segments s model group p.lanes } ∧
      (∀ k, k ≠ model * 256 + group → tfind t.packs k = tfind s.packs k) ∧ s.runs.length ≤ t.runs.length ∧
      (∀ k, k + 1 ∉ segments s model group p.lanes → t.session k = s.session k) ∧
      (∀ k, k + 1 ∈ segments s model group p.lanes → t.session k = inPhase (firedPhase p) (s.session k)) ∧
      t.streams = s.streams ∧ t.dram = s.dram ∧ t.safety = s.safety := by
  obtain ⟨b, l, c, q, a, d, hfired⟩ := fired_shape (model := model) (group := group) (r := r) (p := p) (s := s)
  obtain ⟨runs, hgrown, hlen⟩ := RunsGrown.releaseNiches r (p.firstNiche + group * p.nicheCount) p.nicheCount model true group 0xFFF
    (fired model group r p s)
  have hsession := lanesMarked_session (firedPhase p) (l := (segments s model group p.lanes).filter (· ≠ 0)) (by simp) s
  have hmem (k : Nat) : k + 1 ∈ (segments s model group p.lanes).filter (· ≠ 0) ↔ k + 1 ∈ segments s model group p.lanes := by simp
  obtain ⟨t, ht⟩ := lanesMarked_shape (firedPhase p) ((segments s model group p.lanes).filter (· ≠ 0)) s
  simp only [hmem] at hsession
  refine ⟨_, (exec_seqTrigger_named hp).trans (congrArg _ (doSeqTrigger_fires hp hactive htakes hsched hgroup hready hidle)), ?_⟩
  rw [hgrown]
  rw [hfired, ht] at hlen ⊢
  rw [ht] at hsession
  exact ⟨tfind_tput_same _ _ _, fun k hk => tfind_tput_other _ _ hk, hlen, fun k hk => (hsession k).trans (if_neg hk),
    fun k hk => (hsession k).trans (if_pos hk), rfl, rfl, rfl⟩

end Sys2Proof.PackTriggers
end

section
/-! COLLECTIVE on the part of a peer (09 R229, R230; 12 R293): the shadow session that holds this part's share of the pages. -/

namespace Sys2Proof.Collectives

open Sys2Proof.Machine Sys2Proof.Laws Sys2Proof.SessionFrames Sys2Proof.SessionWork Sys2Proof.SessionOpening

/-! ### The layers and heads of a session's pages -/

/-- The layer and head of each page. -/
def slots (x : Session) : List (Nat × Nat) := x.pages.map (fun p => (p.layer, p.head))

/-- Which rows a session takes depends on the layers and heads of its pages alone. -/
theorem rowsOk_of_slots {x y : Session} (h : slots x = slots y) : rowsOk x = rowsOk y := by
  unfold slots at h
  funext rows
  rw [rowsOk, rowsOk, h]

theorem slidePages_slots (l : List Page) : (slidePages l).map (fun p => (p.layer, p.head)) = l.map (fun p => (p.layer, p.head)) := by
  simp only [slidePages, List.map_map]
  refine List.map_congr_left fun p _ => ?_
  simp only [Function.comp_apply]
  split <;> rfl

theorem slidBy_slots (m : Nat) (x : Session) : slots (slidBy m x) = slots x := by
  unfold slots slidBy
  dsimp only
  induction m with
  | zero => rfl
  | succ m ih => rw [Function.iterate_succ_apply', slidePages_slots, ih]

/-! ### The rows that the home part's T_ctx confirms (09 R230) -/

/-- The shadow session with the rows of its last collective committed, where the home part's `T_ctx` `c` confirms them. -/
def confirmed (c : Nat) (x : Session) : Session :=
  { (if c = x.tCtx + x.pendRows.length then committed x.pendRows.length x else x) with pendRows := [], tCtx := c }

theorem commitShadow_became (n c : Nat) (s : State) : Became n (confirmed c (s.session n)) s (commitShadow n c s) := by
  unfold commitShadow confirmed
  by_cases h : c = (s.session n).tCtx + (s.session n).pendRows.length
  · simp only [h, decide_true, if_true]
    exact (commitRows_became (Became.refl n s) _).modSession _
  · simp only [h, decide_false, Bool.false_eq_true, if_false]
    exact (Became.refl n s).modSession _

theorem confirmed_pos (c : Nat) (x : Session) : (confirmed c x).pos = if c = x.tCtx + x.pendRows.length then x.pos + x.pendRows.length else x.pos := by
  unfold confirmed
  split <;> rfl

theorem confirmed_kept (c : Nat) (x : Session) : (confirmed c x).gen = x.gen ∧ (confirmed c x).shadow = x.shadow ∧ (confirmed c x).slide = x.slide ∧
    (confirmed c x).tMax = x.tMax := by
  unfold confirmed
  split <;> exact ⟨rfl, rfl, rfl, rfl⟩

/-! ### The command begins -/

section Command

variable {j chip pos : Nat} {e : JEntry} {s : State} {rows : List (List KvRow)} (hruns : Runs s j 0x62 e) (horigin : e.origin = some (chip, pos))
include hruns horigin

omit horigin in
theorem exec_collective_badKind (hkind : 3 < fld (e.param 0) 3 0) :
    exec (.collective j rows) s = .next (finish j stBadParam [] (beginCmd e s)) := by
  obtain ⟨he, hbegin, hstatic⟩ := hruns
  simp [exec, execCollective, doCollective, runCmd_body he hbegin hstatic, hkind]

theorem exec_collective_opens (hkind : fld (e.param 0) 3 0 = 0) (hnone : shadowOf s chip e.ctx = none) :
    exec (.collective j rows) s = .next (shadowOpen j chip e (beginCmd e s)) := by
  obtain ⟨he, hbegin, hstatic⟩ := hruns
  have hnone' : shadowOf (beginCmd e s) chip e.ctx = none := hnone
  simp [exec, execCollective, doCollective, runCmd_body he hbegin hstatic, hkind, horigin, hnone']

theorem exec_collective_busy (hkind : fld (e.param 0) 3 0 = 0) (hsome : (shadowOf s chip e.ctx).isSome = true) :
    exec (.collective j rows) s = .next (finish j stCtxBusy [] (beginCmd e s)) := by
  obtain ⟨he, hbegin, hstatic⟩ := hruns
  have hsome' : (shadowOf (beginCmd e s) chip e.ctx).isSome = true := hsome
  simp [exec, execCollective, doCollective, runCmd_body he hbegin hstatic, hkind, horigin, hsome']

section Named

variable (hlow : 0 < fld (e.param 0) 3 0) (hhigh : fld (e.param 0) 3 0 ≤ 3)
include hlow hhigh

theorem exec_collective_badContext (hnone : shadowOf s chip e.ctx = none) :
    exec (.collective j rows) s = .next (finish j stBadContext [] (beginCmd e s)) := by
  obtain ⟨he, hbegin, hstatic⟩ := hruns
  have hnone' : shadowOf (beginCmd e s) chip e.ctx = none := hnone
  simp [exec, execCollective, doCollective, runCmd_body he hbegin hstatic, hlow.ne', not_lt.mpr hhigh, horigin, hnone']

section Shadow

variable {n : Nat} {x : Session} (hshadow : shadowOf s chip e.ctx = some (n, x))
include hshadow

theorem exec_collective_stale (hgen : x.shadow.map (·.2.2) ≠ some e.gen) :
    exec (.collective j rows) s = .next (finish j stStaleGen [] (beginCmd e s)) := by
  obtain ⟨he, hbegin, hstatic⟩ := hruns
  have hshadow' : shadowOf (beginCmd e s) chip e.ctx = some (n, x) := hshadow
  simp only [exec, execCollective, doCollective, runCmd_body he hbegin hstatic, horigin, Option.map_some, Option.getD_some,
    gt_iff_lt, not_lt.mpr hhigh, hlow.ne', if_false, hshadow', hgen, ne_eq, not_false_eq_true, decide_true, if_true]

variable (hgen : x.shadow.map (·.2.2) = some e.gen)
include hgen

/-- The rows a collective brings that the shadow session takes. -/
def rowsTaken (n : Nat) (e : JEntry) (rows : List (List KvRow)) (s : State) : List (List KvRow) :=
  (rows.filter (rowsOk ((commitShadow n (e.param 2).toNat s).session n))).take (e.param 4).toNat

/-- The part with room made for those rows and the rows kept. -/
def stepShadowed (n : Nat) (e : JEntry) (rows : List (List KvRow)) (s : State) : State :=
  (writeRows n (rowsTaken n e rows s) (slideIf n (e.param 4).toNat (commitShadow n (e.param 2).toNat s)).2).modSession n
    (fun x => { x with stepId := (e.param 3).toNat, pendRows := rowsTaken n e rows s })

theorem exec_collective_goesOn : exec (.collective j rows) s = .next (finish j stOk [w32 (e.param 2).toNat]
    (if fld (e.param 0) 3 0 = 3 then dropShadow n (commitShadow n (e.param 2).toNat (beginCmd e s)) else stepShadowed n e rows (beginCmd e s))) := by
  obtain ⟨he, hbegin, hstatic⟩ := hruns
  have hshadow' : shadowOf (beginCmd e s) chip e.ctx = some (n, x) := hshadow
  have htctx : ((commitShadow n (e.param 2).toNat (beginCmd e s)).session n).tCtx = (e.param 2).toNat := by
    rw [(commitShadow_became n _ _).session]
    rfl
  simp only [exec, execCollective, doCollective, runCmd_body he hbegin hstatic, horigin, Option.map_some, Option.getD_some,
    gt_iff_lt, not_lt.mpr hhigh, hlow.ne', if_false, hshadow', hgen, ne_eq, not_true_eq_false, decide_false, Bool.false_eq_true, htctx]
  split <;> rfl

end Shadow

end Named

end Command

/-! ### What a collective leaves -/

/-- The shadow session once it has made room for the rows of a collective and keeps them. -/
def stepped (e : JEntry) (rows : List (List KvRow)) (y : Session) : Session :=
  { slidBy (slides y (e.param 4).toNat) y with
    stepId := (e.param 3).toNat, pendRows := (rows.filter (rowsOk (slidBy (slides y (e.param 4).toNat) y))).take (e.param 4).toNat }

theorem stepShadowed_became (n : Nat) (e : JEntry) (rows : List (List KvRow)) (s : State) :
    Became n (stepped e rows (confirmed (e.param 2).toNat (s.session n))) s (stepShadowed n e rows s) := by
  have hconfirmed := commitShadow_became n (e.param 2).toNat s
  have hrows : rowsTaken n e rows s = (stepped e rows (confirmed (e.param 2).toNat (s.session n))).pendRows := by
    unfold rowsTaken stepped
    rw [hconfirmed.session, rowsOk_of_slots (slidBy_slots _ _)]
  have hslid := ((slideIf_became hconfirmed (e.param 4).toNat).writeRows n (rowsTaken n e rows s)).modSession
    (fun x => { x with stepId := (e.param 3).toNat, pendRows := rowsTaken n e rows s })
  rw [hrows] at hslid
  unfold stepShadowed
  rw [hrows]
  exact hslid

theorem dropShadow_session (n : Nat) (s : State) : (dropShadow n s).session n = Session.closed (s.session n).gen := by
  unfold dropShadow
  dsimp only
  rw [session_setSession, dropPages_session]

theorem dropShadow_session_other {n k : Nat} (hk : k ≠ n) (s : State) : (dropShadow n s).session k = s.session k :=
  (session_setSession_other _ _ hk).trans (dropPages_session_other hk s)

/-! ### The share of the pages (12 R293) -/

section Open

variable {j chip n : Nat} {e : JEntry} {m : MaqEntry} {bufs : List (List Alloc)} {s u : State}

/-- The shadow session with its pages in the buffers taken. -/
def shadowShare (chip n : Nat) (e : JEntry) (m : MaqEntry) (bufs : List (List Alloc)) (u : State) : Session :=
  shadowSession chip (u.session n).gen e (makePages m.layers (e.param 2).toNat (shadowHeads u.link.chip e m) bufs.tail) bufs

theorem shadowOpen_places (hbound : modelEntry s (fld (e.param 1) 23 16) = some m) (htmax : tMaxOk (e.param 2).toNat = true)
    (hfree : freeSession s = some n) (halloc : allocAll false false (pageSizes (shadowPages s.link.chip e m)) [] s = (some bufs, u)) :
    shadowOpen j chip e s = finish j stOk [w32 (shadowPages u.link.chip e m)] (writeHeaders n (u.setSession n (shadowShare chip n e m bufs u))) := by
  have hplace : shadowOpen j chip e s = shadowPlace j chip n e m (allocAll false false (pageSizes (shadowPages s.link.chip e m)) [] s) := by
    unfold shadowOpen
    rw [hbound]
    dsimp only
    rw [htmax, hfree]
    exact if_neg Bool.false_ne_true
  rw [hplace, halloc]
  rfl

theorem shadowShare_pages_length : (shadowShare chip n e m bufs u).pages.length = shadowPages u.link.chip e m := makePages_length _ _ _ _

end Open

section Effects

variable {j chip pos : Nat} {e : JEntry} {s : State} {rows : List (List KvRow)} (hruns : Runs s j 0x62 e) (horigin : e.origin = some (chip, pos))
include hruns horigin

theorem collective_opens {m : MaqEntry} {n : Nat} {bufs : List (List Alloc)} {u : State} (hkind : fld (e.param 0) 3 0 = 0)
    (hnone : shadowOf s chip e.ctx = none) (hbound : modelEntry s (fld (e.param 1) 23 16) = some m) (htmax : tMaxOk (e.param 2).toNat = true)
    (hfree : freeSession s = some n) (halloc : allocAll false false (pageSizes (shadowPages s.link.chip e m)) [] (beginCmd e s) = (some bufs, u)) :
    ∃ v x, exec (.collective j rows) s = .next (finish j stOk [w32 (shadowPages s.link.chip e m)] v) ∧ v.session n = x ∧ x.isOpen = true ∧
      x.shadow = some (chip, e.ctx, e.gen) ∧ x.tCtx = 0 ∧ x.tMax = (e.param 2).toNat ∧ x.pages.length = shadowPages s.link.chip e m ∧
      (∀ k, k ≠ n → v.session k = s.session k) ∧ v.streams = s.streams := by
  obtain ⟨d, hu, -⟩ := Opening.allocAll_taken halloc
  have hplaced := (Became.setSession n (shadowShare chip n e m bufs u) u).writeHeaders
  have hopens := (exec_collective_opens hruns horigin hkind hnone (rows := rows)).trans
    (congrArg _ (shadowOpen_places (j := j) (chip := chip) (s := beginCmd e s) hbound htmax hfree halloc))
  have hchip : u.link.chip = s.link.chip := by rw [hu]; rfl
  have hsessions (k : Nat) : u.session k = s.session k := by rw [hu]; rfl
  have hstreams : u.streams = s.streams := by rw [hu]; rfl
  rw [hchip] at hopens
  refine ⟨_, _, hopens, hplaced.session, rfl, rfl, rfl, rfl, shadowShare_pages_length.trans (by rw [hchip]),
    fun k hk => (hplaced.session_other hk).trans (hsessions k), hplaced.streams.trans hstreams⟩

section Shadow

variable {n : Nat} {x : Session} (hlow : 0 < fld (e.param 0) 3 0) (hhigh : fld (e.param 0) 3 0 ≤ 3)
  (hshadow : shadowOf s chip e.ctx = some (n, x)) (hx : s.session n = x) (hgen : x.shadow.map (·.2.2) = some e.gen)
include hlow hhigh hshadow hx hgen

theorem collective_closes (hkind : fld (e.param 0) 3 0 = 3) :
    ∃ v, exec (.collective j rows) s = .next (finish j stOk [w32 (e.param 2).toNat] v) ∧ (∀ k, k ≠ n → v.session k = s.session k) ∧
      v.streams = s.streams ∧ v.hostMem = s.hostMem ∧ v.session n = Session.closed x.gen := by
  have hconfirmed := commitShadow_became n (e.param 2).toNat (beginCmd e s)
  have hbegun : (beginCmd e s).session n = x := hx
  have hgoes := exec_collective_goesOn hruns horigin hlow hhigh hshadow hgen (rows := rows)
  rw [if_pos hkind] at hgoes
  refine ⟨_, hgoes, fun k hk => (dropShadow_session_other hk _).trans (hconfirmed.session_other hk), (dropPages_streams n _).trans hconfirmed.streams,
    (dropPages_hostMem n _).trans hconfirmed.hostMem, ?_⟩
  rw [dropShadow_session, hconfirmed.session, (confirmed_kept _ _).1, hbegun]

theorem collective_steps (hkind : fld (e.param 0) 3 0 ≠ 3) :
    ∃ v, exec (.collective j rows) s = .next (finish j stOk [w32 (e.param 2).toNat] v) ∧ (∀ k, k ≠ n → v.session k = s.session k) ∧
      v.streams = s.streams ∧ v.hostMem = s.hostMem ∧ v.session n = stepped e rows (confirmed (e.param 2).toNat x) := by
  have hstep := stepShadowed_became n e rows (beginCmd e s)
  have hbegun : (beginCmd e s).session n = x := hx
  have hgoes := exec_collective_goesOn hruns horigin hlow hhigh hshadow hgen (rows := rows)
  rw [if_neg hkind] at hgoes
  rw [hbegun] at hstep
  exact ⟨_, hgoes, fun k hk => hstep.session_other hk, hstep.streams, hstep.hostMem, hstep.session⟩

end Shadow

end Effects

/-- Settles O43: a trigger marks the lanes and releases the Niches (`PackTriggers.seqTrigger_fires`); a collective builds, steps or drops the shadow session. -/
theorem groupsAndCollectives : Obligations.GroupsAndCollectives := by
  unfold Obligations.GroupsAndCollectives
  refine ⟨?_, ?_⟩
  · intro model group r p s htakes hactive hp hsched hgroup segs busy
    refine ⟨PackTriggers.seqTrigger_fires htakes hactive hp hsched hgroup, fun g hg => ?_⟩
    by_cases hsame : g = segs
    · subst hsame
      exact (PackTriggers.exec_seqTrigger_named hp).trans
        (congrArg _ (PackTriggers.doSeqTrigger_waits hp hactive (hg.resolve_left (fun h => h rfl))))
    · exact PackTriggers.exec_seqTrigger_other hp hsame
  · intro j rows e chip pos s hruns horigin kind
    refine ⟨exec_collective_badKind hruns, exec_collective_badContext hruns horigin, exec_collective_busy hruns horigin,
      fun m n bufs u => collective_opens hruns horigin, fun n x hlow hhigh hshadow hfound => ?_⟩
    refine ⟨exec_collective_stale hruns horigin hlow hhigh hshadow, fun hgen => ?_⟩
    have hx : s.session n = x := by rw [State.session, tget_eq_tfind, hfound]; rfl
    by_cases hclose : kind = 3
    · obtain ⟨v, hexec, hother, hstreams, hmem, hclosed⟩ := collective_closes hruns horigin hlow hhigh hshadow hx hgen hclose (rows := rows)
      exact ⟨v, hexec, hother, hstreams, hmem, fun _ => hclosed, fun h => absurd hclose h⟩
    · obtain ⟨v, hexec, hother, hstreams, hmem, hstepped⟩ := collective_steps hruns horigin hlow hhigh hshadow hx hgen hclose (rows := rows)
      obtain ⟨-, hshadow', hslide, htmax⟩ := confirmed_kept (e.param 2).toNat x
      refine ⟨v, hexec, hother, hstreams, hmem, fun h => absurd h hclose, fun _ => ?_⟩
      rw [hstepped]
      refine ⟨?_, rfl, rfl, hshadow', confirmed_pos _ _⟩
      rw [← hslide, ← htmax]
      rfl

end Sys2Proof.Collectives
end

section
/-! SCATTER during a reset of the work (12 R290, R291, R293): the ACK that it makes due takes with it what waits in the port's queue. -/

namespace Sys2Proof.ScatterDiscarded

open Sys2Proof.Machine

/-- A control packet of this part to chip 1. -/
def waitingPacket : LinkPkt :=
  sealPkt { dest := 1, src := 0, cls := 0, vc := 0, turned := false, type := 7, hops := 32, context := 0xFFFF, gen := 0, seq := 0, aux := 5, aux2 := 1,
            crc := 0, data := [] }

/-- A part on a torus whose compute domain is down. Port 0 is UP towards chip 1 with two credits of class 0, and a packet waits in its queue; of chip 1's
traffic 15 packets have come in since the last ACK. -/
def ackDue : State :=
  { State.reset with
    chip := { Chip.reset with phase := .ready, fatal := true }
    link := { Link.reset 0 with
      role := 2
      ports := [(0, { LPort.reset with st := 2, enabled := true, peer := 1, queue := [(waitingPacket, none)], credits := [(0, 2)] })]
      route := [(1, 128)]
      pairs := [(pairKey 1 1, { Pair.reset with expect := 16, sinceAck := 15 })] } }

/-- The next SCATTER of chip 1, which names no context. -/
def scatterPacket : LinkPkt :=
  sealPkt { dest := 0, src := 1, cls := 1, vc := 0, turned := false, type := 5, hops := 32, context := 0xFFFF, gen := 0, seq := 16, aux := 0, aux2 := 0,
            crc := 0, data := [] }

theorem ackDue_delivers : portUp ackDue 0 = true ∧ scatterPacket.dest = ackDue.link.chip ∧ pktCrcOk scatterPacket = true ∧
    scatterPacket.seq.toNat = (tget ackDue.link.pairs (pairKey scatterPacket.src scatterPacket.cls) Pair.reset).expect ∧
    scatterPacket.context = 0xFFFF ∧ domainUp ackDue = false := by
  decide +kernel

/-- The ACK leaves, and the packet that waited (R290). -/
theorem ackDue_sends : ackDue.link.tx.length = 0 ∧ (doScatter 0 scatterPacket ackDue).link.tx.length = 2 := by
  decide +kernel

/-- Refutes O50: it claims that at most one packet is sent when a SCATTER is discarded during a reset of the work. The 16th packet since the last ACK has the
ACK sent at once (12 R291), and with it leaves what waits in the port's queue and has a credit (12 R290): two packets in `ackDue`, which no premise of the
statement shuts out. -/
theorem not_linkDelivery : ¬ Obligations.LinkDelivery := by
  unfold Obligations.LinkDelivery
  intro h
  obtain ⟨-, hdelivery⟩ := h
  obtain ⟨hup, hdest, hcrc, hseq, hcontext, hdown⟩ := ackDue_delivers
  obtain ⟨hhere, -⟩ := hdelivery 0 scatterPacket ackDue hup
  obtain ⟨-, hcurrent⟩ := hhere hdest hcrc hseq
  obtain ⟨hdiscarded, -⟩ := hcurrent (.inl hcontext)
  obtain ⟨t, hexec, -, -, htx, -⟩ := hdiscarded hdown
  have ht : doScatter 0 scatterPacket ackDue = t := by
    injection hexec
  obtain ⟨hnone, htwo⟩ := ackDue_sends
  rw [← ht, hnone, htwo] at htx
  omega

end Sys2Proof.ScatterDiscarded
end

section
/-! TENSOR_RUN: its check, and what it becomes (10 R233, R235; 07 R166; 11 R253; 15 R353). -/

namespace Sys2Proof.TensorRuns

open Sys2Proof.Machine Sys2Proof.Laws

/-! ### The check -/

/-- Kind, batch, input and output of a TENSOR_RUN of the entry `x` are in order (07 R166, 11 R253, 15 R353). -/
def ParamsFine (s : State) (e : JEntry) (x : MaqEntry) : Prop :=
  let batch := (e.param 4).toNat
  let inAt := join64 (e.param 0) (e.param 1)
  let outAt := join64 (e.param 2) (e.param 3)
  x.kind = .bestEffort ∧ batch ≤ x.maxBatch ∧ inAt + batch * x.inBytes ≤ spaceBytes s.dram ∧ outAt + batch * x.outBytes ≤ spaceBytes s.dram ∧
    rangesMeet inAt (batch * x.inBytes) outAt (batch * x.outBytes) = false

/-- Core `c` is not fenced, and its region holds what the entry needs (10 R235). -/
def coreHolds (s : State) (x : MaqEntry) (c : Nat) : Bool :=
  !s.isFenced c && decide (x.spad ≤ (regionOf s c).spadBytes) && (regionOf s c).banks.all (fun b => decide (x.accRows ≤ b.2))

theorem coreHolds_eq (s : State) (x : MaqEntry) (c : Nat) : coreHolds s x c = !(s.isFenced c || !fitsRegion x (regionOf s c)) := by
  simp [coreHolds, fitsRegion, Bool.and_assoc]

theorem noCoreHolds_iff (s : State) (x : MaqEntry) :
    (List.range Config.cores).all (fun c => s.isFenced c || !fitsRegion x (regionOf s c)) = true ↔ ∀ c, c < 16 → coreHolds s x c = false := by
  simp only [List.all_eq_true, List.mem_range, Config.cores, coreHolds_eq, Bool.not_eq_false']

section Check

variable {s : State} {e : JEntry} {m : Maquette} {x : MaqEntry} (hm : tfind s.maquettes e.ctx = some m)
  (hx : m.pkg.entries[(e.param 5).toNat]? = some x)
include hm hx

theorem tensorCheck_badParam (h : ¬ ParamsFine s e x) : tensorCheck s e = some stBadParam := by
  unfold tensorCheck
  simp only [hm, hx]
  split
  · rfl
  next hkind =>
    split
    · rfl
    next hspace =>
      refine if_pos ?_
      by_contra hmeet
      simp only [Bool.or_eq_true, decide_eq_true_eq, not_or, not_not, not_lt, gt_iff_lt] at hkind hspace
      obtain ⟨hclass, hbatch⟩ := hkind
      obtain ⟨hin, hout⟩ := hspace
      exact h ⟨hclass, hbatch, hin, hout, Bool.eq_false_iff.mpr hmeet⟩

/-- With parameters in order what is left is the check of the regions. -/
theorem tensorCheck_fine (h : ParamsFine s e x) : tensorCheck s e =
    if (List.range Config.cores).all (fun c => s.isFenced c || !fitsRegion x (regionOf s c)) then some stArmResource else none := by
  obtain ⟨hkind, hbatch, hin, hout, hmeet⟩ := h
  unfold tensorCheck
  simp only [hm, hx, JEntry.param64, hmeet]
  simp [hkind, Nat.not_lt.mpr hbatch, Nat.not_lt.mpr hin, Nat.not_lt.mpr hout]

theorem tensorCheck_noRegion (h : ParamsFine s e x) (hnone : ∀ c, c < 16 → coreHolds s x c = false) : tensorCheck s e = some stArmResource := by
  rw [tensorCheck_fine hm hx h, if_pos ((noCoreHolds_iff s x).mpr hnone)]

theorem tensorCheck_passes (h : ParamsFine s e x) (hsome : ∃ c, c < 16 ∧ coreHolds s x c = true) : tensorCheck s e = none := by
  obtain ⟨c, hc, hfits⟩ := hsome
  rw [tensorCheck_fine hm hx h, if_neg]
  intro hnone
  rw [(noCoreHolds_iff s x).mp hnone c hc] at hfits
  cases hfits

theorem beEntry_named : beEntry s e.ctx (e.param 5).toNat = some x := by
  simp [beEntry, hm, hx]

end Check

/-! ### The command -/

/-- The job that a TENSOR_RUN at journal position `j` becomes (10 R238). -/
def newJob (j : Nat) (e : JEntry) (s : State) : BeJob :=
  { j := j, sess := none, maq := e.ctx, entry := (e.param 5).toNat, next := 0, core := none, engine := none, again := false, running := none
    paused := false, tiles := 0, startAt := 0, runAt := 0, pausedAt := 0, pausedTicks := 0, readyAt := s.chip.tick, preempt := 0, aborts := 0
    base := 0, rowBase := 0 }

theorem runForwardable_body {j op : Nat} {e : JEntry} {s : State} (hruns : Runs s j op e) (hhere : forwards s e = false)
    (body : JEntry → State → State) : runForwardable j op s body = body e (beginCmd e s) := by
  obtain ⟨he, hbegin, hstatic⟩ := hruns
  simp [runForwardable, he, hhere, runCmd_body he hbegin hstatic]

section Command

variable {j : Nat} {e : JEntry} {s : State} (hruns : Runs s j 0x30 e) (hhere : forwards s e = false)
include hruns hhere

theorem exec_tensorRun_rejected {st : Nat} (hcheck : tensorCheck s e = some st) :
    exec (.tensorRun j) s = .next (finish j st [] (beginCmd e s)) := by
  have hbody : tensorCheck (beginCmd e s) e = some st := hcheck
  simp only [exec, execTensorRun, doTensorRun, runForwardable_body hruns hhere, hbody]

theorem exec_tensorRun_empty {x : MaqEntry} (hcheck : tensorCheck s e = none) (hentry : beEntry s e.ctx (e.param 5).toNat = some x) (hnone : x.niches = []) :
    exec (.tensorRun j) s = .next (finish j stOk [0, 0] (beginCmd e s)) := by
  have hbody : tensorCheck (beginCmd e s) e = none := hcheck
  have hentry' : beEntry (beginCmd e s) e.ctx (e.param 5).toNat = some x := hentry
  simp [exec, execTensorRun, doTensorRun, runForwardable_body hruns hhere, hbody, hentry', hnone]

theorem exec_tensorRun_job {x : MaqEntry} (hcheck : tensorCheck s e = none) (hentry : beEntry s e.ctx (e.param 5).toNat = some x) (hsome : x.niches ≠ []) :
    exec (.tensorRun j) s = .next { beginCmd e s with jobs := s.jobs ++ [newJob j e s] } := by
  have hbody : tensorCheck (beginCmd e s) e = none := hcheck
  have hentry' : beEntry (beginCmd e s) e.ctx (e.param 5).toNat = some x := hentry
  simp only [exec, execTensorRun, doTensorRun, runForwardable_body hruns hhere, hbody, hentry', Option.map_some, Option.getD_some, if_neg hsome]
  rfl

end Command

end Sys2Proof.TensorRuns
end

section
/-! Best-effort jobs: what changes with one job, where a gap finds one, and what its start and its pause leave alone (10 R237-R241, R245). -/

namespace Sys2Proof.JobPlacing

open Sys2Proof.Machine Sys2Proof.Laws Sys2Proof.RasterTime Sys2Proof.Dispatch

/-! ### One job among the part's -/

@[simp] theorem is_self (b : BeJob) : b.is b = true := by simp [BeJob.is]

theorem mem_modJob_same {b y : BeJob} {s : State} (h : y ∈ s.jobs) (hsame : y.is b = true) (f : BeJob → BeJob) : f y ∈ (modJob b f s).jobs :=
  List.mem_map.mpr ⟨y, h, by simp [hsame]⟩

theorem mem_modJob_other {b y : BeJob} {s : State} (h : y ∈ s.jobs) (hother : y.is b = false) (f : BeJob → BeJob) : y ∈ (modJob b f s).jobs :=
  List.mem_map.mpr ⟨y, h, by simp [hother]⟩

@[simp] theorem modJob_length (b : BeJob) (f : BeJob → BeJob) (s : State) : (modJob b f s).jobs.length = s.jobs.length := List.length_map _

/-- The accounts alone change (10 R245). -/
theorem accountJob_shape (b : BeJob) (f : Account → Account) (s : State) :
    ∃ a t, accountJob b f s = { s with obs := { s.obs with accounts := a, accountsTick := t } } := by
  unfold accountJob
  split
  · exact ⟨_, _, rfl⟩
  · exact ⟨_, _, rfl⟩

theorem noteWait_shape (b : BeJob) (k : Nat) (s : State) : ∃ l, noteWait b k s = { s with sessions := l } := by
  unfold noteWait
  split
  · exact ⟨_, rfl⟩
  · exact ⟨_, rfl⟩

/-! ### The weights record (10 R238) -/

/-- Core `c` holds the weights, and no other core does. -/
def HoldsAlone (c : Nat) (w : Nat × Nat) (t : State) : Prop :=
  (t.core c).weights = some w ∧ ∀ k, k < 16 → k ≠ c → (t.core k).weights ≠ some w

/-- Core `k` gives up its record of the weights `w`, unless it is `c`. -/
def dropRecord (c : Nat) (w : Nat × Nat) (k : Nat) (s : State) : State :=
  if decide (k ≠ c) && decide ((s.core k).weights = some w) then s.modCore k (fun x => { x with weights := none }) else s

theorem setResident_eq (c : Nat) (w : Nat × Nat) (s : State) :
    setResident c w s = (forAll (List.range Config.cores) (dropRecord c w) s).modCore c (fun x => { x with weights := some w }) := rfl

theorem dropRecord_shape (c : Nat) (w : Nat × Nat) (k : Nat) (s : State) : ∃ l, dropRecord c w k s = { s with cores := l } := by
  unfold dropRecord
  split
  · exact ⟨_, rfl⟩
  · exact ⟨_, rfl⟩

theorem dropRecord_self {c k : Nat} (hk : k ≠ c) (w : Nat × Nat) (s : State) : ((dropRecord c w k s).core k).weights ≠ some w := by
  unfold dropRecord
  split
  · simp
  next hother => simpa [hk] using hother

theorem dropRecord_keeps {c k : Nat} {w : Nat × Nat} {s : State} (h : (s.core k).weights ≠ some w) (a : Nat) :
    ((dropRecord c w a s).core k).weights ≠ some w := by
  unfold dropRecord
  split
  · by_cases hka : k = a
    · simp [hka]
    · rwa [core_modCore_other s _ hka]
  · exact h

theorem dropRecords_shape (c : Nat) (w : Nat × Nat) (ks : List Nat) (s : State) : ∃ l, forAll ks (dropRecord c w) s = { s with cores := l } := by
  induction ks generalizing s with
  | nil => exact ⟨_, rfl⟩
  | cons a ks ih =>
    obtain ⟨l, hl⟩ := dropRecord_shape c w a s
    obtain ⟨l', hl'⟩ := ih (dropRecord c w a s)
    rw [hl] at hl'
    exact ⟨l', (congrArg (forAll ks (dropRecord c w)) hl).trans hl'⟩

theorem dropRecords_keep {c k : Nat} {w : Nat × Nat} {s : State} (h : (s.core k).weights ≠ some w) (ks : List Nat) :
    ((forAll ks (dropRecord c w) s).core k).weights ≠ some w := by
  induction ks generalizing s with
  | nil => exact h
  | cons a ks ih => exact ih (dropRecord_keeps h a)

theorem dropRecords_drop {c k : Nat} (hk : k ≠ c) (w : Nat × Nat) {ks : List Nat} (hmem : k ∈ ks) (s : State) :
    ((forAll ks (dropRecord c w) s).core k).weights ≠ some w := by
  induction ks generalizing s with
  | nil => cases hmem
  | cons a ks ih =>
    obtain rfl | hrest := List.mem_cons.mp hmem
    · exact dropRecords_keep (dropRecord_self hk w s) ks
    · exact ih hrest (dropRecord c w a s)

theorem setResident_shape (c : Nat) (w : Nat × Nat) (s : State) : ∃ l, setResident c w s = { s with cores := l } := by
  obtain ⟨l, hl⟩ := dropRecords_shape c w (List.range Config.cores) s
  rw [setResident_eq, hl]
  exact ⟨_, rfl⟩

theorem setResident_holdsAlone (c : Nat) (w : Nat × Nat) (s : State) : HoldsAlone c w (setResident c w s) := by
  rw [setResident_eq]
  refine ⟨by simp, fun k hk hkc => ?_⟩
  rw [core_modCore_other _ _ hkc]
  exact dropRecords_drop hkc w (List.mem_range.mpr hk) s

/-- The f in force is no weights record (02 R39). -/
theorem takeF_weights (u : UnitId) (k : Nat) (s : State) : ((takeF u s).core k).weights = (s.core k).weights := by
  unfold takeF
  split
  next c _ =>
    by_cases hkc : k = c
    · simp [hkc]
    · rw [core_modCore_other s _ hkc]
  · rfl

theorem HoldsAlone.of_weights {c : Nat} {w : Nat × Nat} {s t : State} (h : HoldsAlone c w s) (hw : ∀ k, (t.core k).weights = (s.core k).weights) :
    HoldsAlone c w t :=
  ⟨(hw c).trans h.1, fun k hk hkc => hw k ▸ h.2 k hk hkc⟩

/-! ### The start of a Niche -/

/-- The wait that a first placement ends, noted (10 R245). -/
def waitNoted (b : BeJob) (s : State) : State :=
  if b.core.isNone then noteWait b (placeWait s b) (accountJob b (fun a => { a with wait := (a.wait + placeWait s b) % 2 ^ 64 }) s) else s

theorem waitNoted_shape (b : BeJob) (s : State) : ∃ l o, waitNoted b s = { s with sessions := l, obs := o } := by
  unfold waitNoted
  split
  · obtain ⟨a, t, ha⟩ := accountJob_shape b (fun a => { a with wait := (a.wait + placeWait s b) % 2 ^ 64 }) s
    rw [ha]
    obtain ⟨l, hl⟩ := noteWait_shape b (placeWait s b) { s with obs := { s.obs with accounts := a, accountsTick := t } }
    exact ⟨l, _, hl⟩
  · exact ⟨_, _, rfl⟩

/-- The job `x` from tick `now` on, when core `c` has taken it for unit `u` in the part of `b`. -/
def asTaken (c : Nat) (u : UnitId) (b : BeJob) (now : Nat) (x : BeJob) : BeJob :=
  { x with
    core := some c, base := b.base, rowBase := b.rowBase, again := false, running := some u, paused := false, tiles := 0, runAt := now, pausedTicks := 0
    engine := match u with | .mx _ e => if b.sess.isSome && b.engine.isNone then some e else b.engine | _ => b.engine
    startAt := if b.core.isNone then now else x.startAt }

theorem asTaken_is (c : Nat) (u : UnitId) (b : BeJob) (now : Nat) (x y : BeJob) : (asTaken c u b now x).is y = x.is y := rfl

theorem takeJob_eq (c : Nat) (u : UnitId) (b : BeJob) (s : State) :
    let t := waitNoted b (setResident c (jobWeights s b) s)
    takeJob c u b s = modJob b (asTaken c u b t.now) (takeF u t) := rfl

/-- A core that takes a job changes its record of weights and its f, what the wait is noted in, and the job. -/
theorem takeJob_shape (c : Nat) (u : UnitId) (b : BeJob) (s : State) : ∃ k l o, HoldsAlone c (jobWeights s b) { s with cores := k } ∧
    takeJob c u b s = modJob b (asTaken c u b s.now) { s with cores := k, sessions := l, obs := o } := by
  have hholds := setResident_holdsAlone c (jobWeights s b) s
  rw [takeJob_eq]
  obtain ⟨k, hk⟩ := setResident_shape c (jobWeights s b) s
  rw [hk] at hholds ⊢
  obtain ⟨l, o, hnoted⟩ := waitNoted_shape b { s with cores := k }
  rw [hnoted]
  have hweights (i : Nat) := takeF_weights u i { s with cores := k, sessions := l, obs := o }
  obtain ⟨k', hk'⟩ := takeF_shape u { s with cores := k, sessions := l, obs := o }
  rw [hk'] at hweights ⊢
  exact ⟨k', l, o, hholds.of_weights hweights, rfl⟩

/-- The jobs beside `b` on a core stay when `b` alone changes, and remains the job it is. -/
theorem othersOn_modJob (c : Nat) (b : BeJob) {f : BeJob → BeJob} (hf : ∀ x, (f x).is b = x.is b) (s : State) :
    othersOn (modJob b f s) c b = othersOn s c b := by
  change (s.jobs.map _).filter _ = s.jobs.filter _
  induction s.jobs with
  | nil => rfl
  | cons x l ih =>
    cases hx : x.is b with
    | true => simp [hx, hf, ih]
    | false => simp [hx, ih, List.filter_cons]

/-- The overflow check reads of the part the regions, and which other jobs stand on the core (07 R193, 10 R234). -/
theorem beFootprint_congr {s t : State} {c : Nat} {b : BeJob} (hothers : othersOn t c b = othersOn s c b) (hchip : t.chip = s.chip)
    (hactive : t.active = s.active) (harmatures : t.armatures = s.armatures) (u : UnitId) (n : OpNiche) :
    beFootprint t c b u n = beFootprint s c b u n := by
  have hfenced : t.isFenced c = s.isFenced c := by rw [State.isFenced, hchip, State.isFenced]
  have harm : activeArm t = activeArm s := by rw [activeArm, hactive, harmatures, activeArm]
  have hregion : regionOf t c = regionOf s c := by rw [regionOf, hfenced, harm, regionOf]
  have hjob : jobRegion t c b = jobRegion s c b := by simp only [jobRegion, hregion, hothers]
  simp only [beFootprint, beVx, beMx, hjob]

theorem beFootprint_emit (kind src ctx niche don band a0 a1 : Nat) (s : State) (c : Nat) (b : BeJob) (u : UnitId) (n : OpNiche) :
    beFootprint (emit kind src ctx niche don band a0 a1 s) c b u n = beFootprint s c b u n :=
  beFootprint_congr (by simp only [othersOn, emit_jobs]) (emit_chip ..) (kept_active (emit_kept ..)) (emit_armatures ..) u n

/-- That a core takes the job does not change what its Niche's check finds there. -/
theorem beFootprint_takeJob (c : Nat) (u : UnitId) (b : BeJob) (n : OpNiche) (s : State) :
    beFootprint (takeJob c u b s) c b u n = beFootprint s c b u n := by
  obtain ⟨k, l, o, -, htaken⟩ := takeJob_shape c u b s
  have hothers : othersOn (takeJob c u b s) c b = othersOn s c b := by
    rw [htaken]
    exact othersOn_modJob c b (fun x => asTaken_is c u b s.now x b) _
  rw [htaken] at hothers ⊢
  exact beFootprint_congr hothers rfl rfl rfl u n

/-- A job placed on core `c` for unit `u`, its footprint in order: no more changes than that, and the trace (10 R238). -/
theorem placeJob_shape {c : Nat} {u : UnitId} {b : BeJob} {n : OpNiche} {s : State} (hfoot : beFootprint s c b u n = none) :
    ∃ k l o p, HoldsAlone c (jobWeights s b) { s with cores := k } ∧
      placeJob c u b n s = modJob b (asTaken c u b s.now) { s with cores := k, sessions := l, obs := o, pcie := p } := by
  obtain ⟨k, l, o, hholds, htaken⟩ := takeJob_shape c u b s
  obtain ⟨_, _, _, _, _, _, hemit⟩ := emit_shape 0x02 (sourceOf u) 0xFFFF 0xFFFFFF 0 0xFFF 0 1 (takeJob c u b s)
  unfold placeJob
  simp only [beFootprint_emit, beFootprint_takeJob, hfoot]
  rw [hemit, htaken]
  exact ⟨k, l, _, _, hholds, rfl⟩

/-! ### The choice at a gap (10 R237, R238) -/

theorem byJournal_subset (l : List BeJob) : byJournal l ⊆ l := by
  refine List.foldlRecOn (motive := (· ⊆ l)) l _ (List.nil_subset l) fun r hr a ha => ?_
  exact List.append_subset.mpr ⟨fun x hx => hr (List.mem_of_mem_filter hx), List.cons_subset.mpr ⟨ha, fun x hx => hr (List.mem_of_mem_filter hx)⟩⟩

theorem pickJob_mem {s : State} {c : Nat} {l : List BeJob} {b : BeJob} (h : pickJob s c l = some b) : b ∈ l := by
  unfold pickJob at h
  split at h
  next hresident => exact List.mem_of_find?_eq_some (hresident.trans h)
  next => exact List.mem_of_find?_eq_some h

theorem jobReady_gapOpen {s : State} {c : Nat} {u : UnitId} {b : BeJob} {n : OpNiche} (h : jobReady s c u b = true) (hn : jobNiche s b = some n) :
    gapOpen s c u (beWide n) = true := by
  simp only [jobReady, hn, Bool.and_eq_true] at h
  tauto

/-- The chosen job is one of the part's, and the gap that its Niche needs is open. -/
theorem picked_ready {s : State} {c : Nat} {u : UnitId} {b : BeJob} (h : pickJob s c (byJournal (s.jobs.filter (jobReady s c u))) = some b) :
    b ∈ s.jobs ∧ jobReady s c u b = true :=
  List.mem_filter.mp (byJournal_subset _ (pickJob_mem h))

/-- Placing gives the job its part of the region, and changes nothing else in it (log 135). -/
theorem placedAt_shape {s : State} {c : Nat} {b z : BeJob} (h : placedAt s c b = some z) : ∃ o k, z = { b with base := o, rowBase := k } := by
  unfold placedAt at h
  split at h
  · split at h
    · cases h
      exact ⟨_, _, rfl⟩
    · cases h
  · obtain ⟨x, -, rfl⟩ := Option.map_eq_some_iff.mp h
    exact ⟨_, _, rfl⟩

end Sys2Proof.JobPlacing
end

section
/-! A gap of a unit and a pause of its job (10 R237-R241, R245). -/

namespace Sys2Proof.JobGaps

open Sys2Proof.Machine Sys2Proof.Laws Sys2Proof.RasterTime Sys2Proof.Dispatch Sys2Proof.JobPlacing Sys2Proof.TensorRuns

/-! ### What a gap does (10 R238, R240) -/

section Gap

variable {c : Nat} {u : UnitId} {b z : BeJob} {n : OpNiche} {s : State} (hcore : coreOf u = some c) (hwork : takesWork s = true)
  (hn : jobNiche s b = some n)
include hcore hwork hn

theorem exec_beGap_resumes (hpaused : s.jobs.find? (fun b => b.paused && b.holds s u) = some b) (hopen : gapOpen s c u (beWide n) = true) :
    exec (.beGap u) s = .next (resumeJob u b s) := by
  simp only [takesWork, Bool.and_eq_true] at hwork
  obtain ⟨hlive, hup⟩ := hwork
  simp [exec, execBeGap, doBeGap, hcore, hlive, hup, hpaused, hn, hopen]

theorem exec_beGap_places (hpaused : s.jobs.find? (fun b => b.paused && b.holds s u) = none) (hroom : ∀ y ∈ s.jobs, nowhere s y = false)
    (hpick : pickJob s c (byJournal (s.jobs.filter (jobReady s c u))) = some b) (hplace : placedAt s c b = some z) :
    exec (.beGap u) s = .next (placeJob c u z n s) := by
  simp only [takesWork, Bool.and_eq_true] at hwork
  obtain ⟨hlive, hup⟩ := hwork
  have hstay : s.jobs.filter (nowhere s) = [] := List.filter_eq_nil_iff.mpr fun y hy => by simp [hroom y hy]
  simp [exec, execBeGap, doBeGap, hcore, hlive, hup, hpaused, hstay, forAll, hpick, hn, hplace]

end Gap

/-- The job `x` when it goes on at tick `now`. -/
def asResumed (now : Nat) (x : BeJob) : BeJob := { x with paused := false, pausedTicks := x.pausedTicks + (now - x.pausedAt) }

theorem resumeJob_shape (u : UnitId) (b : BeJob) (s : State) :
    ∃ k o p, resumeJob u b s = modJob b (asResumed s.now) { s with cores := k, obs := o, pcie := p } := by
  obtain ⟨k, hk⟩ := takeF_shape u s
  obtain ⟨_, _, _, _, _, _, hemit⟩ := emit_shape 0x05 (sourceOf u) 0xFFFF 0xFFFFFF 0 0xFFF b.tiles 0 (modJob b (asResumed s.now) { s with cores := k })
  unfold resumeJob
  dsimp only
  rw [hk]
  exact ⟨k, _, _, hemit⟩

/-! ### What a pause does (10 R240, R241, R245) -/

/-- The job `x` paused at tick `now` with `done` tiles done. -/
def asPaused (done now : Nat) (x : BeJob) : BeJob := { x with paused := true, tiles := done, pausedAt := now }

/-- The job has suffered one pre-emption more. -/
def onePreempted (x : BeJob) : BeJob := { x with preempt := x.preempt + 1 }

/-- A pre-emption counts in the job, in its core's counter and in the account of its client (10 R241, R245, 16 Table 16.2). -/
theorem countPreempt_shape {b : BeJob} {c : Nat} (hcore : b.core = some c) (s : State) :
    ∃ a t, countPreempt b s = { modJob b onePreempted s with obs := { (count (ctrCore c 20) 1 s).obs with accounts := a, accountsTick := t } } := by
  unfold countPreempt
  simp only [hcore]
  obtain ⟨a, t, h⟩ := accountJob_shape b (fun a => { a with preempt := satAdd 32 a.preempt 1 }) (count (ctrCore c 20) 1 (modJob b onePreempted s))
  exact ⟨a, t, h⟩

/-- The part with job `b` paused and its pre-emption counted. -/
def jobPaused (done : Nat) (b : BeJob) (s : State) : State := modJob b (asPaused done (countPreempt b s).now) (countPreempt b s)

/-- With work ready for the unit that the job runs on, a pause at the end of a tile counts and stops the job; `order` is for the trace. -/
theorem exec_bePause_pauses {u : UnitId} {b : BeJob} {n : OpNiche} {done : Nat} {s : State} (hn : jobNiche s b = some n) (hon : beOn s u = some b)
    (hrunning : b.running = some u) (hnarrow : beWide n = false) (hready : readyFor s u ≠ []) (hup : s.recov.hung.contains u = false)
    (hfrom : b.tiles ≤ done) (hto : done ≤ beTiles n) :
    ∃ order, exec (.bePause u done) s = .next (emit 0x04 (sourceOf u) 0xFFFF 0xFFFFFF 0 0xFFF order done (jobPaused done b s)) := by
  have hfree : s.recov.hung.any (fun v => decide (b.running = some v)) = false := by
    rw [List.any_eq_false]
    rintro v hv hrun
    obtain rfl : u = v := by simpa [hrunning] using hrun
    simp [hv] at hup
  have htiles : (decide (done < b.tiles) || decide (beTiles n < done)) = false := by simp [hfrom, hto]
  refine ⟨minOrder (jobPaused done b s) (readyFor s u), ?_⟩
  simp only [exec, execBePause, doBePause, hon, hn, hfree, Bool.or_false, Bool.or_assoc, htiles]
  cases u with
  | mx d e =>
    simp only [hrunning, hnarrow, Bool.false_eq_true, if_false, List.flatMap_singleton, List.isEmpty_iff, hready]
    rfl
  | _ =>
    simp only [hrunning, List.isEmpty_iff, hready, if_false]
    rfl

theorem jobPaused_shape {b : BeJob} {c : Nat} (hcore : b.core = some c) (done : Nat) (s : State) :
    ∃ a t, jobPaused done b s = modJob b (asPaused done s.now) (modJob b onePreempted
      { s with obs := { (count (ctrCore c 20) 1 s).obs with accounts := a, accountsTick := t } }) := by
  obtain ⟨a, t, h⟩ := countPreempt_shape hcore s
  unfold jobPaused
  rw [h]
  exact ⟨a, t, rfl⟩

/-- Settles O36: a TENSOR_RUN by what `tensorCheck` answers, a gap by `placeJob_shape` and `resumeJob_shape`, a pause by `jobPaused_shape`. -/
theorem bestEffortWork : Obligations.BestEffortWork := by
  unfold Obligations.BestEffortWork
  refine ⟨fun j e m x s hruns hhere hm hx => ⟨fun hfine hsome hniches => ?_, fun hfine hsome hniches => ?_, fun hfine hnone => ?_, fun hfine => ?_⟩,
    fun u c b n s hcore _ hn => ⟨fun hwork hpaused hroom hpick z hplace hfoot => ?_, fun hwork hpaused hopen => ?_,
      fun done hon hrunning hnarrow hready hbcore hup hfrom hto => ?_⟩⟩
  · exact exec_tensorRun_job hruns hhere (tensorCheck_passes hm hx hfine hsome) (beEntry_named hm hx) hniches
  · exact exec_tensorRun_empty hruns hhere (tensorCheck_passes hm hx hfine hsome) (beEntry_named hm hx) hniches
  · exact exec_tensorRun_rejected hruns hhere (tensorCheck_noRegion hm hx hfine hnone)
  · exact exec_tensorRun_rejected hruns hhere (tensorCheck_badParam hm hx hfine)
  · obtain ⟨hmem, hjobReady⟩ := picked_ready hpick
    obtain ⟨base, rowBase, rfl⟩ := placedAt_shape hplace
    obtain ⟨k, l, o, p, ⟨hholds, hothers⟩, hshape⟩ := placeJob_shape hfoot
    refine ⟨hmem, jobReady_gapOpen hjobReady hn, _, exec_beGap_places hcore hwork hn hpaused hroom hpick hplace, ?_⟩
    rw [hshape]
    exact ⟨hholds, hothers, modJob_length .., ⟨_, mem_modJob_same hmem (is_self b) _, is_self b, rfl, rfl, rfl, rfl, rfl, rfl, rfl⟩,
      fun y hy hother => mem_modJob_other hy hother _, rfl, rfl, rfl, rfl⟩
  · refine ⟨_, exec_beGap_resumes hcore hwork hn hpaused hopen, ?_⟩
    obtain ⟨k, o, p, hshape⟩ := resumeJob_shape u b s
    rw [hshape]
    exact ⟨⟨_, mem_modJob_same (List.mem_of_find?_eq_some hpaused) (is_self b) _, is_self b, rfl, rfl, rfl⟩, rfl, rfl, rfl⟩
  · obtain ⟨order, hexec⟩ := exec_bePause_pauses hn hon hrunning hnarrow hready hup hfrom hto
    refine ⟨_, hexec, ?_⟩
    obtain ⟨a, t, hshape⟩ := jobPaused_shape hbcore done s
    rw [emit_jobs, kept_ctrs (emit_kept ..), emit_runs, emit_streams, emit_dram, kept_cores (emit_kept ..), hshape]
    have hcounted := mem_modJob_same (List.mem_of_find?_eq_some hon) (is_self b) onePreempted
    exact ⟨⟨_, mem_modJob_same hcounted (is_self b) _, is_self b, rfl, rfl, rfl, rfl⟩, tget_tput_same _ _ _ _, rfl, rfl, rfl, rfl⟩

end Sys2Proof.JobGaps
end

section
/-! The read of a protected sector, and of several: what stands in device memory after it, which counters move, and when safety does (11 R265, R266). -/

namespace Sys2Proof.SectorReads

open Sys2Proof.Machine Sys2Proof.Laws Sys2Proof.NicheEnds Sys2Proof.Opening

/-! ### What fixes the layout -/

section Layout

variable {d d' : Dram} (hcap : d'.capMib = d.capMib) (hsafety : d'.safetyMib = d.safetyMib) (hshares : d'.shares = d.shares)
include hcap

theorem spaceBytes_congr : spaceBytes d' = spaceBytes d := by rw [spaceBytes, hcap, spaceBytes]

theorem safetyBase_congr : safetyBase d' = safetyBase d := by rw [safetyBase, hcap, safetyBase]

include hsafety

theorem poolBase_congr : poolBase d' = poolBase d := by rw [poolBase, safetyBase_congr hcap, hsafety, poolBase]

include hshares

theorem partCount_congr : partCount d' = partCount d := by
  funext p ecc
  rw [partCount, poolSpace, spaceBytes_congr hcap, poolBase_congr hcap hsafety, hshares, partCount, poolSpace]

theorem partBase_congr : partBase d' = partBase d := by
  funext p ecc
  rw [partBase, poolBase_congr hcap hsafety, partCount_congr hcap hsafety hshares, partBase]

/-- Where an address lies depends on the capacity, the safety region and the shares alone (11 R253, R270, R277). -/
theorem placeOf_congr (a : Nat) : placeOf d' a = placeOf d a := by
  rw [placeOf, spaceBytes_congr hcap, safetyBase_congr hcap, partBase_congr hcap hsafety hshares, partCount_congr hcap hsafety hshares, hsafety,
    placeOf]

end Layout

/-- Counters of channels and sectors known to be bad do not move the layout. -/
@[simp] theorem placeOf_counted (d : Dram) (chans : Tab Chan) (bad : List Nat) (a : Nat) :
    placeOf { d with chans := chans, bad := bad } a = placeOf d a :=
  placeOf_congr (d := d) (d' := { d with chans := chans, bad := bad }) rfl rfl rfl a

section Read

variable {a : Nat} {c : EccCond} {serves : Bool} {s : State}

/-! ### One sector -/

/-- An uncorrectable sector at `a` is counted, and known from then on. -/
def ueFound (a : Nat) (s : State) : State :=
  countUe a { s with dram := { s.dram with bad := a / 32 :: s.dram.bad.filter (fun x => x ≠ a / 32) } }

theorem ueFound_shape (a : Nat) (s : State) :
    ∃ chans, ueFound a s = { s with dram := { s.dram with chans := chans, bad := a / 32 :: s.dram.bad.filter (fun x => x ≠ a / 32) } } := ⟨_, rfl⟩

/-- Which places trip DRAM_UE depends on where the address lies, and on the buffers of the active Armature and its Maquettes. -/
theorem ueTrips_congr {t : State} {x : Nat} (hplace : placeOf t.dram x = placeOf s.dram x) (hmodels : inActiveModels t x = inActiveModels s x) :
    ueTrips t x = ueTrips s x := by
  -- `ueTrips` is unfolded without its arguments: applied, the kernel would evaluate the layout's arithmetic.
  have hbody : ∀ f, f = ueTrips → f t x = f s x := by
    intro f hf
    delta ueTrips at hf
    rw [hf]
    beta_reduce
    rw [hplace, hmodels]
  exact hbody ueTrips rfl

theorem ueFound_trips (x : Nat) : ueTrips (ueFound a s) x = ueTrips s x := by
  obtain ⟨chans, h⟩ := ueFound_shape a s
  rw [h]
  exact ueTrips_congr (placeOf_counted s.dram chans _ x) rfl

theorem eccRead_plain (h : (placeOf s.dram a).protected = false) : eccRead a c serves s = s := by simp [eccRead, h]

theorem eccRead_clean : eccRead a .clean serves s = s := ite_self s

theorem eccRead_single (h : (placeOf s.dram a).protected = true) : eccRead a .single serves s = countCe a s := by simp [eccRead, h]

/-- An uncorrectable sector trips DRAM_UE in the places of Table 14.2, and where its data serves a safety Niche. -/
theorem eccRead_double (h : (placeOf s.dram a).protected = true) :
    eccRead a .double serves s = if ueTrips s a || serves then detect 2 (ueFound a s) else ueFound a s := by
  rw [← ueFound_trips (a := a)]
  exact if_neg (by simp [h])

/-- A property of what each outcome leaves holds of the read. -/
theorem eccRead_induct {P : State → Prop} (hs : P s) (hce : P (countCe a s)) (hue : P (ueFound a s)) (hdetect : P (detect 2 (ueFound a s))) :
    P (eccRead a c serves s) := by
  cases hp : (placeOf s.dram a).protected with
  | false => rwa [eccRead_plain hp]
  | true =>
    cases c with
    | clean => rwa [eccRead_clean]
    | single => rwa [eccRead_single hp]
    | double => rw [eccRead_double hp]; exact of_ite hdetect hue

/-- Of device memory a read changes the counters of channels and the sectors known to be bad. -/
theorem eccRead_dram (a : Nat) (c : EccCond) (serves : Bool) (s : State) :
    ∃ chans bad, (eccRead a c serves s).dram = { s.dram with chans := chans, bad := bad } :=
  eccRead_induct (P := fun t => ∃ chans bad, t.dram = { s.dram with chans := chans, bad := bad }) ⟨_, _, rfl⟩ ⟨_, _, rfl⟩ ⟨_, _, rfl⟩
    ⟨_, _, detect_dram _ _⟩

@[simp] theorem eccRead_placeOf (x : Nat) : placeOf (eccRead a c serves s).dram x = placeOf s.dram x := by
  obtain ⟨_, _, h⟩ := eccRead_dram a c serves s
  rw [h, placeOf_counted]

@[simp] theorem eccRead_cells : (eccRead a c serves s).dram.cells = s.dram.cells := by
  obtain ⟨_, _, h⟩ := eccRead_dram a c serves s
  rw [h]

theorem eccRead_double_bad (h : (placeOf s.dram a).protected = true) :
    (eccRead a .double serves s).dram.bad = a / 32 :: s.dram.bad.filter (fun x => x ≠ a / 32) := by
  rw [eccRead_double h]
  exact of_ite (P := fun t => t.dram.bad = _) (congrArg Dram.bad (detect_dram 2 (ueFound a s))) rfl

/-- The sectors known to be bad are those known before, and the one the read found bad. -/
theorem mem_eccRead_bad {x : Nat} :
    x ∈ (eccRead a c serves s).dram.bad ↔ x ∈ s.dram.bad ∨ x = a / 32 ∧ (placeOf s.dram a).protected = true ∧ c = .double := by
  cases hp : (placeOf s.dram a).protected with
  | false => simp [eccRead_plain hp]
  | true =>
    cases c with
    | clean => simp [eccRead_clean]
    | single =>
      have hbad : (countCe a s).dram.bad = s.dram.bad := rfl
      simp [eccRead_single hp, hbad]
    | double =>
      rw [eccRead_double_bad hp]
      by_cases hx : x = a / 32 <;> simp [hx]

/-- A read that finds no uncorrectable error under ECC leaves the safety state alone. -/
theorem eccRead_safety (h : (placeOf s.dram a).protected = true → c ≠ .double) : (eccRead a c serves s).safety = s.safety := by
  cases hp : (placeOf s.dram a).protected with
  | false => rw [eccRead_plain hp]
  | true =>
    cases c with
    | clean => rw [eccRead_clean]
    | single => rw [eccRead_single hp]; rfl
    | double => exact absurd rfl (h hp)

/-- So does one outside the places of Table 14.2 whose data serves no safety Niche. -/
theorem eccRead_safety_quiet (h : ueTrips s a = false) : (eccRead a c false s).safety = s.safety := by
  cases hp : (placeOf s.dram a).protected with
  | false => rw [eccRead_plain hp]
  | true =>
    cases c with
    | clean => rw [eccRead_clean]
    | single => rw [eccRead_single hp]; rfl
    | double => rw [eccRead_double hp, h]; rfl

theorem eccRead_double_chan (h : (placeOf s.dram a).protected = true) :
    (eccRead a .double serves s).chan (channelAt s.dram a) 0 =
      { s.chan (channelAt s.dram a) 0 with ue := min ((s.chan (channelAt s.dram a) 0).ue + 1) (2 ^ 32 - 1) } := by
  have hue : (ueFound a s).chan (channelAt s.dram a) 0 =
      { s.chan (channelAt s.dram a) 0 with ue := min ((s.chan (channelAt s.dram a) 0).ue + 1) (2 ^ 32 - 1) } := tget_tput_same _ _ _ _
  rw [eccRead_double h]
  refine of_ite (P := fun t => t.chan (channelAt s.dram a) 0 = _) ?_ hue
  rw [State.chan, detect_dram]
  exact hue

theorem eccRead_trips (h : (placeOf s.dram a).protected = true) (htrips : ueTrips s a = true) (harmed : s.safety.state = 1) :
    (eccRead a .double serves s).safety.state = 2 ∧ maskBit (eccRead a .double serves s).safety.causes 2 = true ∧
      (eccRead a .double serves s).safety.safeN = false := by
  have hue : (ueFound a s).safety.state = 1 := harmed
  obtain ⟨hstate, hsafeN, hcause⟩ := detect_armed (k := 2) hue
  rw [eccRead_double h, htrips]
  exact ⟨hstate, hcause, hsafeN⟩

end Read

/-! ### Several sectors -/

/-- The sectors of a list, each with what its read finds, are read in order. -/
def sectorsRead (l : List (Nat × EccCond × List (Option Byte))) (serves : Bool) (s : State) : State :=
  forAll l (fun x s => eccRead (32 * x.1) x.2.1 serves s) s

section Reads

variable {l : List (Nat × EccCond × List (Option Byte))} {serves : Bool} {s : State}

theorem sectorsRead_cons (x : Nat × EccCond × List (Option Byte)) :
    sectorsRead (x :: l) serves s = sectorsRead l serves (eccRead (32 * x.1) x.2.1 serves s) :=
  forAll_cons x l (fun x s => eccRead (32 * x.1) x.2.1 serves s) s

theorem sectorsRead_dram (l : List (Nat × EccCond × List (Option Byte))) (serves : Bool) (s : State) :
    ∃ chans bad, (sectorsRead l serves s).dram = { s.dram with chans := chans, bad := bad } := by
  induction l generalizing s with
  | nil => exact ⟨_, _, rfl⟩
  | cons x l ih =>
    obtain ⟨chans, bad, hrest⟩ := ih (eccRead (32 * x.1) x.2.1 serves s)
    obtain ⟨_, _, hfirst⟩ := eccRead_dram (32 * x.1) x.2.1 serves s
    exact ⟨chans, bad, by rw [sectorsRead_cons, hrest, hfirst]⟩

@[simp] theorem sectorsRead_cells : (sectorsRead l serves s).dram.cells = s.dram.cells := by
  obtain ⟨_, _, h⟩ := sectorsRead_dram l serves s
  rw [h]

@[simp] theorem sectorsRead_chanQ (ch : Nat) : (sectorsRead l serves s).chanQ ch = s.chanQ ch := by
  obtain ⟨_, _, h⟩ := sectorsRead_dram l serves s
  rw [State.chanQ, h]
  rfl

theorem mem_sectorsRead_bad {x : Nat} : x ∈ (sectorsRead l serves s).dram.bad ↔
    x ∈ s.dram.bad ∨ ∃ y ∈ l, x = y.1 ∧ (placeOf s.dram (32 * y.1)).protected = true ∧ y.2.1 = .double := by
  induction l generalizing s with
  | nil => simp [sectorsRead, forAll]
  | cons y l ih =>
    rw [sectorsRead_cons, ih, mem_eccRead_bad, Nat.mul_div_cancel_left _ (by omega)]
    simp [or_assoc]

theorem sectorsRead_safety (h : ∀ y ∈ l, (placeOf s.dram (32 * y.1)).protected = true → y.2.1 ≠ .double) :
    (sectorsRead l serves s).safety = s.safety := by
  induction l generalizing s with
  | nil => rfl
  | cons y l ih =>
    obtain ⟨hy, hl⟩ := List.forall_mem_cons.mp h
    rw [sectorsRead_cons, ih (by simpa using hl), eccRead_safety hy]

end Reads

end Sys2Proof.SectorReads
end

section
/-! The free store of a partition: what moves between its cache and its ring, and how a refill or a spill leaves the part (11 R266, R273, R274). -/

namespace Sys2Proof.FreeStores

open Sys2Proof.Machine Sys2Proof.Laws Sys2Proof.SectorReads

/-! ### Rings -/

theorem ringTake_length (n : Nat) (r : List (Nat × Nat)) : (ringTake n r).1.length = min n (r.map (·.2)).sum := by
  induction r generalizing n with
  | nil => simp [ringTake]
  | cons x r ih =>
    obtain ⟨f, c⟩ := x
    by_cases hc : c ≤ n
    · simp only [ringTake, hc, if_true, List.length_append, List.length_map, List.length_range, ih, List.map_cons, List.sum_cons]
      omega
    · simp only [ringTake, hc, if_false, List.length_map, List.length_range, List.map_cons, List.sum_cons]
      omega

/-- What is taken from a ring and what stays in it are all it held. -/
theorem ringTake_count (n : Nat) (r : List (Nat × Nat)) : (ringTake n r).1.length + ((ringTake n r).2.map (·.2)).sum = (r.map (·.2)).sum := by
  induction r generalizing n with
  | nil => simp [ringTake]
  | cons x r ih =>
    obtain ⟨f, c⟩ := x
    by_cases hc : c ≤ n
    · have hrest := ih (n - c)
      simp only [ringTake, hc, if_true, List.length_append, List.length_map, List.length_range, List.map_cons, List.sum_cons]
      omega
    · simp only [ringTake, hc, if_false, List.length_map, List.length_range, List.map_cons, List.sum_cons]
      omega

theorem ringPut_count (r : List (Nat × Nat)) (b : Nat) : ((ringPut r b).map (·.2)).sum = (r.map (·.2)).sum + 1 := by
  unfold ringPut
  split
  · next f c hlast =>
    obtain ⟨r', rfl⟩ := List.getLast?_eq_some_iff.mp hlast
    split
    all_goals simp [Nat.add_assoc]
  · next hnone => simp [List.getLast?_eq_none_iff.mp hnone]

theorem foldl_ringPut_count (l : List Nat) (r : List (Nat × Nat)) : ((l.foldl ringPut r).map (·.2)).sum = (r.map (·.2)).sum + l.length := by
  induction l generalizing r with
  | nil => rfl
  | cons b l ih =>
    rw [List.foldl_cons, ih, ringPut_count, List.length_cons]
    omega

/-! ### Partitions -/

theorem refill_free (x : Part) : x.refill.free = x.free := by
  have hcount := ringTake_count 64 x.ring
  simp only [Part.free, Part.refill, List.length_append]
  omega

theorem spill_free (x : Part) : x.spill.free = x.free := by
  simp only [Part.free, Part.spill, foldl_ringPut_count, List.length_take, List.length_drop]
  omega

theorem refill_cache_length {x : Part} (h : 64 ≤ (x.ring.map (·.2)).sum) : x.refill.cache.length = x.cache.length + 64 := by
  simp only [Part.refill, List.length_append, ringTake_length]
  omega

theorem spill_cache_length (x : Part) : x.spill.cache.length = x.cache.length - 64 := by
  simp only [Part.spill, List.length_take]
  omega

/-- A partition after its cache has been brought between its marks (11 R273). -/
def moved (x : Part) : Part :=
  if x.cache.length < 32 && !x.ring.isEmpty then x.refill else if x.cache.length > 224 then x.spill else x

theorem moved_keeps {P : Part → Prop} {x : Part} (h : P x) (hrefill : P x.refill) (hspill : P x.spill) : P (moved x) := by
  unfold moved
  split
  · exact hrefill
  · split
    · exact hspill
    · exact h

theorem moved_free (x : Part) : (moved x).free = x.free := moved_keeps (P := fun y => y.free = x.free) rfl (refill_free x) (spill_free x)

theorem moved_total (x : Part) : (moved x).total = x.total := moved_keeps (P := fun y => y.total = x.total) rfl rfl rfl

theorem moved_refills {x : Part} (hlow : x.cache.length < 32) (hring : 64 ≤ (x.ring.map (·.2)).sum) :
    (moved x).cache.length = x.cache.length + 64 := by
  have hfull : x.ring ≠ [] := fun h => by simp [h] at hring
  rw [moved, if_pos (by simp [hlow, hfull]), refill_cache_length hring]

theorem moved_spills {x : Part} (hhigh : 224 < x.cache.length) : (moved x).cache.length = x.cache.length - 64 := by
  rw [moved, if_neg (by simp; omega), if_pos hhigh, spill_cache_length]

/-! ### POOL_REFILL -/

/-- The part once the metadata has been read, where an uncorrectable sector may have been met (11 R266). -/
def metadataRead (bad : Option Nat) (s : State) : State :=
  bad.elim s (fun a => if placeOf s.dram a = .metadata then eccRead a .double false s else s)

section Refill

variable {k : Nat} {bad : Option Nat} {s : State}

theorem metadataRead_met {a : Nat} (h : placeOf s.dram a = .metadata) : metadataRead (some a) s = eccRead a .double false s := by
  rw [metadataRead, Option.elim_some, if_pos h]

theorem metadataRead_clean (h : ∀ a, bad = some a → placeOf s.dram a ≠ .metadata) : metadataRead bad s = s := by
  cases bad with
  | none => rfl
  | some a => rw [metadataRead, Option.elim_some, if_neg (h a rfl)]

theorem metadataRead_dram (bad : Option Nat) (s : State) :
    ∃ chans bads, (metadataRead bad s).dram = { s.dram with chans := chans, bad := bads } := by
  cases bad with
  | none => exact ⟨_, _, rfl⟩
  | some a =>
    by_cases h : placeOf s.dram a = .metadata
    · rw [metadataRead_met h]
      exact eccRead_dram a .double false s
    · rw [metadataRead_clean (fun b hb => by cases hb; exact h)]
      exact ⟨_, _, rfl⟩

theorem metadataRead_part (q : Nat) : (metadataRead bad s).part q = s.part q := by
  obtain ⟨_, _, h⟩ := metadataRead_dram bad s
  rw [State.part, h, State.part]

theorem doPoolRefill_eq (k : Nat) (bad : Option Nat) (s : State) : doPoolRefill k bad s =
    if (s.part k).cache.length < 32 && !(s.part k).ring.isEmpty then (metadataRead bad s).setPart k (s.part k).refill
    else if (s.part k).cache.length > 224 then (metadataRead bad s).setPart k (s.part k).spill
    else metadataRead bad s := by
  cases bad with
  | none => rfl
  | some a => rw [doPoolRefill, metadataRead, Option.elim_some]

theorem doPoolRefill_idle (hlow : 32 ≤ (s.part k).cache.length) (hhigh : (s.part k).cache.length ≤ 224) :
    doPoolRefill k bad s = metadataRead bad s := by
  rw [doPoolRefill_eq, if_neg (by simp; omega), if_neg (by omega)]

/-- Beside what the read of the metadata does, only the free stores change. -/
theorem doPoolRefill_shape (k : Nat) (bad : Option Nat) (s : State) :
    ∃ parts, doPoolRefill k bad s = { metadataRead bad s with dram := { (metadataRead bad s).dram with parts := parts } } := by
  rw [doPoolRefill_eq]
  split
  · exact ⟨_, rfl⟩
  · split
    · exact ⟨_, rfl⟩
    · exact ⟨_, rfl⟩

theorem doPoolRefill_part_same : (doPoolRefill k bad s).part k = moved (s.part k) := by
  rw [doPoolRefill_eq, moved]
  split
  · exact part_setPart _ _ _
  · split
    · exact part_setPart _ _ _
    · exact metadataRead_part k

theorem doPoolRefill_part_other {q : Nat} (hq : q ≠ k) : (doPoolRefill k bad s).part q = s.part q := by
  rw [doPoolRefill_eq]
  split
  · rw [part_setPart_other _ _ hq, metadataRead_part]
  · split
    · rw [part_setPart_other _ _ hq, metadataRead_part]
    · exact metadataRead_part q

theorem doPoolRefill_safety : (doPoolRefill k bad s).safety = (metadataRead bad s).safety := by
  obtain ⟨_, h⟩ := doPoolRefill_shape k bad s
  rw [h]

theorem doPoolRefill_chans : (doPoolRefill k bad s).dram.chans = (metadataRead bad s).dram.chans := by
  obtain ⟨_, h⟩ := doPoolRefill_shape k bad s
  rw [h]

theorem doPoolRefill_bad : (doPoolRefill k bad s).dram.bad = (metadataRead bad s).dram.bad := by
  obtain ⟨_, h⟩ := doPoolRefill_shape k bad s
  rw [h]

theorem doPoolRefill_cells : (doPoolRefill k bad s).dram.cells = s.dram.cells := by
  obtain ⟨_, h⟩ := doPoolRefill_shape k bad s
  obtain ⟨_, _, hread⟩ := metadataRead_dram bad s
  rw [h, hread]

theorem doPoolRefill_refs : (doPoolRefill k bad s).dram.refs = s.dram.refs := by
  obtain ⟨_, h⟩ := doPoolRefill_shape k bad s
  obtain ⟨_, _, hread⟩ := metadataRead_dram bad s
  rw [h, hread]

end Refill

/-! ### REFCOUNT_INCREMENT -/

section Share

variable {a n : Nat} {s : State}

theorem doRefcountIncrement_unheld (h : tfind s.dram.refs a = none) : doRefcountIncrement a s = s := by simp [doRefcountIncrement, h]

theorem doRefcountIncrement_taken (h : tfind s.dram.refs a = some n) (hn : n < 65535) : doRefcountIncrement a s =
    { s with dram := { s.dram with refs := tput s.dram.refs a (n + 1), readers := tput s.dram.readers a (tget s.dram.readers a 0 + 1) } } := by
  simp [doRefcountIncrement, h, Nat.not_le.mpr hn]

/-- An increment of the buffer at `a` waits. -/
def waiting (a : Nat) (s : State) : State := { s with dram := { s.dram with refWaits := s.dram.refWaits ++ [a] } }

theorem partitionAt_buffer {d : Dram} {p ix : Nat} {ecc : Bool} (h : placeOf d a = if ecc then .ecc p ix else .plain p ix) :
    partitionAt d a = some (p, ecc) := by
  -- Unfolded without its arguments, so that the kernel does not evaluate the layout's arithmetic.
  have hbody : ∀ f, f = partitionAt → f d a = some (p, ecc) := by
    intro f hf
    delta partitionAt at hf
    rw [hf]
    beta_reduce
    rw [h]
    cases ecc <;> rfl
  exact hbody partitionAt rfl

/-- At 65,535 the increment waits, and its partition counts the wait (11 R274). -/
theorem doRefcountIncrement_waits {p ix : Nat} {ecc : Bool} (h : tfind s.dram.refs a = some n) (hn : 65535 ≤ n)
    (hplace : placeOf s.dram a = if ecc then .ecc p ix else .plain p ix) :
      doRefcountIncrement a s = waiting a (s.setPart (partKey p ecc)
      { s.part (partKey p ecc) with waits := min ((s.part (partKey p ecc)).waits + 1) (2 ^ 32 - 1) }) := by
  simp only [doRefcountIncrement, h, ge_iff_le, hn, if_true, partitionAt_buffer hplace]
  rfl

end Share

end Sys2Proof.FreeStores
end

section
/-! POOL_CONFIG and POOL_STATUS (11 R262, R276-R278). -/

namespace Sys2Proof.PoolCommands

open Sys2Proof.Machine Sys2Proof.Laws Sys2Proof.SectorReads Sys2Proof.FreeStores Sys2Proof.TrackCommands

/-! ### Tables built and filtered -/

/-- An entry that a filter keeps reads as before. -/
theorem tget_filter_kept {α : Type} {keep : Nat × α → Bool} {t : Tab α} {k : Nat} {d : α} (h : ∀ v, keep (k, v) = true) :
    tget (t.filter keep) k d = tget t k d := by
  induction t with
  | nil => rfl
  | cons e t ih =>
    obtain ⟨m, v⟩ := e
    by_cases hk : m = k
    · subst hk
      simp [h, tget]
    · rw [List.filter_cons]
      split <;> simp [tget, hk, ih]

/-- One that it drops reads as the default. -/
theorem tget_filter_dropped {α : Type} {keep : Nat × α → Bool} {t : Tab α} {k : Nat} {d : α} (h : ∀ v, keep (k, v) = false) :
    tget (t.filter keep) k d = d := by
  induction t with
  | nil => rfl
  | cons e t ih =>
    obtain ⟨m, v⟩ := e
    by_cases hk : m = k
    · subst hk
      simpa [h] using ih
    · rw [List.filter_cons]
      split <;> simp [tget, hk, ih]

/-- A table written once at each key of a list holds what was written there. -/
theorem tget_foldl_tput {κ α : Type} {key : κ → Nat} (hkey : Function.Injective key) (val : κ → α) {l : List κ} {x : κ} (hx : x ∈ l)
    (t : Tab α) (d : α) : tget (l.foldl (fun t x => tput t (key x) (val x)) t) (key x) d = val x := by
  induction l using List.reverseRecOn with
  | nil => cases hx
  | append_singleton l y ih =>
    rw [List.foldl_append, List.foldl_cons, List.foldl_nil]
    by_cases h : x = y
    · rw [h, tget_tput_same]
    · rw [tget_tput_other _ _ _ (fun hxy => h (hkey hxy)), ih (by simpa [h] using hx)]

theorem tfind_map {α β : Type} (f : α → β) (t : Tab α) (k : Nat) : tfind (t.map (fun e => (e.1, f e.2))) k = (tfind t k).map f := by
  induction t with
  | nil => rfl
  | cons e t ih =>
    rw [List.map_cons, tfind, tfind, ih]
    split <;> rfl

/-! ### Pools laid out anew (11 R276, Table 11.3) -/

section Layout

variable {d : Dram} {a p ix : Nat}

theorem mget_initEcc_ecc (h : placeOf d a = .ecc p ix) : mget (initEcc d).cells a = 0 := by
  unfold initEcc
  refine tget_filter_dropped fun b => ?_
  have hplace : placeOf d (a, b).1 = .ecc p ix := h
  beta_reduce
  rw [hplace]
  rfl

theorem mget_initEcc_other (h : ∀ p ix, placeOf d a ≠ .ecc p ix) : mget (initEcc d).cells a = mget d.cells a := by
  unfold initEcc
  refine tget_filter_kept fun b => ?_
  have hplace : ∀ p ix, placeOf d (a, b).1 ≠ .ecc p ix := h
  beta_reduce
  generalize placeOf d (a, b).1 = q at hplace
  cases q with
  | ecc p ix => exact absurd rfl (hplace p ix)
  | _ => rfl

theorem mem_initEcc_bad : a ∈ (initEcc d).bad ↔ a ∈ d.bad ∧ ∀ p ix, placeOf d (32 * a) ≠ .ecc p ix := by
  unfold initEcc
  rw [List.mem_filter]
  refine and_congr_right fun _ => ?_
  beta_reduce
  generalize placeOf d (32 * a) = q
  cases q <;> simp

theorem initEcc_shape (d : Dram) : ∃ cells bad, initEcc d = { d with cells := cells, bad := bad } := ⟨_, _, rfl⟩

theorem initEcc_placeOf (d : Dram) (a : Nat) : placeOf (initEcc d) a = placeOf d a := by
  obtain ⟨cells, bad, h⟩ := initEcc_shape d
  rw [h]
  exact placeOf_congr (d := d) (d' := { d with cells := cells, bad := bad }) rfl rfl rfl a

/-- New pools, and no share, run or page of an old one: the layout itself stands in the shares and the safety region. -/
theorem initParts_shape (d : Dram) : ∃ parts, initParts d =
    { d with parts := parts, refs := [], readers := [], refWaits := [], pagesLeft := [], safetyRuns := [] } := ⟨_, rfl⟩

theorem partKey_injective : Function.Injective (fun x : Nat × Bool => partKey x.1 x.2) := by
  have hle : ∀ b, b2n b ≤ 1 := by decide
  have hbit : ∀ e f, b2n e = b2n f → e = f := by decide
  rintro ⟨p, e⟩ ⟨q, f⟩ h
  have hkey : 2 * p + b2n e = 2 * q + b2n f := h
  have he := hle e
  have hf := hle f
  obtain rfl : p = q := by omega
  rw [hbit e f (by omega)]

theorem mem_partOrder (hp : p < 8) (ecc : Bool) : (p, ecc) ∈ partOrder := by
  interval_cases p <;> cases ecc <;> decide

theorem initParts_part (hp : p < 8) (ecc : Bool) : tget (initParts d).parts (partKey p ecc) Part.reset = Part.init (partCount d p ecc) :=
  tget_foldl_tput partKey_injective (fun x => Part.init (partCount d x.1 x.2)) (mem_partOrder hp ecc) [] _

theorem init_free (n : Nat) : (Part.init n).free = n := by
  by_cases h : n = 0 <;> simp [Part.free, Part.init, h]

end Layout

/-! ### POOL_CONFIG -/

section Config

variable {j : Nat} {e : JEntry} {s : State}

/-- Device memory with the shares and the safety region of the command. -/
def shared (e : JEntry) (d : Dram) : Dram := { d with shares := poolShares e, safetyMib := (e.param 8).toNat }

/-- The values of the command are in range and leave pool space (11 R276, R277). -/
def fitting (e : JEntry) (d : Dram) : Bool :=
  (poolShares e).all (fun x => decide (x.2 ≤ 8)) && decide ((e.param 8).toNat ≤ 4096) && rfmOk (fld (e.param 9) 3 0) &&
    decide (((poolShares e).map (·.1)).sum ≤ 1000) && decide (0 < poolSpace (shared e d))

theorem fitting_iff {d : Dram} : fitting e d = true ↔ (∀ x ∈ poolShares e, x.2 ≤ 8) ∧ (e.param 8).toNat ≤ 4096 ∧ rfmOk (fld (e.param 9) 3 0) = true ∧
    ((poolShares e).map (·.1)).sum ≤ 1000 ∧ 0 < poolSpace (shared e d) := by
  simp only [fitting, Bool.and_eq_true, List.all_eq_true, decide_eq_true_eq, and_assoc]

theorem exec_poolConfig_rfm (hruns : Runs s j 0x50 e) (hform : bit (e.param 10) 0 = true) : exec (.poolConfig j) s = .next (
    if rfmOk (fld (e.param 9) 3 0) then finish j stOk [] (setRfm (fld (e.param 9) 3 0) (beginCmd e s)) else finish j stBadParam [] (beginCmd e s)) := by
  obtain ⟨he, hbegin, hstatic⟩ := hruns
  simp [exec, execPoolConfig, doPoolConfig, runCmd_body he hbegin hstatic, hform]

theorem exec_poolConfig_busy (hruns : Runs s j 0x50 e) (hform : bit (e.param 10) 0 = false) (hbusy : noContexts s = false) :
    exec (.poolConfig j) s = .next (finish j stCtxBusy [] (beginCmd e s)) := by
  obtain ⟨he, hbegin, hstatic⟩ := hruns
  have hbody : noContexts (beginCmd e s) = false := hbusy
  simp [exec, execPoolConfig, doPoolConfig, runCmd_body he hbegin hstatic, hform, hbody]

/-- The part with the pools laid out by the command's values. -/
def laidOut (e : JEntry) (s : State) : State :=
  setRfm (fld (e.param 9) 3 0) (repartition (poolShares e) (e.param 8).toNat (beginCmd e s))

/-- With no context, the command's own values decide (11 R276). -/
theorem exec_poolConfig_layout (hruns : Runs s j 0x50 e) (hform : bit (e.param 10) 0 = false) (hfree : noContexts s = true) :
    exec (.poolConfig j) s =
      .next (if fitting e s.dram then finish j stOk [] (laidOut e s) else finish j stBadParam [] (beginCmd e s)) := by
  obtain ⟨he, hbegin, hstatic⟩ := hruns
  have hbody : noContexts (beginCmd e s) = true := hfree
  simp only [exec, execPoolConfig, doPoolConfig, runCmd_body he hbegin hstatic, hform, hbody, Bool.false_eq_true, if_false, Bool.not_true]
  change Host.Outcome.next (if (!fitting e s.dram) = true then finish j stBadParam [] (beginCmd e s) else finish j stOk [] (laidOut e s)) = _
  cases fitting e s.dram <;> rfl

theorem laidOut_dram (e : JEntry) (s : State) : (laidOut e s).dram = { initEcc (initParts (shared e s.dram)) with
    rfmN := if fld (e.param 9) 3 0 = 0 then s.dram.rfmN else fld (e.param 9) 3 0 } := by
  unfold laidOut setRfm
  split <;> rfl

theorem laidOut_kept (e : JEntry) (s : State) : kept (laidOut e s) = kept { s with dram := (laidOut e s).dram } := by
  have honly : ∃ d, laidOut e s = { beginCmd e s with dram := d } := by
    unfold laidOut setRfm
    split <;> exact ⟨_, rfl⟩
  obtain ⟨d, hd⟩ := honly
  rw [hd]
  rfl

theorem laidOut_placeOf (a : Nat) : placeOf (laidOut e s).dram a = placeOf (initParts (shared e s.dram)) a := by
  rw [laidOut_dram, ← initEcc_placeOf (initParts (shared e s.dram))]
  generalize initEcc (initParts (shared e s.dram)) = d
  generalize (if fld (e.param 9) 3 0 = 0 then s.dram.rfmN else fld (e.param 9) 3 0) = n
  exact placeOf_congr (d := d) (d' := { d with rfmN := n }) rfl rfl rfl a

end Config

/-! ### POOL_STATUS -/

section Status

variable {j : Nat} {e : JEntry} {s : State}

/-- MIN_FREE takes FREE in every partition (11 R278). -/
def minTaken (s : State) : State := { s with dram := { s.dram with parts := s.dram.parts.map (fun x => (x.1, { x.2 with minFree := x.2.free })) } }

theorem poolImage_length (s : State) : (poolImage s).length = 49 := by
  simp [poolImage, List.length_flatMap]

/-- An image that counts bytes: the entries that fit stand in host memory, and the completion tells their length. -/
theorem writeImage_bytes (j addr room : Nat) (l : List (List Byte)) (s : State) :
    ∃ k, Fits l room k ∧ writeImage j addr room l false s =
      finish j (if k = l.length then stOk else stTruncated) [w32 (l.take k).flatten.length] { s with hostMem := mwrite s.hostMem addr (l.take k).flatten } := by
  obtain ⟨k, hk, hcut⟩ := cutImage_fits l room
  refine ⟨k, hk, ?_⟩
  by_cases hall : k = l.length <;> simp [writeImage, hcut, hall, hostWrite]

theorem exec_poolStatus (hruns : Runs s j 0x51 e) :
    exec (.poolStatus j) s = .next (writeImage j (e.param64 0) (e.param 2).toNat (poolImage s) false (minTaken (beginCmd e s))) := by
  obtain ⟨he, hbegin, hstatic⟩ := hruns
  have himage : poolImage (beginCmd e s) = poolImage s := rfl
  simp only [exec, execPoolStatus, doPoolStatus, runCmd_body he hbegin hstatic, himage, minTaken]

end Status

end Sys2Proof.PoolCommands
end

section
/-! Pools and shares (11 R262, R266, R273, R274, R276-R278). -/

namespace Sys2Proof.PoolsManaged

open Sys2Proof.Machine Sys2Proof.Laws Sys2Proof.SectorReads Sys2Proof.FreeStores Sys2Proof.PoolCommands Sys2Proof.TrackCommands

section Config

variable {j : Nat} {e : JEntry} {s : State}

theorem setRfm_beginCmd (e : JEntry) (s : State) (n : Nat) :
    setRfm n (beginCmd e s) = { beginCmd e s with dram := { s.dram with rfmN := if n = 0 then s.dram.rfmN else n } } := by
  unfold setRfm
  split <;> rfl

theorem laidOut_cells (e : JEntry) (s : State) : (laidOut e s).dram.cells = (initEcc (initParts (shared e s.dram))).cells := by
  rw [laidOut_dram]

theorem mget_laidOut_ecc {a p ix : Nat} (h : placeOf (laidOut e s).dram a = .ecc p ix) : mget (laidOut e s).dram.cells a = 0 := by
  rw [laidOut_placeOf] at h
  rw [laidOut_cells, mget_initEcc_ecc h]

theorem mget_laidOut_other {a : Nat} (h : ∀ p ix, placeOf (laidOut e s).dram a ≠ .ecc p ix) : mget (laidOut e s).dram.cells a = mget s.dram.cells a := by
  simp only [laidOut_placeOf] at h
  rw [laidOut_cells, mget_initEcc_other h, initParts_cells, shared]

theorem mem_laidOut_bad (x : Nat) :
    x ∈ (laidOut e s).dram.bad ↔ x ∈ s.dram.bad ∧ ∀ p ix, placeOf (laidOut e s).dram (32 * x) ≠ .ecc p ix := by
  have hbad : (laidOut e s).dram.bad = (initEcc (initParts (shared e s.dram))).bad := by rw [laidOut_dram]
  rw [hbad, mem_initEcc_bad, laidOut_placeOf]
  rfl

/-- Beside bytes, bad sectors and pools, only what the command sets and what the old pools had handed out changes. -/
theorem laidOut_shape (e : JEntry) (s : State) : ∃ cells bad parts, (laidOut e s).dram = { s.dram with
    cells := cells, bad := bad, parts := parts, shares := poolShares e, safetyMib := (e.param 8).toNat, refs := [], readers := [], refWaits := []
    pagesLeft := [], safetyRuns := [], rfmN := if fld (e.param 9) 3 0 = 0 then s.dram.rfmN else fld (e.param 9) 3 0 } := by
  obtain ⟨parts, hparts⟩ := initParts_shape (shared e s.dram)
  obtain ⟨cells, bad, hcells⟩ := initEcc_shape (initParts (shared e s.dram))
  exact ⟨cells, bad, parts, by rw [laidOut_dram, hcells, hparts, shared]⟩

theorem laidOut_part {p : Nat} (hp : p < 8) (ecc : Bool) :
    (laidOut e s).part (partKey p ecc) = Part.init (partCount (shared e s.dram) p ecc) := by
  have hparts : (laidOut e s).dram.parts = (initParts (shared e s.dram)).parts := by
    obtain ⟨_, _, hshape⟩ := initEcc_shape (initParts (shared e s.dram))
    rw [laidOut_dram, hshape]
  rw [State.part, hparts, initParts_part hp]

end Config

theorem minTaken_parts {q : Nat} {x : Part} {s : State} (h : tfind s.dram.parts q = some x) :
    tfind (minTaken s).dram.parts q = some { x with minFree := x.free } := by
  have hmap := tfind_map (fun x : Part => { x with minFree := x.free }) s.dram.parts q
  rw [h] at hmap
  exact hmap

/-- Settles O44: POOL_CONFIG by its form and its checks, POOL_STATUS by the entries that fit, a refill or a spill by `moved`, and a share by its buffer's
count. -/
theorem poolsManaged : Obligations.PoolsManaged := by
  unfold Obligations.PoolsManaged
  refine ⟨fun j e s => ⟨fun hruns => ⟨fun hform hrange => ?_, fun hform hrange => ?_, exec_poolConfig_busy hruns,
    fun hform hfree hfits => ?_, fun hform hfree hfits => ?_⟩, fun hruns => ?_⟩, fun k bad s => ?_,
    fun a s => ⟨fun hnone => ?_, fun n hsome => ⟨fun hn => ?_, fun hn p ix ecc hplace => ?_⟩⟩⟩
  · rw [exec_poolConfig_rfm hruns hform, if_pos hrange, setRfm_beginCmd]
  · rw [exec_poolConfig_rfm hruns hform, if_neg (by simp [hrange])]
  · refine ⟨laidOut e s, ?_, laidOut_kept e s, fun a => ?_, mem_laidOut_bad, ?_⟩
    · rw [exec_poolConfig_layout hruns hform hfree, if_pos (fitting_iff.mpr hfits)]
    · split
      · next hecc => exact mget_laidOut_ecc hecc
      · next hother => exact mget_laidOut_other hother
    · obtain ⟨_, _, _, hdram⟩ := laidOut_shape e s
      rw [hdram]
      refine ⟨rfl, rfl, rfl, rfl, rfl, rfl, rfl, rfl, fun p ecc hp => ?_⟩
      rw [laidOut_part hp]
      exact ⟨rfl, init_free _⟩
  · rw [exec_poolConfig_layout hruns hform hfree, if_neg (fun h => hfits (fitting_iff.mp h))]
  · obtain ⟨k, hk, himage⟩ := writeImage_bytes j (e.param64 0) (e.param 2).toNat (poolImage s) (minTaken (beginCmd e s))
    obtain ⟨hlisted, hfit, htight⟩ := hk
    rw [poolImage_length] at hlisted htight himage
    refine ⟨k, _, hlisted, (exec_poolStatus hruns).trans (congrArg _ himage), rfl, hfit, htight, rfl, fun q x hx => minTaken_parts hx⟩
  · refine ⟨_, rfl, ?_, ?_, fun q hq => doPoolRefill_part_other hq, doPoolRefill_cells, doPoolRefill_refs, ?_, ?_, fun hclean => ?_, ?_⟩
    · rw [doPoolRefill_part_same, moved_free]
    · rw [doPoolRefill_part_same, moved_total]
    · rw [doPoolRefill_part_same]
      exact moved_refills
    · rw [doPoolRefill_part_same]
      exact moved_spills
    · refine ⟨?_, ?_, ?_, fun hlow hhigh => ?_⟩
      · rw [doPoolRefill_safety, metadataRead_clean hclean]
      · rw [doPoolRefill_chans, metadataRead_clean hclean]
      · rw [doPoolRefill_bad, metadataRead_clean hclean]
      · rw [doPoolRefill_idle hlow hhigh, metadataRead_clean hclean]
    · rintro a rfl hmeta
      have hprotected : (placeOf s.dram a).protected = true := by rw [hmeta]; rfl
      refine ⟨?_, ?_, fun hquiet => ?_⟩
      · rw [State.chan, doPoolRefill_chans, metadataRead_met hmeta]
        exact eccRead_double_chan hprotected
      · rw [doPoolRefill_bad, metadataRead_met hmeta]
        exact mem_eccRead_bad.mpr (.inr ⟨rfl, hprotected, rfl⟩)
      · rw [doPoolRefill_safety, metadataRead_met hmeta, eccRead_safety_quiet hquiet]
  · exact congrArg Host.Outcome.next (doRefcountIncrement_unheld hnone)
  · exact congrArg Host.Outcome.next (doRefcountIncrement_taken hsome hn)
  · refine ⟨_, congrArg Host.Outcome.next (doRefcountIncrement_waits hsome hn hplace), rfl, rfl, part_setPart _ _ _, fun q hq => part_setPart_other _ _ hq, rfl⟩

end Sys2Proof.PoolsManaged
end

section
/-! The queues of a channel: what is queued, and which request is served next (10 R242, 11 R259-R261). -/

namespace Sys2Proof.ChannelQueueing

open Sys2Proof.Machine Sys2Proof.Laws

/-! ### The class and kind served next (10 R242, 11 R259) -/

/-- What one class offers: its writes in a drain, else its reads, else its writes. -/
def classKind (drain reads writes lc : Bool) : Option (Bool × Bool) :=
  if drain && writes then some (false, lc) else if reads then some (true, lc) else if writes then some (false, lc) else none

theorem classKind_write : ∀ {drain reads writes lc : Bool},
    classKind drain reads writes lc = some (false, lc) ↔ writes = true ∧ (drain = true ∨ reads = false) := by decide

theorem classKind_read : ∀ {drain reads writes lc : Bool},
    classKind drain reads writes lc = some (true, lc) ↔ reads = true ∧ ¬ (drain = true ∧ writes = true) := by decide

theorem classKind_idle : ∀ drain lc : Bool, classKind drain false false lc = none := by decide

theorem classKind_class : ∀ {drain reads writes lc rd lc' : Bool}, classKind drain reads writes lc = some (rd, lc') → lc' = lc := by decide

/-- What a channel's queues offer of a class. -/
def offered (q : ChanQ) (lc : Bool) : Option (Bool × Bool) :=
  classKind (if lc then q.drainLc else q.drainBe) (q.reads.any (fun r => r.lc = lc)) (q.writes.any (fun r => r.lc = lc)) lc

theorem nextKind_eq (q : ChanQ) : nextKind q = (offered q true).or (offered q false) := by
  have hpick : ∀ x y : Option (Bool × Bool), (match x with | some x => some x | none => y) = x.or y := fun x y => by cases x <;> rfl
  exact hpick (offered q true) (offered q false)

theorem offered_none {q : ChanQ} (hreads : q.reads.all (fun r => !r.lc) = true) (hwrites : q.writes.all (fun r => !r.lc) = true) :
    offered q true = none := by
  have hr : q.reads.any (fun r => r.lc = true) = false := by simpa using hreads
  have hw : q.writes.any (fun r => r.lc = true) = false := by simpa using hwrites
  rw [offered, hr, hw, classKind_idle]

/-- A class is served where it is LC, or no LC request waits. -/
theorem nextKind_offered {q : ChanQ} {lc : Bool} (h : lc = true ∨ q.reads.all (fun r => !r.lc) = true ∧ q.writes.all (fun r => !r.lc) = true)
    (rd : Bool) : nextKind q = some (rd, lc) ↔ offered q lc = some (rd, lc) := by
  rw [nextKind_eq, Option.or_eq_some_iff]
  cases lc with
  | true => exact or_iff_left fun ⟨_, hbe⟩ => absurd (classKind_class hbe) (by decide)
  | false =>
    obtain hlc | ⟨hreads, hwrites⟩ := h
    · cases hlc
    · simp [offered_none hreads hwrites]

/-! ### The request taken (11 R259) -/

/-- A request is taken from a list of which it passes `pick` older ones of its class, each passed less than 8 times before. -/
inductive Taken (lc : Bool) (r : DramReq) : Nat → List DramReq → List DramReq → Prop
  | front {l : List DramReq} : r.lc = lc → Taken lc r 0 (r :: l) l
  | other {x : DramReq} {pick : Nat} {l rest : List DramReq} : Taken lc r pick l rest → Taken lc r pick (x :: l) (x :: rest)
  | passes {x : DramReq} {pick : Nat} {l rest : List DramReq} : x.passed < 8 → Taken lc r pick l rest →
      Taken lc r (pick + 1) (x :: l) ({ x with passed := x.passed + 1 } :: rest)

theorem taken_of_takeReq {lc : Bool} {pick : Nat} {l rest : List DramReq} {r : DramReq} (h : takeReq lc pick l = some (r, rest)) :
    Taken lc r pick l rest := by
  induction l generalizing pick rest with
  | nil => cases h
  | cons x l ih =>
    unfold takeReq at h
    split at h
    · obtain ⟨⟨y, rest'⟩, htaken, heq⟩ := Option.map_eq_some_iff.mp h
      obtain ⟨rfl, rfl⟩ := Prod.mk.inj heq
      exact .other (ih htaken)
    · next hclass =>
      cases pick with
      | zero =>
        obtain ⟨rfl, rfl⟩ := Prod.mk.inj (Option.some.inj h)
        exact .front (not_not.mp hclass)
      | succ pick =>
        dsimp only at h
        split at h
        · cases h
        · next hpassed =>
          obtain ⟨⟨y, rest'⟩, htaken, heq⟩ := Option.map_eq_some_iff.mp h
          obtain ⟨rfl, rfl⟩ := Prod.mk.inj heq
          exact .passes (by omega) (ih htaken)

namespace Taken

variable {lc : Bool} {r : DramReq} {pick : Nat} {l rest : List DramReq}

theorem mem (h : Taken lc r pick l rest) : r ∈ l := by
  induction h with
  | front => exact List.mem_cons_self
  | other _ ih => exact List.mem_cons_of_mem _ ih
  | passes _ _ ih => exact List.mem_cons_of_mem _ ih

theorem class_eq (h : Taken lc r pick l rest) : r.lc = lc := by
  induction h with
  | front hclass => exact hclass
  | other _ ih => exact ih
  | passes _ _ ih => exact ih

theorem length (h : Taken lc r pick l rest) : rest.length + 1 = l.length := by
  induction h with
  | front => rfl
  | other _ ih => simp [ih]
  | passes _ _ ih => simp [ih]

theorem passed_le (h : Taken lc r pick l rest) (hl : ∀ x ∈ l, x.passed ≤ 8) : ∀ x ∈ rest, x.passed ≤ 8 := by
  induction h with
  | front => exact (List.forall_mem_cons.mp hl).2
  | other _ ih =>
    obtain ⟨hx, hrest⟩ := List.forall_mem_cons.mp hl
    exact List.forall_mem_cons.mpr ⟨hx, ih hrest⟩
  | passes hpassed _ ih => exact List.forall_mem_cons.mpr ⟨hpassed, ih (List.forall_mem_cons.mp hl).2⟩

/-- Each request passed over counts once. -/
theorem passed_sum (h : Taken lc r pick l rest) : (rest.map (·.passed)).sum + r.passed = (l.map (·.passed)).sum + pick := by
  induction h with
  | front => simp [Nat.add_comm]
  | other _ ih => simp only [List.map_cons, List.sum_cons]; omega
  | passes _ _ ih => simp only [List.map_cons, List.sum_cons]; omega

end Taken

/-! ### Bytes of a line -/

theorem overlay_getD {old new : List (Option Byte)} (h : old.length = new.length) (i : Nat) :
    (overlay old new).getD i none = (new.getD i none).or (old.getD i none) := by
  simp only [overlay, List.getD_eq_getElem?_getD, List.getElem?_zipWith]
  by_cases hi : i < new.length
  · have ho : i < old.length := by omega
    simp [hi, ho]
  · have ho : ¬ i < old.length := by omega
    simp [hi, ho]

theorem all_isSome_iff {l : List (Option Byte)} : l.all (·.isSome) = true ↔ none ∉ l := by
  rw [List.all_eq_true]
  refine ⟨fun hall hnone => by simpa using hall none hnone, fun hnone x hx => ?_⟩
  rw [Option.isSome_iff_ne_none]
  exact fun h => hnone (h ▸ hx)

theorem overlay_empty {bs : List (Option Byte)} {n : Nat} (h : bs.length = n) : overlay (List.replicate n none) bs = bs := by
  subst h
  induction bs with
  | nil => rfl
  | cons b bs ih =>
    have hfirst : b.orElse (fun _ => none) = b := by cases b <;> rfl
    rw [overlay] at ih
    rw [List.length_cons, List.replicate_succ, overlay, List.zipWith_cons_cons, ih, hfirst]

section Store

variable {m : Mem} {a : Nat}

theorem mget_storeLine_outside {bs : List (Option Byte)} {x : Nat} (h : x < a ∨ a + bs.length ≤ x) : mget (storeLine m a bs) x = mget m x := by
  induction bs generalizing m a with
  | nil => rfl
  | cons b bs ih =>
    rw [List.length_cons] at h
    cases b with
    | none => exact ih (by omega)
    | some b => rw [storeLine, ih (by omega), mget_mput_other _ _ (by omega)]

theorem mget_storeLine_inside (hm : Memory.wf m = true) {bs : List (Option Byte)} {i : Nat} {b : Option Byte} (hi : bs[i]? = some b) :
    mget (storeLine m a bs) (a + i) = b.getD (mget m (a + i)) := by
  induction bs generalizing m a i with
  | nil => cases hi
  | cons c bs ih =>
    cases i with
    | zero =>
      obtain rfl : c = b := by simpa using hi
      have hbefore : a < a + 1 ∨ a + 1 + bs.length ≤ a := .inl (Nat.lt_succ_self a)
      rw [Nat.add_zero]
      cases c with
      | none => rw [storeLine, mget_storeLine_outside hbefore, Option.getD_none]
      | some c => rw [storeLine, mget_storeLine_outside hbefore, mget_mput_same hm, Option.getD_some]
    | succ i =>
      have hrest : bs[i]? = some b := by simpa using hi
      have hat : a + (i + 1) = a + 1 + i := by omega
      cases c with
      | none => rw [storeLine, hat, ih hm hrest]
      | some c => rw [storeLine, hat, ih (wf_mput hm a c) hrest, mget_mput_other _ _ (by omega)]

end Store

/-! ### Drains -/

@[simp] theorem judge_reads (q : ChanQ) : q.judge.reads = q.reads := rfl
@[simp] theorem judge_writes (q : ChanQ) : q.judge.writes = q.writes := rfl

theorem judge_full {q : ChanQ} (h : 48 ≤ q.writes.length) : q.judge.drainLc = true ∧ q.judge.drainBe = true := by
  simp [ChanQ.judge, drains, h]

theorem judge_low {q : ChanQ} (h : q.writes.length ≤ 16) : q.judge.drainLc = false ∧ q.judge.drainBe = false := by
  simp [ChanQ.judge, drains, h, show ¬ 48 ≤ q.writes.length by omega]

/-! ### A read -/

section Read

variable {ch line : Nat} {lc : Bool} {who : Requester} {s : State}

theorem lineOn_local (hwho : who ≠ .control) (hline : spaceBytes s.dram ≤ 64 * line) : lineOn s ch who line = false := by
  have hpast : ¬ line * 64 < spaceBytes s.dram := by omega
  simp [lineOn, hwho, hpast]

/-- A read as it is queued: the bytes that every write before it leaves, forwarded where pending writes cover the line (11 R260, R261). -/
def readOf (s : State) (ch line : Nat) (lc : Bool) : DramReq :=
  { line := line, lc := lc, bytes := (mread s.dram.cells (line * 64) 64).map some, forwarded := (pendingOf (s.chanQ ch) line).all (·.isSome), passed := 0 }

theorem exec_read_queued (hline : lineOn s ch who line = true) (hroom : (s.chanQ ch).reads.length < 64) :
    exec (.dramRequest ch (.read who line lc)) s =
      .next (s.setChanQ ch { s.chanQ ch with reads := (s.chanQ ch).reads ++ [readOf s ch line lc] }.judge) := by
  simp [exec, execDramRequest, doDramRequest, hline, queueRead, Nat.not_le.mpr hroom, readOf]

theorem exec_read_turned (h : lineOn s ch who line = false ∨ 64 ≤ (s.chanQ ch).reads.length) : exec (.dramRequest ch (.read who line lc)) s = .next s := by
  simp only [exec, execDramRequest, doDramRequest]
  split
  · next hline => simp [queueRead, h.resolve_left (by simp [hline])]
  · rfl

theorem readOf_unforwarded (h : (s.chanQ ch).writes.filter (fun w => w.line = line) = []) : (readOf s ch line lc).forwarded = false := by
  simp [readOf, pendingOf, h]

theorem readOf_forwarded {w : DramReq} (h : (s.chanQ ch).writes.filter (fun w => w.line = line) = [w]) (hw : w.bytes.length = 64) :
    (readOf s ch line lc).forwarded = true ↔ none ∉ w.bytes := by
  simp only [readOf, pendingOf, h, List.foldl_cons, List.foldl_nil, overlay_empty hw, all_isSome_iff]

end Read

/-! ### A write -/

section Write

variable {ch line : Nat} {lc : Bool} {who : Requester} {bs : List (Option Byte)} {s : State}

/-- A pending write of the line takes the bytes of a later one (11 R261). -/
def merge (line : Nat) (bs : List (Option Byte)) (w : DramReq) : DramReq := if w.line = line then { w with bytes := overlay w.bytes bs } else w

/-- The pending writes with one more. -/
def writesWith (line : Nat) (lc : Bool) (bs : List (Option Byte)) (l : List DramReq) : List DramReq :=
  if l.any (fun w => w.line = line) then l.map (merge line bs) else l ++ [{ line := line, lc := lc, bytes := bs, forwarded := false, passed := 0 }]

/-- The part with the bytes of a write in place (11 R260). -/
def stored (line : Nat) (bs : List (Option Byte)) (s : State) : State :=
  { s with dram := { s.dram with cells := storeLine s.dram.cells (line * 64) bs } }

theorem exec_write_queued (hline : lineOn s ch who line = true)
    (hroom : (s.chanQ ch).writes.any (fun w => w.line = line) = true ∨ (s.chanQ ch).writes.length < 64) :
    exec (.dramRequest ch (.write who line lc bs)) s =
      .next (stored line bs (s.setChanQ ch { s.chanQ ch with writes := writesWith line lc bs (s.chanQ ch).writes }.judge)) := by
  have hturned : (!(s.chanQ ch).writes.any (fun w => w.line = line) && decide ((s.chanQ ch).writes.length ≥ 64)) = false := by
    obtain hmerged | hroom := hroom
    · rw [hmerged]; rfl
    · rw [decide_eq_false (by omega), Bool.and_false]
  simp only [exec, execDramRequest, doDramRequest, hline, if_true, queueWrite, hturned, Bool.false_eq_true, if_false]
  rfl

theorem exec_write_turned (h : lineOn s ch who line = false ∨ 64 ≤ (s.chanQ ch).writes.length ∧ (s.chanQ ch).writes.any (fun w => w.line = line) = false) :
    exec (.dramRequest ch (.write who line lc bs)) s = .next s := by
  simp only [exec, execDramRequest, doDramRequest]
  split
  · next hline =>
    obtain ⟨hfull, hnew⟩ := h.resolve_left (by simp [hline])
    simp [queueWrite, hnew, hfull]
  · rfl

end Write

end Sys2Proof.ChannelQueueing
end

section
/-! A request served: the row it opens, the sectors it reads, what it answers and what it heals (11 R259-R263, R265). -/

namespace Sys2Proof.ChannelServing

open Sys2Proof.Machine Sys2Proof.Laws Sys2Proof.SectorReads Sys2Proof.ChannelQueueing Sys2Proof.RecordWriter

/-! ### The row opened (11 R262, R263, log 139) -/

/-- Activates of a bank after one more, less what a management command relieves. -/
def activated (n : Nat) : Nat := if Config.rfmNeeded = true ∧ Config.rfmThreshold ≤ n + 1 then n + 1 - Config.rfmRelief else n + 1

/-- A channel's queues with the row of a request open. -/
def rowOpened (act : Option (Nat × Nat × Bool)) (q : ChanQ) : ChanQ :=
  match act with
  | none => q
  | some (bank, row, _) =>
    { q with openRow := tput q.openRow bank row, activates := tput q.activates bank (activated (tget q.activates bank 0)) }

/-- Between the two states nothing changes but the queues and counters of channels, and the draws of free values. -/
def Requeued (s t : State) : Prop := ∃ n chans queues, t = { s with free := n, dram := { s.dram with chans := chans, queues := queues } }

namespace Requeued

variable {s t u : State}

theorem refl (s : State) : Requeued s s := ⟨_, _, _, rfl⟩

theorem trans (h : Requeued s t) (h' : Requeued t u) : Requeued s u := by
  obtain ⟨_, _, _, rfl⟩ := h
  obtain ⟨_, _, _, rfl⟩ := h'
  exact ⟨_, _, _, rfl⟩

theorem setChanQ (ch : Nat) (q : ChanQ) (s : State) : Requeued s (s.setChanQ ch q) := ⟨_, _, _, rfl⟩

theorem cells (h : Requeued s t) : t.dram.cells = s.dram.cells := by obtain ⟨_, _, _, rfl⟩ := h; rfl

theorem safety (h : Requeued s t) : t.safety = s.safety := by obtain ⟨_, _, _, rfl⟩ := h; rfl

theorem sectorCond (h : Requeued s t) (n : Nat) (c : EccCond) : sectorCond t n c = sectorCond s n c := by obtain ⟨_, _, _, rfl⟩ := h; rfl

theorem placeOf (h : Requeued s t) (a : Nat) : placeOf t.dram a = placeOf s.dram a := by
  obtain ⟨_, chans, queues, rfl⟩ := h
  exact placeOf_congr (d := s.dram) (d' := { s.dram with chans := chans, queues := queues }) rfl rfl rfl a

end Requeued

section Row

variable {ch : Nat} {act : Option (Nat × Nat × Bool)} {s : State}

theorem Requeued.activateRow (ch row : Nat) (last : Bool) (s : State) : Requeued s (activateRow ch row last s) := by
  unfold Machine.activateRow
  dsimp only
  split
  · exact ⟨_, _, _, rfl⟩
  · exact ⟨_, _, _, rfl⟩

theorem activateRow_chanQ (row : Nat) (last : Bool) : (activateRow ch row last s).chanQ ch = s.chanQ ch := by
  unfold activateRow
  dsimp only
  split
  · rfl
  · rfl

theorem Requeued.manageRow (ch bank : Nat) (s : State) : Requeued s (manageRow ch bank s) := by
  unfold Machine.manageRow
  dsimp only
  split
  · exact ⟨_, _, _, rfl⟩
  · exact ⟨_, _, _, rfl⟩

theorem manageRow_chanQ (bank : Nat) : (manageRow ch bank s).chanQ ch =
    { s.chanQ ch with activates := tput (s.chanQ ch).activates bank (activated (tget (s.chanQ ch).activates bank 0)) } := by
  unfold manageRow activated
  simp only [Bool.and_eq_true, decide_eq_true_eq]
  split <;> exact chanQ_setChanQ _ _ _

theorem Requeued.openRowOf (ch : Nat) (act : Option (Nat × Nat × Bool)) (s : State) : Requeued s (openRowOf ch act s) := by
  cases act with
  | none => exact .refl s
  | some a => exact ((Requeued.activateRow ch _ _ s).trans (.manageRow ch _ _)).trans (.setChanQ ch _ _)

theorem openRowOf_chanQ : (openRowOf ch act s).chanQ ch = rowOpened act (s.chanQ ch) := by
  cases act with
  | none => rfl
  | some a => simp only [openRowOf, chanQ_setChanQ, manageRow_chanQ, activateRow_chanQ, rowOpened]

end Row

/-! ### Sectors of a line -/

section Sectors

variable {r : DramReq} {ecc : EccCond × EccCond} {serves : Bool} {ch : Nat} {s : State}

/-- Sector `k` of a request's line, under ECC, is found uncorrectable. -/
def badAt (s : State) (r : DramReq) (k : Nat) (c : EccCond) : Prop :=
  (placeOf s.dram (32 * (2 * r.line + k))).protected = true ∧ sectorCond s (2 * r.line + k) c = .double

/-- Bytes that cover a sector in part. -/
def Partial (l : List (Option Byte)) : Prop := (∃ x ∈ l, x.isSome = true) ∧ none ∈ l

theorem partialSector_iff {l : List (Option Byte)} : partialSector l = true ↔ Partial l := by
  simp [partialSector, Partial]

/-! ### A write served -/

/-- The sectors that a write covers in part. -/
def partSectors (s : State) (r : DramReq) (ecc : EccCond × EccCond) : List (Nat × EccCond × List (Option Byte)) :=
  (lineSectors s r ecc).filter (fun x => partialSector x.2.2)

theorem serveWrite_eq (r : DramReq) (ecc : EccCond × EccCond) (serves : Bool) (s : State) : serveWrite r ecc serves s =
    { sectorsRead (partSectors s r ecc) serves s with dram := { (sectorsRead (partSectors s r ecc) serves s).dram with
        bad := healSectors r.line r.bytes (sectorsRead (partSectors s r ecc) serves s).dram.bad } } := rfl

theorem serveWrite_chanQ : (serveWrite r ecc serves s).chanQ ch = s.chanQ ch := sectorsRead_chanQ ch

theorem serveWrite_cells : (serveWrite r ecc serves s).dram.cells = s.dram.cells := sectorsRead_cells

theorem serveWrite_safety (hlow : ¬ Partial (r.bytes.take 32)) (hhigh : ¬ Partial (r.bytes.drop 32)) :
    (serveWrite r ecc serves s).safety = s.safety := by
  have hnone : partSectors s r ecc = [] := by simp [partSectors, lineSectors, partialSector_iff, hlow, hhigh]
  rw [serveWrite_eq, hnone]
  rfl

theorem serveWrite_heals_low (h : none ∉ r.bytes.take 32) : 2 * r.line ∉ (serveWrite r ecc serves s).dram.bad := by
  have hall := all_isSome_iff.mpr h
  simp [serveWrite_eq, healSectors, hall]

theorem serveWrite_heals_high (h : none ∉ r.bytes.drop 32) : 2 * r.line + 1 ∉ (serveWrite r ecc serves s).dram.bad := by
  have hall := all_isSome_iff.mpr h
  simp [serveWrite_eq, healSectors, hall]

theorem serveWrite_bad_low (hpart : Partial (r.bytes.take 32)) (hbad : badAt s r 0 ecc.1) : 2 * r.line ∈ (serveWrite r ecc serves s).dram.bad := by
  obtain ⟨hprotected, hcond⟩ := hbad
  have hall : ¬ (r.bytes.take 32).all (·.isSome) = true := fun h => all_isSome_iff.mp h hpart.2
  have hread : 2 * r.line ∈ (sectorsRead (partSectors s r ecc) serves s).dram.bad :=
    mem_sectorsRead_bad.mpr (.inr ⟨(2 * r.line, sectorCond s (2 * r.line) ecc.1, r.bytes.take 32),
      by simp [partSectors, lineSectors, partialSector_iff.mpr hpart], rfl, hprotected, hcond⟩)
  rw [serveWrite_eq]
  simp [healSectors, hread, hall]

theorem serveWrite_bad_high (hpart : Partial (r.bytes.drop 32)) (hbad : badAt s r 1 ecc.2) :
    2 * r.line + 1 ∈ (serveWrite r ecc serves s).dram.bad := by
  obtain ⟨hprotected, hcond⟩ := hbad
  have hall : ¬ (r.bytes.drop 32).all (·.isSome) = true := fun h => all_isSome_iff.mp h hpart.2
  have hread : 2 * r.line + 1 ∈ (sectorsRead (partSectors s r ecc) serves s).dram.bad :=
    mem_sectorsRead_bad.mpr (.inr ⟨(2 * r.line + 1, sectorCond s (2 * r.line + 1) ecc.2, r.bytes.drop 32),
      by simp [partSectors, lineSectors, partialSector_iff.mpr hpart], rfl, hprotected, hcond⟩)
  rw [serveWrite_eq]
  simp [healSectors, hread, hall]

/-! ### A read served -/

/-- The channel's queues with the answer of a read. -/
def answered (ch : Nat) (r : DramReq) (poisoned : Bool) (s : State) : State :=
  s.setChanQ ch { s.chanQ ch with last := r.bytes.map (·.getD 0), poisoned := poisoned }

theorem answered_chanQ {poisoned : Bool} :
    (answered ch r poisoned s).chanQ ch = { s.chanQ ch with last := r.bytes.map (·.getD 0), poisoned := poisoned } := chanQ_setChanQ _ _ _

theorem answered_cells {poisoned : Bool} : (answered ch r poisoned s).dram.cells = s.dram.cells := rfl
theorem answered_bad {poisoned : Bool} : (answered ch r poisoned s).dram.bad = s.dram.bad := rfl
theorem answered_safety {poisoned : Bool} : (answered ch r poisoned s).safety = s.safety := rfl

theorem serveRead_forwarded (h : r.forwarded = true) : serveRead ch r ecc serves s = answered ch r false s := by
  simp [serveRead, h, forAll, answered]

/-- A protected sector of the line holds an uncorrectable error (11 R265). -/
def poisons (s : State) (r : DramReq) (ecc : EccCond × EccCond) : Bool :=
  (placeOf s.dram (r.line * 64)).protected &&
    (decide (sectorCond s (2 * r.line) ecc.1 = .double) || decide (sectorCond s (2 * r.line + 1) ecc.2 = .double))

/-- A read from DRAM reads both sectors of its line, and is poisoned by either (11 R265). -/
theorem dramRead_eq (h : r.forwarded = false) : serveRead ch r ecc serves s =
    answered ch r (poisons s r ecc) (sectorsRead (lineSectors s r ecc) serves s) := by
  simp only [serveRead, h, Bool.false_eq_true, if_false, answered, lineSectors, List.any_cons, List.any_nil, Bool.or_false]
  rfl

theorem mem_lineRead_bad_low (h : badAt s r 0 ecc.1) : 2 * r.line ∈ (sectorsRead (lineSectors s r ecc) serves s).dram.bad :=
  mem_sectorsRead_bad.mpr (.inr ⟨_, List.mem_cons_self, rfl, h⟩)

theorem mem_lineRead_bad_high (h : badAt s r 1 ecc.2) : 2 * r.line + 1 ∈ (sectorsRead (lineSectors s r ecc) serves s).dram.bad :=
  mem_sectorsRead_bad.mpr (.inr ⟨_, List.mem_cons_of_mem _ List.mem_cons_self, rfl, h⟩)

theorem lineRead_safety (hlow : ¬ badAt s r 0 ecc.1) (hhigh : ¬ badAt s r 1 ecc.2) :
    (sectorsRead (lineSectors s r ecc) serves s).safety = s.safety := by
  refine sectorsRead_safety (List.forall_mem_cons.mpr ⟨fun hp hc => hlow ⟨hp, hc⟩, List.forall_mem_cons.mpr ⟨fun hp hc => hhigh ⟨hp, hc⟩, ?_⟩⟩)
  exact fun _ h => absurd h List.not_mem_nil

end Sectors

/-! ### The request that is served -/

section Serve

variable {ch pick : Nat} {ecc : EccCond × EccCond} {act : Option (Nat × Nat × Bool)} {serves lc : Bool} {r : DramReq} {rest : List DramReq} {s : State}

/-- The part with a request's row open, its queues as it leaves them. -/
def requestTaken (ch : Nat) (act : Option (Nat × Nat × Bool)) (q : ChanQ) (s : State) : State := openRowOf ch act (s.setChanQ ch q.judge)

/-- Only the oldest request of its class opens a row (11 R259). -/
theorem exec_serve_refused (hpick : pick ≠ 0) (hact : act ≠ none) : exec (.dramRequest ch (.serve pick ecc act serves)) s = .next s := by
  have hcond : (decide (pick ≠ 0) && act.isSome) = true := by simp [hpick, Option.isSome_iff_ne_none, hact]
  simp only [exec, execDramRequest, doDramRequest, serveReq, hcond, if_true]

theorem exec_serve_write (h : pick = 0 ∨ act = none) (hkind : nextKind (s.chanQ ch) = some (false, lc))
    (htake : takeReq lc pick (s.chanQ ch).writes = some (r, rest)) : exec (.dramRequest ch (.serve pick ecc act serves)) s =
      .next (serveWrite r ecc serves (requestTaken ch act { s.chanQ ch with writes := rest } s)) := by
  have hcond : (decide (pick ≠ 0) && act.isSome) = false := by obtain h | h := h <;> simp [h]
  simp only [exec, execDramRequest, doDramRequest, serveReq, hcond, hkind, Bool.false_eq_true, if_false, htake, Bool.false_and]
  rfl

theorem exec_serve_read (h : pick = 0 ∨ act = none) (hkind : nextKind (s.chanQ ch) = some (true, lc))
    (htake : takeReq lc pick (s.chanQ ch).reads = some (r, rest)) : exec (.dramRequest ch (.serve pick ecc act serves)) s =
      .next (serveRead ch r ecc serves (requestTaken ch (if r.forwarded then none else act) { s.chanQ ch with reads := rest } s)) := by
  have hcond : (decide (pick ≠ 0) && act.isSome) = false := by obtain h | h := h <;> simp [h]
  simp only [exec, execDramRequest, doDramRequest, serveReq, hcond, hkind, Bool.false_eq_true, if_false, if_true, htake, Bool.true_and]
  cases r.forwarded <;> rfl

theorem requestTaken_chanQ (q : ChanQ) : (requestTaken ch act q s).chanQ ch = rowOpened act q.judge := by
  rw [requestTaken, openRowOf_chanQ, chanQ_setChanQ]

theorem Requeued.requestTaken (ch : Nat) (act : Option (Nat × Nat × Bool)) (q : ChanQ) (s : State) : Requeued s (requestTaken ch act q s) :=
  (Requeued.setChanQ ch _ s).trans (.openRowOf ch act _)

theorem badAt_requeued {t : State} (h : Requeued s t) {k : Nat} {c : EccCond} : badAt t r k c ↔ badAt s r k c := by
  rw [badAt, h.placeOf, h.sectorCond, badAt]

/-! ### What the request leaves -/

variable {q : ChanQ}

theorem writeServed_chanQ : (serveWrite r ecc serves (requestTaken ch act q s)).chanQ ch = rowOpened act q.judge :=
  serveWrite_chanQ.trans (requestTaken_chanQ q)

/-- A read forwarded whole leaves its answer, and nothing of DRAM is touched (11 R261). -/
theorem forwardedRead_eq (hf : r.forwarded = true) : serveRead ch r ecc serves (requestTaken ch none q s) =
    s.setChanQ ch { q.judge with last := r.bytes.map (·.getD 0), poisoned := false } := by
  rw [serveRead_forwarded hf, answered, requestTaken_chanQ]
  simp only [requestTaken, openRowOf, rowOpened, State.setChanQ, tput_tput_same]

section DramRead

variable (hf : r.forwarded = false)
include hf

theorem dramRead_chanQ : (serveRead ch r ecc serves (requestTaken ch act q s)).chanQ ch =
    { rowOpened act q.judge with last := r.bytes.map (·.getD 0), poisoned := poisons s r ecc } := by
  have hu := Requeued.requestTaken ch act q s
  have hpoisons : poisons (requestTaken ch act q s) r ecc = poisons s r ecc := by
    rw [poisons, hu.placeOf, hu.sectorCond, hu.sectorCond, poisons]
  rw [dramRead_eq hf, answered_chanQ, sectorsRead_chanQ, requestTaken_chanQ, hpoisons]

theorem dramRead_cells : (serveRead ch r ecc serves (requestTaken ch act q s)).dram.cells = s.dram.cells := by
  rw [dramRead_eq hf, answered_cells, sectorsRead_cells, (Requeued.requestTaken ch act q s).cells]

theorem dramRead_bad_low (hbad : badAt s r 0 ecc.1) : 2 * r.line ∈ (serveRead ch r ecc serves (requestTaken ch act q s)).dram.bad := by
  rw [dramRead_eq hf, answered_bad]
  exact mem_lineRead_bad_low ((badAt_requeued (.requestTaken ch act q s)).mpr hbad)

theorem dramRead_bad_high (hbad : badAt s r 1 ecc.2) : 2 * r.line + 1 ∈ (serveRead ch r ecc serves (requestTaken ch act q s)).dram.bad := by
  rw [dramRead_eq hf, answered_bad]
  exact mem_lineRead_bad_high ((badAt_requeued (.requestTaken ch act q s)).mpr hbad)

theorem dramRead_safety (hlow : ¬ badAt s r 0 ecc.1) (hhigh : ¬ badAt s r 1 ecc.2) :
    (serveRead ch r ecc serves (requestTaken ch act q s)).safety = s.safety := by
  have hu := Requeued.requestTaken ch act q s
  rw [dramRead_eq hf, answered_safety, lineRead_safety (mt (badAt_requeued hu).mp hlow) (mt (badAt_requeued hu).mp hhigh), hu.safety]

end DramRead

end Serve

end Sys2Proof.ChannelServing
end

section
/-! Requests of a channel, queued and served (11 R252, R253, R259-R263, R265; 10 R242). -/

namespace Sys2Proof.ChannelRequests

open Sys2Proof.Machine Sys2Proof.Laws Sys2Proof.SectorReads Sys2Proof.ChannelQueueing Sys2Proof.ChannelServing

section Row

variable {act : Option (Nat × Nat × Bool)} {q : ChanQ}

@[simp] theorem rowOpened_reads : (rowOpened act q).reads = q.reads := by cases act <;> rfl
@[simp] theorem rowOpened_writes : (rowOpened act q).writes = q.writes := by cases act <;> rfl
@[simp] theorem rowOpened_drainLc : (rowOpened act q).drainLc = q.drainLc := by cases act <;> rfl
@[simp] theorem rowOpened_drainBe : (rowOpened act q).drainBe = q.drainBe := by cases act <;> rfl

/-- A row opened counts on its bank. -/
theorem rowOpened_row {q' : ChanQ} (hsame : q'.activates = q.activates) (b row : Nat) (last : Bool) (hact : act = some (b, row, last)) :
    tfind (rowOpened act q').openRow b = some row ∧ tget (rowOpened act q').activates b 0 = activated (tget q.activates b 0) := by
  subst hact
  rw [← hsame]
  exact ⟨tfind_tput_same _ _ _, tget_tput_same _ _ _ _⟩

end Row

/-! ### Merging -/

section Merge

variable {line : Nat} {lc : Bool} {bs : List (Option Byte)} {l : List DramReq} {w : DramReq}

theorem merge_other (h : w.line ≠ line) : merge line bs w = w := if_neg h

theorem merge_same (h : w.line = line) : merge line bs w = { w with bytes := overlay w.bytes bs } := if_pos h

theorem merge_bytes (h : w.line = line) : merge line bs w = { w with bytes := (merge line bs w).bytes } := by rw [merge_same h]

theorem merge_getD (h : w.line = line) (hw : w.bytes.length = 64) (hbs : bs.length = 64) (i : Nat) :
    (merge line bs w).bytes.getD i none = (bs.getD i none).or (w.bytes.getD i none) := by
  rw [merge_same h]
  exact overlay_getD (hw.trans hbs.symm) i

theorem writesWith_new (h : l.any (fun w => w.line = line) = false) :
    writesWith line lc bs l = l ++ [{ line := line, lc := lc, bytes := bs, forwarded := false, passed := 0 }] := by simp [writesWith, h]

theorem writesWith_merged (h : l.any (fun w => w.line = line) = true) : writesWith line lc bs l = l.map (merge line bs) := by simp [writesWith, h]

end Merge

/-- Settles O45: a request queued or turned away by the room of its queue, one served by the kind and class in turn (`nextKind_offered`) and the request
taken (`Taken`). -/
theorem channelQueues : Obligations.ChannelQueues := by
  unfold Obligations.ChannelQueues
  refine ⟨fun ch s => ⟨fun who line hwho hline => lineOn_local hwho hline, fun who line lc hline hroom => ?_, fun who line lc h => exec_read_turned h,
    fun who line lc bs hline hroom => ?_, fun who line lc bs h => exec_write_turned h, fun pick ecc act sn => ⟨exec_serve_refused, fun hact =>
      ⟨fun w rest lc hkind htake hlen => ?_, fun r rest lc hkind htake => ?_⟩⟩⟩, fun q lc h => ?_, fun lc pick l rest r h => ?_⟩
  · refine ⟨_, readOf s ch line lc, exec_read_queued hline hroom, ?_, ?_, rfl, rfl, rfl, rfl, rfl, readOf_unforwarded, fun w => readOf_forwarded⟩
    · rw [chanQ_setChanQ, judge_reads]
    · rw [chanQ_setChanQ, judge_writes]
  · have hq : ∀ q, (stored line bs (s.setChanQ ch q)).chanQ ch = q := fun q => chanQ_setChanQ s ch q
    refine ⟨_, exec_write_queued hline hroom, ?_, fun hwf => ⟨fun a => mget_storeLine_outside, fun i b => mget_storeLine_inside hwf⟩, ?_, fun hnew => ?_,
      fun hmerged => ⟨?_, fun k w hw => ⟨merge line bs w, ?_, merge_other, fun hsame => ⟨merge_bytes hsame, fun hw64 hbs i _ => ?_⟩⟩⟩⟩
    · rw [hq, judge_reads]
    · rw [hq]
      exact fun hfull => judge_full hfull
    · rw [hq, judge_writes, writesWith_new hnew]
    · rw [hq, judge_writes, writesWith_merged hmerged, List.length_map]
    · rw [hq, judge_writes, writesWith_merged hmerged, List.getElem?_map, hw, Option.map_some]
    · rw [merge_getD hsame hw64 hbs]
      cases bs.getD i none <;> rfl
  · have hu := Requeued.requestTaken ch act { s.chanQ ch with writes := rest } s
    refine ⟨_, exec_serve_write hact hkind htake, ?_, ?_, serveWrite_cells.trans hu.cells, ?_, ?_, serveWrite_heals_low, serveWrite_heals_high,
      fun hpart hbad => serveWrite_bad_low hpart ((badAt_requeued hu).mpr hbad), fun hpart hbad => serveWrite_bad_high hpart ((badAt_requeued hu).mpr hbad),
      fun hlow hhigh => (serveWrite_safety hlow hhigh).trans hu.safety⟩
    all_goals simp only [writeServed_chanQ]
    · rw [rowOpened_writes, judge_writes]
    · rw [rowOpened_reads, judge_reads]
    · exact rowOpened_row rfl
    · rw [rowOpened_drainLc, rowOpened_drainBe]
      exact fun hrest => judge_low hrest
  · have hexec := exec_serve_read (ecc := ecc) (serves := sn) hact hkind htake
    cases hforwarded : r.forwarded with
    | true =>
      rw [hforwarded, if_pos rfl, forwardedRead_eq hforwarded] at hexec
      refine ⟨_, hexec, ?_, ?_, ?_, rfl, fun _ => ⟨?_, ?_, rfl, rfl, rfl⟩, fun h => absurd h (by decide)⟩
      all_goals rw [chanQ_setChanQ]
      all_goals rfl
    | false =>
      rw [hforwarded, if_neg (by decide)] at hexec
      refine ⟨_, hexec, ?_, ?_, ?_, dramRead_cells hforwarded, fun h => absurd h (by decide), fun _ =>
        ⟨?_, fun hprot => ?_, fun hprot => ?_, dramRead_bad_low hforwarded, dramRead_bad_high hforwarded, dramRead_safety hforwarded⟩⟩
      all_goals simp only [dramRead_chanQ hforwarded]
      · rw [rowOpened_reads, judge_reads]
      · rw [rowOpened_writes, judge_writes]
      · exact rowOpened_row rfl
      · simp [poisons, hprot]
      · simp [poisons, hprot]
  · exact ⟨(nextKind_offered h false).trans classKind_write, (nextKind_offered h true).trans classKind_read⟩
  · have htaken := taken_of_takeReq h
    exact ⟨htaken.mem, htaken.class_eq, htaken.length, htaken.passed_le, htaken.passed_sum⟩

end Sys2Proof.ChannelRequests
end

section
/-! Upkeep of DRAM: patrol and the journal mirrors (11 R266, R267, R269), drift and the all-bank refresh (11 R257, R263). -/

namespace Sys2Proof.DramUpkeep

open Sys2Proof.Machine Sys2Proof.Laws Sys2Proof.SectorReads Sys2Proof.CoalExpiry

/-! ### Journal mirrors (11 R252, R269) -/

section Mirror

variable {d : Dram} {a : Nat} {b : Bool} {s : State}

theorem mirrorAt_eq {x : Option Bool} (h : (∃ b, x = some b ∧ placeOf d a = .mirror b) ∨ x = none ∧ ∀ b, placeOf d a ≠ .mirror b) :
    mirrorAt d a = x := by
  -- Unfolded without its arguments, so that the kernel does not evaluate the layout's arithmetic.
  have hbody : ∀ f, f = mirrorAt → f d a = x := by
    intro f hf
    delta mirrorAt at hf
    rw [hf]
    beta_reduce
    obtain ⟨b, rfl, hb⟩ | ⟨rfl, hother⟩ := h
    · rw [hb]
    · generalize placeOf d a = q at hother
      cases q with
      | mirror b => exact absurd rfl (hother b)
      | _ => rfl
  exact hbody mirrorAt rfl

theorem mirrorAt_mirror (h : placeOf d a = .mirror b) : mirrorAt d a = some b := mirrorAt_eq (.inl ⟨b, rfl, h⟩)

theorem mirrorAt_other (h : ∀ b, placeOf d a ≠ .mirror b) : mirrorAt d a = none := mirrorAt_eq (.inr ⟨rfl, h⟩)

theorem localPlace_mirrorB {ch off : Nat} (h : localPlace ch off = .mirror true) : ch = 8 := by
  unfold localPlace at h
  split_ifs at h with _ _ hzero height
  · cases h
  · exact height

/-- Mirror B lies in the area of channel 8, past eight whole areas. -/
theorem le_of_mirrorB (h : placeOf d a = .mirror true) : 8 * localBytes ≤ a := by
  unfold placeOf at h
  split_ifs at h with hbeyond hlocal
  · have hch := localPlace_mirrorB h
    have hle := Nat.div_mul_le_self (a - spaceBytes d) localBytes
    rw [hch] at hle
    omega
  · split at h
    · split at h <;> cases h
    · cases h

theorem mirrorTwin_sector (h : placeOf d a = .mirror b) : mirrorTwin b a / 32 ≠ a / 32 := by
  have hbytes : localBytes = 10485760 := by decide
  cases b with
  | false =>
    have htwin : mirrorTwin false a = a + 8 * localBytes := by rw [mirrorTwin, if_neg (by decide)]
    omega
  | true =>
    have htwin : mirrorTwin true a = a - 8 * localBytes := by rw [mirrorTwin, if_pos rfl]
    have hle := le_of_mirrorB h
    omega

/-! ### An uncorrectable sector of a mirror -/

theorem countUe_shape (a : Nat) (s : State) : countUe a s = s.setChan (channelAt s.dram a) 0
    { s.chan (channelAt s.dram a) 0 with ue := min ((s.chan (channelAt s.dram a) 0).ue + 1) (2 ^ 32 - 1) } := by
  rw [countUe, satAdd]

theorem countRepair_shape (a : Nat) (s : State) : countRepair a s = s.setChan (channelAt s.dram a) 0
    { s.chan (channelAt s.dram a) 0 with repairs := min ((s.chan (channelAt s.dram a) 0).repairs + 1) 65535 } := by
  rw [countRepair, satAdd]
  rfl

/-- The part with an uncorrectable error counted, and its known bad sectors. -/
def counted (a : Nat) (bad : List Nat) (s : State) : State := { countUe a s with dram := { (countUe a s).dram with bad := bad } }

theorem counted_chan (bad : List Nat) : (counted a bad s).chan (channelAt s.dram a) 0 =
    { s.chan (channelAt s.dram a) 0 with ue := min ((s.chan (channelAt s.dram a) 0).ue + 1) (2 ^ 32 - 1) } := by
  rw [counted, countUe_shape]
  exact chan_setChan _ _ _ _

theorem counted_shape (a : Nat) (bad : List Nat) (s : State) : ∃ chans, counted a bad s = { s with dram := { s.dram with chans := chans, bad := bad } } := by
  rw [counted, countUe_shape]
  exact ⟨_, rfl⟩

theorem counted_channelAt (bad : List Nat) : channelAt (counted a bad s).dram a = channelAt s.dram a := by
  obtain ⟨chans, h⟩ := counted_shape a bad s
  rw [h, channelAt, spaceBytes_congr (d := s.dram) (d' := { s.dram with chans := chans, bad := bad }) rfl, channelAt]

/-- Sectors known to be bad beside the one at `a`. -/
def otherBad (a : Nat) (s : State) : List Nat := s.dram.bad.filter (fun x => x ≠ a / 32)

theorem mirrorUe_eq (b : Bool) (a : Nat) (s : State) : mirrorUe b a s =
    if (otherBad a s).contains (mirrorTwin b a / 32) then counted a (a / 32 :: otherBad a s) s else countRepair a (counted a (otherBad a s) s) := rfl

theorem mem_otherBad {x : Nat} (hx : x ≠ a / 32) : x ∈ otherBad a s ↔ x ∈ s.dram.bad := by simp [otherBad, hx]

section Twin

variable (hmirror : placeOf s.dram a = .mirror b)
include hmirror

/-- With both mirrors bad, the sector stays bad. -/
theorem mirrorUe_lost (h : mirrorTwin b a / 32 ∈ s.dram.bad) : mirrorUe b a s = counted a (a / 32 :: otherBad a s) s := by
  have hother := (mem_otherBad (mirrorTwin_sector hmirror)).mpr h
  rw [mirrorUe_eq, if_pos (by simpa using hother)]

/-- With the other mirror whole, the sector is repaired, and the repair counted. -/
theorem mirrorUe_repaired (h : mirrorTwin b a / 32 ∉ s.dram.bad) : mirrorUe b a s = countRepair a (counted a (otherBad a s) s) := by
  have hother := mt (mem_otherBad (mirrorTwin_sector hmirror)).mp h
  rw [mirrorUe_eq, if_neg (by simpa using hother)]

end Twin

theorem repaired_chan (bad : List Nat) : (countRepair a (counted a bad s)).chan (channelAt s.dram a) 0 = { s.chan (channelAt s.dram a) 0 with
    ue := min ((s.chan (channelAt s.dram a) 0).ue + 1) (2 ^ 32 - 1), repairs := min ((s.chan (channelAt s.dram a) 0).repairs + 1) 65535 } := by
  rw [countRepair_shape, counted_channelAt, chan_setChan, counted_chan]

/-- Between the two states counters of channels and bad sectors have changed, and nothing else. -/
theorem repaired_shape (a : Nat) (bad : List Nat) (s : State) :
    ∃ chans, countRepair a (counted a bad s) = { s with dram := { s.dram with chans := chans, bad := bad } } := by
  obtain ⟨chans, h⟩ := counted_shape a bad s
  rw [countRepair_shape, h]
  exact ⟨_, rfl⟩

theorem mirrorUe_shape (b : Bool) (a : Nat) (s : State) :
    ∃ chans bad, mirrorUe b a s = { s with dram := { s.dram with chans := chans, bad := bad } } := by
  rw [mirrorUe_eq]
  split
  · exact (counted_shape a _ s).imp fun _ h => ⟨_, h⟩
  · exact (repaired_shape a _ s).imp fun _ h => ⟨_, h⟩

end Mirror

/-! ### PATROL_SCRUB (11 R267) -/

section Patrol

variable {sector : Nat} {k : EccCond} {s : State}

theorem sectorCond_bad (h : k = .double ∨ sector ∈ s.dram.bad) : sectorCond s sector k = .double := by
  unfold sectorCond
  split
  · rfl
  · next hgood => exact h.resolve_right (by simpa using hgood)

theorem sectorCond_good (h : sector ∉ s.dram.bad) : sectorCond s sector k = k := if_neg (by simpa using h)

theorem exec_patrol_reads (h : sectorCond s sector k ≠ .double ∨ ∀ b, placeOf s.dram (32 * sector) ≠ .mirror b) :
    exec (.patrolScrub sector k) s = .next (eccRead (32 * sector) (sectorCond s sector k) false s) := by
  have hnone : (if sectorCond s sector k = .double then mirrorAt s.dram (32 * sector) else none) = none := by
    obtain hcond | hother := h
    · exact if_neg hcond
    · rw [mirrorAt_other hother, ite_self]
  rw [exec, execPatrolScrub, doPatrolScrub, hnone, Option.elim_none]

theorem exec_patrol_mirror {b : Bool} (hcond : sectorCond s sector k = .double) (hmirror : placeOf s.dram (32 * sector) = .mirror b) :
    exec (.patrolScrub sector k) s = .next (mirrorUe b (32 * sector) s) := by
  rw [exec, execPatrolScrub, doPatrolScrub, if_pos hcond, mirrorAt_mirror hmirror, Option.elim_some]

end Patrol

/-! ### Drift (11 R257) -/

section Drift

variable {ch rank : Nat} {rd wr : Int} {s : State}

theorem exec_drift_kept (h : s.dram.ranks ≤ rank ∨ rd.natAbs < 4 ∧ wr.natAbs < 4) : exec (.driftCheck ch rank rd wr) s = .next s := by
  have hcond : (decide (rank < s.dram.ranks) && (decide (rd.natAbs ≥ 4) || decide (wr.natAbs ≥ 4))) = false := by
    obtain h | ⟨hr, hw⟩ := h
    · simp [Nat.not_lt.mpr h]
    · simp [hr, hw]
  simp only [exec, execDriftCheck, doDriftCheck, hcond, Bool.false_eq_true, if_false]

theorem exec_drift_waits (hrank : rank < s.dram.ranks) (h : 4 ≤ rd.natAbs ∨ 4 ≤ wr.natAbs) : exec (.driftCheck ch rank rd wr) s =
    .next (s.setChan ch rank { s.chan ch rank with
      driftPend := some (if 4 ≤ rd.natAbs then rd else 0, if 4 ≤ wr.natAbs then wr else 0) }) := by
  have hcond : (decide (rank < s.dram.ranks) && (decide (rd.natAbs ≥ 4) || decide (wr.natAbs ≥ 4))) = true := by simpa [hrank] using h
  simp only [exec, execDriftCheck, doDriftCheck, hcond, if_true, ge_iff_le]

end Drift

/-! ### ALL_BANK_REFRESH (11 R257, R263) -/

section Refresh

variable {ch rank k : Nat} {s : State}

/-- A channel and rank with the drift that waits applied. -/
def drifted (x : Chan) : Chan :=
  x.driftPend.elim x (fun p => { x with
    readDq := if p.1 = 0 then x.readDq else shiftDq x.readDq p.1, writeDq := if p.2 = 0 then x.writeDq else shiftDq x.writeDq p.2
    drift := satAdd 16 x.drift (b2n (decide (p.1 ≠ 0)) + b2n (decide (p.2 ≠ 0))), driftPend := none })

section Drifted

variable {x : Chan} {rd wr : Int} (h : x.driftPend = some (rd, wr))
include h

theorem drifted_readDq : (drifted x).readDq = if rd = 0 then x.readDq else shiftDq x.readDq rd := by rw [drifted, h, Option.elim_some]

theorem drifted_writeDq : (drifted x).writeDq = if wr = 0 then x.writeDq else shiftDq x.writeDq wr := by rw [drifted, h, Option.elim_some]

/-- Beside the delays, the adjustment is counted and waits no more. -/
theorem drifted_rest : drifted x = { x with
    readDq := (drifted x).readDq, writeDq := (drifted x).writeDq, driftPend := none
    drift := min (x.drift + ((if rd ≠ 0 then 1 else 0) + (if wr ≠ 0 then 1 else 0))) 65535 } := by
  simp [drifted, h, satAdd, b2n]

end Drifted

theorem applyDrift_none (h : (s.chan ch rank).driftPend = none) : applyDrift ch rank s = s := by simp [applyDrift, h]

theorem applyDrift_some {rd wr : Int} (h : (s.chan ch rank).driftPend = some (rd, wr)) :
    applyDrift ch rank s = s.setChan ch rank (drifted (s.chan ch rank)) := by simp [applyDrift, drifted, h]

theorem applyDrift_shape (ch rank : Nat) (s : State) : ∃ chans, applyDrift ch rank s = { s with dram := { s.dram with chans := chans } } := by
  cases h : (s.chan ch rank).driftPend with
  | none => exact ⟨_, applyDrift_none h⟩
  | some p => exact ⟨_, applyDrift_some h⟩

theorem applyDrift_chan_same : (applyDrift ch rank s).chan ch rank = drifted (s.chan ch rank) := by
  cases h : (s.chan ch rank).driftPend with
  | none => rw [applyDrift_none h, drifted, h, Option.elim_none]
  | some p => rw [applyDrift_some h, chan_setChan]

theorem applyDrift_chan_other (hk : k ≠ rank) : (applyDrift ch rank s).chan ch k = s.chan ch k := by
  cases h : (s.chan ch rank).driftPend with
  | none => rw [applyDrift_none h]
  | some p =>
    rw [applyDrift_some h]
    exact tget_tput_other _ _ _ (by omega)

theorem drifts_chan (hk : k < 2) : (applyDrift ch 1 (applyDrift ch 0 s)).chan ch k = drifted (s.chan ch k) := by
  obtain rfl | rfl : k = 0 ∨ k = 1 := by omega
  · rw [applyDrift_chan_other (by decide), applyDrift_chan_same]
  · rw [applyDrift_chan_same, applyDrift_chan_other (by decide)]

/-- Drift and the activates of the channel's banks are all that a refresh moves. -/
theorem refresh_shape (ch : Nat) (s : State) : ∃ chans, doAllBankRefresh ch s = { s with dram := { s.dram with
    chans := chans, queues := tput s.dram.queues ch (s.chanQ ch).refreshed } } ∧ ∀ k, k < 2 → tget chans (2 * ch + k) Chan.reset = drifted (s.chan ch k) := by
  obtain ⟨chans, hfirst⟩ := applyDrift_shape ch 0 s
  obtain ⟨chans', hsecond⟩ := applyDrift_shape ch 1 (applyDrift ch 0 s)
  have hboth : applyDrift ch 1 (applyDrift ch 0 s) = { s with dram := { s.dram with chans := chans' } } := by rw [hsecond, hfirst]
  have hchan : ∀ k, k < 2 → tget chans' (2 * ch + k) Chan.reset = drifted (s.chan ch k) := fun k hk => by
    rw [← drifts_chan hk, hboth]
    rfl
  refine ⟨chans', ?_, hchan⟩
  rw [doAllBankRefresh, hboth]
  rfl

theorem refreshed_activates (q : ChanQ) (b : Nat) : tget q.refreshed.activates b 0 = tget q.activates b 0 - Config.rfmRelief :=
  tget_map (f := fun n => n - Config.rfmRelief) (Nat.zero_sub _) q.activates b

theorem tget_map_self {α : Type} {f : Nat → α} {d : α} {l : List Nat} {i : Nat} (hi : i ∈ l) : tget (l.map (fun i => (i, f i))) i d = f i := by
  induction l with
  | nil => cases hi
  | cons m l ih =>
    rw [List.map_cons, tget]
    split
    · next h => rw [h]
    · next h => exact ih ((List.mem_cons.mp hi).resolve_left (Ne.symm h))

/-- Each of the sixteen settings moves by the drift within 0-255. -/
theorem shiftDq_get (t : Tab Nat) (d : Int) {i : Nat} (hi : i < 16) :
    tget (shiftDq t d) i 0 = (max 0 (min 255 (((tget t i 0 : Nat) : Int) + d))).toNat :=
  tget_map_self (f := fun i => (max 0 (min 255 (((tget t i 0 : Nat) : Int) + d))).toNat) (List.mem_range.mpr hi)

end Refresh

end Sys2Proof.DramUpkeep
end

section
/-! DRAM_TRAIN_STEP on the maintenance port (11 R256, R258, log 16, log 17). -/

namespace Sys2Proof.TrainSteps

open Sys2Proof.Machine Sys2Proof.Laws Sys2Proof.PortCommands

/-! ### The widest window (log 17) -/

/-- The wider of the window found so far and another: a later one only where it is strictly wider. -/
def wider (best other : Option (Nat × Nat)) : Option (Nat × Nat) :=
  match best, other with
  | none, x => x
  | some x, some y => if y.2 - y.1 > x.2 - x.1 then some y else some x
  | some x, none => some x

/-- The widest window of some lanes, the first among equals. -/
def widestOf (l : List (Nat × Option (Nat × Nat))) : Option (Nat × Nat) := l.foldl (fun w r => wider w r.2) none

theorem widestOf_map (lanes : List Nat) (window : Nat → Option (Nat × Nat)) :
    widestOf (lanes.map (fun i => (i, window i))) = (lanes.map window).foldl wider none := by
  rw [widestOf, List.foldl_map, List.foldl_map]

/-- A window, where there is one, spans less than `n`. -/
def Below (n : Nat) (w : Option (Nat × Nat)) : Prop := ∀ g m, w = some (g, m) → m - g < n

theorem wider_below {n : Nat} {best other : Option (Nat × Nat)} (hbest : Below n best) (hother : Below n other) : Below n (wider best other) := by
  unfold wider
  split
  · exact hother
  · split
    · exact hother
    · exact hbest
  · exact hbest

theorem foldl_wider_below {n : Nat} {l : List (Option (Nat × Nat))} {best : Option (Nat × Nat)} (hbest : Below n best) (hl : ∀ w ∈ l, Below n w) :
    Below n (l.foldl wider best) := by
  induction l generalizing best with
  | nil => exact hbest
  | cons w l ih =>
    obtain ⟨hw, hl⟩ := List.forall_mem_cons.mp hl
    exact ih (wider_below hbest hw) hl

theorem wider_wins {f l : Nat} {best : Option (Nat × Nat)} (h : Below (l - f) best) : wider best (some (f, l)) = some (f, l) := by
  cases best with
  | none => rfl
  | some x => exact if_pos (h x.1 x.2 rfl)

theorem wider_stays {f l : Nat} {other : Option (Nat × Nat)} (h : Below (l - f + 1) other) : wider (some (f, l)) other = some (f, l) := by
  cases other with
  | none => rfl
  | some y => exact if_neg (Nat.not_lt.mpr (Nat.lt_succ_iff.mp (h y.1 y.2 rfl)))

theorem foldl_wider_stays {f l : Nat} {r : List (Option (Nat × Nat))} (h : ∀ w ∈ r, Below (l - f + 1) w) : r.foldl wider (some (f, l)) = some (f, l) := by
  induction r with
  | nil => rfl
  | cons w r ih =>
    obtain ⟨hw, hr⟩ := List.forall_mem_cons.mp h
    rw [List.foldl_cons, wider_stays hw, ih hr]

/-- A window that no other exceeds, and no earlier one equals, is the widest. -/
theorem widestOf_eq {lanes : List Nat} (hsorted : lanes.Pairwise (· < ·)) {window : Nat → Option (Nat × Nat)} {i f l : Nat} (hi : i ∈ lanes)
    (hwindow : window i = some (f, l)) (hmax : ∀ k ∈ lanes, ∀ g m, window k = some (g, m) → m - g ≤ l - f ∧ (k < i → m - g < l - f)) :
    widestOf (lanes.map (fun i => (i, window i))) = some (f, l) := by
  obtain ⟨before, after, rfl⟩ := List.append_of_mem hi
  have hbefore : ∀ w ∈ before.map window, Below (l - f) w := by
    rintro w hw g m rfl
    obtain ⟨k, hk, hkw⟩ := List.mem_map.mp hw
    exact (hmax k (List.mem_append_left _ hk) g m hkw).2 ((List.pairwise_append.mp hsorted).2.2 k hk i List.mem_cons_self)
  have hafter : ∀ w ∈ after.map window, Below (l - f + 1) w := by
    rintro w hw g m rfl
    obtain ⟨k, hk, hkw⟩ := List.mem_map.mp hw
    exact Nat.lt_succ_iff.mpr (hmax k (List.mem_append_right _ (List.mem_cons_of_mem _ hk)) g m hkw).1
  rw [widestOf_map, List.map_append, List.map_cons, List.foldl_append, List.foldl_cons, hwindow,
    wider_wins (foldl_wider_below (fun _ _ h => by cases h) hbefore), foldl_wider_stays hafter]

theorem widestOf_none {lanes : List Nat} {window : Nat → Option (Nat × Nat)} (h : ∀ i ∈ lanes, window i = none) :
    widestOf (lanes.map (fun i => (i, window i))) = none := by
  rw [widestOf_map]
  induction lanes with
  | nil => rfl
  | cons i lanes ih =>
    obtain ⟨hi, hlanes⟩ := List.forall_mem_cons.mp h
    rw [List.map_cons, List.foldl_cons, hi]
    exact ih hlanes

/-! ### What a step answers (11 R258) -/

/-- The lanes a step sweeps. -/
def stepLanes (e : JEntry) : List Nat :=
  (List.range 16).filter (fun i => decide (fld (e.param 1) 23 16 = 0xFF) || decide (fld (e.param 1) 23 16 = i))

/-- The widest window of a lane in the swept range. -/
def laneWindow (sw : Sweep) (e : JEntry) (i : Nat) : Option (Nat × Nat) := widestRun (swept sw i (fld (e.param 1) 7 0) (fld (e.param 1) 15 8))

/-- The lanes a step sweeps, each with its widest window. -/
def stepRuns (sw : Sweep) (e : JEntry) : List (Nat × Option (Nat × Nat)) := (stepLanes e).map (fun i => (i, laneWindow sw e i))

/-- Those whose window is wide enough. -/
def passedRuns (sw : Sweep) (e : JEntry) : List (Nat × Option (Nat × Nat)) := (stepRuns sw e).filter (fun r => wide r.2)

/-- The step's values replace those of the training record. -/
def stepApplies (sw : Sweep) (e : JEntry) (x : Chan) : Bool := bit (e.param 0) 16 && wide (widestOf (stepRuns sw e)) && decide (x.status ≠ 0xFF)

/-- The training record after the step (log 16). -/
def stepChan (sw : Sweep) (e : JEntry) (x : Chan) : Chan :=
  if stepApplies sw e x then
    { applyTrain (fld (e.param 0) 3 0) sw ((passedRuns sw e).map (fun r => (r.1, centre r.2))) (centre (widestOf (stepRuns sw e))) x with
      status := 0, attempts := 1 }
  else x

/-- RESULT1 of a step: the widest window. -/
def windowWord (w : Option (Nat × Nat)) : Word :=
  match w with
  | some (f, l) => dw [(l, 15, 8), (f, 7, 0)]
  | none => 0xFFFF

/-- Results and effect of a step in range. -/
def stepped (sw : Sweep) (e : JEntry) (s : State) : Nat × List Word × State :=
  let x := s.chan e.ctx (fld (e.param 0) 8 8)
  (stOk, [w32 ((passedRuns sw e).foldl (fun m r => m + 2 ^ r.1) 0), windowWord (widestOf (stepRuns sw e)), w32 sw.errors,
    if stepApplies sw e x then w32 (centre (widestOf (stepRuns sw e))) else 0xFF], s.setChan e.ctx (fld (e.param 0) 8 8) (stepChan sw e x))

/-- The values of a step are in range. -/
def stepOk (e : JEntry) : Bool :=
  decide (1 ≤ fld (e.param 0) 3 0) && decide (fld (e.param 0) 3 0 ≤ 7) && (decide (fld (e.param 1) 23 16 < 16) || decide (fld (e.param 1) 23 16 = 0xFF)) &&
    decide (fld (e.param 1) 7 0 ≤ fld (e.param 1) 15 8) && decide (fld (e.param 2) 2 0 ≤ 5)

/-- What the port answers to the step: no host ring may have been enabled, and the values are in range. -/
def stepAnswer (sw : Sweep) (e : JEntry) (s : State) : Nat × List Word × State :=
  if (s.queue 0).everEnabled || (s.queue 1).everEnabled then (stCtxBusy, [], s) else if !stepOk e then (stBadParam, [], s) else stepped sw e s

/-- Powers of two added up from `n`. -/
theorem foldl_masks {l : List (Nat × Option (Nat × Nat))} (n : Nat) : l.foldl (fun m r => m + 2 ^ r.1) n = n + (l.map (fun r => 2 ^ r.1)).sum := by
  induction l generalizing n with
  | nil => rfl
  | cons r l ih =>
    rw [List.foldl_cons, ih, List.map_cons, List.sum_cons, Nat.add_assoc]

/-! ### The packet -/

section Packet

variable {pkt : List Word} {sw : Sweep} {s : State}

/-- The part after a packet that the maintenance port takes and answers with a status, results and an effect. -/
def maintAnswered (pkt : List Word) (s : State) (r : Nat × List Word × State) : State :=
  account 254 (fun a => { a with commands := satAdd 32 a.commands 1 }) { r.2.2 with
    mntCpl := some ((maintEntry pkt s).cpl r.2.2.link.chip r.1 true (maintEntry pkt s).gen (maintEntry pkt s).ctx r.2.1) }

theorem maintenance_taken (hroom : sharedUsed s < Config.journalShared) (body : JEntry → State → Nat × List Word × State) :
    maintenance pkt s body = maintAnswered pkt s (body (maintEntry pkt s) (maintTaken s)) := by
  unfold maintenance
  rw [if_neg (by omega), inOrder_last]
  rfl

theorem staticCheck_train (hop : fld (pkt.getD 0 0) 7 0 = 0xA0) (hext : fld (pkt.getD 0 0) 25 24 = 0) (hctx : fld (pkt.getD 2 0) 15 0 < 16)
    (hremote : bit (pkt.getD 3 0) 7 = false) (chip : Nat) : staticCheck chip (maintEntry pkt s) = none := by
  have hinfo : opInfo (maintEntry pkt s).opcode = some ⟨false, false, false, true, 0, .channel⟩ := by
    rw [show (maintEntry pkt s).opcode = 0xA0 from hop]
    rfl
  have hlocal : (maintEntry pkt s).remoteTo chip = false := by
    rw [JEntry.remoteTo, show (maintEntry pkt s).remote = false from hremote, Bool.false_and]
  have hlen : (maintEntry pkt s).ext = 0 := hext
  have hnumber : (maintEntry pkt s).ctx < CtxKind.bound .channel := hctx
  have hport : (maintEntry pkt s).port = .maintenance := rfl
  simp [staticCheck, hinfo, hlocal, hlen, hport, OpInfo.allows, hnumber]

theorem maintenanceUp_ready (h : maintenanceUp s = true) : s.chip.phase = .ready := by
  simp only [maintenanceUp, live, Bool.and_eq_true, decide_eq_true_eq] at h
  obtain ⟨-, hphase, -⟩ := h
  exact hphase

/-- The port hands a step to its answer once the packet has passed the checks of every command. -/
theorem doDramTrainStep_port (hup : maintenanceUp s = true) (hop : fld (pkt.getD 0 0) 7 0 = 0xA0) :
    ∃ body, doDramTrainStep pkt sw s = maintenance pkt s body ∧ ∀ e t, staticCheck t.link.chip e = none → body e t = stepAnswer sw e t := by
  have hready := maintenanceUp_ready hup
  have hopen : (!(maintenanceUp s && decide (fld (pkt.getD 0 0) 7 0 = 0xA0))) = false := by rw [hup, decide_eq_true hop]; rfl
  unfold doDramTrainStep
  rw [if_neg (by simp [hready]), hopen, if_neg (by decide)]
  refine ⟨_, rfl, fun e t hstatic => ?_⟩
  simp only [hstatic]
  rfl

theorem exec_train_full (hup : maintenanceUp s = true) (hop : fld (pkt.getD 0 0) 7 0 = 0xA0) (hfull : Config.journalShared ≤ sharedUsed s) :
    exec (.dramTrainStep pkt sw) s = .next s := by
  obtain ⟨body, htrain, -⟩ := doDramTrainStep_port (sw := sw) hup hop
  rw [exec, execDramTrainStep, htrain, maintenance_full hfull]

theorem exec_train_taken (hup : maintenanceUp s = true) (hop : fld (pkt.getD 0 0) 7 0 = 0xA0) (hroom : sharedUsed s < Config.journalShared)
    (hext : fld (pkt.getD 0 0) 25 24 = 0) (hctx : fld (pkt.getD 2 0) 15 0 < 16) (hremote : bit (pkt.getD 3 0) 7 = false) :
    exec (.dramTrainStep pkt sw) s = .next (maintAnswered pkt s (stepAnswer sw (maintEntry pkt s) (maintTaken s))) := by
  obtain ⟨body, htrain, hbody⟩ := doDramTrainStep_port (sw := sw) hup hop
  rw [exec, execDramTrainStep, htrain, maintenance_taken hroom, hbody _ _ (staticCheck_train hop hext hctx hremote _)]

/-- A packet whose effect is on the training records alone: its completion is shown, and position and ASN have moved on. -/
theorem maintAnswered_shown {st : Nat} {r : List Word} {t u : State} (hop : fld (pkt.getD 0 0) 7 0 = 0xA0)
    (hu : ∃ chans, u = { maintTaken s with dram := { s.dram with chans := chans } }) (ht : t = maintAnswered pkt s (st, r, u)) :
    (∃ c, t.mntCpl = some c ∧ c.status = st ∧ c.final = true ∧ c.asn = s.mntAsn + 1 ∧ c.opcode = 0xA0) ∧ t.jpos = s.jpos + 1 ∧
      t.dram.cells = s.dram.cells ∧ t.streams = s.streams ∧ t.safety = s.safety := by
  obtain ⟨chans, rfl⟩ := hu
  subst ht
  exact ⟨⟨_, rfl, rfl, rfl, rfl, hop⟩, rfl, rfl, rfl, rfl⟩

end Packet

/-! ### Results of a step in range -/

section Results

variable {sw : Sweep} {e : JEntry}

theorem stepLanes_sorted (e : JEntry) : (stepLanes e).Pairwise (· < ·) := List.pairwise_lt_range.filter _

theorem passedRuns_eq : passedRuns sw e =
    ((stepLanes e).filter (fun i => wide (laneWindow sw e i))).map (fun i => (i, laneWindow sw e i)) := by
  rw [passedRuns, stepRuns, List.filter_map]
  rfl

theorem passedRuns_mask : (passedRuns sw e).foldl (fun m r => m + 2 ^ r.1) 0 =
    (((stepLanes e).filter (fun i => wide (laneWindow sw e i))).map (2 ^ ·)).sum := by
  rw [foldl_masks, passedRuns_eq, List.map_map, Nat.zero_add]
  rfl

theorem passedRuns_centres : (passedRuns sw e).map (fun r => (r.1, centre r.2)) =
    ((stepLanes e).filter (fun i => wide (laneWindow sw e i))).map (fun i => (i, centre (laneWindow sw e i))) := by
  rw [passedRuns_eq, List.map_map]
  rfl

theorem passedRuns_none (h : ∀ i ∈ stepLanes e, laneWindow sw e i = none) : passedRuns sw e = [] := by
  rw [passedRuns_eq, List.filter_eq_nil_iff.mpr (fun i hi => by simp [h i hi, wide]), List.map_nil]

theorem wide_iff {f l : Nat} : wide (some (f, l)) = true ↔ f + 31 ≤ l := by
  simp only [wide, decide_eq_true_eq]
  omega

theorem stepOk_iff : stepOk e = true ↔ 1 ≤ fld (e.param 0) 3 0 ∧ fld (e.param 0) 3 0 ≤ 7 ∧
    (fld (e.param 1) 23 16 < 16 ∨ fld (e.param 1) 23 16 = 0xFF) ∧ fld (e.param 1) 7 0 ≤ fld (e.param 1) 15 8 ∧ fld (e.param 2) 2 0 ≤ 5 := by
  simp only [stepOk, Bool.and_eq_true, Bool.or_eq_true, decide_eq_true_eq, and_assoc]

theorem stepApplies_none {x : Chan} (hbest : widestOf (stepRuns sw e) = none) : stepApplies sw e x = false := by
  simp [stepApplies, hbest, wide]

theorem stepApplies_iff {f l : Nat} {x : Chan} (hbest : widestOf (stepRuns sw e) = some (f, l)) :
    stepApplies sw e x = true ↔ bit (e.param 0) 16 = true ∧ f + 31 ≤ l ∧ x.status ≠ 0xFF := by
  simp only [stepApplies, hbest, Bool.and_eq_true, wide_iff, decide_eq_true_eq, and_assoc]

end Results

end Sys2Proof.TrainSteps
end

section
/-! Patrol, drift, refresh and training of DRAM (11 R256-R258, R263, R266, R267, R269). -/

namespace Sys2Proof.DramMaintained

open Sys2Proof.Machine Sys2Proof.Laws Sys2Proof.SectorReads Sys2Proof.DramUpkeep Sys2Proof.TrainSteps Sys2Proof.PortCommands

/-! ### The answer to a training step -/

section Answer

variable {sw : Sweep} {e : JEntry} {s : State}

theorem stepAnswer_busy (h : ¬ ((s.queue 0).everEnabled = false ∧ (s.queue 1).everEnabled = false)) : stepAnswer sw e s = (stCtxBusy, [], s) :=
  if_pos (by
    rw [Bool.or_eq_true]
    by_contra hnone
    obtain ⟨h0, h1⟩ := not_or.mp hnone
    exact h ⟨Bool.eq_false_of_not_eq_true h0, Bool.eq_false_of_not_eq_true h1⟩)

variable (hfresh : (s.queue 0).everEnabled = false ∧ (s.queue 1).everEnabled = false)
include hfresh

theorem stepAnswer_range (hrange : stepOk e ≠ true) : stepAnswer sw e s = (stBadParam, [], s) := by
  obtain ⟨h0, h1⟩ := hfresh
  simp [stepAnswer, h0, h1, hrange]

theorem stepAnswer_stepped (hrange : stepOk e = true) : stepAnswer sw e s = stepped sw e s := by
  obtain ⟨h0, h1⟩ := hfresh
  simp [stepAnswer, h0, h1, hrange]

end Answer

/-- A step in range shows the mask of the lanes that pass, the widest window, the errors and the centre it applied, and leaves its training record. -/
theorem stepped_shown (pkt : List Word) (sw : Sweep) (s : State) {t : State} (ht : t = maintAnswered pkt s (stepped sw (maintEntry pkt s) (maintTaken s))) :
    let e := maintEntry pkt s
    let x := s.chan e.ctx (fld (e.param 0) 8 8)
    ∃ c, t.mntCpl = some c ∧ c.r0 = w32 ((passedRuns sw e).foldl (fun m r => m + 2 ^ r.1) 0) ∧ c.r1 = windowWord (widestOf (stepRuns sw e)) ∧
      c.r2 = w32 sw.errors ∧ c.r3 = (if stepApplies sw e x then w32 (centre (widestOf (stepRuns sw e))) else 0xFF) ∧
      t.chan e.ctx (fld (e.param 0) 8 8) = stepChan sw e x := by
  subst ht
  exact ⟨_, rfl, rfl, rfl, rfl, rfl, chan_setChan _ _ _ _⟩

/-- Settles O46: patrol by what the sector's read finds and by where it lies, drift by its size, the refresh by `drifted`, and a training step by the
widest window of its lanes. -/
theorem dramMaintained : Obligations.DramMaintained := by
  unfold Obligations.DramMaintained
  refine ⟨⟨fun sector k s => ⟨fun hplain => ?_, fun hprot => ⟨?_, ?_, ?_⟩⟩, fun ch rank rd wr s => ⟨exec_drift_kept, fun hrank h => ?_⟩,
    fun ch s => ?_⟩, fun pkt sw s hup hop => ⟨exec_train_full hup hop, fun hroom hext hctx hremote => ⟨fun hused => ?_, fun hfresh hrange => ?_,
    fun hfresh hrange hnone => ?_, fun i f l hfresh hrange hi hwindow hmax => ?_⟩⟩⟩
  · have hother : ∀ b, placeOf s.dram (32 * sector) ≠ .mirror b := fun b hb => by rw [hb] at hplain; cases hplain
    rw [exec_patrol_reads (.inr hother), eccRead_plain hplain]
  · rintro rfl hgood
    have hcond := sectorCond_good (k := .clean) hgood
    rw [exec_patrol_reads (.inl (by rw [hcond]; decide)), hcond, eccRead_clean]
  · rintro rfl hgood
    have hcond := sectorCond_good (k := .single) hgood
    rw [exec_patrol_reads (.inl (by rw [hcond]; decide)), hcond, eccRead_single hprot, countCe, satAdd]
  · intro hbad
    have hcond := sectorCond_bad hbad
    have hsector : 32 * sector / 32 = sector := Nat.mul_div_cancel_left _ (by decide)
    by_cases hmirror : ∃ b, placeOf s.dram (32 * sector) = .mirror b
    · obtain ⟨b, hb⟩ := hmirror
      refine ⟨_, exec_patrol_mirror hcond hb, ?_, fun h => absurd hb (h b), fun b' hb' => ?_⟩
      · obtain ⟨_, _, hshape⟩ := mirrorUe_shape b (32 * sector) s
        rw [hshape]
      · obtain rfl : b = b' := Place.mirror.inj (hb.symm.trans hb')
        obtain ⟨_, _, hshape⟩ := mirrorUe_shape b (32 * sector) s
        refine ⟨by rw [hshape], fun hlost => ?_, fun hwhole => ?_⟩
        · rw [mirrorUe_lost hb hlost]
          exact ⟨counted_chan _, List.mem_cons.mpr (.inl hsector.symm)⟩
        · obtain ⟨_, hrepaired⟩ := repaired_shape (32 * sector) (otherBad (32 * sector) s) s
          rw [mirrorUe_repaired hb hwhole]
          refine ⟨repaired_chan _, ?_⟩
          rw [hrepaired]
          simp [otherBad, hsector]
    · have hother := not_exists.mp hmirror
      have hread := exec_patrol_reads (k := k) (.inr hother)
      rw [hcond] at hread
      refine ⟨_, hread, eccRead_cells, fun _ => ⟨eccRead_double_chan hprot, ?_, eccRead_safety_quiet, eccRead_trips hprot⟩,
        fun b hb => absurd hb (hother b)⟩
      exact mem_eccRead_bad.mpr (.inr ⟨hsector.symm, hprot, rfl⟩)
  · exact ⟨_, exec_drift_waits hrank h, chan_setChan _ _ _ _⟩
  · obtain ⟨chans, hrefresh, hchan⟩ := refresh_shape ch s
    refine ⟨_, congrArg Host.Outcome.next hrefresh, rfl, rfl, fun b => ?_, fun k hk => ⟨fun hnone => ?_, fun rd wr hsome => ?_⟩⟩
    · rw [State.chanQ, tget_tput_same]
      exact refreshed_activates _ b
    · rw [State.chan, hchan k hk, drifted, hnone, Option.elim_none]
    · rw [State.chan, hchan k hk]
      refine ⟨drifted_rest hsome, fun hr => ?_, fun hr i hi => ?_, fun hw => ?_, fun hw i hi => ?_⟩
      · rw [drifted_readDq hsome, if_pos hr]
      · rw [drifted_readDq hsome, if_neg hr, shiftDq_get _ _ hi]
      · rw [drifted_writeDq hsome, if_pos hw]
      · rw [drifted_writeDq hsome, if_neg hw, shiftDq_get _ _ hi]
  · have ht := exec_train_taken (sw := sw) hup hop hroom hext hctx hremote
    rw [stepAnswer_busy (s := maintTaken s) hused] at ht
    have hshown := maintAnswered_shown hop ⟨_, rfl⟩ (rfl : _ = maintAnswered pkt s (stCtxBusy, [], maintTaken s))
    exact ⟨_, ⟨ht, hshown⟩, rfl⟩
  · have ht := exec_train_taken (sw := sw) hup hop hroom hext hctx hremote
    rw [stepAnswer_range (s := maintTaken s) hfresh (fun h => hrange ((stepOk_iff (e := maintEntry pkt s)).mp h))] at ht
    have hshown := maintAnswered_shown hop ⟨_, rfl⟩ (rfl : _ = maintAnswered pkt s (stBadParam, [], maintTaken s))
    exact ⟨_, ⟨ht, hshown⟩, rfl⟩
  · have ht := exec_train_taken (sw := sw) hup hop hroom hext hctx hremote
    rw [stepAnswer_stepped (s := maintTaken s) hfresh ((stepOk_iff (e := maintEntry pkt s)).mpr hrange)] at ht
    have hbest : widestOf (stepRuns sw (maintEntry pkt s)) = none := widestOf_none hnone
    have hpassed : passedRuns sw (maintEntry pkt s) = [] := passedRuns_none hnone
    obtain ⟨c, hc, hmask, hwin, herrors, hcentre, hx⟩ := stepped_shown pkt sw s rfl
    have happlies := stepApplies_none (e := maintEntry pkt s) (x := s.chan (maintEntry pkt s).ctx (fld ((maintEntry pkt s).param 0) 8 8)) hbest
    rw [hpassed] at hmask
    rw [hbest] at hwin
    rw [happlies] at hcentre
    rw [stepChan, happlies] at hx
    exact ⟨_, c, ⟨ht, maintAnswered_shown hop ⟨_, rfl⟩ rfl⟩, hx, hc, hmask, hwin, herrors, hcentre⟩
  · have ht := exec_train_taken (sw := sw) hup hop hroom hext hctx hremote
    rw [stepAnswer_stepped (s := maintTaken s) hfresh ((stepOk_iff (e := maintEntry pkt s)).mpr hrange)] at ht
    have hbest : widestOf (stepRuns sw (maintEntry pkt s)) = some (f, l) := widestOf_eq (stepLanes_sorted _) hi hwindow hmax
    obtain ⟨c, hc, hmask, hwin, herrors, hcentre, hx⟩ := stepped_shown pkt sw s rfl
    have happlies := stepApplies_iff (x := s.chan (maintEntry pkt s).ctx (fld ((maintEntry pkt s).param 0) 8 8)) hbest
    rw [passedRuns_mask] at hmask
    rw [hbest] at hwin hcentre
    rw [stepChan, passedRuns_centres, hbest] at hx
    refine ⟨_, c, ⟨ht, maintAnswered_shown hop ⟨_, rfl⟩ rfl⟩, hc, hmask, hwin, herrors, fun hnot => ?_, fun happly => ?_⟩
    · have hkept := mt happlies.mp hnot
      rw [if_neg hkept] at hx hcentre
      exact ⟨hx, hcentre⟩
    · have hreplaced := happlies.mpr happly
      rw [if_pos hreplaced] at hx hcentre
      exact ⟨hcentre, hx⟩

end Sys2Proof.DramMaintained
end

section
/-! LINK_CONFIG beside a second journal entry at its own position (12 R285; 03 R61): the step that begins the command takes hold of both. -/

namespace Sys2Proof.LinkFixed

open Sys2Proof.Machine Sys2Proof.Laws

/-- LINK_CONFIG of host queue 0 at position 1: a standalone part is to be chip 1. -/
def rename : JEntry :=
  { jpos := 1, port := .host, queue := 0, asn := 1, pkt := [0x60, 0, 0, 0, 0x01000000] ++ List.replicate 11 0, data := [], tick := 0, st := .waiting,
    cpls := [], posted := 0, waited := 0, origin := none, fwd := none, began := none, client := 0, place := 0, during := false }

/-- A TENSOR_RUN at the same position, forwarded to chip 9. -/
def forwarded : JEntry := { rename with pkt := [0x30, 0, 0, 0] ++ List.replicate 12 0, st := .forwarded, fwd := some (9, false) }

/-- A running part of chip ID 0 with both. -/
def doubled : State := { State.reset with chip := { Chip.reset with phase := .ready }, journal := [rename, forwarded], jpos := 1 }

theorem doubled_runs : Runs doubled 1 0x60 rename := ⟨by decide +kernel, by decide +kernel, by decide +kernel⟩

theorem doubled_busy : (LinkWord.ofWord (rename.param 0)).chip ≠ doubled.link.chip ∧ linkBusy doubled = true := by decide +kernel

theorem doubled_renamed : (doLinkConfig 1 [] doubled).link.chip = 1 := by decide +kernel

/-- Refutes O47: it claims that a change of chip ID completes with CONTEXT_BUSY, and so leaves the chip ID, wherever a forwarded command stands in the journal.
`beginCmd` marks every entry at the command's position as running. The statement has no premise that the positions of the journal are apart (03 R61), and in
`doubled` the forwarded command stands at the position of the LINK_CONFIG: it is forwarded no longer once that has begun, and the chip ID changes. -/
theorem not_linksConfigured : ¬ Obligations.LinksConfigured := by
  unfold Obligations.LinksConfigured
  intro h
  obtain ⟨hconfig, -⟩ := h 1 rename doubled
  obtain ⟨hbusy, -⟩ := hconfig [] doubled_runs
  obtain ⟨hchip, hfixed⟩ := doubled_busy
  have ht : doLinkConfig 1 [] doubled = finish 1 stCtxBusy [] (beginCmd rename doubled) :=
    Host.Outcome.next.inj (hbusy ⟨.inr hchip, hfixed⟩)
  have hrenamed := doubled_renamed
  rw [ht, kept_linkChip (finish_kept 1 stCtxBusy [] _), beginCmd_link] at hrenamed
  exact absurd hrenamed (by decide)

end Sys2Proof.LinkFixed
end

section
/-! Packets on their way out (12 R287, R290, R295): what it changes to hand a packet to a port, to send what the credits allow, and to drop one. -/

namespace Sys2Proof.PacketMoves

open Sys2Proof.Machine Sys2Proof.Laws

/-- A loop relates its two ends as every round relates its own. -/
theorem forAll_related {α : Type} {R : State → State → Prop} (hrefl : ∀ s, R s s) (htrans : ∀ {s t u}, R s t → R t u → R s u)
    {f : α → State → State} (hf : ∀ a s, R s (f a s)) (l : List α) (s : State) : R s (forAll l f s) := by
  induction l generalizing s with
  | nil => exact hrefl s
  | cons a l ih => exact htrans (hf a s) (ih (f a s))

/-! ### Ports -/

theorem lport_congr {s t : State} (h : t.link = s.link) (q : Nat) : t.lport q = s.lport q := by
  simp only [State.lport, h]

theorem setLport_ports {p : Nat} {x : LPort} {s : State} (h : x.kept = (s.lport p).kept) (q : Nat) :
    ((s.setLport p x).lport q).kept = (s.lport q).kept := by
  by_cases hq : q = p
  · rw [hq, lport_setLport, h]
  · rw [lport_setLport_other s x hq]

theorem portUp_congr {s t : State} {q : Nat} (h : (t.lport q).kept = (s.lport q).kept) : portUp t q = portUp s q := by
  have hst : (t.lport q).kept.st = (s.lport q).kept.st := by rw [h]
  exact congrArg (fun n => decide (n = 2)) hst

theorem ctrPort_ne {p q j k : Nat} (hj : j < 8) (hk : k < 8) (h : j ≠ k) : ctrPort p j ≠ ctrPort q k := by
  unfold ctrPort
  omega

theorem count_same (key n : Nat) (s : State) : tget (count key n s).obs.ctrs key 0 = (tget s.obs.ctrs key 0 + n) % 2 ^ 48 := tget_tput_same _ _ _ _

theorem count_other {key m : Nat} (n : Nat) (s : State) (h : m ≠ key) : tget (count key n s).obs.ctrs m 0 = tget s.obs.ctrs m 0 :=
  tget_tput_other _ _ _ h

/-! ### Packets moved -/

/-- Between the two states packets and credits have moved, and packets that found no way were counted (12 R287, R290). No packet handed to a port is lost, and
none joins or leaves the queue of a port that is not UP. -/
structure Moved (s t : State) : Prop where
  shape : ∃ ports tx c, t = { s with link := { s.link with ports := ports, tx := tx }, obs := { s.obs with ctrs := c } }
  port : ∀ q, (t.lport q).kept = (s.lport q).kept
  down : ∀ q, portUp s q = false → (t.lport q).queue = (s.lport q).queue
  handed : ∀ o via p, Handed o via p s → Handed o via p t
  counter : ∀ q k, k < 8 → k ≠ 3 → k ≠ 4 → tget t.obs.ctrs (ctrPort q k) 0 = tget s.obs.ctrs (ctrPort q k) 0

namespace Moved

theorem refl (s : State) : Moved s s := ⟨⟨_, _, _, rfl⟩, fun _ => rfl, fun _ _ => rfl, fun _ _ _ => id, fun _ _ _ _ _ => rfl⟩

theorem trans {s t u : State} (h : Moved s t) (h' : Moved t u) : Moved s u where
  shape := by
    obtain ⟨_, _, _, rfl⟩ := h.shape
    obtain ⟨_, _, _, rfl⟩ := h'.shape
    exact ⟨_, _, _, rfl⟩
  port q := (h'.port q).trans (h.port q)
  down q hq := (h'.down q ((portUp_congr (h.port q)).trans hq)).trans (h.down q hq)
  handed o via p hp := h'.handed o via p (h.handed o via p hp)
  counter q k hk h3 h4 := (h'.counter q k hk h3 h4).trans (h.counter q k hk h3 h4)

theorem forAll {α : Type} {f : α → State → State} (hf : ∀ a s, Moved s (f a s)) (l : List α) (s : State) : Moved s (forAll l f s) :=
  forAll_related refl trans hf l s

theorem routeOut {s t : State} (h : Moved s t) (d : Nat) : routeOut t d = routeOut s d := by
  have hup : portUp t = portUp s := funext fun q => portUp_congr (h.port q)
  obtain ⟨ports, tx, c, ht⟩ := h.shape
  have hroute : t.link.route = s.link.route := by rw [ht]
  have hon : t.link.onAlt = s.link.onAlt := by rw [ht]
  unfold Machine.routeOut onAlternate
  rw [hroute, hon, hup]

theorem count {p k : Nat} (hk : k = 3 ∨ k = 4) (n : Nat) (s : State) : Moved s (count (ctrPort p k) n s) where
  shape := ⟨_, _, _, rfl⟩
  port _ := rfl
  down _ _ := rfl
  handed _ _ _ := id
  counter q m hm h3 h4 := count_other n s (ctrPort_ne hm (by omega) (by omega))

/-- A port with more packets in its queue, if it is UP, or other credits. -/
theorem setLport {p : Nat} {x : LPort} {s : State} (hkept : x.kept = (s.lport p).kept) (hmore : (s.lport p).queue ⊆ x.queue)
    (hdown : portUp s p = false → x.queue = (s.lport p).queue) : Moved s (s.setLport p x) where
  shape := ⟨_, _, _, rfl⟩
  port := setLport_ports hkept
  down q hq := by
    by_cases h : q = p
    · subst h; rw [lport_setLport, hdown hq]
    · rw [lport_setLport_other s x h]
  handed o via pk := by
    rintro (htx | hqueue)
    · exact .inl htx
    · right
      by_cases h : o = p
      · subst h; rw [lport_setLport]; exact hmore hqueue
      · rwa [lport_setLport_other s x h]
  counter _ _ _ _ _ := rfl

theorem creditFree (p k : Nat) (s : State) : Moved s (creditFree p k s) := setLport rfl (List.Subset.refl _) (fun _ => rfl)

end Moved

/-! ### Packets sent (12 R290) -/

/-- The packet `q` at place `k` of the port's queue has left, for one credit. -/
def departed (p k : Nat) (q : LinkPkt × Option (Nat × Nat)) (s : State) : State :=
  let x := s.lport p
  let s := s.setLport p { x with
    queue := x.queue.eraseIdx k, credits := tput x.credits (creditKey q.1) (tget x.credits (creditKey q.1) 0 - 1), lastIn := (q.2.map (·.1)).getD x.lastIn }
  { s with link := { s.link with tx := s.link.tx ++ [(p, q.1)] } }

section Sending

variable {p k : Nat} {q : LinkPkt × Option (Nat × Nat)} {s : State}

theorem sendAt_eq (h : (s.lport p).queue[k]? = some q) :
    sendAt p k s = q.2.elim (departed p k q s) (fun i => creditFree i.1 i.2 (departed p k q s)) := by
  unfold sendAt
  dsimp only
  rw [h]
  cases hq : q.2 <;> simp [hq, departed]

theorem departed_lport_other {o : Nat} (ho : o ≠ p) : (departed p k q s).lport o = s.lport o := lport_setLport_other s _ ho

theorem departed_queue : ((departed p k q s).lport p).queue = (s.lport p).queue.eraseIdx k := by
  change ((s.setLport p _).lport p).queue = _
  rw [lport_setLport]

theorem departed_tx : (departed p k q s).link.tx = s.link.tx ++ [(p, q.1)] := rfl

theorem departed_moved (hup : portUp s p = true) (h : (s.lport p).queue[k]? = some q) : Moved s (departed p k q s) where
  shape := ⟨_, _, _, rfl⟩
  port := setLport_ports rfl
  down o ho := by
    have hne : o ≠ p := fun he => by rw [he, hup] at ho; exact absurd ho (by decide)
    rw [departed_lport_other hne]
  handed o via pk := by
    unfold Handed
    rw [departed_tx, List.mem_append]
    rintro (htx | hqueue)
    · exact .inl (.inl htx)
    · by_cases ho : o = p
      · subst ho
        obtain ⟨hk, rfl⟩ := List.getElem?_eq_some_iff.mp h
        have hmem := (List.getElem_cons_eraseIdx_perm hk).mem_iff.mpr hqueue
        obtain heq | hrest := List.mem_cons.mp hmem
        · rw [← heq]; exact .inl (.inr (List.mem_singleton_self _))
        · rw [departed_queue]; exact .inr hrest
      · rw [departed_lport_other ho]; exact .inr hqueue
  counter _ _ _ _ _ := rfl

theorem sendAt_moved (hup : portUp s p = true) (k : Nat) : Moved s (sendAt p k s) := by
  cases h : (s.lport p).queue[k]? with
  | none => simp only [sendAt, h]; exact .refl s
  | some q =>
    have hleft := departed_moved hup h
    rw [sendAt_eq h]
    cases q.2 with
    | none => exact hleft
    | some i => exact hleft.trans (.creditFree i.1 i.2 _)

theorem drainPort_moved (n p : Nat) (s : State) : Moved s (drainPort n p s) := by
  induction n generalizing s with
  | zero => exact .refl s
  | succ n ih =>
    unfold drainPort
    split
    · exact .refl s
    · next hup =>
      split
      · exact .refl s
      · next k _ => exact (sendAt_moved (by simpa using hup) k).trans (ih _)

variable (via : Option (Nat × Nat)) (pk : LinkPkt)

/-- The packet waits at the port. -/
def waitsAt (p : Nat) (via : Option (Nat × Nat)) (pk : LinkPkt) (s : State) : State :=
  s.setLport p { s.lport p with queue := (s.lport p).queue ++ [(pk, via)] }

theorem linkTx_eq : linkTx p via pk s = drainPort ((s.lport p).queue.length + 1) p (waitsAt p via pk s) := rfl

theorem linkTx_moved (hup : portUp s p = true) : Moved s (linkTx p via pk s) := by
  have hwaits : Moved s (waitsAt p via pk s) :=
    .setLport rfl (List.subset_append_left _ _) (fun h => by rw [hup] at h; exact absurd h (by decide))
  exact hwaits.trans (drainPort_moved _ _ _)

theorem linkTx_handed : Handed p via pk (linkTx p via pk s) := by
  rw [linkTx_eq]
  refine (drainPort_moved _ _ _).handed _ _ _ (.inr ?_)
  rw [waitsAt, lport_setLport]
  exact List.mem_append_right _ (List.mem_singleton_self _)

end Sending

/-! ### Packets routed (12 R287, R295) -/

section Routing

variable {s : State}

theorem routeOut_up {d o : Nat} {b : Bool} (h : routeOut s d = some (o, b)) : portUp s o = true := by
  simp only [routeOut] at h
  split at h
  · next hprim => simp_all
  · split at h
    · next halt => simp_all
    · simp at h

theorem sendOn_eq {pk : LinkPkt} {o : Nat} {b : Bool} (h : routeOut s pk.dest = some (o, b)) :
    sendOn pk s = linkTx o none { pk with turned := b } s := by
  simp only [sendOn, h]

theorem sendOn_moved (pk : LinkPkt) (s : State) : Moved s (sendOn pk s) := by
  cases h : routeOut s pk.dest with
  | none => simp only [sendOn, h]; exact .refl s
  | some r => rw [sendOn_eq (o := r.1) (b := r.2) h]; exact linkTx_moved _ _ (routeOut_up h)

theorem forward_moved (p : Nat) (pk : LinkPkt) (s : State) : Moved s (forward p pk s) := by
  have hdropped {k : Nat} (hk : k = 3 ∨ k = 4) : Moved s (count (ctrPort p k) 1 (creditBack p pk s)) :=
    (Moved.creditFree p (creditKey pk) s).trans (.count hk 1 _)
  unfold forward
  split
  · exact hdropped (.inl rfl)
  · split
    · exact hdropped (.inl rfl)
    · next hup =>
      split
      · exact hdropped (.inr rfl)
      · exact linkTx_moved _ _ (by simpa using hup)

theorem requeue_moved (q : LinkPkt × Option (Nat × Nat)) (s : State) : Moved s (requeue q s) := by
  unfold requeue
  split
  · exact sendOn_moved _ _
  · exact forward_moved _ _ _

/-- What this part had queued is handed to the port that the route names. -/
theorem requeued_handed {l : List (LinkPkt × Option (Nat × Nat))} {pk : LinkPkt} {o : Nat} {b : Bool} (hmem : (pk, none) ∈ l)
    (h : routeOut s pk.dest = some (o, b)) : Handed o none { pk with turned := b } (forAll l requeue s) := by
  induction l generalizing s with
  | nil => simp at hmem
  | cons q l ih =>
    obtain rfl | htail := List.mem_cons.mp hmem
    · refine (Moved.forAll requeue_moved l _).handed _ _ _ ?_
      change Handed o none _ (sendOn pk s)
      rw [sendOn_eq h]
      exact linkTx_handed _ _
    · exact ih htail (((requeue_moved q s).routeOut pk.dest).trans h)

end Routing

end Sys2Proof.PacketMoves
end

section
/-! A port changes its state: what the change leaves alone, how a port that is UP fails, and what a codeword does (12 R281, R282, R290, R295). -/

namespace Sys2Proof.PortFaults

open Sys2Proof.Machine Sys2Proof.Laws Sys2Proof.HostRings Sys2Proof.PacketMoves

/-! ### What stays -/

/-- The ports but `p` keep what is not packets and credits; streams and routes stay. -/
def Others (p : Nat) (s t : State) : Prop :=
  (∀ q, q ≠ p → (t.lport q).kept = (s.lport q).kept) ∧ t.streams = s.streams ∧ t.link.route = s.link.route

/-- So do sessions, safety, device memory, journal and host memory. -/
def Quiet (p : Nat) (s t : State) : Prop :=
  Others p s t ∧ t.sessions = s.sessions ∧ t.safety = s.safety ∧ t.dram = s.dram ∧ t.journal = s.journal ∧ t.hostMem = s.hostMem

section Stays

variable {p : Nat} {s t u : State}

theorem Others.trans (h : Others p s t) (h' : Others p t u) : Others p s u := by
  obtain ⟨hports, hstreams, hroute⟩ := h
  obtain ⟨hports', hstreams', hroute'⟩ := h'
  exact ⟨fun q hq => (hports' q hq).trans (hports q hq), hstreams'.trans hstreams, hroute'.trans hroute⟩

theorem Quiet.trans (h : Quiet p s t) (h' : Quiet p t u) : Quiet p s u := by
  obtain ⟨ho, hsessions, hsafety, hdram, hjournal, hmem⟩ := h
  obtain ⟨ho', hsessions', hsafety', hdram', hjournal', hmem'⟩ := h'
  exact ⟨ho.trans ho', hsessions'.trans hsessions, hsafety'.trans hsafety, hdram'.trans hdram, hjournal'.trans hjournal, hmem'.trans hmem⟩

theorem Quiet.others (h : Quiet p s t) : Others p s t := h.1

theorem quiet_of_moved (h : Moved s t) : Quiet p s t := by
  have hports := h.port
  obtain ⟨ports, tx, c, rfl⟩ := h.shape
  exact ⟨⟨fun q _ => hports q, rfl, rfl⟩, rfl, rfl, rfl, rfl, rfl⟩

theorem quiet_count (key n : Nat) (s : State) : Quiet p s (count key n s) := ⟨⟨fun _ _ => rfl, rfl, rfl⟩, rfl, rfl, rfl, rfl, rfl⟩

end Stays

/-! ### A port replaced -/

section Replaced

variable {p : Nat} {x : LPort} {s : State}

theorem setPort_same (h : x.st = (s.lport p).st) : setPort p x s = s.setLport p x := if_pos h

theorem setPort_changed (h : x.st ≠ (s.lport p).st) : setPort p x s = setCause 19 (s.setLport p x) := if_neg h

/-- The port is replaced, and INTA may tell of it. -/
theorem setPort_shape (p : Nat) (x : LPort) (s : State) :
    ∃ c r a d, setPort p x s = { s.setLport p x with pcie := { s.pcie with cause := c, recent := r, asserted := a, deassertAt := d } } := by
  by_cases h : x.st = (s.lport p).st
  · exact ⟨_, _, _, _, setPort_same h⟩
  · obtain ⟨r, a, d, hcause⟩ := setCause_shape 19 (s.setLport p x)
    exact ⟨_, r, a, d, (setPort_changed h).trans hcause⟩

theorem setPort_link (p : Nat) (x : LPort) (s : State) : (setPort p x s).link = (s.setLport p x).link := by
  obtain ⟨_, _, _, _, h⟩ := setPort_shape p x s
  rw [h]

theorem setPort_lport (p : Nat) (x : LPort) (s : State) : (setPort p x s).lport p = x := by
  rw [lport_congr (setPort_link p x s), lport_setLport]

theorem setPort_lport_other {q : Nat} (hq : q ≠ p) (x : LPort) (s : State) : (setPort p x s).lport q = s.lport q := by
  rw [lport_congr (setPort_link p x s), lport_setLport_other s x hq]

theorem setPort_obs (p : Nat) (x : LPort) (s : State) : (setPort p x s).obs = s.obs := by
  obtain ⟨_, _, _, _, h⟩ := setPort_shape p x s
  rw [h]
  rfl

theorem setPort_quiet (p : Nat) (x : LPort) (s : State) : Quiet p s (setPort p x s) := by
  have hports (q : Nat) (hq : q ≠ p) : ((setPort p x s).lport q).kept = (s.lport q).kept := by rw [setPort_lport_other hq]
  obtain ⟨_, _, _, _, h⟩ := setPort_shape p x s
  rw [h] at hports ⊢
  exact ⟨⟨hports, rfl, rfl⟩, rfl, rfl, rfl, rfl, rfl⟩

end Replaced

/-! ### A port that fails (12 R295) -/

/-- Port `p` has become DOWN_FAULT, and nothing waits at it. -/
def faulted (p : Nat) (s : State) : State := setPort p { s.lport p with st := 3, replays := 0, queue := [] } s

/-- The failure of port `p` is counted, and its routes go to their alternates. -/
def diverted (p : Nat) (s : State) : State :=
  let t := count (ctrPort p 6) 1 s
  { t with link := { t.link with onAlt := (altChips t p).foldl maskSet t.link.onAlt } }

theorem diverted_quiet (p : Nat) (s : State) : Quiet p s (diverted p s) := ⟨⟨fun _ _ => rfl, rfl, rfl⟩, rfl, rfl, rfl, rfl, rfl⟩

/-- Port `p` has failed; what waited at it is still to be sent on. -/
def failed (p : Nat) (s : State) : State := diverted p (faulted p s)

theorem maskBit_foldl_maskSet {l : List Nat} {d : Nat} {m : Nat} (h : d ∈ l ∨ maskBit m d = true) : maskBit (l.foldl maskSet m) d = true := by
  induction l generalizing m with
  | nil => simpa using h
  | cons a l ih =>
    refine ih ?_
    obtain h | h := h
    · obtain rfl | htail := List.mem_cons.mp h
      · exact .inr (Opening.maskBit_maskSet _ _)
      · exact .inl htail
    · right
      rw [maskBit] at h
      simp [maskBit, maskSet, Nat.testBit_or, h]

/-- Between the two states port `p` has failed: its own state, the count of it, its cause, its routes, and what waited at it (12 R295). -/
structure Fell (p : Nat) (s t : State) : Prop where
  port : (t.lport p).kept = { (s.lport p).kept with st := 3, replays := 0 }
  queue : (t.lport p).queue = []
  counted : tget t.obs.ctrs (ctrPort p 6) 0 = (tget s.obs.ctrs (ctrPort p 6) 0 + 1) % 2 ^ 48
  cause : t.pcie.cause.getLsbD 19 = true
  alternates : ∀ d, d < 64 → 128 ≤ tget s.link.route d 0 % 256 → tget s.link.route d 0 / 64 % 2 = 1 → tget s.link.route d 0 % 4 = p →
    maskBit t.link.onAlt d = true
  rerouted : ∀ pk o b, (pk, none) ∈ (s.lport p).queue → routeOut t pk.dest = some (o, b) → Handed o none { pk with turned := b } t

/-- It is enough that the port failed from a state that shows the same port, count and routes. -/
theorem Fell.of_start {p : Nat} {s u t : State} (h : Fell p u t) (hkept : (u.lport p).kept = (s.lport p).kept)
    (hqueue : (u.lport p).queue = (s.lport p).queue) (hcount : tget u.obs.ctrs (ctrPort p 6) 0 = tget s.obs.ctrs (ctrPort p 6) 0)
    (hroute : u.link.route = s.link.route) : Fell p s t where
  port := hkept ▸ h.port
  queue := h.queue
  counted := hcount ▸ h.counted
  cause := h.cause
  alternates := hroute ▸ h.alternates
  rerouted := hqueue ▸ h.rerouted

section Fault

variable {p : Nat} {s : State}

theorem failed_lport : (failed p s).lport p = { s.lport p with st := 3, replays := 0, queue := [] } := setPort_lport p _ s

theorem failed_quiet : Quiet p s (failed p s) := Quiet.trans (t := faulted p s) (setPort_quiet p _ s) (diverted_quiet p _)

theorem faulted_obs : (faulted p s).obs = s.obs := setPort_obs p _ s

theorem failed_counter : tget (failed p s).obs.ctrs (ctrPort p 6) 0 = (tget s.obs.ctrs (ctrPort p 6) 0 + 1) % 2 ^ 48 := by
  have h := count_same (ctrPort p 6) 1 (faulted p s)
  rwa [faulted_obs] at h

theorem failed_counter_other {k : Nat} (hk : k < 6) : tget (failed p s).obs.ctrs (ctrPort p k) 0 = tget s.obs.ctrs (ctrPort p k) 0 := by
  have h := count_other 1 (faulted p s) (ctrPort_ne (p := p) (q := p) (j := k) (k := 6) (by omega) (by decide) (by omega))
  rwa [faulted_obs] at h

theorem failed_alternates {d : Nat} (hd : d < 64) (hvalid : 128 ≤ tget s.link.route d 0 % 256) (halt : tget s.link.route d 0 / 64 % 2 = 1)
    (hprim : tget s.link.route d 0 % 4 = p) : maskBit (failed p s).link.onAlt d = true := by
  obtain ⟨⟨-, -, hroute⟩, -⟩ : Quiet p s (faulted p s) := setPort_quiet p _ s
  refine maskBit_foldl_maskSet (.inl ?_)
  have hmem : d ∈ altChips (faulted p s) p := by
    unfold altChips
    rw [hroute]
    simp only [List.mem_filter, List.mem_range, hd, true_and, Bool.and_eq_true, decide_eq_true_eq]
    exact ⟨⟨by omega, halt⟩, hprim⟩
  exact hmem

variable (hup : (s.lport p).st = 2)
include hup

theorem portFault_eq : portFault p s = forAll (s.lport p).queue requeue (failed p s) := by
  unfold portFault
  dsimp only
  rw [if_pos hup]
  rfl

theorem failed_cause : (failed p s).pcie.cause.getLsbD 19 = true := by
  have hcause : (faulted p s).pcie.cause.getLsbD 19 = true := by
    rw [faulted, setPort_changed (by rw [hup]; exact (by decide : (3 : Nat) ≠ 2))]
    exact setCause_cause (by decide) _
  exact hcause

theorem portFault_moved : Moved (failed p s) (portFault p s) := by
  rw [portFault_eq hup]
  exact .forAll requeue_moved _ _

theorem portFault_quiet : Quiet p s (portFault p s) := failed_quiet.trans (quiet_of_moved (portFault_moved hup))

theorem portFault_counter {k : Nat} (hk : k < 3) : tget (portFault p s).obs.ctrs (ctrPort p k) 0 = tget s.obs.ctrs (ctrPort p k) 0 :=
  ((portFault_moved hup).counter p k (by omega) (by omega) (by omega)).trans (failed_counter_other (by omega))

theorem portFault_fell : Fell p s (portFault p s) := by
  have hmoved := portFault_moved hup
  have hdown : portUp (failed p s) p = false := by rw [portUp, failed_lport]; rfl
  obtain ⟨ports, tx, c, hshape⟩ := hmoved.shape
  refine ⟨?_, ?_, ?_, ?_, fun d hd hvalid halt hprim => ?_, fun pk o b hmem hroute => ?_⟩
  · rw [hmoved.port, failed_lport]; rfl
  · rw [hmoved.down p hdown, failed_lport]
  · rw [hmoved.counter p 6 (by decide) (by decide) (by decide), failed_counter]
  · rw [hshape]; exact failed_cause hup
  · rw [hshape]; exact failed_alternates hd hvalid halt hprim
  · rw [hmoved.routeOut] at hroute
    rw [portFault_eq hup]
    exact requeued_handed hmem hroute

end Fault

theorem portFault_down {p : Nat} {s : State} (h : (s.lport p).st ≠ 2) : portFault p s = s := if_neg h

/-! ### Codewords (12 R281, R290) -/

theorem foldl_credits_get (i n : Nat) (l : List Nat) (t : Tab Nat) (k : Nat) :
    tget (((List.range' i n).zip l).foldl (fun t c => tput t c.1 (tget t c.1 0 + c.2)) t) k 0 =
      tget t k 0 + if i ≤ k ∧ k < i + n then l.getD (k - i) 0 else 0 := by
  induction n generalizing i l t with
  | zero => simp
  | succ n ih =>
    cases l with
    | nil => simp
    | cons c l =>
      rw [List.range'_succ, List.zip_cons_cons, List.foldl_cons, ih]
      by_cases hk : k = i
      · subst hk
        simp
      · rw [tget_tput_other _ _ _ hk]
        by_cases hin : i ≤ k ∧ k < i + (n + 1)
        · obtain ⟨m, rfl⟩ : ∃ m, k = i + 1 + m := ⟨k - (i + 1), by omega⟩
          rw [if_pos (by omega), if_pos hin, show i + 1 + m - (i + 1) = m by omega, show i + 1 + m - i = m + 1 by omega, List.getD_cons_succ]
        · rw [if_neg (by omega), if_neg hin]

/-- Credits add up, class by class and channel by channel. -/
theorem addCredits_get (t : Tab Nat) (l : List Nat) {k : Nat} (hk : k < 6) : tget (addCredits t l) k 0 = tget t k 0 + l.getD k 0 := by
  have h := foldl_credits_get 0 6 l t k
  rwa [if_pos (by omega), ← List.range_eq_range'] at h

section Codeword

variable {p : Nat} {s : State}

theorem pickTx_only {x : LPort} {q : LinkPkt × Option (Nat × Nat)} (hq : x.queue = [q]) (hc : tget x.credits (creditKey q.1) 0 ≠ 0) :
    pickTx x = some 0 := by
  simp [pickTx, hq, hc, List.range_succ]

/-- The one packet that waits leaves for a credit. -/
theorem drainPort_only {pk : LinkPkt} (hup : portUp s p = true) (hq : (s.lport p).queue = [(pk, none)])
    (hc : tget (s.lport p).credits (creditKey pk) 0 ≠ 0) : drainPort 1 p s = departed p 0 (pk, none) s := by
  have hpick : pickTx (s.lport p) = some 0 := pickTx_only hq hc
  have hsend : sendAt p 0 s = departed p 0 (pk, none) s := sendAt_eq (q := (pk, none)) (by rw [hq]; rfl)
  simp only [drainPort, hup, Bool.not_true, Bool.false_eq_true, if_false, hpick, hsend]

/-- A codeword that passes its check has handed back its credits. -/
def credited (p : Nat) (corrected : Bool) (cr : List Nat) (s : State) : State :=
  State.setLport (if corrected then count (ctrPort p 0) 1 s else s) p
    { s.lport p with replays := 0, credits := addCredits (s.lport p).credits cr }

theorem credited_lport (b : Bool) (cr : List Nat) :
    (credited p b cr s).lport p = { s.lport p with replays := 0, credits := addCredits (s.lport p).credits cr } := lport_setLport _ _ _

theorem credited_quiet (b : Bool) (cr : List Nat) : Quiet p s (credited p b cr s) := by
  cases b
  all_goals exact ⟨⟨fun q hq => congrArg LPort.kept (lport_setLport_other _ _ hq), rfl, rfl⟩, rfl, rfl, rfl, rfl, rfl⟩

theorem credited_tx (b : Bool) (cr : List Nat) : (credited p b cr s).link.tx = s.link.tx := by
  cases b <;> rfl

theorem doCodewordReceive_down (h : (s.lport p).st ≠ 2) (b ok : Bool) (cr : List Nat) : doCodewordReceive p b ok cr s = s := if_pos h

variable (hup : (s.lport p).st = 2)
include hup

theorem doCodewordReceive_passes (b : Bool) (cr : List Nat) :
    doCodewordReceive p b true cr s = drainPort (s.lport p).queue.length p (credited p b cr s) := by
  unfold doCodewordReceive
  dsimp only
  rw [if_neg (not_not.mpr hup), if_pos rfl, credited]
  congr 1
  cases b
  all_goals exact setPort_same rfl

theorem doCodewordReceive_replays (b : Bool) (cr : List Nat) (h : (s.lport p).replays < 7) :
    doCodewordReceive p b false cr s = (count (ctrPort p 1) 1 s).setLport p { s.lport p with replays := (s.lport p).replays + 1 } := by
  unfold doCodewordReceive
  dsimp only
  rw [if_neg (not_not.mpr hup), if_neg (by decide), if_neg (by omega)]
  exact setPort_same rfl

theorem doCodewordReceive_fails (b : Bool) (cr : List Nat) (h : 7 ≤ (s.lport p).replays) :
    doCodewordReceive p b false cr s = portFault p (count (ctrPort p 1) 1 s) := by
  unfold doCodewordReceive
  dsimp only
  rw [if_neg (not_not.mpr hup), if_neg (by decide), if_pos (by omega)]

end Codeword

end Sys2Proof.PortFaults
end

section
/-! A peer's sessions close, and its INCARNATION is seen (12 R283, R292, R295, Table 12.7): what this keeps, what it forgets and which sessions it closes. -/

namespace Sys2Proof.PeerLoss

open Sys2Proof.Machine Sys2Proof.Laws Sys2Proof.Posting Sys2Proof.NicheEnds Sys2Proof.SessionFrames Sys2Proof.Collectives Sys2Proof.PacketMoves

/-! ### Buffers that go back -/

theorem release_ctrs (a : Alloc) (s : State) : (release a s).obs.ctrs = s.obs.ctrs := by
  obtain ⟨d, h | h⟩ := release_cases a s
  · rw [h]
  · obtain ⟨_, _, _, _, _, _, _, _, hdetect⟩ := detect_shape 17 { s with dram := d }
    rw [h, hdetect]

theorem releases_ctrs (l : List Alloc) (s : State) : (forAll l release s).obs.ctrs = s.obs.ctrs :=
  forAll_related (R := fun s t => t.obs.ctrs = s.obs.ctrs) (fun _ => rfl) (fun h h' => h'.trans h) release_ctrs l s

theorem dropPages_ctrs (n : Nat) (s : State) : (dropPages n s).obs.ctrs = s.obs.ctrs := by
  unfold dropPages
  dsimp only
  rw [releases_ctrs]
  exact releases_ctrs _ _

theorem dropPages_link (n : Nat) (s : State) : (dropPages n s).link = s.link := by
  obtain ⟨_, _, _, _, h⟩ := dropPages_released n s
  rw [h]
  rfl

/-! ### Shadow sessions closed (12 R295) -/

/-- Session `n` is closed, and no shadow of another part's. -/
def Shut (n : Nat) (s : State) : Prop := (s.session n).isOpen = false ∧ (s.session n).shadow = none

/-- Between the two states shadow sessions have closed: closed ones stay closed, and ports, counters and streams are as they were. -/
structure Closed (s t : State) : Prop where
  link : t.link = s.link
  ctrs : t.obs.ctrs = s.obs.ctrs
  streams : t.streams = s.streams
  shut : ∀ n, Shut n s → Shut n t

theorem Closed.refl (s : State) : Closed s s := ⟨rfl, rfl, rfl, fun _ => id⟩

theorem Closed.trans {s t u : State} (h : Closed s t) (h' : Closed t u) : Closed s u :=
  ⟨h'.link.trans h.link, h'.ctrs.trans h.ctrs, h'.streams.trans h.streams, fun n hn => h'.shut n (h.shut n hn)⟩

theorem dropShadow_shut (n : Nat) (s : State) : Shut n (dropShadow n s) := by
  rw [Shut, dropShadow_session]
  exact ⟨rfl, rfl⟩

theorem dropShadow_closed (n : Nat) (s : State) : Closed s (dropShadow n s) where
  link := dropPages_link n s
  ctrs := dropPages_ctrs n s
  streams := dropPages_streams n s
  shut k hk := by
    by_cases h : k = n
    · subst h; exact dropShadow_shut k s
    · rwa [Shut, dropShadow_session_other h]

theorem dropShadows_closed {α : Type} (f : α → Nat) (l : List α) (s : State) : Closed s (forAll l (fun a => dropShadow (f a)) s) :=
  forAll_related Closed.refl Closed.trans (fun a s => dropShadow_closed (f a) s) l s

theorem dropShadows_shut {α : Type} {f : α → Nat} {l : List α} {a : α} (h : a ∈ l) (s : State) : Shut (f a) (forAll l (fun a => dropShadow (f a)) s) := by
  induction l generalizing s with
  | nil => simp at h
  | cons b l ih =>
    rw [forAll_cons]
    obtain rfl | htail := List.mem_cons.mp h
    · exact (dropShadows_closed f l _).shut _ (dropShadow_shut _ s)
    · exact ih htail _

theorem closeShadows_closed (chip : Nat) (s : State) : Closed s (closeShadows chip s) := dropShadows_closed Prod.fst _ s

theorem mem_of_tfind {α : Type} {t : Tab α} {k : Nat} {v : α} (h : tfind t k = some v) : (k, v) ∈ t := by
  induction t with
  | nil => simp [tfind] at h
  | cons e r ih =>
    obtain ⟨k', v'⟩ := e
    simp only [tfind] at h
    split at h
    · next hk => simp_all
    · exact List.mem_cons_of_mem _ (ih h)

/-- A session that is a shadow is listed. -/
theorem session_listed {n : Nat} {s : State} (h : (s.session n).shadow.isSome = true) : (n, s.session n) ∈ s.sessions := by
  refine mem_of_tfind ?_
  rw [State.session, tget_eq_tfind] at h ⊢
  cases hfind : tfind s.sessions n with
  | none => rw [hfind] at h; exact absurd h (by decide)
  | some x => rfl

/-- The shadow sessions of a chip close. -/
theorem closeShadows_shut {chip n : Nat} {s : State} (h : (s.session n).shadow.map (·.1) = some chip) : Shut n (closeShadows chip s) := by
  obtain ⟨⟨c, g⟩, hshadow, rfl⟩ := Option.map_eq_some_iff.mp h
  have hlisted := session_listed (n := n) (s := s) (by rw [hshadow]; rfl)
  refine dropShadows_shut (f := Prod.fst) (a := (n, s.session n)) (List.mem_filter.mpr ⟨hlisted, ?_⟩) s
  simp only [hshadow, decide_true]

/-! ### Completions on their way -/

theorem postAll_link (q : Nat) (irq : Bool) (k : Nat) (cs : List Cpl) (s : State) : (postAll q irq k cs s).link = s.link := by
  induction cs generalizing k s with
  | nil => rfl
  | cons c cs ih => exact (ih _ _).trans (postHost_link _ _ _ _ _)

theorem postEntry_link (q : Nat) (e : JEntry) (s : State) : (postEntry q e s).link = s.link := by
  unfold postEntry
  dsimp only
  split <;> exact postAll_link _ _ _ _ _

theorem flushEntries_link (q : Nat) (ok : Bool) (done es : List JEntry) (s : State) : (flushEntries q ok done es s).link = s.link := by
  induction es generalizing ok done s with
  | nil => rfl
  | cons e es ih =>
    obtain ⟨_, h⟩ | h | h := flushEntries_cons q ok done es e s
    · rw [h, ih]
    · rw [h, ih, postEntry_link]
    · rw [h, ih, postAll_link]

theorem flush_link (s : State) : (flush s).link = s.link := by
  unfold flush
  split
  · rfl
  · dsimp only
    rw [flushEntries_link, flushEntries_link]

/-- Between the two states completions have left: what `kept` keeps, and every port but for packets and credits. -/
structure Reported (s t : State) : Prop where
  kept : kept t = kept s
  port : ∀ q, (t.lport q).kept = (s.lport q).kept

theorem Reported.refl (s : State) : Reported s s := ⟨rfl, fun _ => rfl⟩

theorem Reported.trans {s t u : State} (h : Reported s t) (h' : Reported t u) : Reported s u :=
  ⟨h'.kept.trans h.kept, fun q => (h'.port q).trans (h.port q)⟩

theorem sendSeq_ports (dest cls type ctx gen : Nat) (aux aux2 : Word) (data : List Word) (s : State) (q : Nat) :
    ((sendSeq dest cls type ctx gen aux aux2 data s).lport q).kept = (s.lport q).kept := by
  unfold sendSeq
  dsimp only
  split
  · rfl
  · split
    · rfl
    · next port b hroute => exact (linkTx_moved none _ (routeOut_up hroute)).port q

theorem produce_reported (j : Nat) (c : Cpl) (s : State) : Reported s (produce j c s) := by
  refine ⟨produce_kept j c s, fun q => ?_⟩
  unfold produce
  split
  · rfl
  · dsimp only
    split
    · rw [lport_congr (flush_link _)]; rfl
    · rfl
    · rfl
    · split
      · rfl
      · exact sendSeq_ports _ _ _ _ _ _ _ _ _ q

theorem finish_reported (j st : Nat) (r : List Word) (s : State) : Reported s (finish j st r s) := by
  unfold finish
  split
  · exact .refl s
  · exact produce_reported _ _ s

theorem resendKept_reported (s : State) : Reported s (resendKept s) := by
  refine forAll_related Reported.refl Reported.trans (fun k s => ?_) _ s
  dsimp only
  split
  · exact .refl s
  · exact ⟨sendSeq_kept _ _ _ _ _ _ _ _ _, sendSeq_ports _ _ _ _ _ _ _ _ _⟩

theorem resendKept_nil {s : State} (h : s.link.kept = []) : resendKept s = s := by
  rw [resendKept, h]
  rfl

/-! ### A peer that is lost (12 R292) -/

/-- Between the two states a peer has been lost: ports, streams, routes and INCARNATIONs are as they were, and closed sessions stay closed. -/
structure Lost (s t : State) : Prop where
  port : ∀ q, (t.lport q).kept = (s.lport q).kept
  streams : t.streams = s.streams
  route : t.link.route = s.link.route
  peerInc : t.link.peerInc = s.link.peerInc
  shut : ∀ n, Shut n s → Shut n t

namespace Lost

theorem refl (s : State) : Lost s s := ⟨fun _ => rfl, rfl, rfl, rfl, fun _ => id⟩

theorem trans {s t u : State} (h : Lost s t) (h' : Lost t u) : Lost s u :=
  ⟨fun q => (h'.port q).trans (h.port q), h'.streams.trans h.streams, h'.route.trans h.route, h'.peerInc.trans h.peerInc,
    fun n hn => h'.shut n (h.shut n hn)⟩

theorem forAll {α : Type} {f : α → State → State} (hf : ∀ a s, Lost s (f a s)) (l : List α) (s : State) : Lost s (forAll l f s) :=
  forAll_related refl trans hf l s

theorem of_reported {s t : State} (h : Reported s t) : Lost s t where
  port := h.port
  streams := kept_streams h.kept
  route := kept_route h.kept
  peerInc := congrArg (·.link.peerInc) h.kept
  shut n hn := by
    have hsession : t.session n = s.session n := by simp only [State.session, kept_sessions h.kept]
    rwa [Shut, hsession]

theorem of_closed {s t : State} (h : Closed s t) : Lost s t where
  port q := by rw [lport_congr h.link]
  streams := h.streams
  route := by rw [h.link]
  peerInc := by rw [h.link]
  shut := h.shut

theorem modSession (n : Nat) {f : Session → Session} (hf : ∀ x, (f x).isOpen = x.isOpen ∧ (f x).shadow = x.shadow) (s : State) :
    Lost s (s.modSession n f) where
  port _ := rfl
  streams := rfl
  route := rfl
  peerInc := rfl
  shut k hk := by
    by_cases h : k = n
    · subst h
      obtain ⟨hopen, hshadow⟩ := hf (s.session k)
      rw [Shut, session_modSession, hopen, hshadow]
      exact hk
    · rwa [Shut, session_modSession_other s f h]

theorem withJobs (l : List BeJob) (s : State) : Lost s { s with jobs := l } := ⟨fun _ => rfl, rfl, rfl, rfl, fun _ => id⟩

end Lost

theorem losePeer_lost (chip n : Nat) (s : State) : Lost s (losePeer chip n s) := by
  have hmod := (Lost.withJobs (s.jobs.filter (fun b => decide (b.sess ≠ some n))) s).trans
    (.modSession n (f := fun x => { x with peerLost := true, work := none, gathers := [], headRows := [], colls := x.colls.filter (fun c => c.1 ≠ chip),
                                            accepted := tdel x.accepted chip, collFail := if x.collFail = 0 then stPeerFlr else x.collFail })
      (fun _ => ⟨rfl, rfl⟩) _)
  unfold losePeer
  dsimp only
  split
  · exact hmod.trans (.of_reported (finish_reported _ _ _ _))
  · exact hmod

/-! ### An INCARNATION seen (12 R283, R292) -/

/-- The INCARNATION of a chip is noted. -/
def noted (chip : Nat) (inc : Word) (s : State) : State := { s with link := { s.link with peerInc := tput s.link.peerInc chip inc } }

/-- The commands forwarded to a chip are abandoned, its shadow sessions close, and sessions spread over it lose it. -/
def abandoned (chip : Nat) (s : State) : State :=
  loseSpread chip (closeShadows chip (forAll (forwardedTo s chip) (fun j s => finish j stPeerFlr [] s) s))

/-- What a chip sent is forgotten. -/
def forgotten (chip : Nat) (s : State) : State :=
  { s with link := { s.link with
      pairs := s.link.pairs.map (fun p => if p.1 / 4 = chip then (p.1, { p.2 with expect := 1, sinceAck := 0 }) else p), highest := tdel s.link.highest chip,
      taken := s.link.taken.filter (fun t => t.1 ≠ chip), kept := s.link.kept.filter (fun k => k.1 ≠ chip) } }

section Incarnation

variable {chip : Nat} {inc : Word} {s : State}

theorem seeIncarnation_same (h : ∀ o, tfind s.link.peerInc chip = some o → o = inc) : seeIncarnation chip inc s = noted chip inc s := by
  unfold seeIncarnation
  cases hfind : tfind s.link.peerInc chip with
  | none => rfl
  | some o => exact if_pos (h o hfind)

theorem seeIncarnation_changed {o : Word} (hfind : tfind s.link.peerInc chip = some o) (h : o ≠ inc) :
    seeIncarnation chip inc s = forgotten chip (abandoned chip (noted chip inc s)) := by
  unfold seeIncarnation
  rw [hfind]
  exact if_neg h

theorem finishes_lost (l : List Nat) (st : Nat) (s : State) : Lost s (forAll l (fun j s => finish j st [] s) s) :=
  .forAll (fun j s => .of_reported (finish_reported j st [] s)) l s

theorem loseSpread_lost (chip : Nat) (s : State) : Lost s (loseSpread chip s) := .forAll (losePeer_lost chip) _ s

theorem abandoned_lost (chip : Nat) (s : State) : Lost s (abandoned chip s) :=
  ((finishes_lost (forwardedTo s chip) stPeerFlr s).trans (.of_closed (closeShadows_closed chip _))).trans (loseSpread_lost chip _)

theorem forgotten_lost (chip : Nat) (s : State) : Lost s (forgotten chip s) := ⟨fun _ => rfl, rfl, rfl, rfl, fun _ => id⟩

theorem seeIncarnation_lost (chip : Nat) (inc : Word) (s : State) : Lost (noted chip inc s) (seeIncarnation chip inc s) := by
  by_cases h : ∀ o, tfind s.link.peerInc chip = some o → o = inc
  · rw [seeIncarnation_same h]; exact .refl _
  · push Not at h
    obtain ⟨o, hfind, hne⟩ := h
    rw [seeIncarnation_changed hfind hne]
    exact (abandoned_lost chip _).trans (forgotten_lost chip _)

theorem abandoned_shut {n : Nat} (h : (s.session n).shadow.map (·.1) = some chip) : Shut n (abandoned chip s) := by
  have hsessions : (forAll (forwardedTo s chip) (fun j s => finish j stPeerFlr [] s) s).sessions = s.sessions :=
    kept_sessions (forAll_kept _ _ (fun j s => finish_kept j stPeerFlr [] s) s)
  refine (loseSpread_lost chip _).shut n (closeShadows_shut ?_)
  rwa [State.session, hsessions]

theorem tfind_tdel {α : Type} (t : Tab α) (k : Nat) : tfind (tdel t k) k = none := by
  induction t with
  | nil => rfl
  | cons e r ih =>
    obtain ⟨k', v⟩ := e
    by_cases h : k' = k
    · simpa [tdel, h] using ih
    · simpa [tdel, h, tfind] using ih

end Incarnation

end Sys2Proof.PeerLoss
end

section
/-! Ports train, fail and come back (12 R281-R283, R287, R290, R292, R295). -/

namespace Sys2Proof.PortsTraining

open Sys2Proof.Machine Sys2Proof.Laws Sys2Proof.PacketMoves Sys2Proof.PortFaults Sys2Proof.PeerLoss

/-! ### Codewords (R281, R290) -/

section Codewords

variable {p : Nat} {s : State} (hup : (s.lport p).st = 2)
include hup

/-- The eighth replay in a row takes the port down, and is counted as the others are. -/
theorem replay_fault : Fell p s (portFault p (count (ctrPort p 1) 1 s)) ∧
    tget (portFault p (count (ctrPort p 1) 1 s)).obs.ctrs (ctrPort p 1) 0 = (tget s.obs.ctrs (ctrPort p 1) 0 + 1) % 2 ^ 48 ∧
    Quiet p s (portFault p (count (ctrPort p 1) 1 s)) := by
  have hcounted : ((count (ctrPort p 1) 1 s).lport p).st = 2 := hup
  refine ⟨(portFault_fell hcounted).of_start rfl rfl ?_ rfl, ?_, (quiet_count _ 1 s).trans (portFault_quiet hcounted)⟩
  · exact count_other 1 s (ctrPort_ne (by decide) (by decide) (by decide))
  · exact (portFault_counter hcounted (by decide)).trans (count_same _ 1 s)

omit hup in
theorem replayed_quiet (x : LPort) : Quiet p s ((count (ctrPort p 1) 1 s).setLport p x) :=
  (quiet_count (ctrPort p 1) 1 s).trans ⟨⟨fun _ hq => congrArg LPort.kept (lport_setLport_other _ _ hq), rfl, rfl⟩, rfl, rfl, rfl, rfl, rfl⟩

omit hup in
/-- A codeword that passes its check ends the row of replays, and the packets that its credits let leave change nothing else. -/
theorem credited_drained (n : Nat) (b : Bool) (cr : List Nat) :
    ((drainPort n p (credited p b cr s)).lport p).kept = { (s.lport p).kept with replays := 0 } ∧
    (b = true → tget (drainPort n p (credited p b cr s)).obs.ctrs (ctrPort p 0) 0 = (tget s.obs.ctrs (ctrPort p 0) 0 + 1) % 2 ^ 48) ∧
    Quiet p s (drainPort n p (credited p b cr s)) := by
  have hmoved := drainPort_moved n p (credited p b cr s)
  refine ⟨(hmoved.port p).trans (congrArg LPort.kept (credited_lport b cr)), fun hb => ?_, (credited_quiet b cr).trans (quiet_of_moved hmoved)⟩
  subst hb
  exact (hmoved.counter p 0 (by decide) (by decide) (by decide)).trans (count_same _ 1 s)

omit hup in
theorem credited_credits (b : Bool) (cr : List Nat) {k : Nat} (hk : k < 6) :
    tget ((credited p b cr s).lport p).credits k 0 = tget (s.lport p).credits k 0 + cr.getD k 0 := by
  rw [credited_lport, addCredits_get _ _ hk]

/-- The one packet that waits leaves when there is a credit for it. -/
theorem credited_sends {pk : LinkPkt} (b : Bool) {cr : List Nat} (hq : (s.lport p).queue = [(pk, none)]) (hkey : creditKey pk < 6)
    (hcredit : 0 < tget (s.lport p).credits (creditKey pk) 0 + cr.getD (creditKey pk) 0) :
    (drainPort 1 p (credited p b cr s)).link.tx = s.link.tx ++ [(p, pk)] ∧ ((drainPort 1 p (credited p b cr s)).lport p).queue = [] := by
  have hwaits : ((credited p b cr s).lport p).queue = [(pk, none)] := (congrArg LPort.queue (credited_lport b cr)).trans hq
  have hcan : portUp (credited p b cr s) p = true := by rw [portUp, credited_lport]; exact decide_eq_true hup
  have henough : tget ((credited p b cr s).lport p).credits (creditKey pk) 0 ≠ 0 := by
    rw [credited_credits b cr hkey]
    exact hcredit.ne'
  rw [drainPort_only hcan hwaits henough, departed_queue, departed_tx, credited_tx, hwaits]
  exact ⟨rfl, rfl⟩

end Codewords

/-! ### FLR_NOTICE (Table 12.7) -/

section Notice

variable {p : Nat} {s : State}

/-- The part as the port's fault finds it: the packet's buffer is free, and the sender's shadow sessions are closed. -/
def noticed (p : Nat) (pk : LinkPkt) (s : State) : State := closeShadows pk.src (creditBack p pk s)

theorem doFlrNotice_down (h : (s.lport p).st ≠ 2) (pk : LinkPkt) : doFlrNotice p pk s = s := by
  unfold doFlrNotice
  rw [if_pos (by simp [portUp, h])]

theorem doFlrNotice_up {pk : LinkPkt} (hup : (s.lport p).st = 2) (hcrc : pktCrcOk pk = true) :
    doFlrNotice p pk s = portFault p (noticed p pk s) := by
  unfold doFlrNotice
  rw [if_neg (by simp [portUp, hup]), if_neg (by simp [hcrc])]
  rfl

variable (pk : LinkPkt)

theorem noticed_closed : Closed (creditBack p pk s) (noticed p pk s) := closeShadows_closed _ _

theorem noticed_ports (q : Nat) : ((noticed p pk s).lport q).kept = (s.lport q).kept := by
  rw [lport_congr (noticed_closed pk).link]
  exact (Moved.creditFree p (creditKey pk) s).port q

theorem noticed_queue : ((noticed p pk s).lport p).queue = (s.lport p).queue := by
  rw [lport_congr (noticed_closed pk).link, creditBack, creditFree, lport_setLport]

theorem noticed_others : Others p s (noticed p pk s) :=
  ⟨fun q _ => noticed_ports pk q, (noticed_closed pk).streams, congrArg (·.route) (noticed_closed pk).link⟩

/-- FLR_NOTICE takes the port down and closes the sender's shadow sessions. -/
theorem noticed_fault (hup : (s.lport p).st = 2) : Fell p s (portFault p (noticed p pk s)) ∧ Others p s (portFault p (noticed p pk s)) ∧
    ∀ n, (s.session n).shadow.map (·.1) = some pk.src → Shut n (portFault p (noticed p pk s)) := by
  have hnoticed : ((noticed p pk s).lport p).st = 2 := (congrArg LPort.st (noticed_ports pk p) :).trans hup
  have hquiet := portFault_quiet hnoticed
  refine ⟨(portFault_fell hnoticed).of_start (noticed_ports pk p) (noticed_queue pk) ?_ ?_, (noticed_others pk).trans hquiet.others, fun n hn => ?_⟩
  · rw [(noticed_closed pk).ctrs]; rfl
  · rw [(noticed_closed pk).link]; rfl
  · obtain ⟨-, hsessions, -⟩ := hquiet
    rw [Shut, State.session, hsessions]
    exact closeShadows_shut (s := creditBack p pk s) hn

end Notice

/-! ### Training (R282, R283) -/

section Training

variable {p chip role peer tx ty : Nat} {inc : Word} {cr : List Nat} {s : State}

/-- The peer that answered belongs to this part's configuration (R283). -/
def SameSystem (p role peer tx ty : Nat) (s : State) : Prop :=
  role = s.link.role ∧ (s.link.role = 2 → tx = s.link.torusX ∧ ty = s.link.torusY) ∧ peer = (if p % 2 = 0 then p + 1 else p - 1)

/-- The port as its training leaves it when it comes UP. -/
def trained (chip : Nat) (cr : List Nat) (x : LPort) : LPort :=
  { x with st := 2, peer := chip, replays := 0, queue := [], credits := (List.range 6).zip cr, freed := [], lastIn := 0 }

theorem doPortTrainRetry_starts (hen : (s.lport p).enabled = true) (hdown : (s.lport p).st ≠ 2) :
    doPortTrainRetry p s = setPort p { s.lport p with st := 1 } s := by
  unfold doPortTrainRetry
  dsimp only
  rw [if_pos (by simp [hen, hdown])]

theorem doPortTrainRetry_stays (h : (s.lport p).enabled = false ∨ (s.lport p).st = 2) : doPortTrainRetry p s = s := by
  unfold doPortTrainRetry
  dsimp only
  rw [if_neg (by obtain h | h := h <;> simp [h])]

theorem doTrainingComplete_ignored {r : TrainEnd} (h : (s.lport p).enabled = false ∨ (s.lport p).st ≠ 1 ∨ r = .failed) :
    doTrainingComplete p r s = s := by
  unfold doTrainingComplete
  dsimp only
  split
  · rfl
  · next hgoes =>
    simp only [Bool.not_eq_true', Bool.not_eq_false, Bool.and_eq_true, decide_eq_true_eq] at hgoes
    obtain ⟨hen, htrains⟩ := hgoes
    obtain h | h | rfl := h
    · rw [h] at hen; exact absurd hen (by decide)
    · exact absurd htrains h
    · rfl

theorem sameSystem_fails_iff : (role ≠ s.link.role ∨ (s.link.role = 2 ∧ (tx ≠ s.link.torusX ∨ ty ≠ s.link.torusY)) ∨ peer ≠ opposite p) ↔
    ¬ SameSystem p role peer tx ty s := by
  unfold SameSystem opposite
  tauto

variable (hen : (s.lport p).enabled = true) (htrains : (s.lport p).st = 1)
include hen htrains

theorem doTrainingComplete_identity : doTrainingComplete p (.identity chip role peer tx ty inc cr) s =
    if role ≠ s.link.role ∨ (s.link.role = 2 ∧ (tx ≠ s.link.torusX ∨ ty ≠ s.link.torusY)) ∨ peer ≠ opposite p then setPort p { s.lport p with st := 4 } s
    else if chip = s.link.chip then setPort p { s.lport p with st := 5 } s
    else resendKept (seeIncarnation chip inc (setPort p (trained chip cr (s.lport p)) s)) := by
  unfold doTrainingComplete
  dsimp only
  rw [if_neg (by simp [hen, htrains])]
  rfl

theorem doTrainingComplete_mismatch (h : ¬ SameSystem p role peer tx ty s) :
    doTrainingComplete p (.identity chip role peer tx ty inc cr) s = setPort p { s.lport p with st := 4 } s := by
  rw [doTrainingComplete_identity hen htrains, if_pos (sameSystem_fails_iff.mpr h)]

theorem doTrainingComplete_conflict (h : SameSystem p role peer tx ty s) (hchip : chip = s.link.chip) :
    doTrainingComplete p (.identity chip role peer tx ty inc cr) s = setPort p { s.lport p with st := 5 } s := by
  rw [doTrainingComplete_identity hen htrains, if_neg (fun hn => sameSystem_fails_iff.mp hn h), if_pos hchip]

theorem doTrainingComplete_up (h : SameSystem p role peer tx ty s) (hchip : chip ≠ s.link.chip) :
    doTrainingComplete p (.identity chip role peer tx ty inc cr) s = resendKept (seeIncarnation chip inc (setPort p (trained chip cr (s.lport p)) s)) := by
  rw [doTrainingComplete_identity hen htrains, if_neg (fun hn => sameSystem_fails_iff.mp hn h), if_neg hchip]

end Training

/-! ### A port that comes UP (R283, R290, R292) -/

section Up

variable {p chip : Nat} {inc : Word} {s : State}

/-- The part once port `p` has come UP as `y`: the peer's INCARNATION is seen, and completions kept for it leave. -/
def metPeer (p chip : Nat) (inc : Word) (y : LPort) (s : State) : State := resendKept (seeIncarnation chip inc (setPort p y s))

theorem metPeer_lost (y : LPort) : Lost (noted chip inc (setPort p y s)) (metPeer p chip inc y s) :=
  (seeIncarnation_lost chip inc _).trans (.of_reported (resendKept_reported _))

theorem metPeer_port (y : LPort) : ((metPeer p chip inc y s).lport p).kept = y.kept := by
  rw [(metPeer_lost y).port]
  exact congrArg LPort.kept (setPort_lport p y s)

theorem metPeer_others (y : LPort) : Others p s (metPeer p chip inc y s) := by
  have hlost := metPeer_lost (p := p) (chip := chip) (inc := inc) (s := s) y
  exact (setPort_quiet p y s).others.trans ⟨fun q _ => hlost.port q, hlost.streams, hlost.route⟩

theorem metPeer_noted (y : LPort) : tfind (metPeer p chip inc y s).link.peerInc chip = some inc := by
  rw [(metPeer_lost y).peerInc]
  exact tfind_tput_same _ _ _

/-- With nothing kept for the peer and no change of its INCARNATION the port alone has changed. -/
theorem metPeer_known (y : LPort) (hkept : s.link.kept = []) (hinc : ∀ o, tfind s.link.peerInc chip = some o → o = inc) :
    metPeer p chip inc y s = noted chip inc (setPort p y s) := by
  have hlink := setPort_link p y s
  rw [metPeer, seeIncarnation_same (by rw [hlink]; exact hinc)]
  refine resendKept_nil ?_
  rw [noted, hlink]
  exact hkept

/-- A changed INCARNATION: what the chip sent is forgotten, and its shadow sessions close. -/
theorem metPeer_changed (y : LPort) {o : Word} (hfind : tfind s.link.peerInc chip = some o) (hne : o ≠ inc) :
    tfind (metPeer p chip inc y s).link.highest chip = none ∧ (∀ q, (chip, q) ∉ (metPeer p chip inc y s).link.taken) ∧
    ∀ n, (s.session n).shadow.map (·.1) = some chip → Shut n (metPeer p chip inc y s) := by
  have hfind' : tfind (setPort p y s).link.peerInc chip = some o := by rw [setPort_link]; exact hfind
  obtain ⟨-, hsessions, -⟩ := setPort_quiet p y s
  have hreported := resendKept_reported (seeIncarnation chip inc (setPort p y s))
  have htaken : (metPeer p chip inc y s).link.taken = (seeIncarnation chip inc (setPort p y s)).link.taken := congrArg (·.link.taken) hreported.kept
  rw [htaken]
  refine ⟨?_, fun q hq => ?_, fun n hn => (Lost.of_reported hreported).shut n ?_⟩
  · rw [metPeer, kept_highest hreported.kept, seeIncarnation_changed hfind' hne]
    exact tfind_tdel _ _
  · rw [seeIncarnation_changed hfind' hne] at hq
    simp [forgotten] at hq
  · rw [seeIncarnation_changed hfind' hne]
    refine (forgotten_lost chip _).shut n (abandoned_shut ?_)
    change ((setPort p y s).session n).shadow.map (·.1) = some chip
    rwa [State.session, hsessions]

end Up

/-- Settles O48: a port that fails by `portFault_fell` and `portFault_quiet`, whatever took it down; codewords by what `drainPort` sends; training by how the
peer's identity compares, a port that comes UP by what `metPeer` keeps and forgets. -/
theorem portsTrainAndFail : Obligations.PortsTrainAndFail := by
  unfold Obligations.PortsTrainAndFail
  intro p s x others quiet counts fell gone
  have hfell {t : State} (h : Fell p s t) : fell t := ⟨h.port, h.queue, h.counted, h.cause, h.alternates, h.rerouted⟩
  refine ⟨fun hup => ⟨fun c hc => ?_, fun b hreplays => ?_, fun b hreplays => ?_, fun b cr => ?_, fun pk hcrc => ?_⟩,
    fun hdown => ⟨fun c hc => ?_, fun b cr => ?_, fun pk => ?_⟩, fun hen hdown => ?_, fun h => ?_, fun r h => ?_,
    fun hen htrains chip role peer tx ty inc cr => ⟨fun hother => ?_, fun hsame hchip => ?_, fun hsame hchip => ?_⟩⟩
  · have hexec : exec c s = .next (portFault p s) := by
      simp only [List.mem_cons, List.not_mem_nil, or_false] at hc
      obtain rfl | rfl := hc <;> rfl
    exact ⟨_, hexec, hfell (portFault_fell hup), portFault_quiet hup⟩
  · obtain ⟨hfault, hcounts, hquiet⟩ := replay_fault hup
    exact ⟨_, congrArg Host.Outcome.next (doCodewordReceive_fails hup b _ hreplays), hfell hfault, hcounts, hquiet⟩
  · exact ⟨_, congrArg Host.Outcome.next (doCodewordReceive_replays hup b _ hreplays), lport_setLport _ _ _, count_same _ 1 s, replayed_quiet _, rfl⟩
  · obtain ⟨hkept, hcounts, hquiet⟩ := credited_drained (p := p) (s := s) x.queue.length b cr
    refine ⟨_, congrArg Host.Outcome.next (doCodewordReceive_passes hup b cr), hkept, hcounts, hquiet, fun hq => ?_, fun pk hq hkey hcredit => ?_⟩
    · rw [show (s.lport p).queue.length = 0 from congrArg List.length hq]
      exact ⟨credited_tx b cr, fun k hk => credited_credits b cr hk⟩
    · rw [show (s.lport p).queue.length = 1 from congrArg List.length hq]
      exact credited_sends hup b hq hkey hcredit
  · obtain ⟨hfault, hothers, hgone⟩ := noticed_fault pk hup
    exact ⟨_, congrArg Host.Outcome.next (doFlrNotice_up hup hcrc), hfell hfault, hothers, hgone⟩
  · have hexec : exec c s = .next (portFault p s) := by
      simp only [List.mem_cons, List.not_mem_nil, or_false] at hc
      obtain rfl | rfl := hc <;> rfl
    rw [hexec, portFault_down hdown]
  · exact congrArg Host.Outcome.next (doCodewordReceive_down hdown b _ _)
  · exact congrArg Host.Outcome.next (doFlrNotice_down hdown pk)
  · exact ⟨_, congrArg Host.Outcome.next (doPortTrainRetry_starts hen hdown), setPort_lport p _ s, setPort_quiet p _ s⟩
  · exact congrArg Host.Outcome.next (doPortTrainRetry_stays h)
  · exact congrArg Host.Outcome.next (doTrainingComplete_ignored h)
  · exact ⟨_, congrArg Host.Outcome.next (doTrainingComplete_mismatch hen htrains hother), setPort_lport p _ s, setPort_quiet p _ s⟩
  · exact ⟨_, congrArg Host.Outcome.next (doTrainingComplete_conflict hen htrains hsame hchip), setPort_lport p _ s, setPort_quiet p _ s⟩
  · refine ⟨metPeer p chip inc (trained chip cr x) s, congrArg Host.Outcome.next (doTrainingComplete_up hen htrains hsame hchip), metPeer_port _,
      metPeer_others _, metPeer_noted _, fun hkept hinc => ?_, fun o hfind hne => metPeer_changed _ hfind hne⟩
    rw [metPeer_known _ hkept hinc]
    refine ⟨(setPort_quiet p (trained chip cr x) s).trans ⟨⟨fun _ _ => rfl, rfl, rfl⟩, rfl, rfl, rfl, rfl, rfl⟩, ?_, setPort_lport p _ s⟩
    exact congrArg (·.tx) (setPort_link p (trained chip cr x) s)

end Sys2Proof.PortsTraining
end

section
/-! One step of the block (03; 14 R315, R316): the command at the front of the queue runs, the reset state is sound, and SAFE_n goes high only where
safety arms. -/

namespace Sys2Proof.StepSound

open Sys2Proof.Machine Sys2Proof.Laws

/-- Settles O1: a queue with a command at its front is the second branch of `step`. -/
theorem stepRunsFrontCommand : Obligations.StepRunsFrontCommand := by
  unfold Obligations.StepRunsFrontCommand
  intro c rest s hfront
  rw [step, hfront]

/-- Settles O4: nothing has been written, the clock stands at 0 and safety is off. -/
theorem resetIsSound : Obligations.ResetIsSound := by
  unfold Obligations.ResetIsSound
  decide

/-- A state with SAFE_n low is `good` even where SAFE_n may not be high. -/
theorem good_of_low {s : State} (hs : sound s = true) (hlow : s.safety.safeN = false) : good false s = true := by
  simp [good, hs, hlow]

theorem low_of_good {t : State} (h : good false t = true) : t.safety.safeN = false := by
  simp only [good, Bool.false_or, Bool.and_eq_true, Bool.not_eq_true'] at h
  exact h.2

/-- Where SAFE_n is low and the front command is none that may arm safety, the step leaves SAFE_n low. -/
theorem step_keeps_low {s : State} (hs : sound s = true) (hlow : s.safety.safeN = false)
    (hfront : ∀ c rest, s.pending = c :: rest → armsSafety c = false) : NextGood false (step s) := by
  have hg : good false s = true := good_of_low hs hlow
  cases hq : s.pending with
  | nil =>
    rw [step, hq]
    exact tickOne_good s hg
  | cons c rest =>
    rw [step, hq]
    exact exec_good c _ ((good_iff false _).mpr ((good_iff false s).mp hg)) (fun harms => absurd harms (by simp [hfront c rest hq]))

/-- Settles O6: by `step_keeps_low` a step that raises SAFE_n runs a command that may arm safety, which is one of the two. -/
theorem onlyArmingRaisesSafeN : Obligations.OnlyArmingRaisesSafeN := by
  unfold Obligations.OnlyArmingRaisesSafeN
  intro s t hs hlow hstep hhigh
  by_contra hnone
  have hkept : NextGood false (step s) := step_keeps_low hs hlow (fun c rest hq => by
    unfold armsSafety
    split
    · exact absurd ⟨rest, .inl ⟨_, _, hq⟩⟩ hnone
    · exact absurd ⟨rest, .inr ⟨_, _, _, hq⟩⟩ hnone
    · rfl)
  rw [hstep] at hkept
  exact absurd (low_of_good hkept) (by simp [hhigh])

end Sys2Proof.StepSound
end

section
/-! PMBus and pins (19 R401-R403; 16 R362, R364): the reads and limits of the bus, the power cap, the thermal trip and TRIG_IN. -/

namespace Sys2Proof.Pins

open Sys2Proof.Machine Sys2Proof.Laws

/-! ### PMBus -/

theorem pmbus_answers {s : State} (h : s.chip.phase ≠ .thermal) (body : State → State) : pmbus s body = body s := if_neg h

theorem pmbus_silent {s : State} (h : s.chip.phase = .thermal) (body : State → State) : pmbus s body = s := if_pos h

theorem fInForce_eq (s : State) : fInForce s = if s.chip.capPin then s.chip.capF else min s.chip.capF s.chip.capPinF := rfl

theorem doOtWarn_taken {s : State} (h : s.chip.phase ≠ .thermal) {v : Nat} (hlo : 60 ≤ v) (hhi : v ≤ 100) :
    doOtWarn (some v) s = pmAnswer (some []) { s with chip := { s.chip with otWarn := v } } := by
  simp [doOtWarn, pmbus_answers h, hlo, hhi]

theorem doOtWarn_refused {s : State} (h : s.chip.phase ≠ .thermal) {v : Nat} (hout : v < 60 ∨ 100 < v) :
    doOtWarn (some v) s = pmAnswer none s := by
  rw [doOtWarn, pmbus_answers h]
  exact if_neg (by simp only [Bool.and_eq_true, decide_eq_true_eq]; omega)

/-- Settles O10: the bus answers in every phase but the thermal one, each read with its value; OT_WARN by its range, CLEAR_FAULTS bit by bit. -/
theorem pmbusRegisters : Obligations.PmbusRegisters := by
  unfold Obligations.PmbusRegisters
  refine ⟨fun s h => ?_, fun s h => ⟨fun v hlo hhi => ?_, fun v hout => ?_, ?_⟩⟩
  · have hread (bs : List Byte) : pmbus s (pmAnswer (some bs)) = { s with pcie := { s.pcie with rdata := some bs, rpoison := false } } :=
      pmbus_answers h _
    exact ⟨congrArg _ (hread _), congrArg _ (hread _), congrArg _ (hread _), congrArg _ (hread _), congrArg _ (hread _), congrArg _ (hread _),
      congrArg _ (hread _)⟩
  · exact congrArg Host.Outcome.next (doOtWarn_taken h hlo hhi)
  · exact congrArg Host.Outcome.next (doOtWarn_refused h hout)
  · refine ⟨_, congrArg Host.Outcome.next (pmbus_answers h _), ?_, ?_, ?_, rfl⟩
    · simp only [pmAnswer, Bool.and_eq_true, decide_eq_true_eq]
    · simp only [pmAnswer, Bool.and_eq_true, decide_eq_true_eq]
    · simp only [pmAnswer, Bool.not_eq_true', Bool.or_eq_false_iff]

/-! ### The power cap (R402) -/

/-- Between the two states only what announces a power cap changes: the cap's own values, the bus's answer, INTA with its causes, the trace buffers. -/
theorem applyCap_shape (s : State) : ∃ f p b l c r a d, applyCap s =
    { s with chip := { s.chip with fNow := f, fPast := p }, obs := { s.obs with bufs := b, lost := l }
             pcie := { s.pcie with cause := c, recent := r, asserted := a, deassertAt := d } } := by
  unfold applyCap
  dsimp only
  split
  · exact ⟨_, _, _, _, _, _, _, _, rfl⟩
  · obtain ⟨b, l, c, r, a, d, h⟩ := emit_shape 0x0C 0x24 0xFFFF 0xFFFFFF 0 0xFFF (fInForce s) s.chip.fNow
      { s with chip := { s.chip with fNow := fInForce s, fPast := (s.now, s.chip.fNow) :: s.chip.fPast } }
    exact ⟨_, _, b, l, c, r, a, d, h⟩

/-- Announcing a cap leaves its own registers, the bus's answer and the work of the part as they are. -/
theorem applyCap_frame (s : State) : (applyCap s).chip.capF = s.chip.capF ∧ (applyCap s).chip.capPinF = s.chip.capPinF ∧
    (applyCap s).chip.capPin = s.chip.capPin ∧ (applyCap s).pcie.rdata = s.pcie.rdata ∧ (applyCap s).streams = s.streams ∧
    (applyCap s).sessions = s.sessions ∧ (applyCap s).runs = s.runs ∧ (applyCap s).dram = s.dram ∧ (applyCap s).safety = s.safety ∧
    (applyCap s).hostMem = s.hostMem ∧ (applyCap s).journal = s.journal ∧ (applyCap s).link = s.link ∧
    (applyCap s).chip.otWarn = s.chip.otWarn ∧ (applyCap s).chip.tick = s.chip.tick := by
  obtain ⟨_, _, _, _, _, _, _, _, heq⟩ := applyCap_shape s
  rw [heq]
  exact ⟨rfl, rfl, rfl, rfl, rfl, rfl, rfl, rfl, rfl, rfl, rfl, rfl, rfl, rfl⟩

theorem applyCap_fNow (s : State) : (applyCap s).chip.fNow = fInForce s := by
  unfold applyCap
  dsimp only
  split
  next h => exact h.symm
  next => rw [RasterTime.emit_chip]

theorem capOk_iff (n : Nat) : capOk n = true ↔ 128 ≤ n ∧ n ≤ 256 := by simp [capOk]

theorem doCapF_taken {s : State} (h : s.chip.phase ≠ .thermal) {v : Nat} (hlo : 128 ≤ v % 512) (hhi : v % 512 ≤ 256) :
    doCapF (some v) s = applyCap (pmAnswer (some []) { s with chip := { s.chip with capF := v % 512 } }) := by
  rw [doCapF, pmbus_answers h]
  exact if_pos ((capOk_iff _).mpr ⟨hlo, hhi⟩)

theorem doCapPinF_taken {s : State} (h : s.chip.phase ≠ .thermal) {v : Nat} (hlo : 128 ≤ v % 512) (hhi : v % 512 ≤ 256) :
    doCapPinF (some v) s = applyCap (pmAnswer (some []) { s with chip := { s.chip with capPinF := v % 512 } }) := by
  rw [doCapPinF, pmbus_answers h]
  exact if_pos ((capOk_iff _).mpr ⟨hlo, hhi⟩)

theorem capOk_outside {n : Nat} (h : n < 128 ∨ 256 < n) : ¬ capOk n = true := by
  rw [capOk_iff]
  omega

theorem doCapF_refused {s : State} (h : s.chip.phase ≠ .thermal) {v : Nat} (hout : v % 512 < 128 ∨ 256 < v % 512) :
    doCapF (some v) s = pmAnswer none s := by
  rw [doCapF, pmbus_answers h]
  exact if_neg (capOk_outside hout)

theorem doCapPinF_refused {s : State} (h : s.chip.phase ≠ .thermal) {v : Nat} (hout : v % 512 < 128 ∨ 256 < v % 512) :
    doCapPinF (some v) s = pmAnswer none s := by
  rw [doCapPinF, pmbus_answers h]
  exact if_neg (capOk_outside hout)

/-! ### The thermal trip (R401) -/

theorem live_thermal {s : State} (h : s.chip.phase = .thermal) : live s = false := by simp [live, h]

theorem flr_thermal {s : State} (h : s.chip.phase = .thermal) (hung : Bool) : flr hung s = s := by simp [flr, h]

/-! ### TRIG_IN (16 R362, R364) -/

theorem doTrigIn_frozen {s : State} (hready : s.chip.phase = .ready) (hfrozen : s.obs.freeze.isSome = true) : doTrigIn s =
    { s with obs := { s.obs with sources := s.obs.sources ||| 2 ||| 8, trigger := s.obs.trigger, tickTrig := s.obs.tickTrig ||| 2 } } := by
  have hnot : s.obs.freeze.isNone = false := by simpa using hfrozen
  simp [doTrigIn, hready, freezeTrigger, hfrozen, maskSet, hnot]

theorem doTrigIn_free {s : State} (hready : s.chip.phase = .ready) (hfree : s.obs.freeze = none) : doTrigIn s =
    { s with obs := { s.obs with sources := s.obs.sources ||| 2, trigger := true, tickTrig := s.obs.tickTrig ||| 2 } } := by
  simp [doTrigIn, hready, freezeTrigger, hfree, maskSet]

/-- Settles O11: a cap within its range is taken and announced, one outside it is refused; the trip leaves a part that answers nothing; an edge of TRIG_IN
is a freeze trigger once start-up is done. -/
theorem powerCapAndPins : Obligations.PowerCapAndPins := by
  unfold Obligations.PowerCapAndPins
  refine ⟨fun s => ?_, fun s => ?_, fun s => ⟨fun hready hfree => ?_, fun hready hfrozen => ?_, fun hnot => ?_⟩⟩
  · intro f rest
    refine ⟨fun v h hlo hhi => ⟨?_, ?_⟩, fun v h hout => ⟨?_, ?_⟩, fun p => ?_⟩
    · obtain ⟨hF, hPinF, hPin, hdata, hrest⟩ := applyCap_frame (pmAnswer (some []) { s with chip := { s.chip with capF := v % 512 } })
      exact ⟨_, congrArg Host.Outcome.next (doCapF_taken h hlo hhi), hF, hPinF, hPin, applyCap_fNow _, hdata, hrest⟩
    · obtain ⟨hF, hPinF, hPin, hdata, hrest⟩ := applyCap_frame (pmAnswer (some []) { s with chip := { s.chip with capPinF := v % 512 } })
      exact ⟨_, congrArg Host.Outcome.next (doCapPinF_taken h hlo hhi), hPinF, hF, hPin, applyCap_fNow _, hdata, hrest⟩
    · exact congrArg Host.Outcome.next (doCapF_refused h hout)
    · exact congrArg Host.Outcome.next (doCapPinF_refused h hout)
    · obtain ⟨hF, hPinF, hPin, -, hrest⟩ := applyCap_frame { s with chip := { s.chip with capPin := p } }
      exact ⟨_, rfl, hPin, applyCap_fNow _, hF, hPinF, hrest⟩
  · exact ⟨_, rfl, rfl, rfl, rfl, rfl, rfl, rfl, rfl, rfl, congrArg Host.Outcome.next (pmbus_silent rfl _),
      congrArg Host.Outcome.next (flr_thermal rfl _), live_thermal rfl, _, rfl, rfl⟩
  · exact congrArg Host.Outcome.next (doTrigIn_free hready hfree)
  · exact congrArg Host.Outcome.next (doTrigIn_frozen hready hfrozen)
  · exact congrArg Host.Outcome.next (if_neg hnot)

end Sys2Proof.Pins
end

section
/-! The registers of the output rings (13 R305; 03 R53, R54): enable, head and coalescing. -/

namespace Sys2Proof.OutputRings

open Sys2Proof.Machine Sys2Proof.Laws Sys2Proof.RecordWriter Sys2Proof.RingWrites Sys2Proof.HostRings

/-! ### A ring that is on while its held records leave -/

/-- The ring is on and active, and stands at the head `h`. -/
def Started (h : Nat) (r : OutRing) : Prop := r.ringEn = true ∧ r.active = true ∧ r.head = h

theorem started_covered {h : Nat} {r : OutRing} (hr : Started h r) : Started h (coveredRing r) := ⟨hr.1, hr.1, hr.2.2⟩

theorem placeRec_started {h o : Nat} (b : BuiltRec) {s : State} (hs : Started h (s.oring o)) : Started h ((placeRec o b s).oring o) := by
  have hwritten : Started h ((written o b s).oring o) := by
    rw [written_oring]
    exact hs
  rw [placeRec_eq]
  obtain heq | heq := coalesce_oring o (emit 0x07 0x23 b.tag.context 0xFFFFFF b.tag.don b.tag.band b.tag.seq (b.tag.type + 256 * o) (written o b s)) <;>
    rw [heq, oring_emit]
  · exact hwritten
  · exact started_covered hwritten

theorem releaseHeld_started {h o : Nat} (fuel : Nat) {s : State} (hs : Started h (s.oring o)) : Started h ((releaseHeld fuel o s).oring o) := by
  induction fuel generalizing s with
  | zero => exact hs
  | succ fuel ih =>
    unfold releaseHeld
    dsimp only
    split
    · rw [oring_setOring]
      exact hs
    · split
      · refine ih (placeRec_started _ ?_)
        rw [oring_setOring]
        exact hs
      · split
        · rw [oring_setCause, oring_setOring]
          exact hs
        · exact hs

/-- The ring as RING_EN starts it anew (13 R305). -/
def startedRing (r : OutRing) : OutRing :=
  { r with ringEn := true, active := true, head := 0, tail := 0, wr := 0, uncovered := [], uncoveredBytes := 0 }

theorem outRingEnSet_starts {o : Nat} {s : State} (hready : s.chip.phase = .ready) (hoff : (s.oring o).ringEn = false)
    (hok : outConfigOk (s.oring o) = true) :
    outRingEnSet o s = releaseHeld (s.oring o).held.length o (s.setOring o (startedRing (s.oring o))) := by
  simp [outRingEnSet, hready, hoff, hok, startedRing]

theorem outRingEnSet_refused {o : Nat} {s : State} (hoff : (s.oring o).ringEn = false) (hbad : outConfigOk (s.oring o) = false) :
    outRingEnSet o s = outConfigErr o s := by
  simp [outRingEnSet, hoff, hbad]

/-! ### Errors -/

theorem outConfigErr_recorded (o : Nat) (s : State) : Recorded s (outConfigErr o s) :=
  of_ite (P := Recorded s) (.setOring s o _) ((Recorded.setOring s o _).trans (.setCause _ 3))

theorem outConfigErr_hostMem (o : Nat) (s : State) : (outConfigErr o s).hostMem = s.hostMem :=
  of_ite (P := fun t => t.hostMem = s.hostMem) rfl (setCause_hostMem 3 _)

theorem outConfigErr_oring (o : Nat) (s : State) : (outConfigErr o s).oring o = { s.oring o with configErr := true } :=
  of_ite (P := fun t => t.oring o = _) (oring_setOring _ _ _) ((oring_setCause _ _ _).trans (oring_setOring _ _ _))

/-! ### A ring that is cleared -/

theorem outRingEnClear_clears {o : Nat} {s : State} (hon : (s.oring o).ringEn = true) (hd3 : s.pcie.d3 = false) :
    ((outRingEnClear o s).oring o).ringEn = false ∧ ((outRingEnClear o s).oring o).active = false ∧
      ((outRingEnClear o s).oring o).uncovered = [] ∧ ((outRingEnClear o s).oring o).held = (s.oring o).held := by
  have hdetect (k : Nat) (t : State) : (detect k t).oring o = t.oring o := oring_congr (detect_outq k t) o
  have hoff : ∀ t : State, t.oring o = { s.oring o with ringEn := false, fullHold := false } → t.pcie.d3 = false →
      let u := if t.pcie.d3 then t else if (s.oring o).uncovered.isEmpty then t.setOring o { (t.oring o) with active := false } else tailWriteBack o t
      (u.oring o).ringEn = false ∧ (u.oring o).active = false ∧ (u.oring o).uncovered = [] ∧ (u.oring o).held = (s.oring o).held := by
    intro t ht htd3
    simp only [htd3, Bool.false_eq_true, if_false]
    split
    next hempty =>
      rw [oring_setOring, ht]
      exact ⟨rfl, rfl, List.isEmpty_iff.mp hempty, rfl⟩
    next =>
      rw [tailWriteBack_oring, ht]
      exact ⟨rfl, rfl, rfl, rfl⟩
  unfold outRingEnClear
  simp only [hon, Bool.not_true, Bool.false_eq_true, if_false]
  split
  · exact hoff _ ((hdetect _ _).trans (oring_setOring _ _ _)) ((Recorded.detect _ 16).d3.trans hd3)
  · exact hoff _ (oring_setOring _ _ _) hd3

theorem barOpen_d0 {s : State} (h : barOpen s = true) : s.pcie.d3 = false := by
  simp only [barOpen, Bool.and_eq_true, Bool.not_eq_true'] at h
  exact h.2

/-- Settles O13: `releaseHeld` keeps a started ring started, `outRingEnClear` covers what is written, and each register is taken by its check. -/
theorem outputRingRegisters : Obligations.OutputRingRegisters := by
  unfold Obligations.OutputRingRegisters
  refine ⟨fun o s hopen ho => ?_, fun o v s hopen ho => ?_⟩
  · have hset : exec (.outRingEnSet o) s = .next (outRingEnSet o s) := by
      simp only [exec, execOutRingEnSet, barAccess_open hopen, if_pos ho]
    have hclear : exec (.outRingEnClear o) s = .next (outRingEnClear o s) := by
      simp only [exec, execOutRingEnClear, barAccess_open hopen, if_pos ho]
    rw [hset, hclear]
    refine ⟨fun hready hoff hok => ?_, fun hoff hbad => ⟨_, rfl, ?_⟩, fun hon => ⟨_, rfl, outRingEnClear_clears hon (barOpen_d0 hopen)⟩⟩
    · obtain ⟨hrec, k, hk⟩ := releaseHeld_drops (s.oring o).held.length o (s.setOring o (startedRing (s.oring o)))
      have hstarted : Started 0 ((s.setOring o (startedRing (s.oring o))).oring o) := by
        rw [oring_setOring]
        exact ⟨rfl, rfl, rfl⟩
      obtain ⟨hon, hactive, hhead⟩ := releaseHeld_started (s.oring o).held.length hstarted
      rw [oring_setOring] at hk
      rw [outRingEnSet_starts hready hoff hok]
      refine ⟨_, k, rfl, hon, hactive, hhead, hk, hrec.streams, fun hnone => ?_⟩
      rw [hnone]
      rfl
    · rw [outRingEnSet_refused hoff hbad]
      exact outConfigErr_oring o s
  · intro r refused
    have herr {c : Instr} (hc : exec c s = .next (outConfigErr o s)) : refused c :=
      ⟨_, hc, outConfigErr_oring o s, (outConfigErr_recorded o s).streams, outConfigErr_hostMem o s⟩
    refine ⟨?_, ?_, ?_⟩
    · have hexec : exec (.outRingHead o v) s = .next (outRingHead o (fld v 25 0) s) := by
        simp only [exec, execOutRingHead, barAccess_open hopen, if_pos ho]
      split
      next h => rw [hexec, outRingHead, if_pos (by simpa using h)]
      next h => exact herr (by rw [hexec, outRingHead, if_neg (by simpa using h)])
    · have hexec : exec (.outCoal o v) s = .next (outCoal o v s) := by
        simp only [exec, execOutCoal, barAccess_open hopen, if_pos ho]
      have hcheck : ((s.oring o).ringEn && !coalOk (keep v 12 0)) = true ↔ ¬ (r.ringEn = false ∨ (keep v 12 0).toNat ≤ 4000) := by
        simp [coalOk, r]
      split
      next h => rw [hexec, outCoal, if_neg (fun hbad => hcheck.mp hbad h)]
      next h => exact herr (by rw [hexec, outCoal, if_pos (hcheck.mpr h)])
    · have hexec : exec (.outCoalBytes o v) s = .next (outCoalBytes o v s) := by
        simp only [exec, execOutCoalBytes, barAccess_open hopen, if_pos ho]
      have hcheck : ((s.oring o).ringEn && !coalBytesOk (keep v 20 0)) = true ↔ ¬ (r.ringEn = false ∨ coalBytesOk (keep v 20 0) = true) := by
        simp [r]
      split
      next h => rw [hexec, outCoalBytes, if_neg (fun hbad => hcheck.mp hbad h)]
      next h => exact herr (by rw [hexec, outCoalBytes, if_pos (hcheck.mpr h)])

end Sys2Proof.OutputRings
end

section
/-! Register writes and interrupts (13 R301, R306): both statements hold a register of the configuration space to the bits it can be written with, in every
state; the model's registers are whole words. -/

namespace Sys2Proof.ConfigBits

open Sys2Proof.Machine

/-- A running part whose BAR0 register holds a bit that no write can set. -/
def strayBar : State := { Tests.tReady with pcie := { Pcie.reset with bar0Lo := 1 } }

/-- Refutes O14: in a state whose BAR0 register holds bit 0, which R301 fixes as 0 and no write changes, a write of 0 to BAR0 reads back as 5, not 4. -/
theorem not_registerAccess : ¬ Obligations.RegisterAccess := by
  unfold Obligations.RegisterAccess
  rintro ⟨-, -, hconfig⟩
  obtain ⟨⟨t, hexec, hread, -⟩, -⟩ := hconfig 0 strayBar (by decide)
  obtain rfl := Host.Outcome.next.inj hexec
  exact absurd hread (by decide)

/-- A running part, no cause set, whose Command register holds bit 19, which is Interrupt Status of the register beside it. -/
def strayCommand : State := { Tests.tReady with pcie := { Pcie.reset with command := 0x80000 } }

/-- Refutes O16: in a state whose Command word holds bit 19, Interrupt Status reads 1 although no cause is set. -/
theorem not_interruptsAndErrors : ¬ Obligations.InterruptsAndErrors := by
  unfold Obligations.InterruptsAndErrors
  rintro ⟨hinta, -⟩
  obtain ⟨⟨t, hexec, -, -, -, hstatus, -⟩, -⟩ := hinta strayCommand (by decide) (by decide)
  obtain rfl := Host.Outcome.next.inj hexec
  exact absurd hstatus (by decide)

end Sys2Proof.ConfigBits
end

section
/-! The BARs (13 R301-R303, R308, R310; 11 R254, R261, R266; 01 R406): refused accesses, and reads and writes of device memory through BAR2. -/

namespace Sys2Proof.Bar2

open Sys2Proof.Machine Sys2Proof.Laws Sys2Proof.SectorReads Sys2Proof.HostRings Sys2Proof.NicheEnds

/-! ### Refused accesses -/

theorem barAccess_closed {s : State} (h : barOpen s = false) (body : State → State) : barAccess s body = barRefused s := by
  simp [barAccess, h]

theorem bit_or_two_pow (w : Word) {k : Nat} (hk : k < 32) : bit (w ||| w32 (2 ^ k)) k = true := by
  have hset : (w32 (2 ^ k)).getLsbD k = true := by
    rw [w32, BitVec.getLsbD_ofNat, Nat.testBit_two_pow_self, decide_eq_true hk]
    rfl
  rw [bit, BitVec.getLsbD_or, hset, Bool.or_true]

/-- A logged error sets its bit and leaves the causes, the mask and the window alone. -/
theorem uncorLog_shape {k : Nat} (hk : k < 32) (header : List Word) (s : State) : ∃ p : Pcie, uncorLog k header s = { s with pcie := p } ∧
    bit p.uncorStatus k = true ∧ p.cause = s.pcie.cause ∧ p.mask = s.pcie.mask ∧ p.window = s.pcie.window := by
  unfold uncorLog
  dsimp only
  split
  · exact ⟨_, rfl, bit_or_two_pow _ hk, rfl, rfl, rfl⟩
  · exact ⟨_, rfl, bit_or_two_pow _ hk, rfl, rfl, rfl⟩

/-- A refused access logs an Unsupported Request, returns nothing, and draws the four words of its header. -/
theorem barRefused_shape (s : State) : ∃ p : Pcie, p.rdata = none ∧ bit p.uncorStatus 20 = true ∧ p.cause = s.pcie.cause ∧ p.mask = s.pcie.mask ∧
    p.window = s.pcie.window ∧ barRefused s = { s with pcie := p, free := s.free + 4 } := by
  obtain ⟨p, hlog, hbit, hcause, hmask, hwindow⟩ := uncorLog_shape (k := 20) (by decide)
    ((List.range 4).map (fun i => Config.freeHeader (s.free + i))) { s with free := s.free + 4 }
  refine ⟨{ p with rdata := none, rpoison := false }, rfl, hbit, hcause, hmask, hwindow, ?_⟩
  exact congrArg (fun t : State => { t with pcie := { t.pcie with rdata := none, rpoison := false } }) hlog

/-! ### Sectors of an access -/

/-- The sectors of a list, each with what its read finds, are read in order for the host. -/
def sectorsJudged (l : List (Nat × EccCond)) (s : State) : State := forAll l (fun x s => eccRead (32 * x.1) x.2 false s) s

/-- A read of a sector changes device memory, the safety state, and what a trip changes beside it. -/
theorem eccRead_shape (a : Nat) (c : EccCond) (serves : Bool) (s : State) :
    ∃ d f p o, eccRead a c serves s = { s with dram := d, safety := f, pcie := p, obs := o } := by
  let P : State → Prop := fun t => ∃ d f p o, t = { s with dram := d, safety := f, pcie := p, obs := o }
  have hdetect : P (detect 2 (ueFound a s)) := by
    obtain ⟨_, hue⟩ := ueFound_shape a s
    obtain ⟨_, _, _, _, _, _, _, _, h⟩ := detect_shape 2 (ueFound a s)
    rw [h, hue]
    exact ⟨_, _, _, _, rfl⟩
  exact eccRead_induct (P := P) ⟨_, _, _, _, rfl⟩ ⟨_, _, _, _, rfl⟩ ⟨_, _, _, _, rfl⟩ hdetect

/-- What a read of a sector leaves of the rest of the part. -/
theorem eccRead_frame (a : Nat) (c : EccCond) (serves : Bool) (s : State) : (eccRead a c serves s).streams = s.streams ∧
    (eccRead a c serves s).maquettes = s.maquettes ∧ (eccRead a c serves s).hostMem = s.hostMem ∧
    (eccRead a c serves s).dram.cells = s.dram.cells := by
  refine ⟨?_, ?_, ?_, eccRead_cells⟩ <;> obtain ⟨_, _, _, _, h⟩ := eccRead_shape a c serves s <;> rw [h]

/-- A loop of sector reads leaves as much. -/
theorem forAll_eccRead_frame {α : Type} (l : List α) (f : α → Nat) (c : α → EccCond) (s : State) :
    (forAll l (fun x s => eccRead (f x) (c x) false s) s).streams = s.streams ∧
    (forAll l (fun x s => eccRead (f x) (c x) false s) s).maquettes = s.maquettes ∧
    (forAll l (fun x s => eccRead (f x) (c x) false s) s).hostMem = s.hostMem ∧
    (forAll l (fun x s => eccRead (f x) (c x) false s) s).dram.cells = s.dram.cells := by
  induction l generalizing s with
  | nil => exact ⟨rfl, rfl, rfl, rfl⟩
  | cons x l ih =>
    obtain ⟨hstreams, hmaquettes, hmem, hcells⟩ := ih (eccRead (f x) (c x) false s)
    obtain ⟨hstreams', hmaquettes', hmem', hcells'⟩ := eccRead_frame (f x) (c x) false s
    rw [forAll_cons]
    exact ⟨hstreams.trans hstreams', hmaquettes.trans hmaquettes', hmem.trans hmem', hcells.trans hcells'⟩

theorem sectorsJudged_cons (x : Nat × EccCond) (l : List (Nat × EccCond)) (s : State) :
    sectorsJudged (x :: l) s = sectorsJudged l (eccRead (32 * x.1) x.2 false s) :=
  forAll_cons x l (fun x s => eccRead (32 * x.1) x.2 false s) s

theorem sectorsJudged_clean {l : List (Nat × EccCond)} (h : ∀ x ∈ l, x.2 = .clean) (s : State) : sectorsJudged l s = s := by
  induction l generalizing s with
  | nil => rfl
  | cons x l ih =>
    obtain ⟨hx, hl⟩ := List.forall_mem_cons.mp h
    rw [sectorsJudged_cons, hx, eccRead_clean, ih hl]

theorem bar2Sectors_clean {s : State} {a len : Nat} {ecc : List EccCond} (hgood : s.dram.bad = []) (hclean : ∀ c ∈ ecc, c = .clean) :
    ∀ x ∈ bar2Sectors s a len ecc, x.2 = .clean := by
  intro x hx
  obtain ⟨i, -, rfl⟩ := List.mem_map.mp hx
  have hfound : ecc.getD i .clean = .clean := by
    rw [List.getD_eq_getElem?_getD]
    cases hi : ecc[i]? with
    | none => rfl
    | some c => exact hclean c (List.mem_of_getElem? hi)
  dsimp only
  split
  · rfl
  · rw [sectorCond, hgood, hfound]
    rfl

/-- A sector under ECC that is not masked and has an uncorrectable error is among those judged. -/
theorem bar2Sectors_double {s : State} {a len i : Nat} {ecc : List EccCond} (hecc : ecc[i]? = some .double) (hi : i < (a % 32 + len + 31) / 32)
    (hprot : (placeOf s.dram (max a (32 * (a / 32 + i)))).protected = true) (hshown : bar2Masked s (max a (32 * (a / 32 + i))) = false) :
    (bar2Sectors s a len ecc).any (fun x => decide (x.2 = .double)) = true := by
  refine List.any_eq_true.mpr ⟨_, List.mem_map.mpr ⟨i, List.mem_range.mpr hi, rfl⟩, ?_⟩
  have hfound : ecc.getD i .clean = .double := by rw [List.getD_eq_getElem?_getD, hecc]; rfl
  have hdouble : sectorCond s (a / 32 + i) .double = .double := ite_self _
  simp only [hshown, hprot, hfound, hdouble, Bool.not_true, Bool.or_self, Bool.false_eq_true, if_false, decide_true]

/-! ### Reads -/

/-- The state that answers a read with bytes, poisoned or not. -/
def answering (bytes : List Byte) (poisoned : Bool) (t : State) : State :=
  { t with pcie := { t.pcie with rdata := some bytes, rpoison := poisoned } }

theorem answering_frame (bytes : List Byte) (poisoned : Bool) (t : State) : (answering bytes poisoned t).dram = t.dram ∧
    (answering bytes poisoned t).streams = t.streams ∧ (answering bytes poisoned t).safety = t.safety := ⟨rfl, rfl, rfl⟩

/-- The bytes a BAR2 read returns. -/
def bar2Bytes (a len : Nat) (s : State) : List Byte := (List.range len).map (fun i => bar2Byte s (a + i))

theorem doBar2Read_answers {s : State} {off len : Nat} (ecc : List EccCond) (hopen : barOpen s = true) (hin : bar2In s off len = true)
    (hspace : bar2Addr s off + len ≤ spaceBytes s.dram) : doBar2Read off len ecc s =
      answering (bar2Bytes (bar2Addr s off) len s) ((bar2Sectors s (bar2Addr s off) len ecc).any (fun x => decide (x.2 = .double)))
        (sectorsJudged (bar2Sectors s (bar2Addr s off) len ecc) s) := by
  rw [doBar2Read, barAccess_open hopen]
  exact if_neg (by simp [hin, Nat.not_lt.mpr hspace])

theorem doBar2Read_refused {s : State} {off len : Nat} (ecc : List EccCond) (hopen : barOpen s = true)
    (hout : bar2In s off len = false ∨ spaceBytes s.dram < bar2Addr s off + len) : doBar2Read off len ecc s = barRefused s := by
  rw [doBar2Read, barAccess_open hopen]
  exact if_pos (by simpa using hout)

/-! ### Writes -/

/-- Bytes stored where they are taken: an address outside them, or one that takes none, keeps its byte. -/
theorem mget_storeWhere_outside (takes : Nat → Bool) (m : Mem) {a x : Nat} (bs : List Byte) (hx : x < a ∨ a + bs.length ≤ x) :
    mget (storeWhere takes a bs m) x = mget m x := by
  induction bs generalizing a m with
  | nil => rfl
  | cons b bs ih =>
    simp only [List.length_cons] at hx
    rw [storeWhere, ih _ (by omega)]
    split
    · exact mget_mput_other _ _ (by omega)
    · rfl

theorem mget_storeWhere_inside (takes : Nat → Bool) {m : Mem} (hm : Memory.wf m = true) (a : Nat) {bs : List Byte} {i : Nat} {b : Byte}
    (hb : bs[i]? = some b) : mget (storeWhere takes a bs m) (a + i) = if takes (a + i) then b else mget m (a + i) := by
  induction bs generalizing a m i with
  | nil => simp at hb
  | cons c bs ih =>
    have hm' : Memory.wf (if takes a then mput m a c else m) = true := wf_ite (wf_mput hm _ _) hm
    rw [storeWhere]
    cases i with
    | zero =>
      obtain rfl : c = b := by simpa using hb
      rw [mget_storeWhere_outside _ _ _ (by omega), Nat.add_zero]
      split
      · exact mget_mput_same hm _ _
      · rfl
    | succ i =>
      have hnext := ih hm' (a + 1) (by simpa using hb)
      have hother : mget (if takes a then mput m a c else m) (a + 1 + i) = mget m (a + 1 + i) := by
        split
        · exact mget_mput_other _ _ (by omega)
        · rfl
      rw [hother] at hnext
      rwa [show a + (i + 1) = a + 1 + i by omega]

/-- Device memory with the host's bytes stored: sectors the write covers whole are good again, and pending writes of its lines take the bytes too. -/
def bar2Stored (a : Nat) (bs : List Byte) (s : State) : State :=
  { s with dram := { s.dram with
      cells := bar2Store s a bs s.dram.cells
      bad := s.dram.bad.filter (fun x => !(decide (a ≤ 32 * x) && decide (32 * x + 32 ≤ a + bs.length)) || bar2Discards s (32 * x))
      queues := s.dram.queues.map (fun e => (e.1, { e.2 with writes := e.2.writes.map (mergePending s a bs) })) } }

theorem doBar2Write_stores {s : State} {off : Nat} {bs : List Byte} (hopen : barOpen s = true) (hin : bar2In s off bs.length = true)
    (hspace : bar2Addr s off + bs.length ≤ spaceBytes s.dram) : doBar2Write off bs s =
      forAll (partlyBad s (bar2Addr s off) bs.length) (fun x s => eccRead (32 * x) .double false s) (bar2Stored (bar2Addr s off) bs s) := by
  rw [doBar2Write, barAccess_open hopen]
  exact if_neg (by simp [hin, Nat.not_lt.mpr hspace])

theorem partlyBad_none {s : State} (h : s.dram.bad = []) (a n : Nat) : partlyBad s a n = [] := by rw [partlyBad, h]; rfl

/-! ### Accesses -/

/-- Every access the closed function meets ends as the refusal of that one state. -/
theorem exec_closed {s : State} (h : barOpen s = false) (q o off len be : Nat) (v : Word) (w : IntxWrite) (ecc : List EccCond) (bytes : List Byte) :
    ∀ c ∈ [Instr.cmdRingTail q v, .cplRingHead q v, .ringEnSet q, .ringEnClear q, .outRingEnSet o, .outRingEnClear o, .outRingHead o v, .outCoal o v,
      .outCoalBytes o v, .intxCause w, .tickLo, .outFullTicksLo o, .accessErrors, .registerWrite (.bar0 off) v be, .bar2Read off len ecc,
      .bar2Write off bytes], exec c s = .next (barRefused s) := by
  have hrefused (body : State → State) : (.next (barAccess s body) : Host.Outcome State Fault Refusal) = .next (barRefused s) :=
    congrArg Host.Outcome.next (barAccess_closed h body)
  have hwrite : exec (.registerWrite (.bar0 off) v be) s = .next (barRefused s) :=
    congrArg Host.Outcome.next ((show doRegisterWrite (.bar0 off) v be s = bar0Write off v be s from rfl).trans (barAccess_closed h _))
  simp only [List.forall_mem_cons]
  exact ⟨hrefused _, hrefused _, hrefused _, hrefused _, hrefused _, hrefused _, hrefused _, hrefused _, hrefused _, hrefused _, hrefused _,
    hrefused _, hrefused _, hwrite, hrefused _, hrefused _, fun _ hc => absurd hc List.not_mem_nil⟩

section Accesses

variable {s : State} {off : Nat}

theorem bar2Write_meets {bs : List Byte} (hopen : barOpen s = true) (hin : bar2In s off bs.length = true)
    (hspace : bar2Addr s off + bs.length ≤ spaceBytes s.dram) (hwf : Memory.wf s.dram.cells = true) :
    ∃ t, exec (.bar2Write off bs) s = .next t ∧ t.streams = s.streams ∧ t.maquettes = s.maquettes ∧ t.hostMem = s.hostMem ∧
      (s.dram.bad = [] → t.pcie = s.pcie ∧ t.safety = s.safety) ∧
      (∀ a, a < bar2Addr s off ∨ bar2Addr s off + bs.length ≤ a → mget t.dram.cells a = mget s.dram.cells a) ∧
      ∀ i b, bs[i]? = some b → mget t.dram.cells (bar2Addr s off + i) =
        if bar2Discards s (bar2Addr s off + i) then mget s.dram.cells (bar2Addr s off + i) else b := by
  obtain ⟨hstreams, hmaquettes, hmem, hcells⟩ := forAll_eccRead_frame (partlyBad s (bar2Addr s off) bs.length) (fun x => 32 * x) (fun _ => .double)
    (bar2Stored (bar2Addr s off) bs s)
  refine ⟨_, congrArg Host.Outcome.next (doBar2Write_stores hopen hin hspace), hstreams, hmaquettes, hmem, fun hgood => ?_, fun a ha => ?_,
    fun i b hb => ?_⟩
  · rw [partlyBad_none hgood]
    exact ⟨rfl, rfl⟩
  · rw [hcells]
    exact mget_storeWhere_outside _ _ _ ha
  · rw [hcells]
    refine (mget_storeWhere_inside _ hwf _ hb).trans ?_
    cases bar2Discards s (bar2Addr s off + i) <;> rfl

theorem bar2Read_clean {len : Nat} {ecc : List EccCond} (hopen : barOpen s = true) (hin : bar2In s off len = true)
    (hspace : bar2Addr s off + len ≤ spaceBytes s.dram) (hgood : s.dram.bad = []) (hclean : ∀ c ∈ ecc, c = .clean) :
    exec (.bar2Read off len ecc) s = .next (answering (bar2Bytes (bar2Addr s off) len s) false s) := by
  have hsectors : ∀ x ∈ bar2Sectors s (bar2Addr s off) len ecc, x.2 = .clean := bar2Sectors_clean hgood hclean
  have hnone : (bar2Sectors s (bar2Addr s off) len ecc).any (fun x => decide (x.2 = .double)) = false :=
    List.any_eq_false.mpr fun x hx => by rw [hsectors x hx]; decide
  have hread := doBar2Read_answers ecc hopen hin hspace
  rw [hnone, sectorsJudged_clean hsectors] at hread
  exact congrArg Host.Outcome.next hread

theorem bar2Read_poisoned {len i : Nat} {ecc : List EccCond} (hopen : barOpen s = true) (hin : bar2In s off len = true)
    (hspace : bar2Addr s off + len ≤ spaceBytes s.dram) (hecc : ecc[i]? = some .double) (hi : i < (bar2Addr s off % 32 + len + 31) / 32)
    (hprot : (placeOf s.dram (max (bar2Addr s off) (32 * (bar2Addr s off / 32 + i)))).protected = true)
    (hshown : bar2Masked s (max (bar2Addr s off) (32 * (bar2Addr s off / 32 + i))) = false) :
    ∃ t, exec (.bar2Read off len ecc) s = .next t ∧ t.pcie.rpoison = true ∧ t.streams = s.streams ∧ t.dram.cells = s.dram.cells := by
  obtain ⟨hstreams, -, -, hcells⟩ := forAll_eccRead_frame (bar2Sectors s (bar2Addr s off) len ecc) (fun x => 32 * x.1) (fun x => x.2) s
  obtain ⟨hdram, hstreams', -⟩ := answering_frame (bar2Bytes (bar2Addr s off) len s)
    ((bar2Sectors s (bar2Addr s off) len ecc).any (fun x => decide (x.2 = .double))) (sectorsJudged (bar2Sectors s (bar2Addr s off) len ecc) s)
  exact ⟨_, congrArg Host.Outcome.next (doBar2Read_answers ecc hopen hin hspace), bar2Sectors_double hecc hi hprot hshown, hstreams'.trans hstreams,
    (congrArg Dram.cells hdram).trans hcells⟩

end Accesses

/-- Settles O15: a closed function refuses every access alike; a write stores byte by byte, a read judges its sectors and answers with their bytes. -/
theorem barAccess : Obligations.BarAccess := by
  unfold Obligations.BarAccess
  refine ⟨fun s hclosed q o off len be v w ecc bytes => ?_, fun off bs s hopen hin hspace hwf => bar2Write_meets hopen hin hspace hwf,
    fun off len ecc s hopen => ⟨fun hin hspace => ⟨fun hgood hclean => ?_, fun i hecc hi => ?_⟩, fun hout => ?_⟩⟩
  · obtain ⟨p, hdata, hlogged, hcause, hmask, hwindow, hshape⟩ := barRefused_shape s
    refine ⟨p, hdata, hlogged, hcause, hmask, hwindow, fun c hc => ?_⟩
    rw [exec_closed hclosed q o off len be v w ecc bytes c hc, hshape]
  · refine ⟨_, bar2Read_clean hopen hin hspace hgood hclean, rfl, rfl, rfl, rfl, _, rfl, by simp [bar2Bytes], fun i hi => ?_⟩
    rw [bar2Bytes, List.getElem?_map, List.getElem?_range hi, Option.map_some, bar2Byte, tapOpen]
    dsimp only
    cases checkSector s.dram (bar2Addr s off + i) <;> rfl
  · exact fun hprot hshown => bar2Read_poisoned hopen hin hspace hecc hi hprot hshown
  · obtain ⟨p, hdata, hlogged, -, -, -, hshape⟩ := barRefused_shape s
    refine ⟨_, congrArg Host.Outcome.next ((doBar2Read_refused ecc hopen hout).trans hshape), hdata, hlogged, rfl⟩

end Sys2Proof.Bar2
end


section
/-! The safety port beside a host command at the position of the journal entry to come (14 R325, R326; 03 R61). -/

namespace Sys2Proof.SafetyPosition

open Sys2Proof.Machine Sys2Proof.Laws

/-- A NOP of host queue 0 that waits at journal position 1, which no entry has been given yet. -/
def early : JEntry :=
  { jpos := 1, port := .host, queue := 0, asn := 1, pkt := List.replicate 16 0, data := [], tick := 0, st := .waiting,
    cpls := [], posted := 0, waited := 0, origin := none, fwd := none, began := none, client := 0, place := 0, during := false }

/-- A running part with that entry, whose safety port holds a packet of an undefined opcode it has not answered yet. -/
def pending : State :=
  { State.reset with chip := { Chip.reset with phase := .ready }, journal := [early],
                     sport := { State.reset.sport with prev := .packet 0, pend := some (0, [0xEE], 0) } }

/-- A frame of zeros, that is a frame error, behind which the entry of the pending packet is written. -/
def zeros : SpiFrame := { words := List.replicate 32 0, written := true }

theorem pending_live : pending.chip.phase ≠ .thermal ∧ live pending = true := by decide +kernel

theorem pending_hostMem : mget pending.hostMem 0 = 0 := by decide +kernel

theorem answered_hostMem : mget (doSafetyFrame zeros pending).hostMem 0 = 1 := by decide +kernel

/-- Refutes O53: it claims that no frame changes the memory of the host, from any state. The statement has no premise that the positions of the journal lie
below the next one (03 R61). In `pending` a host command stands at the position that the safety port's packet is given: the rejection of the packet ends that
command, and its completion is posted to the host's ring. -/
theorem not_safetyFrames : ¬ Obligations.SafetyFrames := by
  unfold Obligations.SafetyFrames
  intro h
  obtain ⟨hphase, hlive⟩ := pending_live
  obtain ⟨-, -, hframe⟩ := h zeros pending hphase
  obtain ⟨t, ht, ⟨-, -, -, hmem⟩, -⟩ := hframe List.length_replicate hlive
  obtain rfl : doSafetyFrame zeros pending = t := Host.Outcome.next.inj ht
  have hbyte := congrArg (fun m => mget m 0) hmem
  simp only [answered_hostMem, pending_hostMem] at hbyte
  exact absurd hbyte (by decide)

end Sys2Proof.SafetyPosition
end


section
/-! What a detection does while safety is armed, and what the passing of ticks leaves as it is (14 R315-R319; 02 R34). -/

namespace Sys2Proof.Detections

open Sys2Proof.Machine Sys2Proof.Laws Sys2Proof.RasterTime Sys2Proof.Opening

/-! ### Time that passes -/

/-- Between the two states time passed, and nothing was done but what the hardware does in every tick: held rings count, observation is fed, INTA may
change. -/
def Idled (s t : State) : Prop := ∃ q o k c r a d, t =
  { s with outq := q, obs := o, chip := { s.chip with tick := k }, pcie := { s.pcie with cause := c, recent := r, asserted := a, deassertAt := d } }

theorem Idled.refl (s : State) : Idled s s := ⟨_, _, _, _, _, _, _, rfl⟩

theorem Idled.trans {s t u : State} (h : Idled s t) (h' : Idled t u) : Idled s u := by
  obtain ⟨_, _, _, _, _, _, _, rfl⟩ := h
  obtain ⟨_, _, _, _, _, _, _, rfl⟩ := h'
  exact ⟨_, _, _, _, _, _, _, rfl⟩

theorem accrue_idled (n : Nat) (s : State) : Idled s (accrue n s) := ⟨_, _, _, _, _, _, _, rfl⟩

theorem tickOne_idled (s : State) : Idled s (tickOne s) := by
  rw [tickOne_eq]
  refine of_ite ?_ ⟨_, _, _, _, _, _, _, rfl⟩
  obtain ⟨b, l, c, r, a, d, h⟩ := emit_shape 0x0A 0x24 0xFFFF 0xFFFFFF 0 0xFFF s.obs.sources 0 (freezeAtBoundary (nextTick s))
  rw [h]
  exact ⟨_, _, _, _, _, _, _, rfl⟩

theorem advance_idled (n : Nat) (s : State) : Idled s (advance n s) := by
  match n with
  | 0 => exact .refl s
  | 1 => exact tickOne_idled s
  | k + 2 => exact ((tickOne_idled s).trans (accrue_idled (k + 1) _)).trans ⟨_, _, _, _, _, _, _, rfl⟩

theorem advanceTo_idled (due : Nat) (s : State) : Idled s (advanceTo due s) := advance_idled _ s

theorem advanceTo_tick {due : Nat} {s : State} (hs : s.chip.tick < 2 ^ 64) (hdue : due < 2 ^ 64) :
    (advanceTo due s).chip.tick = max s.chip.tick due := by
  have htick := (CoalExpiry.advance_passed (due - s.chip.tick) s hs).tick
  rw [advanceTo, State.now, htick]
  omega

theorem inOrder_idled (place : Fin 6) (s : State) : ∃ t, Idled s t ∧ inOrder place s = { t with jlast := (t.now, place) } ∧
    (t.chip.tick ≤ s.chip.tick + 1) := by
  unfold inOrder
  split
  · exact ⟨advance 1 s, advance_idled 1 s, rfl, (CoalExpiry.tickOne_passed s).tick.le.trans (Nat.mod_le _ _)⟩
  · exact ⟨s, .refl s, rfl, Nat.le_succ _⟩

/-! ### The trip -/

/-- The state stands in bits 31-30 of the safety word (14 Table 14.5). -/
theorem word_state (f : Safety) : f.word.toNat / 2 ^ 30 = f.state % 4 := by
  have hsafe : b2n f.safeN < 2 := by cases f.safeN <;> decide
  have hlocked : b2n f.locked < 2 := by cases f.locked <;> decide
  simp only [Safety.word, dw, List.foldl_cons, List.foldl_nil, BitVec.toNat_ofNat]
  omega

theorem word_tripped {n : Nat} {s : State} (h : s.safety.state = 1) : (tripped n s).word ≠ s.safety.word := by
  intro hsame
  have hstates := congrArg (fun w => w.toNat / 2 ^ 30) hsame
  simp only [word_state, h, tripped] at hstates
  exact absurd hstates (by decide)

/-- A detection in state 1 is the trip, reported as a change of the word, with a freeze trigger behind it. -/
theorem detect_eq_trip {n : Nat} {s : State} (h : s.safety.state = 1) :
    detect n s = freezeTrigger 2 (setCause 17 { s with safety := tripped n s }) := by
  have htrip : setSafety (tripped n s) s = setCause 17 { s with safety := tripped n s } := by
    unfold setSafety
    exact if_neg (word_tripped h)
  rw [← htrip]
  unfold detect
  dsimp only
  split
  · rfl
  · next h' => rw [h] at h'; cases h'
  · next h' _ => exact absurd h h'

/-- What a trip of `t` says of an earlier state `s` but for the trip itself. -/
def TripKept (s t : State) : Prop :=
  t.safety.trips = s.safety.trips ∧ t.safety.mask = s.safety.mask ∧ t.safety.key = s.safety.key ∧
  t.streams = s.streams ∧ t.sessions = s.sessions ∧ t.runs = s.runs ∧ t.dram = s.dram ∧ t.hostMem = s.hostMem ∧ t.cores = s.cores

theorem TripKept.refl (s : State) : TripKept s s := ⟨rfl, rfl, rfl, rfl, rfl, rfl, rfl, rfl, rfl⟩

theorem TripKept.idled {s t u : State} (h : TripKept s t) (h' : Idled t u) : TripKept s u := by
  obtain ⟨_, _, _, _, _, _, _, rfl⟩ := h'
  exact h

theorem Idled.tripKept {s t : State} (h : Idled s t) : TripKept s t := (TripKept.refl s).idled h

/-- A cause detected while safety is armed trips it. -/
theorem trips_detect {n : Nat} {s t : State} (h : TripKept s t) (harmed : t.safety.state = 1) : Trips n s (detect n t) := by
  obtain ⟨htrips, hmask, hkey, hstreams, hsessions, hruns, hdram, hhostMem, hcores⟩ := h
  rw [detect_eq_trip harmed]
  have hcause := HostRings.setCause_cause (k := 17) (by decide) { t with safety := tripped n t }
  obtain ⟨r, a, d, hset⟩ := setCause_shape 17 { t with safety := tripped n t }
  rw [hset] at hcause ⊢
  refine ⟨rfl, rfl, maskBit_maskSet _ _, rfl, rfl, ?_, hmask, hkey, hcause, fun _ => ?_, hstreams, hsessions, hruns, hdram, hhostMem, hcores⟩
  · exact congrArg (fun x => min (x + 1) 65535) htrips
  · show (t.obs.trigger || t.obs.freeze.isNone) = true ∨ t.obs.freeze.isSome = true
    cases t.obs.freeze <;> simp

theorem detect_tick (n : Nat) (s : State) : (detect n s).chip.tick = s.chip.tick := by
  obtain ⟨_, _, _, _, _, _, _, _, h⟩ := detect_shape n s
  rw [h]

/-- Only state 1 trips; a cause leaves what it does not speak of (14 R319). -/
theorem detect_kept (n : Nat) (s : State) : (detect n s).safety.mask = s.safety.mask ∧ (detect n s).safety.key = s.safety.key ∧
    (detect n s).safety.hbGap = s.safety.hbGap ∧ (detect n s).safety.hbAt = s.safety.hbAt ∧ (detect n s).safety.hbOk = s.safety.hbOk ∧
    (detect n s).safety.hbCount = s.safety.hbCount ∧ (detect n s).safety.draws = s.safety.draws ∧
    (detect n s).safety.challenge = s.safety.challenge := by
  unfold detect
  dsimp only
  split
  · rw [freezeTrigger_safety, setSafety_safety]
    exact ⟨rfl, rfl, rfl, rfl, rfl, rfl, rfl, rfl⟩
  · rw [setSafety_safety]
    exact ⟨rfl, rfl, rfl, rfl, rfl, rfl, rfl, rfl⟩
  · exact ⟨rfl, rfl, rfl, rfl, rfl, rfl, rfl, rfl⟩

/-- A detection while safety is tripped adds its bit; the first cause is changed within the tick of the trip only (14 R319). -/
theorem detect_safety_tripped {n : Nat} {s : State} (h : s.safety.state = 2) : ∃ m, (detect n s).safety =
    { s.safety with causes := maskSet s.safety.causes n, first := some m } ∧
      (∀ k, s.safety.first = some k → s.safety.tripTick ≠ s.chip.tick → m = k) := by
  unfold detect
  dsimp only
  split
  · next h' => rw [h] at h'; cases h'
  · rw [setSafety_safety]
    split
    · next k hfirst =>
      refine ⟨_, rfl, fun k' hk htick => ?_⟩
      rw [hfirst] at hk
      cases hk
      exact if_neg htick
    · next hfirst => exact ⟨_, rfl, fun k hk => by rw [hfirst] at hk; cases hk⟩
  · next h' => exact absurd h h'

/-! ### Causes of INTA that stand -/

theorem freezeTrigger_pcie (k : Nat) (s : State) : (freezeTrigger k s).pcie = s.pcie := rfl

theorem setCause_stands (n : Nat) {k : Nat} {s : State} (h : s.pcie.cause.getLsbD k = true) : (setCause n s).pcie.cause.getLsbD k = true := by
  obtain ⟨_, _, _, hset⟩ := setCause_shape n s
  rw [hset]
  simp only [BitVec.getLsbD_or, h, Bool.true_or]

theorem setSafety_eq (f : Safety) (s : State) : setSafety f s =
    if f.word = s.safety.word then { s with safety := f } else setCause 17 { s with safety := f } := rfl

theorem setSafety_stands (f : Safety) {k : Nat} {s : State} (h : s.pcie.cause.getLsbD k = true) : (setSafety f s).pcie.cause.getLsbD k = true := by
  have hkept : ({ s with safety := f } : State).pcie.cause.getLsbD k = true := h
  rw [setSafety_eq]
  generalize ({ s with safety := f } : State) = u at hkept
  split
  · exact hkept
  · exact setCause_stands 17 hkept

theorem detect_stands (n : Nat) {k : Nat} {s : State} (h : s.pcie.cause.getLsbD k = true) : (detect n s).pcie.cause.getLsbD k = true := by
  unfold detect
  dsimp only
  split
  · rw [freezeTrigger_pcie]
    exact setSafety_stands _ h
  · exact setSafety_stands _ h
  · exact h

end Sys2Proof.Detections
end


section
/-! Heartbeats of the safety port (14 R325, R328): the verdict at acceptance, the completion, and the heartbeat that does not come. -/

namespace Sys2Proof.HeartbeatVerdicts

open Sys2Proof.Machine Sys2Proof.Laws Sys2Proof.Opening Sys2Proof.Detections

/-! ### The verdict -/

/-- The safety state after a correct heartbeat of tick `k`. -/
def beaten (k : Nat) (f : Safety) : Safety :=
  { f with challenge := Config.freeChallenge f.draws, draws := f.draws + 1, hbAt := k, hbOk := true,
           hbCount := if f.state = 0 then f.hbCount else f.hbCount + 1, hbGap := if f.state = 0 then f.hbGap else max f.hbGap (k - f.hbAt) }

theorem judge_right {e : JEntry} {ch : Word} {s : State} (hop : e.opcode = 0x73) (hok : staticCheck s.link.chip e = none)
    (hright : e.param 0 = crcWords [ch, s.safety.key]) : judgeHeartbeat e ch s =
      if s.safety.state ≠ 0 ∧ 6000 < e.tick - s.safety.hbAt then detect 11 { s with safety := beaten e.tick s.safety }
      else { s with safety := beaten e.tick s.safety } := by
  simp [judgeHeartbeat, hop, hok, hright, hbAnswer, Config.hbGap, beaten]

theorem judge_wrong {e : JEntry} {ch : Word} {s : State} (hop : e.opcode = 0x73) (hok : staticCheck s.link.chip e = none)
    (hwrong : e.param 0 ≠ crcWords [ch, s.safety.key]) : judgeHeartbeat e ch s = detect 12 s := by
  simp [judgeHeartbeat, hop, hok, hwrong, hbAnswer]

/-- The verdict changes what a detection changes. -/
theorem judge_shape (e : JEntry) (ch : Word) (s : State) : ∃ f c r a d x y z, judgeHeartbeat e ch s =
    { s with safety := f, pcie := { s.pcie with cause := c, recent := r, asserted := a, deassertAt := d },
             obs := { s.obs with sources := x, trigger := y, tickTrig := z } } := by
  unfold judgeHeartbeat
  dsimp only
  split
  · exact ⟨_, _, _, _, _, _, _, _, rfl⟩
  · split
    · split
      · obtain ⟨f, c, r, a, d, x, y, z, h⟩ := detect_shape 11 { s with safety := _ }
        exact ⟨f, c, r, a, d, x, y, z, h⟩
      · exact ⟨_, _, _, _, _, _, _, _, rfl⟩
    · exact detect_shape 12 s

/-! ### The frame that accepts it -/

theorem staticCheck_samePacket {e e' : JEntry} (chip : Nat) (hpkt : e'.pkt = e.pkt) (hport : e'.port = e.port) :
    staticCheck chip e' = staticCheck chip e := by
  cases e
  cases e'
  cases hpkt
  cases hport
  rfl

theorem earlyCheck_heartbeat {e : JEntry} {s : State} (hop : e.opcode = 0x73) (hok : staticCheck s.link.chip e = none) :
    earlyCheck s e = .proceed := by
  have hnamed : e.named s.link.chip = none := by simp [JEntry.named, hop, opInfo]
  simp only [earlyCheck, hok, hnamed]

/-- Completions acknowledged leave the journal and are accounted. -/
theorem ackSafety_shape (ack : Word) (s : State) : ∃ p j a b, ackSafety ack s =
    { s with sport := p, journal := j, obs := { s.obs with accounts := a, accountsTick := b } } := by
  unfold ackSafety
  dsimp only
  generalize s.journal.filter (fun e => e.port = .safety && e.st = .done && seqLe e.asn.toNat ack.toNat) = gone
  generalize s.journal.filter (fun e => !(e.port = .safety && e.st = .done && seqLe e.asn.toNat ack.toNat)) = kept
  have hall : ∀ (l : List JEntry) (t : State), ∃ a b,
      forAll l (fun e s => account e.client (fun a => { a with commands := satAdd 32 a.commands 1 }) s) t =
        { t with obs := { t.obs with accounts := a, accountsTick := b } } := by
    intro l
    induction l with
    | nil => exact fun t => ⟨_, _, rfl⟩
    | cons e l ih =>
      intro t
      obtain ⟨a, b, h⟩ := ih (account e.client (fun a => { a with commands := satAdd 32 a.commands 1 }) t)
      exact ⟨a, b, h⟩
  obtain ⟨a, b, h⟩ := hall gone { s with sport := { s.sport with cplAck := ack }, journal := kept }
  exact ⟨_, _, a, b, h⟩

theorem takeRequest_shape (ws : List Word) (shown : Word) (s : State) : ∃ p j a b, takeRequest ws shown s =
    { s with sport := p, journal := j, obs := { s.obs with accounts := a, accountsTick := b } } := by
  obtain ⟨p, j, a, b, h⟩ := ackSafety_shape (ws.getD 1 0) s
  unfold takeRequest pendPacket
  dsimp only
  rw [h]
  split
  · exact ⟨_, _, _, _, rfl⟩
  · split
    · exact ⟨_, _, _, _, rfl⟩
    · split
      · split
        · exact ⟨_, _, _, _, rfl⟩
        · exact ⟨_, _, _, _, rfl⟩
      · exact ⟨_, _, _, _, rfl⟩

/-- State `t` differs from `s` in what stands of the safety port's transactions: the port, the journal and the accounts. -/
def Transacted (s t : State) : Prop :=
  ∃ p j k l a b, t = { s with sport := p, journal := j, jpos := k, jlast := l, obs := { s.obs with accounts := a, accountsTick := b } }

/-- The state in which a packet accepted with sequence number `q` is judged. -/
def numbered (q : Nat) (s : State) : State :=
  { s with sport := { s.sport with asn := s.sport.asn + 1, lastAccepted := some (q, s.sport.asn + 1), pend := none } }

theorem acceptSafety_eq (q : Nat) (ws : List Word) (ch : Word) (s : State) : acceptSafety q ws ch s =
    let u := inOrder 0 s
    let e := newEntry u .safety 0 (u.sport.asn + 1) ws [] 255 none
    journalEntry e (judgeHeartbeat e ch (numbered q u)) := rfl

/-- The frame that follows a written packet with room in the journal accepts the packet and is taken then. -/
theorem safetyFrame_accepts {x : SpiFrame} {q q' : Nat} {pk : List Word} {ch : Word} {s : State} (hlive : live s = true)
    (hwords : x.words.length = 32) (hwritten : x.written = true) (hroom : portUsed s .safety < 64) (hprev : s.sport.prev = .packet q)
    (hpend : s.sport.pend = some (q', pk, ch)) :
    ∃ p, doSafetyFrame x s = takeRequest x.words s.sport.shownChallenge { acceptSafety q' pk ch s with sport := p } := by
  have hphase : s.chip.phase ≠ .thermal := by
    intro h
    simp [live, h] at hlive
  have hfree : ¬ Config.journalSafety ≤ portUsed s .safety := Nat.not_le.mpr hroom
  have hanswer : answerPrev x.written s = (1, q, (acceptSafety q' pk ch s).sport.asn, acceptSafety q' pk ch s) := by
    simp [answerPrev, hprev, hpend, hfree, hwritten]
  unfold doSafetyFrame
  dsimp only
  rw [if_neg hphase, if_neg (not_not_intro hwords), hlive, hanswer]
  exact ⟨_, rfl⟩

/-- A heartbeat accepted waits in the journal: nothing but its verdict is done (R72 has no answer for it). -/
theorem journal_heartbeat {e : JEntry} {ch : Word} {s : State} (hop : e.opcode = 0x73) (hok : staticCheck s.link.chip e = none) :
    journalEntry e (judgeHeartbeat e ch s) = journalWrite e (judgeHeartbeat e ch s) := by
  have hlink : (judgeHeartbeat e ch s).link = s.link := by
    obtain ⟨_, _, _, _, _, _, _, _, h⟩ := judge_shape e ch s
    rw [h]
  rw [journalEntry, earlyCheck_heartbeat hop (hlink ▸ hok), journalAct]

theorem Transacted.request {s t : State} (h : Transacted s t) (p : SafetyPort) (ws : List Word) (shown : Word) :
    Transacted s (takeRequest ws shown { t with sport := p }) := by
  obtain ⟨_, _, _, _, hreq⟩ := takeRequest_shape ws shown { t with sport := p }
  obtain ⟨_, _, _, _, _, _, rfl⟩ := h
  rw [hreq]
  exact ⟨_, _, _, _, _, _, rfl⟩

/-- The frame behind a heartbeat's packet journals it with its verdict, at the tick its turn comes. -/
theorem safetyFrame_judges {x : SpiFrame} {q q' : Nat} {ch : Word} {e : JEntry} {s : State} (hlive : live s = true)
    (hwords : x.words.length = 32) (hwritten : x.written = true) (hroom : portUsed s .safety < 64) (hprev : s.sport.prev = .packet q)
    (hpend : s.sport.pend = some (q', e.pkt, ch)) (hport : e.port = .safety) (hop : e.opcode = 0x73)
    (hok : staticCheck s.link.chip e = none) :
    ∃ u v e', Idled s u ∧ u.chip.tick ≤ s.chip.tick + 1 ∧ Transacted u v ∧ Transacted (judgeHeartbeat e' ch v) (doSafetyFrame x s) ∧
      e'.pkt = e.pkt ∧ e'.port = e.port ∧ e'.tick = v.chip.tick := by
  obtain ⟨u, hidled, hturn, htick⟩ := inOrder_idled 0 s
  obtain ⟨p, hdo⟩ := safetyFrame_accepts hlive hwords hwritten hroom hprev hpend
  have hlink : u.link = s.link := by
    obtain ⟨_, _, _, _, _, _, _, rfl⟩ := hidled
    rfl
  let v : State := numbered q' { u with jlast := (u.now, 0) }
  let e' : JEntry := newEntry { u with jlast := (u.now, 0) } .safety 0 (u.sport.asn + 1) e.pkt [] 255 none
  have hok' : staticCheck v.link.chip e' = none :=
    (staticCheck_samePacket v.link.chip (e := e) (e' := e') rfl hport.symm).trans (by rw [show v.link = s.link from hlink]; exact hok)
  have haccept : acceptSafety q' e.pkt ch s = journalWrite e' (judgeHeartbeat e' ch v) := by
    rw [acceptSafety_eq, hturn]
    exact journal_heartbeat hop hok'
  refine ⟨u, v, e', hidled, htick, ⟨_, _, _, _, _, _, rfl⟩, ?_, rfl, hport.symm, rfl⟩
  rw [hdo, haccept]
  exact Transacted.request ⟨_, _, _, _, _, _, rfl⟩ p x.words _

/-! ### The clauses -/

theorem TripKept.transacted {s t u : State} (h : TripKept s t) (h' : Transacted t u) : TripKept s u := by
  obtain ⟨_, _, _, _, _, _, rfl⟩ := h'
  exact h

theorem trips_transacted {n : Nat} {s t u : State} (h : Trips n s t) (h' : Transacted t u) : Trips n s u := by
  obtain ⟨_, _, _, _, _, _, rfl⟩ := h'
  exact h

theorem Transacted.same {s t : State} (h : Transacted s t) :
    t.safety = s.safety ∧ t.chip = s.chip ∧ t.streams = s.streams ∧ t.dram = s.dram ∧ t.link = s.link := by
  obtain ⟨_, _, _, _, _, _, rfl⟩ := h
  exact ⟨rfl, rfl, rfl, rfl, rfl⟩

theorem idled_same {s t : State} (h : Idled s t) :
    t.safety = s.safety ∧ t.streams = s.streams ∧ t.dram = s.dram ∧ t.link = s.link := by
  obtain ⟨_, _, _, _, _, _, _, rfl⟩ := h
  exact ⟨rfl, rfl, rfl, rfl⟩

/-- The fields of a correct heartbeat stand whether the gap before it is a cause or not. -/
theorem judge_right_fields {e : JEntry} {ch : Word} {s : State} (hop : e.opcode = 0x73) (hok : staticCheck s.link.chip e = none)
    (hright : e.param 0 = crcWords [ch, s.safety.key]) :
    let f := (judgeHeartbeat e ch s).safety
    f.hbAt = e.tick ∧ f.hbOk = true ∧ f.hbCount = (beaten e.tick s.safety).hbCount ∧ f.hbGap = (beaten e.tick s.safety).hbGap ∧
      f.draws = s.safety.draws + 1 ∧ f.challenge = Config.freeChallenge s.safety.draws := by
  obtain ⟨-, -, hgap, hat, hbok, hcount, hdraws, hchallenge⟩ := detect_kept 11 { s with safety := beaten e.tick s.safety }
  rw [judge_right hop hok hright]
  dsimp only
  split
  · exact ⟨hat, hbok, hcount, hgap, hdraws, hchallenge⟩
  · exact ⟨rfl, rfl, rfl, rfl, rfl, rfl⟩

theorem judge_kept (e : JEntry) (ch : Word) (s : State) :
    (judgeHeartbeat e ch s).safety.key = s.safety.key ∧ (judgeHeartbeat e ch s).safety.mask = s.safety.mask := by
  have hdetect : ∀ n t, (detect n t).safety.key = t.safety.key ∧ (detect n t).safety.mask = t.safety.mask := fun n t =>
    have ⟨hmask, hkey, _⟩ := detect_kept n t
    ⟨hkey, hmask⟩
  unfold judgeHeartbeat
  dsimp only
  split
  · exact ⟨rfl, rfl⟩
  · split
    · split
      · exact hdetect 11 { s with safety := _ }
      · exact ⟨rfl, rfl⟩
    · exact hdetect 12 s

/-- The clock passes the end of the gap, and the gap is a cause. -/
theorem hbMissed_detects {s : State} (hstate : s.safety.state ≠ 0) (hdue : s.safety.hbAt + 6001 < 2 ^ 64) (hs : s.chip.tick < 2 ^ 64) :
    ∃ u, Idled s u ∧ u.chip.tick = max s.chip.tick (s.safety.hbAt + 6001) ∧
      doHbMissed s = detect 11 { u with safety := { s.safety with hbGap := max s.safety.hbGap (u.chip.tick - s.safety.hbAt) } } := by
  have hidled := advanceTo_idled (s.safety.hbAt + Config.hbGap + 1) s
  have htick : (advanceTo (s.safety.hbAt + Config.hbGap + 1) s).chip.tick = max s.chip.tick (s.safety.hbAt + 6001) := advanceTo_tick hs hdue
  obtain ⟨hsafety, -⟩ := idled_same hidled
  unfold doHbMissed
  rw [if_neg hstate]
  generalize advanceTo (s.safety.hbAt + Config.hbGap + 1) s = u at *
  have hgap : u.now - u.safety.hbAt > Config.hbGap := by
    rw [hsafety, State.now, htick, Config.hbGap]
    omega
  refine ⟨u, hidled, htick, ?_⟩
  dsimp only
  rw [if_pos hgap, hsafety]
  rfl

/-- Settles O52, by the verdict of the accepting frame and the clock's way to the end of the gap. -/
theorem heartbeats : Obligations.Heartbeats := by
  unfold Obligations.Heartbeats
  intro s
  refine ⟨fun j e ⟨he, hbegin, hok⟩ => congrArg Host.Outcome.next (runCmd_body he hbegin hok _), ?_, ?_, ?_⟩
  · intro x q q' pk ch e hlive hwords hwritten hroom hprev hpend hpkt hport hop hok
    subst hpkt
    obtain ⟨u, v, e', hidled, htick, huv, hvt, hpkt', hport', hat⟩ := safetyFrame_judges hlive hwords hwritten hroom hprev hpend hport hop hok
    refine ⟨doSafetyFrame x s, rfl, ?_⟩
    have hkept : TripKept s v := TripKept.transacted hidled.tripKept huv
    obtain ⟨husafety, hustreams, hudram, hulink⟩ := idled_same hidled
    obtain ⟨hvsafety, hvchip, hvstreams, hvdram, hvlink⟩ := huv.same
    obtain ⟨htsafety, htchip, htstreams, htdram, -⟩ := hvt.same
    have hf : v.safety = s.safety := hvsafety.trans husafety
    have hop' : e'.opcode = 0x73 := by rw [JEntry.opcode, JEntry.word, hpkt']; exact hop
    have hok' : staticCheck v.link.chip e' = none := by rw [staticCheck_samePacket _ hpkt' hport', hvlink, hulink]; exact hok
    have hparam : e'.param 0 = e.param 0 := by rw [JEntry.param, JEntry.word, hpkt']; rfl
    obtain ⟨hkey, hmask⟩ := judge_kept e' ch v
    obtain ⟨f', c, r, a, d, y, z, w, hshape⟩ := judge_shape e' ch v
    have hchip : (judgeHeartbeat e' ch v).chip = v.chip := by rw [hshape]
    have hnow : (doSafetyFrame x s).chip.tick = e'.tick := by rw [htchip, hchip, hat]
    refine ⟨?_, ?_, ?_, ?_, ?_, ?_, ?_, ?_, ?_⟩
    · rw [hnow, hat, hvchip]; exact htick
    · rw [htsafety, hkey, hf]
    · rw [htsafety, hmask, hf]
    · rw [htstreams, hshape, ← hustreams, ← hvstreams]
    · rw [htdram, hshape, ← hudram, ← hvdram]
    · intro hright
      rw [htsafety, hnow, ← hf]
      exact judge_right_fields hop' hok' (by rw [hparam, hf]; exact hright)
    · intro hright hquiet
      rw [hnow] at hquiet
      have hno : ¬ (v.safety.state ≠ 0 ∧ 6000 < e'.tick - v.safety.hbAt) := by
        rw [hf]
        rintro ⟨hstate, hgap⟩
        exact hquiet.elim (Nat.not_le.mpr hgap) hstate
      rw [htsafety, judge_right hop' hok' (by rw [hparam, hf]; exact hright), if_neg hno, ← hf]
      exact ⟨rfl, rfl, rfl⟩
    · intro hright hgap hstate
      rw [hnow] at hgap
      have hyes : v.safety.state ≠ 0 ∧ 6000 < e'.tick - v.safety.hbAt := by
        rw [hf, hstate]
        exact ⟨by decide, hgap⟩
      refine trips_transacted ?_ hvt
      rw [judge_right hop' hok' (by rw [hparam, hf]; exact hright), if_pos hyes]
      exact trips_detect (t := { v with safety := beaten e'.tick v.safety }) hkept ((congrArg Safety.state hf).trans hstate)
    · intro hwrong
      have hjudged : judgeHeartbeat e' ch v = detect 12 v := judge_wrong hop' hok' (by rw [hparam, hf]; exact hwrong)
      obtain ⟨-, -, -, hbat, -, hcount, -, hchallenge⟩ := detect_kept 12 v
      rw [hjudged] at hvt htsafety
      refine ⟨?_, ?_, ?_, fun hstate => trips_transacted (trips_detect hkept ((congrArg Safety.state hf).trans hstate)) hvt⟩
      · rw [htsafety, hbat, hf]
      · rw [htsafety, hcount, hf]
      · rw [htsafety, hchallenge, hf]
  · intro hoff
    exact congrArg Host.Outcome.next (if_pos hoff)
  · intro hstate hdue hs
    obtain ⟨u, hidled, htick, hdo⟩ := hbMissed_detects (hstate.elim (by omega) (by omega)) hdue hs
    obtain ⟨-, hstreams, hdram, -⟩ := idled_same hidled
    let v : State := { u with safety := { s.safety with hbGap := max s.safety.hbGap (u.chip.tick - s.safety.hbAt) } }
    have hkept : TripKept s v := by
      obtain ⟨_, _, _, _, _, _, _, rfl⟩ := hidled
      exact .refl s
    obtain ⟨-, -, hgap, -⟩ := detect_kept 11 v
    obtain ⟨f', c, r, a, d, y, z, w, hshape⟩ := detect_shape 11 v
    have hnow : (detect 11 v).chip.tick = u.chip.tick := detect_tick 11 v
    have htripped : (detect 11 v).safety.state = 2 ∧ maskBit (detect 11 v).safety.causes 11 = true := by
      rcases hstate with h1 | h2
      · obtain ⟨htwo, -, hbit⟩ := detect_armed (k := 11) (s := v) h1
        exact ⟨htwo, hbit⟩
      · obtain ⟨m, hsafety, -⟩ := detect_safety_tripped (n := 11) (s := v) h2
        rw [hsafety]
        exact ⟨h2, maskBit_maskSet _ _⟩
    refine ⟨detect 11 v, congrArg Host.Outcome.next hdo, hnow.trans htick, ?_, htripped.1, htripped.2, ?_, ?_, fun h1 => trips_detect hkept h1⟩
    · rw [hgap, hnow]
    · rw [hshape]; exact hstreams
    · rw [hshape]; exact hdram

end Sys2Proof.HeartbeatVerdicts
end


section
/-! The mechanisms of Table 14.2 trip their causes, and a Proof cast set is placed when it is due (14 R315, R318-R322; 19 Table 19.2). -/

namespace Sys2Proof.Mechanisms

open Sys2Proof.Machine Sys2Proof.Laws Sys2Proof.Opening Sys2Proof.Detections Sys2Proof.HeartbeatVerdicts

/-! ### Detections now and at a tick to come -/

theorem trips_now {n : Nat} {s : State} (h : s.safety.state = 1) : Trips n s (detect n s) := trips_detect (.refl s) h

/-- A cause found when the clock has reached its tick. -/
theorem trips_later {n due : Nat} {s : State} (h : s.safety.state = 1) (hs : s.chip.tick < 2 ^ 64) (hdue : due < 2 ^ 64) :
    Trips n s (detect n (advanceTo due s)) ∧ (detect n (advanceTo due s)).chip.tick = max s.chip.tick due := by
  have hidled := advanceTo_idled due s
  obtain ⟨hsafety, -⟩ := idled_same hidled
  exact ⟨trips_detect hidled.tripKept ((congrArg Safety.state hsafety).trans h), (detect_tick n _).trans (advanceTo_tick hs hdue)⟩

/-! ### Monitors of conditions that last -/

/-- The condition is noted. -/
def noted (k : Nat) (now : Bool) (s : State) : State := { s with safety := { s.safety with present := maskPut s.safety.present k now } }

theorem notePresent_appears {k n : Nat} {s : State} (h : s.safety.state = 1) : Trips n s (notePresent k n true s) :=
  trips_detect (t := noted k true s) ⟨rfl, rfl, rfl, rfl, rfl, rfl, rfl, rfl, rfl⟩ h

theorem notePresent_calm (k n : Nat) (s : State) : notePresent k n false s = noted k false s := rfl

theorem railLimits_nominal {r : Rail} {mv tol : Nat} (h : (r, mv, tol) ∈ [(Rail.vddCore, 750, 30), (.vddPll, 750, 30), (.vddSram, 850, 30),
    (.vddDdrphy, 1050, 30), (.vddqDdr, 500, 30), (.vddSerdes, 1200, 30), (.vddIo, 1800, 50)]) : railLimits r = (mv * 1000, tol) := by
  simp only [List.mem_cons, Prod.mk.injEq, List.not_mem_nil, or_false] at h
  rcases h with ⟨rfl, rfl, rfl⟩ | ⟨rfl, rfl, rfl⟩ | ⟨rfl, rfl, rfl⟩ | ⟨rfl, rfl, rfl⟩ | ⟨rfl, rfl, rfl⟩ | ⟨rfl, rfl, rfl⟩ | ⟨rfl, rfl, rfl⟩ <;> rfl

theorem doVoltage_eq {r : Rail} {mv tol : Nat} (h : railLimits r = (mv * 1000, tol)) (uv : Int) (s : State) :
    doVoltage r uv s = notePresent (32 + railIndex r) 9 (decide (mv * 1000 * tol < (uv - (mv : Int) * 1000).natAbs * 1000)) s := by
  simp [doVoltage, h]

/-- A temperature sample as the chip's registers hold it. -/
def sampled (m : Int) (s : State) : State :=
  let limit : Int := if s.chip.industrial then 105000 else 100000
  let hot := decide (m > limit)
  let warn := decide (m > (s.chip.otWarn : Int) * 1000)
  let c := s.chip
  { s with chip := { c with temp := m, otFault := c.otFault || hot, otWarned := c.otWarned || warn,
                            alertN := c.alertN && !((hot && !c.otFault) || (warn && !c.otWarned)) } }

theorem doTemperatureSample_eq (m : Int) (s : State) :
    doTemperatureSample m s = notePresent 10 10 (decide ((if s.chip.industrial then 105000 else 100000) < m)) (sampled m s) := rfl

theorem sampled_kept (m : Int) (s : State) : TripKept s (sampled m s) := ⟨rfl, rfl, rfl, rfl, rfl, rfl, rfl, rfl, rfl⟩

/-! ### Proof casts -/

/-- The comparison reads the core's scratchpad alone. -/
theorem castMatch_congr {s t : State} {c : Nat} (h : (t.core c).spad = (s.core c).spad) (e : Nat) : castMatch t c e = castMatch s c e := by
  unfold castMatch castCrc castExpected
  rw [h]

/-- The set of engine `e` of core `c` is compared, and is not compared again (14 R321). -/
def checked (c e : Nat) (s : State) : State := s.modCore c (fun x => { x with castDone := x.castDone.filter (fun q => q ≠ e) })

theorem checked_spad (c e : Nat) (s : State) : ((checked c e s).core c).spad = (s.core c).spad := by
  rw [checked, State.modCore, core_setCore]

theorem proofCastCheck_compares {c e : Nat} {ok : Bool} {s : State} (hfenced : s.isFenced c = false) (hdone : e ∈ (s.core c).castDone) :
    doProofCastCheck c e ok s = if ok && castMatch s c e then checked c e s else detect 3 (checked c e s) := by
  rw [← castMatch_congr (checked_spad c e s) e]
  unfold doProofCastCheck
  rw [hfenced, List.contains_iff_mem.mpr hdone]
  rfl

theorem proofCastCheck_idle {c e : Nat} {ok : Bool} {s : State} (h : s.isFenced c = true ∨ e ∉ (s.core c).castDone) :
    doProofCastCheck c e ok s = s := by
  unfold doProofCastCheck
  rcases h with hfenced | hdone
  · simp [hfenced]
  · simp [hdone]

/-- The Niches of a set as they join the runs (14 R322). -/
def castRuns (r : SchedRef) (t : Schedule) (c e at_ : Nat) : List Run :=
  (castNiches t c e).map (fun k =>
    { Run.fresh r k 128 false 0 0 with readyAt := at_, st := if setEdges t (castNiches t c e) k = 0 then .ready else .waiting, cast := some (c, e) })

theorem castRuns_niches (r : SchedRef) (t : Schedule) (c e at_ : Nat) : (castRuns r t c e at_).map (·.niche) = castNiches t c e := by
  rw [castRuns, List.map_map]
  exact List.map_id _

theorem castRuns_wait {r : SchedRef} {t : Schedule} {c e at_ : Nat} {x : Run} (h : x ∈ castRuns r t c e at_) :
    x.cast = some (c, e) ∧ x.ref = r ∧ (x.st = .ready ↔ setEdges t (castNiches t c e) x.niche = 0) := by
  obtain ⟨k, -, rfl⟩ := List.mem_map.mp h
  refine ⟨rfl, rfl, ?_⟩
  change (if setEdges t (castNiches t c e) k = 0 then RunSt.ready else .waiting) = .ready ↔ setEdges t (castNiches t c e) k = 0
  split <;> simp [*]

/-- The set of an armed part is placed 6 ms after the last. -/
theorem proofCastDue_places {c e a : Nat} {r : SchedRef} {t : Schedule} {s : State} (hr : s.active = some r) (ht : activeSched s = some t)
    (ha : tfind (s.core c).castAt e = some a) (harmed : s.safety.state = 1) (hc : c ∈ castCores s)
    (hidle : (s.core c).castRunning.contains e = false) :
    doProofCastDue c e s =
      let u := (advanceTo (a + 6000) s).modCore c (fun x => { x with castRunning := e :: x.castRunning })
      { u with runs := u.runs ++ castRuns r t c e u.now } := by
  simp only [doProofCastDue, hr, ht, ha, harmed, hidle, List.contains_iff_mem.mpr hc, ne_eq, not_true_eq_false, decide_false, Bool.not_true,
    Bool.or_false, Bool.false_eq_true, if_false]
  rfl

theorem proofCastDue_unarmed {c e : Nat} {s : State} (h : s.safety.state ≠ 1) : doProofCastDue c e s = s := by
  unfold doProofCastDue
  split
  · simp [h]
  · rfl

theorem proofCastInterval_detects {c e a : Nat} {s : State} (ha : tfind (s.core c).castAt e = some a) (harmed : s.safety.state = 1)
    (hc : c ∈ castCores s) : doProofCastInterval c e s = detect 3 (advanceTo (a + 8001) s) := by
  unfold doProofCastInterval
  rw [ha]
  dsimp only
  rw [harmed, List.contains_iff_mem.mpr hc]
  rfl

/-! ### Lines and records (14 R323) -/

section
variable {n b d : Nat} {don : Word} {h : AuInfo} {p : Picture} {s : State}

theorem lposStall_detects (hp : pictureFor (s.stream n) don.toNat h = some p) (hwatched : watched s n p = true)
    (hband : b < bandCount (s.stream n).cfg p.h) (hline : p.line < trigLineOf s n p b) (hdue : lineDue s n p b = some d) :
    doLposStall n don b h s = detect 4 (advanceTo d s) := by
  unfold doLposStall
  rw [hp]
  dsimp only
  rw [hwatched, decide_eq_false (Nat.not_le.mpr hband), decide_eq_false (Nat.not_le.mpr hline), hdue]
  rfl

theorem recordLate_detects (hcodec : (s.stream n).cfg.codec ≠ 2) (hp : pictureFor (s.stream n) don.toNat h = some p)
    (hwatched : watched s n p = true) (hband : b < bandCount (s.stream n).cfg p.h)
    (hmissing : bandOpen s n p.don b = true ∨ tfind p.fired b = none ∧
      (((picSched s n p).bind (schedOf s)).bind (fun t => trigOf t false n b)).isSome = true) (hdue : recordDue s n p b = some d) :
    doRecordLate n don b h s = detect 5 (advanceTo d s) := by
  have hopen : (bandOpen s n p.don b || ((tfind p.fired b).isNone &&
      (((picSched s n p).bind (schedOf s)).bind (fun t => trigOf t false n b)).isSome)) = true := by
    rcases hmissing with hm | ⟨hf, ht⟩
    · rw [hm, Bool.true_or]
    · rw [hf, ht, Option.isNone_none, Bool.and_self, Bool.or_true]
  unfold doRecordLate
  rw [if_neg hcodec, hp]
  dsimp only
  rw [hwatched, decide_eq_false (Nat.not_le.mpr hband), hopen, hdue]
  rfl

theorem audioLate_detects {r : SchedRef} (hcodec : (s.stream n).cfg.codec = 2) (hblock : tfind (s.stream n).blockTicks don.toNat = some d)
    (hr : s.active = some r) (hmask : maskBit s.safety.mask n = true) (hbound : bound s n = true) (hcatch : (s.stream n).catchup = false)
    (hreplay : (s.stream n).replayFrom = none)
    (hmissing : bandOpen s n don.toNat 0 = true ∨ donLt don.toNat (s.stream n).firedBlocks = false) (harmed : s.safety.state = 1) :
    doRecordLate n don b h s = detect 5 (advanceTo (d + lAudio s r n d) s) := by
  have hopen : (bandOpen s n don.toNat 0 || !donLt don.toNat (s.stream n).firedBlocks) = true := by
    rcases hmissing with hm | hm
    · rw [hm, Bool.true_or]
    · rw [hm, Bool.not_false, Bool.or_true]
  unfold doRecordLate
  rw [if_pos hcodec]
  unfold audioLate
  dsimp only
  rw [hblock, hr]
  dsimp only
  rw [hmask, hbound, hcatch, hreplay, hopen, harmed]
  rfl

end

/-- Settles O54: each mechanism is the detection of its cause, now or at the tick it has waited for. -/
theorem mechanismsTrip : Obligations.MechanismsTrip := by
  unfold Obligations.MechanismsTrip
  refine ⟨fun s => ⟨fun harmed => ⟨?_, ?_, ?_, ?_, ?_, ?_, ?_, ?_, ?_, ?_⟩, ?_, ?_, ?_, ?_, ?_, ?_, ?_, ?_⟩, ?_⟩
  · exact fun k => ⟨_, rfl, trips_now harmed⟩
  · exact fun p => ⟨_, rfl, trips_now harmed⟩
  · intro k ppm hfar
    refine ⟨doClock k ppm s, rfl, ?_⟩
    rw [doClock, decide_eq_true hfar]
    exact notePresent_appears harmed
  · intro r uv mv tol hrail hfar
    refine ⟨doVoltage r uv s, rfl, ?_⟩
    rw [doVoltage_eq (railLimits_nominal hrail), decide_eq_true hfar]
    exact notePresent_appears harmed
  · intro m hhot
    refine ⟨doTemperatureSample m s, rfl, ?_⟩
    rw [doTemperatureSample_eq, decide_eq_true hhot]
    exact trips_detect (t := noted 10 true (sampled m s)) (sampled_kept m s) harmed
  · intro c e ok hfenced hdone hdiffers
    have hfails : (ok && castMatch s c e) = false := by
      rcases hdiffers with h | h
      · rw [h, Bool.false_and]
      · rw [h, Bool.and_false]
    refine ⟨doProofCastCheck c e ok s, rfl, ?_⟩
    rw [proofCastCheck_compares hfenced hdone, hfails]
    exact trips_now harmed
  · intro c e a hc ha hs hdue
    exact ⟨_, congrArg Host.Outcome.next (proofCastInterval_detects ha harmed hc), trips_later harmed hs hdue⟩
  · intro n don b h p d hp hwatched hband hline hd hs hdue
    exact ⟨_, congrArg Host.Outcome.next (lposStall_detects hp hwatched hband hline hd), trips_later harmed hs hdue⟩
  · intro n don b h p d hcodec hp hwatched hband hmissing hd hs hdue
    exact ⟨_, congrArg Host.Outcome.next (recordLate_detects hcodec hp hwatched hband hmissing hd), trips_later harmed hs hdue⟩
  · intro n don b h d r hcodec hblock hr hmask hbound hcatch hreplay hmissing hs hdue
    exact ⟨_, congrArg Host.Outcome.next (audioLate_detects hcodec hblock hr hmask hbound hcatch hreplay hmissing harmed),
      trips_later harmed hs hdue⟩
  · intro k ppm hnear
    refine ⟨doClock k ppm s, rfl, ?_⟩
    rw [doClock, decide_eq_false (Nat.not_lt.mpr hnear)]
    exact ⟨rfl, rfl, rfl, rfl, rfl, rfl⟩
  · intro m hcool
    refine ⟨doTemperatureSample m s, rfl, ?_⟩
    rw [doTemperatureSample_eq, decide_eq_false hcool]
    exact ⟨rfl, rfl, rfl, rfl, rfl, rfl⟩
  · intro r uv mv tol hrail hnear
    refine ⟨doVoltage r uv s, rfl, ?_⟩
    rw [doVoltage_eq (railLimits_nominal hrail), decide_eq_false (Nat.not_lt.mpr hnear)]
    exact ⟨rfl, rfl, rfl, rfl, rfl, rfl⟩
  · exact fun k hoff => congrArg Host.Outcome.next (detect_off hoff)
  · intro p m htripped hfirst htick
    obtain ⟨k, hsafety, hsame⟩ := detect_safety_tripped (n := 1) htripped
    obtain ⟨f', c, r, a, d, y, z, w, hshape⟩ := detect_shape 1 s
    refine ⟨detect 1 s, rfl, ?_, by rw [hshape], by rw [hshape]⟩
    rw [hsafety, hsame m hfirst htick]
    rfl
  · exact fun p => rfl
  · exact fun c e ok hidle => congrArg Host.Outcome.next (proofCastCheck_idle hidle)
  · intro c e hfenced hdone hmatch
    have hchecked := proofCastCheck_compares (ok := true) hfenced hdone
    rw [hmatch] at hchecked
    exact congrArg Host.Outcome.next hchecked
  · intro c e a r t s hr ht ha hs hdue
    refine ⟨fun harmed hc hidle => ?_, fun hstate => congrArg Host.Outcome.next (proofCastDue_unarmed hstate)⟩
    have hidled := advanceTo_idled (a + 6000) s
    have htick := advanceTo_tick hs hdue
    obtain ⟨hsafety, -⟩ := idled_same hidled
    obtain ⟨-, -, -, hstreams, -, hruns, -, -, hcores⟩ := hidled.tripKept
    have hcore : ∀ k, (advanceTo (a + 6000) s).core k = s.core k := fun k => congrArg (fun l => tget l k Core.reset) hcores
    refine ⟨_, castRuns r t c e (advanceTo (a + 6000) s).now,
      congrArg Host.Outcome.next (proofCastDue_places hr ht ha harmed hc hidle), htick, ?_, castRuns_niches r t c e _,
      fun x hx => castRuns_wait hx, ?_, fun k hk => ?_, hstreams, hsafety⟩
    · exact congrArg (· ++ castRuns r t c e (advanceTo (a + 6000) s).now) hruns
    · change ((State.modCore (advanceTo (a + 6000) s) c (fun x => { x with castRunning := e :: x.castRunning })).core c).castRunning = _
      rw [core_modCore, hcore]
    · change (State.modCore (advanceTo (a + 6000) s) c (fun x => { x with castRunning := e :: x.castRunning })).core k = _
      rw [core_modCore_other _ _ hk, hcore]

end Sys2Proof.Mechanisms
end


section
/-! Counters and accounts as the host reads them (16 R361-R364; 10 R247, R248). -/

namespace Sys2Proof.CounterReads

open Sys2Proof.Machine Sys2Proof.Laws Sys2Proof.RasterTime Sys2Proof.Opening Sys2Proof.Detections Sys2Proof.HeartbeatVerdicts

/-! ### Counters as time passes -/

theorem emit_observed (kind src ctx niche don band a0 a1 : Nat) (s : State) :
    (emit kind src ctx niche don band a0 a1 s).obs.ctrs = s.obs.ctrs ∧ (emit kind src ctx niche don band a0 a1 s).obs.epoch = s.obs.epoch ∧
      (emit kind src ctx niche don band a0 a1 s).obs.trace = s.obs.trace ∧ (emit kind src ctx niche don band a0 a1 s).obs.sampled = s.obs.sampled := by
  obtain ⟨_, _, _, _, _, _, h⟩ := emit_shape kind src ctx niche don band a0 a1 s
  rw [h]
  exact ⟨rfl, rfl, rfl, rfl⟩

/-- No tick counts anything of its own, nor changes what is traced. -/
theorem advance_observed (n : Nat) (s : State) : (advance n s).obs.ctrs = s.obs.ctrs ∧ (advance n s).obs.epoch = s.obs.epoch ∧
    (advance n s).obs.trace = s.obs.trace ∧ (advance n s).obs.sampled = s.obs.sampled := by
  have htick : ∀ s : State, (tickOne s).obs.ctrs = s.obs.ctrs ∧ (tickOne s).obs.epoch = s.obs.epoch ∧ (tickOne s).obs.trace = s.obs.trace ∧
      (tickOne s).obs.sampled = s.obs.sampled := by
    intro s
    rw [tickOne_eq]
    split
    · exact emit_observed 0x0A 0x24 0xFFFF 0xFFFFFF 0 0xFFF s.obs.sources 0 (freezeAtBoundary (nextTick s))
    · exact ⟨rfl, rfl, rfl, rfl⟩
  match n with
  | 0 => exact ⟨rfl, rfl, rfl, rfl⟩
  | 1 => exact htick s
  | _ + 2 => exact htick s

/-- The wait for the PCI Express bucket (16 R370). -/
theorem takePcie_waits (n : Nat) (s : State) : ∃ u b, Idled s u ∧ takePcie n s = { u with obs := { u.obs with pcieBucket := b } } ∧
    u.obs.ctrs = s.obs.ctrs ∧ u.obs.epoch = s.obs.epoch := by
  obtain ⟨hctrs, hepoch, -⟩ := advance_observed (cdiv (n - s.obs.pcieBucket) (pcieGain s.pcie)) s
  exact ⟨_, _, advance_idled _ s, rfl, hctrs, hepoch⟩

/-! ### Counters cleared -/

theorem tget_ctrsSince (ctrs base : Tab Nat) (i : Nat) : tget (ctrsSince ctrs base) i 0 =
    (match tfind ctrs i with | some n => (n + 2 ^ 48 - tget base i 0) % 2 ^ 48 | none => 0) := by
  induction ctrs with
  | nil => rfl
  | cons x l ih =>
    by_cases hx : x.1 = i
    · subst hx
      simp [ctrsSince, tget, tfind]
    · simpa [ctrsSince, tget, tfind, hx] using ih

theorem counterImage_length (s : State) : (counterImage s).length = 6697 := by
  simp only [counterImage, ctrKeys, List.length_cons, List.length_map, List.length_range]

/-! ### The image -/

/-- The counters as the command leaves them before its image is written (16 R361). -/
def cleared (clear : Bool) (s : State) : State :=
  if clear then { s with obs := { s.obs with ctrs := ctrsSince s.obs.ctrs s.obs.ctrs0, ctrs0 := [], epoch := !s.obs.epoch } } else s

theorem cleared_shape (clear : Bool) (s : State) : ∃ o, cleared clear s = { s with obs := o } := by
  cases clear
  · exact ⟨_, rfl⟩
  · exact ⟨_, rfl⟩

theorem exec_counterRead {j : Nat} {e : JEntry} {s : State} (hruns : Runs s j 0x81 e) : exec (.counterRead j) s =
    .next (writeObserved j (e.param64 0) (e.param 2).toNat (counterImage s) (cleared (bit (e.param 3) 0) (beginCmd e s))) := by
  obtain ⟨he, hbegin, hstatic⟩ := hruns
  exact congrArg Host.Outcome.next (runCmd_body he hbegin hstatic _)

/-- An image of observation: the entries that fit are written when the bucket holds them. -/
theorem writeObserved_fits (j addr room : Nat) (l : List (List Byte)) (s : State) : ∃ k v, TrackCommands.Fits l room k ∧
    writeObserved j addr room l s = finish j (if k = l.length then stOk else stTruncated) [w32 (l.take k).flatten.length] v ∧
    v.hostMem = mwrite s.hostMem addr (l.take k).flatten ∧ v.obs.ctrs = s.obs.ctrs ∧ v.obs.epoch = s.obs.epoch ∧
    v.streams = s.streams ∧ v.sessions = s.sessions ∧ v.dram = s.dram ∧ v.safety = s.safety ∧ v.recov = s.recov := by
  obtain ⟨u, b, hidled, hwait, hctrs, hepoch⟩ := takePcie_waits (cutImage l room).1.length s
  obtain ⟨k, hk, himage⟩ := PoolCommands.writeImage_bytes j addr room l { u with obs := { u.obs with pcieBucket := b } }
  obtain ⟨_, _, _, _, _, _, _, rfl⟩ := hidled
  exact ⟨k, _, hk, (congrArg (writeImage j addr room l false) hwait).trans himage, rfl, hctrs, hepoch, rfl, rfl, rfl, rfl, rfl⟩

/-! ### The clauses -/

theorem counterRead_clause {j : Nat} {e : JEntry} {s : State} (hruns : Runs s j 0x81 e) : ∃ k v, k ≤ 6697 ∧
    exec (.counterRead j) s = .next (finish j (if k = 6697 then stOk else stTruncated) [w32 ((counterImage s).take k).flatten.length] v) ∧
    v.hostMem = mwrite s.hostMem (e.param64 0) ((counterImage s).take k).flatten ∧ ((counterImage s).take k).flatten.length ≤ (e.param 2).toNat ∧
    (k < 6697 → (e.param 2).toNat < ((counterImage s).take (k + 1)).flatten.length) ∧
    (bit (e.param 3) 0 = true → v.obs.epoch = !s.obs.epoch ∧ ∀ i, tget v.obs.ctrs i 0 =
      (match tfind s.obs.ctrs i with | some n => (n + 2 ^ 48 - tget s.obs.ctrs0 i 0) % 2 ^ 48 | none => 0)) ∧
    (bit (e.param 3) 0 = false → v.obs.ctrs = s.obs.ctrs ∧ v.obs.epoch = s.obs.epoch) ∧
    v.streams = s.streams ∧ v.sessions = s.sessions ∧ v.dram = s.dram ∧ v.safety = s.safety := by
  obtain ⟨k, v, ⟨hlisted, hfit, htight⟩, hwrite, hmem, hctrs, hepoch, hstreams, hsessions, hdram, hsafety, -⟩ :=
    writeObserved_fits j (e.param64 0) (e.param 2).toNat (counterImage s) (cleared (bit (e.param 3) 0) (beginCmd e s))
  obtain ⟨o, hshape⟩ := cleared_shape (bit (e.param 3) 0) (beginCmd e s)
  rw [counterImage_length] at hlisted htight hwrite
  refine ⟨k, v, hlisted, (exec_counterRead hruns).trans (congrArg _ hwrite), ?_, hfit, htight, fun hclear => ?_, fun hkeep => ?_, ?_, ?_, ?_, ?_⟩
  · rw [hmem, hshape]; rfl
  · rw [hclear] at hctrs hepoch
    rw [hctrs, hepoch]
    exact ⟨rfl, fun i => tget_ctrsSince s.obs.ctrs s.obs.ctrs0 i⟩
  · rw [hkeep] at hctrs hepoch
    exact ⟨hctrs, hepoch⟩
  · rw [hstreams, hshape]; rfl
  · rw [hsessions, hshape]; rfl
  · rw [hdram, hshape]; rfl
  · rw [hsafety, hshape]; rfl

/-- The state in which a COUNTER_FREEZE that releases the freeze `f` completes. -/
def released (s : State) : State := { s with obs := { s.obs with freeze := none, sources := s.obs.tickTrig, trigger := decide (s.obs.tickTrig ≠ 0) } }

theorem exec_counterFreeze {j : Nat} {e : JEntry} {s : State} (hruns : Runs s j 0x80 e) : exec (.counterFreeze j) s = .next (
    if bit (e.param 0) 0 then
      match s.obs.freeze with
      | none => finish j stOk [0xFFFFFFFF, 0xFFFFFFFF] (beginCmd e s)
      | some f => finish j stOk [w32 f.tf, hi32 f.tf] (released (beginCmd e s))
    else
      let tf := match s.obs.freeze with | some f => f.tf | none => s.chip.tick + 1
      finish j stOk [w32 tf, hi32 tf] (freezeTrigger 0 (beginCmd e s))) := by
  obtain ⟨he, hbegin, hstatic⟩ := hruns
  exact congrArg Host.Outcome.next (runCmd_body he hbegin hstatic _)

/-- The accounts of client `cl` cleared, but for what the tick has counted (10 R248). -/
def accountsCleared (clear : Bool) (cl : Nat) (s : State) : State :=
  if clear then
    { s with obs := { s.obs with accounts := tput s.obs.accounts cl (tget s.obs.accountsTick cl Account.reset),
                                 accounts0 := tput s.obs.accounts0 cl Account.reset } }
  else s

theorem exec_clientStats {j : Nat} {e : JEntry} {s : State} (hruns : Runs s j 0x83 e) :
    let shown := match s.obs.freeze with
      | some f => tget f.accounts e.ctx Account.reset
      | none => tget s.obs.accounts0 e.ctx Account.reset
    exec (.clientStats j) s = .next (finish j stOk [w32 shown.wait, hi32 shown.wait, w32 shown.preempt, w32 shown.commands]
      (accountsCleared (bit (e.param 0) 0) e.ctx (beginCmd e s))) := by
  obtain ⟨he, hbegin, hstatic⟩ := hruns
  exact congrArg Host.Outcome.next (runCmd_body he hbegin hstatic _)

/-- Settles O55: the three commands as their bodies, the freeze by its cases, the image by the entries that fit. -/
theorem countersRead : Obligations.CountersRead := by
  unfold Obligations.CountersRead
  refine fun j e s => ⟨fun hruns => ?_, fun hruns => ⟨counterImage_length s, counterRead_clause hruns⟩, fun hruns => ?_⟩
  · have hexec := exec_counterFreeze hruns
    refine ⟨fun hrelease hfree => ?_, fun f hrelease hfrozen => ?_, fun htrigger hfree => ?_, fun f htrigger hfrozen => ?_⟩
    · rw [if_pos hrelease, hfree] at hexec
      exact hexec
    · rw [if_pos hrelease, hfrozen] at hexec
      exact hexec
    · refine ⟨freezeTrigger 0 (beginCmd e s), ?_, hfree, ?_, ?_, rfl, rfl, rfl⟩
      · simpa only [htrigger, hfree, Bool.false_eq_true, if_false] using hexec
      · change (s.obs.trigger || s.obs.freeze.isNone) = true
        rw [hfree, Option.isNone_none, Bool.or_true]
      · change (if s.obs.freeze.isSome then maskSet (maskSet s.obs.sources 0) 3 else maskSet s.obs.sources 0) = s.obs.sources ||| 1
        rw [hfree]
        rfl
    · refine ⟨freezeTrigger 0 (beginCmd e s), ?_, hfrozen, ?_, ?_, rfl, rfl, rfl⟩
      · simpa only [htrigger, hfrozen, Bool.false_eq_true, if_false] using hexec
      · change (s.obs.trigger || s.obs.freeze.isNone) = s.obs.trigger
        rw [hfrozen, Option.isNone_some, Bool.or_false]
      · change (if s.obs.freeze.isSome then maskSet (maskSet s.obs.sources 0) 3 else maskSet s.obs.sources 0) = s.obs.sources ||| 1 ||| 8
        rw [hfrozen]
        rfl
  · refine ⟨accountsCleared (bit (e.param 0) 0) e.ctx (beginCmd e s), exec_clientStats hruns, ?_, ?_, ?_, fun hkeep => ?_, fun hclear => ?_⟩
    · cases bit (e.param 0) 0 <;> rfl
    · cases bit (e.param 0) 0 <;> rfl
    · cases bit (e.param 0) 0 <;> rfl
    · rw [hkeep]
      rfl
    · rw [hclear]
      exact ⟨tget_tput_same _ _ _ _, tget_tput_same _ _ _ _, fun k hk => tget_tput_other _ _ _ hk⟩

end Sys2Proof.CounterReads
end


section
/-! The trace settings, the sampler, the drain and the picture tap (16 R366-R371). -/

namespace Sys2Proof.TraceWrites

open Sys2Proof.Machine Sys2Proof.Laws Sys2Proof.RasterTime Sys2Proof.Opening Sys2Proof.Detections Sys2Proof.HeartbeatVerdicts
open Sys2Proof.CounterReads

/-! ### Local buffers as events come -/

theorem tget_tdel_other {α : Type} (t : Tab α) {k m : Nat} (h : m ≠ k) (d : α) : tget (tdel t k) m d = tget t m d := by
  induction t with
  | nil => rfl
  | cons x l ih =>
    by_cases hx : x.1 = k
    · have hm : x.1 ≠ m := fun hxm => h (hxm.symm.trans hx)
      rw [show tdel (x :: l) k = tdel l k by simp [tdel, hx], ih]
      simp [tget, hm]
    · rw [show tdel (x :: l) k = x :: tdel l k by simp [tdel, hx]]
      simp only [tget, ih]

theorem mem_tput {α : Type} {t : Tab α} {k : Nat} {v : α} {x : Nat × α} (h : x ∈ tput t k v) : x ∈ t ∨ x.1 = k := by
  induction t with
  | nil => exact .inr (by rw [List.mem_singleton.mp h])
  | cons y l ih =>
    rw [tput] at h
    split at h
    · rcases List.mem_cons.mp h with rfl | hx
      · exact .inr rfl
      · exact .inl (List.mem_cons_of_mem _ hx)
    · split at h
      · rcases List.mem_cons.mp h with rfl | hx
        · exact .inr rfl
        · exact .inl hx
      · rcases List.mem_cons.mp h with rfl | hx
        · exact .inl List.mem_cons_self
        · exact (ih hx).imp_left (List.mem_cons_of_mem _)

/-- An event of source `src` came to its local buffer, or was lost: the other buffers stay, and so do the losses of the other sources. -/
def Traced (src : Nat) (s t : State) : Prop :=
  (∀ b, b ≠ traceBuf src → tget t.obs.bufs b [] = tget s.obs.bufs b []) ∧ (∀ k, k ≠ src → tget t.obs.lost k (0, 0) = tget s.obs.lost k (0, 0)) ∧
    ∀ x ∈ t.obs.lost, x ∈ s.obs.lost ∨ x.1 = src

theorem Traced.refl (src : Nat) (s : State) : Traced src s s := ⟨fun _ _ => rfl, fun _ _ => rfl, fun _ => .inl⟩

theorem Traced.setCause {src k : Nat} {s t : State} (h : Traced src s t) : Traced src s (setCause k t) := by
  obtain ⟨_, _, _, hset⟩ := setCause_shape k t
  rw [hset]
  exact h

theorem emit_traced (kind src ctx niche don band a0 a1 : Nat) (s : State) : Traced src s (emit kind src ctx niche don band a0 a1 s) := by
  have hbuffered : ∀ l : List (List Word), Traced src s
      { s with obs := { s.obs with bufs := tput s.obs.bufs (traceBuf src) l, lost := tdel s.obs.lost src } } := fun l =>
    ⟨fun b hb => tget_tput_other _ _ _ hb, fun k hk => tget_tdel_other _ hk _, fun x hx => .inl (List.mem_filter.mp hx).1⟩
  have hlost : ∀ l, Traced src s { s with obs := { s.obs with lost := tput s.obs.lost src l } } := fun l =>
    ⟨fun _ _ => rfl, fun k hk => tget_tput_other _ _ _ hk, fun x hx => mem_tput hx⟩
  unfold emit
  exact of_ite (P := Traced src s) (.refl src s) (of_ite (hlost _) (of_ite (hbuffered _) (hbuffered _).setCause))

/-- What a tick traces comes from the control buffer's source 0x24. -/
theorem advance_traced (n : Nat) (s : State) : Traced 0x24 s (advance n s) := by
  have htick : Traced 0x24 s (tickOne s) := by
    rw [tickOne_eq]
    split
    · exact emit_traced 0x0A 0x24 0xFFFF 0xFFFFFF 0 0xFFF s.obs.sources 0 (freezeAtBoundary (nextTick s))
    · exact .refl 0x24 s
  match n with
  | 0 => exact .refl 0x24 s
  | 1 => exact htick
  | _ + 2 => exact htick

/-- Without a freeze trigger nothing is traced. -/
theorem advance_untriggered (n : Nat) {s : State} (h : s.obs.trigger = false) :
    (advance n s).obs.bufs = s.obs.bufs ∧ (advance n s).obs.lost = s.obs.lost := by
  have htick : (tickOne s).obs.bufs = s.obs.bufs ∧ (tickOne s).obs.lost = s.obs.lost := by
    rw [tickOne_eq, if_neg (by rw [h]; decide)]
    exact ⟨rfl, rfl⟩
  match n with
  | 0 => exact ⟨rfl, rfl⟩
  | 1 => exact htick
  | _ + 2 => exact htick

/-! ### The ring as time passes -/

theorem emit_ring (kind src ctx niche don band a0 a1 : Nat) (s : State) :
    (emit kind src ctx niche don band a0 a1 s).obs.wr = s.obs.wr ∧ (emit kind src ctx niche don band a0 a1 s).obs.head = s.obs.head ∧
      (emit kind src ctx niche don band a0 a1 s).obs.tapDropped = s.obs.tapDropped := by
  obtain ⟨_, _, _, _, _, _, h⟩ := emit_shape kind src ctx niche don band a0 a1 s
  rw [h]
  exact ⟨rfl, rfl, rfl⟩

theorem advance_ring (n : Nat) (s : State) : (advance n s).obs.wr = s.obs.wr ∧ (advance n s).obs.head = s.obs.head ∧
    (advance n s).obs.tapDropped = s.obs.tapDropped := by
  have htick : (tickOne s).obs.wr = s.obs.wr ∧ (tickOne s).obs.head = s.obs.head ∧ (tickOne s).obs.tapDropped = s.obs.tapDropped := by
    rw [tickOne_eq]
    split
    · exact emit_ring 0x0A 0x24 0xFFFF 0xFFFFFF 0 0xFFF s.obs.sources 0 (freezeAtBoundary (nextTick s))
    · exact ⟨rfl, rfl, rfl⟩
  match n with
  | 0 => exact ⟨rfl, rfl, rfl⟩
  | 1 => exact htick
  | _ + 2 => exact htick

/-! ### What the drain does to one buffer -/

/-- Losses of the sources of buffer `b`. -/
def lossesOf (b : Nat) (s : State) : Tab (Nat × Nat) := s.obs.lost.filter (fun x => traceBuf x.1 = b && decide (x.2.1 > 0))

/-- A GAP of the source of a loss, where its buffer has room for it (16 R368). -/
def writeGap (b : Nat) (x : Nat × Nat × Nat) (s : State) : State :=
  let buf := tget s.obs.bufs b []
  if 65536 - evBytes buf < 64 then s
  else
    let g := eventWords 1 false s.now 0x0E x.1 0xFFFF 0xFFFFFF 0 0xFFF x.2.1 x.2.2
    setCause 21 { s with obs := { s.obs with bufs := tput s.obs.bufs b (buf ++ [g]), lost := tdel s.obs.lost x.1 } }

theorem writeGaps_eq (b : Nat) (s : State) : writeGaps b s = if s.obs.trace.mode ≠ 1 then s else forAll (lossesOf b s) (writeGap b) s := rfl

/-- Buffer `b` grew by the events `g`; nothing the ring tells the host changed. -/
structure Grown (b : Nat) (g : List (List Word)) (s t : State) : Prop where
  buf : tget t.obs.bufs b [] = tget s.obs.bufs b [] ++ g
  wr : t.obs.wr = s.obs.wr
  head : t.obs.head = s.obs.head
  hostMem : t.hostMem = s.hostMem
  streams : t.streams = s.streams
  dram : t.dram = s.dram
  safety : t.safety = s.safety

theorem Grown.refl (b : Nat) (s : State) : Grown b [] s s := ⟨(List.append_nil _).symm, rfl, rfl, rfl, rfl, rfl, rfl⟩

theorem Grown.trans {b : Nat} {g g' : List (List Word)} {s t u : State} (h : Grown b g s t) (h' : Grown b g' t u) : Grown b (g ++ g') s u where
  buf := by rw [h'.buf, h.buf, List.append_assoc]
  wr := h'.wr.trans h.wr
  head := h'.head.trans h.head
  hostMem := h'.hostMem.trans h.hostMem
  streams := h'.streams.trans h.streams
  dram := h'.dram.trans h.dram
  safety := h'.safety.trans h.safety

theorem writeGap_grows (b : Nat) (x : Nat × Nat × Nat) (s : State) : ∃ g, Grown b g s (writeGap b x s) := by
  unfold writeGap
  dsimp only
  split
  · exact ⟨[], .refl b s⟩
  · obtain ⟨_, _, _, hset⟩ := setCause_shape 21 { s with obs := { s.obs with bufs := tput s.obs.bufs b _, lost := tdel s.obs.lost x.1 } }
    rw [hset]
    exact ⟨_, tget_tput_same _ _ _ _, rfl, rfl, rfl, rfl, rfl, rfl⟩

theorem writeGaps_grows (b : Nat) (s : State) : ∃ g, Grown b g s (writeGaps b s) ∧ (lossesOf b s = [] → g = []) := by
  have hall : ∀ (l : Tab (Nat × Nat)) (s : State), ∃ g, Grown b g s (forAll l (writeGap b) s) ∧ (l = [] → g = []) := by
    intro l
    induction l with
    | nil => exact fun s => ⟨[], .refl b s, fun _ => rfl⟩
    | cons x l ih =>
      intro s
      obtain ⟨g, hg⟩ := writeGap_grows b x s
      obtain ⟨g', hg', -⟩ := ih (writeGap b x s)
      exact ⟨g ++ g', hg.trans hg', fun h => by cases h⟩
  rw [writeGaps_eq]
  split
  · exact ⟨[], .refl b s, fun _ => rfl⟩
  · exact hall _ s

/-! ### What is written to the ring -/

/-- Host memory after bytes are written at the ring's end, and the tail write-back behind them. -/
def ringMem (bs : List Byte) (wr : Nat) (s : State) : Mem :=
  (hostWords s.obs.trace.tailWb [w32 wr, 0] (ringWrite s.obs.trace.ring s.obs.trace.size s.obs.wr bs s)).hostMem

theorem ringMem_congr {bs : List Byte} {s t : State} (hmem : t.hostMem = s.hostMem) (htrace : t.obs.trace = s.obs.trace)
    (hwr : t.obs.wr = s.obs.wr) (n : Nat) : ringMem bs n t = ringMem bs n s := by
  simp only [ringMem, hostWords, ringWrite, hostWrite, hmem, htrace, hwr]

theorem traceWrite_eq (bs : List Byte) (s : State) : traceWrite bs s =
    let wr := (s.obs.wr + bs.length) % s.obs.trace.size
    { s with hostMem := ringMem bs wr s, obs := { s.obs with wr := wr } } := rfl

theorem readHead_shape (need headRead : Nat) (s : State) : ∃ h a, readHead need headRead s = { s with obs := { s.obs with head := h, headAt := a } } := by
  let P : State → Prop := fun t => ∃ h a, t = { s with obs := { s.obs with head := h, headAt := a } }
  unfold readHead
  exact of_ite (P := P) ⟨_, _, rfl⟩ ⟨_, _, rfl⟩

/-- The wait for a bucket leaves the ring as it is. -/
theorem takePcie_ring (n : Nat) (s : State) : ∃ u p, Idled s u ∧ takePcie n s = { u with obs := { u.obs with pcieBucket := p } } ∧
    u.obs.wr = s.obs.wr ∧ u.obs.head = s.obs.head ∧ u.obs.tapDropped = s.obs.tapDropped ∧ u.obs.trace = s.obs.trace := by
  obtain ⟨hwr, hhead, hdropped⟩ := advance_ring (cdiv (n - s.obs.pcieBucket) (pcieGain s.pcie)) s
  obtain ⟨-, -, htrace, -⟩ := advance_observed (cdiv (n - s.obs.pcieBucket) (pcieGain s.pcie)) s
  exact ⟨_, _, advance_idled _ s, rfl, hwr, hhead, hdropped, htrace⟩

theorem takeDram_ring (n : Nat) (s : State) : ∃ u p, Idled s u ∧ takeDram n s = { u with obs := { u.obs with dramBucket := p } } ∧
    u.obs.wr = s.obs.wr ∧ u.obs.head = s.obs.head ∧ u.obs.tapDropped = s.obs.tapDropped ∧ u.obs.trace = s.obs.trace := by
  obtain ⟨hwr, hhead, hdropped⟩ := advance_ring (cdiv (n - s.obs.dramBucket) (dramGain s.dram.rate)) s
  obtain ⟨-, -, htrace, -⟩ := advance_observed (cdiv (n - s.obs.dramBucket) (dramGain s.dram.rate)) s
  exact ⟨_, _, advance_idled _ s, rfl, hwr, hhead, hdropped, htrace⟩

/-- Only the control buffer can gain an event while the bucket fills, and only behind a freeze trigger. -/
theorem takePcie_buffer {b n : Nat} {s : State} (h : s.obs.trigger = false ∨ b ≠ 16) :
    tget (takePcie n s).obs.bufs b [] = tget s.obs.bufs b [] ∧ (s.obs.lost = [] → lossesOf b (takePcie n s) = []) := by
  rcases h with htrigger | hb
  · obtain ⟨hbufs, hlost⟩ := advance_untriggered (cdiv (n - s.obs.pcieBucket) (pcieGain s.pcie)) htrigger
    refine ⟨congrArg (fun l => tget l b []) hbufs, fun hnone => ?_⟩
    change (advance _ s).obs.lost.filter _ = []
    rw [hlost, hnone]
    rfl
  · obtain ⟨hbufs, -, hlost⟩ := advance_traced (cdiv (n - s.obs.pcieBucket) (pcieGain s.pcie)) s
    refine ⟨hbufs b hb, fun hnone => List.filter_eq_nil_iff.mpr fun x hx => ?_⟩
    rcases hlost x hx with hin | hsrc
    · rw [hnone] at hin
      cases hin
    · have hcontrol : traceBuf x.1 ≠ b := by
        rw [hsrc]
        exact hb.symm
      rw [decide_eq_false hcontrol, Bool.false_and]
      decide

/-! ### TRACE_DRAIN -/

theorem evBytes_pos {l : List (List Word)} (h : 0 < evBytes l) : l ≠ [] := by
  rintro rfl
  exact absurd h (by decide)

theorem drainInto_writes {b n : Nat} {s : State} (h : (takeEvents (min n (traceRoom s.obs)) (tget s.obs.bufs b [])).1 ≠ []) :
    drainInto b n s =
      let r := takeEvents (min n (traceRoom s.obs)) (tget s.obs.bufs b [])
      traceWrite (r.1.flatMap wordsBytes) { s with obs := { s.obs with bufs := tput s.obs.bufs b r.2 } } := by
  unfold drainInto
  dsimp only
  rw [if_neg (by simpa using h)]

theorem traceDrain_skips {b h : Nat} {s : State} (hskip : s.obs.trace.mode = 0 ∨ oldestBuf s b = false ∨ s.pcie.d3 = true) :
    doTraceDrain b h s = s := by
  unfold doTraceDrain
  rcases hskip with hmode | hold | hd3
  · simp [hmode]
  · simp [hold]
  · simp [hd3]

/-- The events a drain takes of buffer `b`, the head having been read (16 R368). -/
def chunkOf (b : Nat) (u : State) : List (List Word) × List (List Word) := takeEvents (min 2048 (traceRoom u.obs)) (tget u.obs.bufs b [])

theorem traceDrain_eq {b h : Nat} {s : State} (hmode : s.obs.trace.mode ≠ 0) (hold : oldestBuf s b = true) (hd3 : s.pcie.d3 = false) :
    doTraceDrain b h s =
      let u := readHead (evBytes (takeEvents 2048 (tget s.obs.bufs b [])).1) h s
      if evBytes (chunkOf b u).1 = 0 then u else writeGaps b (drainInto b 2048 (takePcie (evBytes (chunkOf b u).1 + 8) u)) := by
  unfold doTraceDrain
  rw [if_neg (by simp [hmode, hold, hd3])]
  rfl

/-- The chunk goes to the ring's end, the tail write-back behind it, and the gaps of the buffer's sources into the buffer. -/
theorem traceDrain_writes {b : Nat} {u : State} (hpos : 0 < evBytes (chunkOf b u).1) (hquiet : u.obs.trigger = false ∨ b ≠ 16) :
    let t := writeGaps b (drainInto b 2048 (takePcie (evBytes (chunkOf b u).1 + 8) u))
    let bs := (chunkOf b u).1.flatMap wordsBytes
    ∃ g, t.obs.wr = (u.obs.wr + bs.length) % u.obs.trace.size ∧ tget t.obs.bufs b [] = (chunkOf b u).2 ++ g ∧ (u.obs.lost = [] → g = []) ∧
      t.obs.head = u.obs.head ∧ t.hostMem = ringMem bs t.obs.wr u ∧ t.streams = u.streams ∧ t.dram = u.dram ∧ t.safety = u.safety := by
  obtain ⟨v, p, hidled, htake, hwr, hhead, -, htrace⟩ := takePcie_ring (evBytes (chunkOf b u).1 + 8) u
  obtain ⟨hbuf, hlost⟩ := takePcie_buffer (n := evBytes (chunkOf b u).1 + 8) hquiet
  rw [htake] at hbuf hlost ⊢
  generalize hw : ({ v with obs := { v.obs with pcieBucket := p } } : State) = w at hbuf hlost ⊢
  have hwv : w.obs.wr = u.obs.wr ∧ w.obs.head = u.obs.head ∧ w.obs.trace = u.obs.trace ∧ w.hostMem = u.hostMem ∧ w.streams = u.streams ∧
      w.dram = u.dram ∧ w.safety = u.safety := by
    rw [← hw]
    obtain ⟨_, _, _, _, _, _, _, rfl⟩ := hidled
    exact ⟨hwr, hhead, htrace, rfl, rfl, rfl, rfl⟩
  obtain ⟨hwr, hhead, htrace, hmem, hstreams, hdram, hsafety⟩ := hwv
  have hchunk : takeEvents (min 2048 (traceRoom w.obs)) (tget w.obs.bufs b []) = chunkOf b u := by
    rw [chunkOf, hbuf, traceRoom, traceRoom, hwr, hhead, htrace]
  have hdrain := drainInto_writes (b := b) (n := 2048) (s := w) (by rw [hchunk]; exact evBytes_pos hpos)
  dsimp only at hdrain
  rw [hchunk, traceWrite_eq] at hdrain
  obtain ⟨g, ⟨hgbuf, hgwr, hghead, hgmem, hgstreams, hgdram, hgsafety⟩, hg⟩ := writeGaps_grows b (drainInto b 2048 w)
  refine ⟨g, ?_, ?_, fun hnone => hg ?_, ?_, ?_, ?_, ?_, ?_⟩
  · rw [hgwr, hdrain, ← hwr, ← htrace]
  · rw [hgbuf, hdrain]
    exact congrArg (· ++ g) (tget_tput_same _ _ _ _)
  · rw [hdrain]
    exact hlost hnone
  · rw [hghead, hdrain, ← hhead]
  · rw [hgmem, hgwr, hdrain]
    exact ringMem_congr (s := u) (t := { w with obs := { w.obs with bufs := tput w.obs.bufs b (chunkOf b u).2 } }) hmem htrace hwr _
  · rw [hgstreams, hdrain, ← hstreams]
  · rw [hgdram, hdrain, ← hdram]
  · rw [hgsafety, hdrain, ← hsafety]

/-! ### TRACE_CONFIG -/

theorem drainInto_shape (b n : Nat) (s : State) : ∃ m l k, drainInto b n s = { s with hostMem := m, obs := { s.obs with bufs := l, wr := k } } := by
  let P : State → Prop := fun t => ∃ m l k, t = { s with hostMem := m, obs := { s.obs with bufs := l, wr := k } }
  unfold drainInto
  exact of_ite (P := P) ⟨_, _, _, rfl⟩ ⟨_, _, _, rfl⟩

theorem drainAll_shape (s : State) : ∃ m l k, drainAll s = { s with hostMem := m, obs := { s.obs with bufs := l, wr := k } } := by
  have hall : ∀ (l : List Nat) (s : State), ∃ m x k, forAll l (fun b s => drainInto b 65536 s) s =
      { s with hostMem := m, obs := { s.obs with bufs := x, wr := k } } := by
    intro l
    induction l with
    | nil => exact fun s => ⟨_, _, _, rfl⟩
    | cons b l ih =>
      intro s
      obtain ⟨_, _, _, hone⟩ := drainInto_shape b 65536 s
      obtain ⟨m, x, k, hrest⟩ := ih (drainInto b 65536 s)
      rw [hone] at hrest
      exact ⟨m, x, k, (congrArg (forAll l _) hone).trans hrest⟩
  let P : State → Prop := fun t => ∃ m l k, t = { s with hostMem := m, obs := { s.obs with bufs := l, wr := k } }
  unfold drainAll
  exact of_ite (P := P) ⟨_, _, _, rfl⟩ (hall _ s)

theorem tget_each {l : List Nat} {k : Nat} (h : k ∈ l) (v d : Nat) : tget (l.map (fun i => (i, v))) k d = v := by
  induction l with
  | nil => cases h
  | cons i l ih =>
    rw [List.map_cons, tget]
    split
    · rfl
    · next hi => exact ih ((List.mem_cons.mp h).resolve_left (fun hk => hi hk.symm))

/-- The settings in force, with the ring at its start. -/
def configured (c : TraceCfg) (s : State) : State :=
  { s with obs := { s.obs with trace := c, bufs := [], lost := [], wr := 0, head := 0, headAt := none, tapDropped := 0,
                               sampled := (List.range 16).map (fun k => (k, s.now)) } }

theorem exec_traceConfig {j : Nat} {e : JEntry} {s : State} (hruns : Runs s j 0x82 e) : exec (.traceConfig j) s = .next (
    if traceOk s (traceOf e) = false then finish j stBadParam [] (beginCmd e s)
    else finish j stOk [] (configured (traceOf e) (drainAll (beginCmd e s)))) := by
  obtain ⟨he, hbegin, hstatic⟩ := hruns
  have hok : traceOk (beginCmd e s) (traceOf e) = traceOk s (traceOf e) := rfl
  have hdo : doTraceConfig j s = if (!traceOk (beginCmd e s) (traceOf e)) = true then finish j stBadParam [] (beginCmd e s)
      else finish j stOk [] (configured (traceOf e) (drainAll (beginCmd e s))) := runCmd_body he hbegin hstatic _
  simp only [hok, Bool.not_eq_true'] at hdo
  exact congrArg Host.Outcome.next hdo

/-! ### COUNTER_SAMPLE -/

/-- An event that is wanted and finds room, none of its source having been lost, stands at the end of its buffer (16 R368). -/
theorem emit_buffered {kind src ctx niche don band a0 a1 : Nat} {s : State} (hwants : traceWants s.obs.trace kind src = true)
    (hmode : s.obs.trace.mode = 1) (hlost : tget s.obs.lost src (0, 0) = (0, 0))
    (hroom : evBytes (tget s.obs.bufs (traceBuf src) []) + 32 ≤ 65536) :
    tget (emit kind src ctx niche don band a0 a1 s).obs.bufs (traceBuf src) [] =
      tget s.obs.bufs (traceBuf src) [] ++ [eventWords 1 false s.now kind src ctx niche don band a0 a1] := by
  have hfits : ¬ 65536 - evBytes (tget s.obs.bufs (traceBuf src) []) < 32 := by omega
  simp [emit, hwants, hmode, hlost, hfits]

/-- The sample of core `k` taken (16 Table 16.6). -/
def sampledAt (k : Nat) (s : State) : State := { s with obs := { s.obs with sampled := tput s.obs.sampled k s.now } }

/-- Active cycles of a core: those of its two counters together. -/
def activeCycles (k : Nat) (s : State) : Nat := (tget s.obs.ctrs (8 + 32 * k) 0 + tget s.obs.ctrs (8 + 32 * k + 1) 0) % 2 ^ 48

theorem counterSample_emits {k : Nat} {s : State} (hperiod : s.obs.trace.period ≠ 0) (hmode : s.obs.trace.mode = 1) :
    doCounterSample k s =
      let u := advanceTo (tget s.obs.sampled k 0 + s.obs.trace.period) s
      emit 0x0B k 0xFFFF 0xFFFFFF 0 0xFFF (activeCycles k u)
        (dw [(b2n u.obs.epoch, 16, 16), (activeCycles k u / 2 ^ 32, 15, 0)]).toNat (sampledAt k u) := by
  unfold doCounterSample
  rw [if_neg (by simp [hperiod, hmode])]
  rfl

theorem counterSample_clause {k : Nat} {s : State} (hperiod : s.obs.trace.period ≠ 0) (hmode : s.obs.trace.mode = 1)
    (hd : max s.chip.tick (tget s.obs.sampled k 0 + s.obs.trace.period) < 2 ^ 64) :
    let d := max s.chip.tick (tget s.obs.sampled k 0 + s.obs.trace.period)
    let t := doCounterSample k s
    t.chip.tick = d ∧ tget t.obs.sampled k 0 = d ∧ t.streams = s.streams ∧
      (k < 16 → maskBit s.obs.trace.coreMask k = true → maskBit s.obs.trace.classMask 10 = true → tget s.obs.lost k (0, 0) = (0, 0) →
        evBytes (tget s.obs.bufs k []) + 32 ≤ 65536 →
        tget t.obs.bufs k [] = tget s.obs.bufs k [] ++ [[dw [(0x0B, 31, 24), (k, 23, 16), (0xFFFF, 15, 0)], w32 d, hi32 d, dw [(0xFFFFFF, 23, 0)], 0,
          dw [(0xFFF, 31, 20)], w32 (activeCycles k s), dw [(b2n s.obs.epoch, 16, 16), (activeCycles k s / 2 ^ 32, 15, 0)]]]) := by
  have hs : s.chip.tick < 2 ^ 64 := lt_of_le_of_lt (le_max_left _ _) hd
  have hdue : tget s.obs.sampled k 0 + s.obs.trace.period < 2 ^ 64 := lt_of_le_of_lt (le_max_right _ _) hd
  have htick := advanceTo_tick hs hdue
  obtain ⟨-, hstreams, -⟩ := idled_same (advanceTo_idled (tget s.obs.sampled k 0 + s.obs.trace.period) s)
  obtain ⟨hctrs, hepoch, htrace, -⟩ := advance_observed (tget s.obs.sampled k 0 + s.obs.trace.period - s.now) s
  obtain ⟨hbufs, hlost, -⟩ := advance_traced (tget s.obs.sampled k 0 + s.obs.trace.period - s.now) s
  have hactive : activeCycles k (advanceTo (tget s.obs.sampled k 0 + s.obs.trace.period) s) = activeCycles k s :=
    congrArg (fun c => (tget c (8 + 32 * k) 0 + tget c (8 + 32 * k + 1) 0) % 2 ^ 48) hctrs
  dsimp only
  rw [counterSample_emits hperiod hmode]
  dsimp only
  rw [hactive]
  change (advanceTo _ s).obs.epoch = _ at hepoch
  change (advanceTo _ s).obs.trace = _ at htrace
  change ∀ b, b ≠ traceBuf 0x24 → tget (advanceTo _ s).obs.bufs b [] = _ at hbufs
  change ∀ i, i ≠ 0x24 → tget (advanceTo _ s).obs.lost i (0, 0) = _ at hlost
  generalize advanceTo (tget s.obs.sampled k 0 + s.obs.trace.period) s = u at *
  rw [hepoch]
  obtain ⟨-, -, -, hsampled⟩ := emit_observed 0x0B k 0xFFFF 0xFFFFFF 0 0xFFF (activeCycles k s)
    (dw [(b2n s.obs.epoch, 16, 16), (activeCycles k s / 2 ^ 32, 15, 0)]).toNat (sampledAt k u)
  refine ⟨?_, ?_, ?_, fun hk hcore hclass hnone hroom => ?_⟩
  · rw [emit_chip]
    exact htick
  · rw [hsampled]
    exact (tget_tput_same _ _ _ _).trans htick
  · rw [emit_streams]
    exact hstreams
  · have hbuf : traceBuf k = k := if_pos hk
    have hold : tget u.obs.bufs k [] = tget s.obs.bufs k [] := hbufs k (by rw [show traceBuf 0x24 = 16 from rfl]; omega)
    have hwants : traceWants (sampledAt k u).obs.trace 0x0B k = true := by
      change traceWants u.obs.trace 0x0B k = true
      simp [traceWants, htrace, hk, hcore, hmode, hclass]
    have hevent := emit_buffered (kind := 0x0B) (src := k) (ctx := 0xFFFF) (niche := 0xFFFFFF) (don := 0) (band := 0xFFF) (a0 := activeCycles k s)
      (a1 := (dw [(b2n s.obs.epoch, 16, 16), (activeCycles k s / 2 ^ 32, 15, 0)]).toNat) hwants (by rw [← hmode, ← htrace]; rfl)
      ((hlost k (by omega)).trans hnone) (by rw [hbuf]; change evBytes (tget u.obs.bufs k []) + 32 ≤ 65536; rw [hold]; exact hroom)
    rw [hbuf] at hevent
    rw [hevent]
    change tget u.obs.bufs k [] ++ _ = _
    rw [hold, State.now, show (sampledAt k u).chip = u.chip from rfl, htick]
    simp [eventWords, w32]

/-! ### PICTURE_TAP -/

/-- Picture `don` of slot `n` was tapped, or dropped by the tap. -/
def tapMarked (n don : Nat) (s : State) : State :=
  s.modStream n (fun x => { x with pics := x.pics.map (fun q => if q.don = don then { q with tapped := true } else q) })

/-- The bytes of a payload that the tap writes of picture data, and the flag of a picture released early (16 R371). -/
def tapSent (w : Option Nat) (body : List Byte) : List Byte :=
  match w with
  | none => body
  | some k => body.take k ++ List.replicate (body.length - k) 0

/-- The flag in the event of a picture that was cut short. -/
def tapCut (w : Option Nat) (body : List Byte) : Nat :=
  match w with
  | none => 0
  | some k => if k < body.length then 2 ^ 31 else 0

/-- The picture behind its event, as the tap writes both when the buckets hold them. -/
def tapWrite (n : Nat) (don : Word) (w : Option Nat) (body : List Byte) (s : State) : State :=
  let s := takePcie (body.length + 40) (takeDram body.length s)
  let ev := eventWords 1 false s.now 0x0F 0x20 n 0xFFFFFF don.toNat 0xFFF body.length (tapCut w body + s.obs.tapDropped)
  let s := traceWrite (wordsBytes ev ++ tapSent w body) s
  { s with obs := { s.obs with tapDropped := 0 } }

/-- A picture dropped by the tap is counted. -/
def tapDrop (n : Nat) (s : State) : State :=
  count (ctrSlot n 12) 1 { s with obs := { s.obs with tapDropped := (s.obs.tapDropped + 1) % 2 ^ 31 } }

section
variable {don : Word} {w : Option Nat} {h : Nat} {p : Picture} {s : State}

theorem pictureTap_skips (hskip : s.obs.trace.tapEn = false ∨ s.pcie.d3 = true ∨ don.toNat % s.obs.trace.tapEvery ≠ 0 ∨
    (∀ p, (s.stream s.obs.trace.tapSlot).pics.find? (fun q => q.don = don.toNat) = some p → p.tapped = true ∨ p.full = false)) :
    doPictureTap don w h s = s := by
  unfold doPictureTap
  dsimp only
  rcases hskip with hoff | hd3 | hevery | hpic
  · rw [if_pos (by rw [hoff]; rfl)]
  · rw [if_pos (by rw [hd3, Bool.or_true, Bool.true_or])]
  · rw [if_pos (by rw [decide_eq_true hevery, Bool.or_true])]
  · split
    · rfl
    · split
      · rfl
      · next q hq =>
        rw [if_pos]
        rcases hpic q hq with htapped | hfull
        · rw [htapped, Bool.true_or]
        · rw [hfull, Bool.not_false, Bool.or_true]

/-- A selected picture: dropped when it is late, else left until the ring has room for it, and written then. -/
theorem pictureTap_eq (hon : s.obs.trace.tapEn = true) (hd3 : s.pcie.d3 = false) (hevery : don.toNat % s.obs.trace.tapEvery = 0)
    (hp : (s.stream s.obs.trace.tapSlot).pics.find? (fun q => q.don = don.toNat) = some p) (htapped : p.tapped = false) (hfull : p.full = true) :
    doPictureTap don w h s =
      let n := s.obs.trace.tapSlot
      let body := tapPayload p
      let u := readHead (body.length + 32) h s
      if tapDue (s.stream n) p < tapStart body.length s then tapDrop n (tapMarked n p.don u)
      else if traceRoom u.obs < body.length + 32 then u else tapWrite n don w body (tapMarked n p.don u) := by
  obtain ⟨head, at_, hu⟩ := readHead_shape ((tapPayload p).length + 32) h s
  unfold doPictureTap
  dsimp only
  rw [if_neg (by simp [hon, hd3, hevery]), hp]
  dsimp only
  rw [if_neg (by simp [htapped, hfull])]
  generalize readHead ((tapPayload p).length + 32) h s = u at hu ⊢
  have hdue : tapDue (u.stream s.obs.trace.tapSlot) p = tapDue (s.stream s.obs.trace.tapSlot) p := by rw [hu]; rfl
  have hstart : tapStart (tapPayload p).length u = tapStart (tapPayload p).length s := by rw [hu]; rfl
  rw [hdue, hstart]
  by_cases hlate : tapDue (s.stream s.obs.trace.tapSlot) p < tapStart (tapPayload p).length s
  · simp only [hlate, decide_true, Bool.not_true, Bool.and_false, Bool.false_eq_true, if_false, if_true]
    rfl
  · by_cases hfits : traceRoom u.obs < (tapPayload p).length + 32
    · simp only [hlate, hfits, decide_true, decide_false, Bool.not_false, Bool.and_true, Bool.false_eq_true, if_false, if_true]
    · simp only [hlate, hfits, decide_false, Bool.not_false, Bool.and_true, Bool.false_eq_true, if_false]
      exact if_neg fun hc => hfits (of_decide_eq_true hc)

end

/-- The tap's transfers wait for both buckets; the ring stays as it is meanwhile. -/
theorem tapWrite_writes {n : Nat} {don : Word} {w : Option Nat} {body : List Byte} {s : State} :
    let t := tapWrite n don w body s
    t.streams = s.streams ∧ t.dram = s.dram ∧ t.safety = s.safety ∧ t.obs.tapDropped = 0 ∧
      t.hostMem = ringMem (wordsBytes (eventWords 1 false t.chip.tick 0x0F 0x20 n 0xFFFFFF don.toNat 0xFFF body.length
        (tapCut w body + s.obs.tapDropped)) ++ tapSent w body) t.obs.wr s := by
  obtain ⟨u, p, hidled, hdram, hwr, -, hdropped, htrace⟩ := takeDram_ring body.length s
  obtain ⟨v, p', hidled', hpcie, hwr', -, hdropped', htrace'⟩ := takePcie_ring (body.length + 40) { u with obs := { u.obs with dramBucket := p } }
  have hwait : takePcie (body.length + 40) (takeDram body.length s) = { v with obs := { v.obs with pcieBucket := p' } } := by rw [hdram, hpcie]
  have hsame : v.hostMem = s.hostMem ∧ v.streams = s.streams ∧ v.dram = s.dram ∧ v.safety = s.safety := by
    obtain ⟨_, _, _, _, _, _, _, rfl⟩ := hidled
    obtain ⟨_, _, _, _, _, _, _, rfl⟩ := hidled'
    exact ⟨rfl, rfl, rfl, rfl⟩
  obtain ⟨hmem, hstreams, hcells, hsafety⟩ := hsame
  have hleft : v.obs.tapDropped = s.obs.tapDropped := hdropped'.trans hdropped
  dsimp only
  rw [tapWrite, hwait]
  dsimp only
  rw [traceWrite_eq, hleft]
  exact ⟨hstreams, hcells, hsafety, rfl,
    ringMem_congr (t := { v with obs := { v.obs with pcieBucket := p' } }) hmem (htrace'.trans htrace) (hwr'.trans hwr) _⟩

/-- What the tap says of the streams: the picture is marked, and nothing else. -/
theorem tapMarked_marks {n don : Nat} {s t u : State} (hu : u.streams = s.streams) (ht : t.streams = (tapMarked n don u).streams) :
    (t.stream n).pics = (s.stream n).pics.map (fun q => if q.don = don then { q with tapped := true } else q) ∧
      ∀ k, k ≠ n → t.stream k = s.stream k := by
  have hstream : ∀ k, t.stream k = (tapMarked n don u).stream k := fun k => congrArg (fun l => tget l k _) ht
  have hold : ∀ k, u.stream k = s.stream k := fun k => congrArg (fun l => tget l k _) hu
  constructor
  · rw [hstream, tapMarked, stream_modStream, hold]
  · intro k hk
    rw [hstream, tapMarked, stream_modStream_other _ _ hk, hold]

/-- Settles O56: each operation by its equation, time by what it leaves of the ring and its buffers. -/
theorem traceAndTap : Obligations.TraceAndTap := by
  unfold Obligations.TraceAndTap
  intro s
  refine ⟨fun j e hruns => ?_, fun k hidle => ?_, fun k hperiod hmode hd => ?_, fun b h hskip => ?_, fun b h hmode hold hd3 => ?_,
    fun don h p w hon hd3 hevery hp htapped hfull => ?_, fun don w h hskip => congrArg Host.Outcome.next (pictureTap_skips hskip)⟩
  · have hexec := exec_traceConfig hruns
    refine ⟨fun hbad => by rw [hexec, if_pos hbad], fun hok => ?_⟩
    rw [if_neg (by rw [hok]; decide)] at hexec
    obtain ⟨m, l, k, hdrain⟩ := drainAll_shape (beginCmd e s)
    refine ⟨configured (traceOf e) (drainAll (beginCmd e s)), hexec, rfl, rfl, rfl, rfl, rfl, rfl, ?_, ?_, ?_, ?_, fun i hi => ?_, fun hoff => ?_⟩
    · rw [hdrain]; rfl
    · rw [hdrain]; rfl
    · rw [hdrain]; rfl
    · rw [hdrain]; rfl
    · rw [hdrain]
      exact tget_each (List.mem_range.mpr hi) _ _
    · have hnone : drainAll (beginCmd e s) = beginCmd e s := if_pos hoff
      rw [hnone]
      rfl
  · refine congrArg Host.Outcome.next (if_pos ?_)
    rcases hidle with hperiod | hmode
    · rw [decide_eq_true hperiod, Bool.true_or]
    · rw [decide_eq_true hmode, Bool.or_true]
  · exact ⟨_, rfl, counterSample_clause hperiod hmode hd⟩
  · exact congrArg Host.Outcome.next (traceDrain_skips hskip)
  · have hdrain := traceDrain_eq (h := h) hmode hold hd3
    obtain ⟨hd, ha, hu⟩ := readHead_shape (evBytes (takeEvents 2048 (tget s.obs.bufs b [])).1) h s
    dsimp only at hdrain ⊢
    generalize readHead (evBytes (takeEvents 2048 (tget s.obs.bufs b [])).1) h s = u at hdrain hu ⊢
    have hchunk : takeEvents (min 2048 (traceRoom u.obs)) (tget s.obs.bufs b []) = chunkOf b u := by rw [hu]; rfl
    rw [hchunk]
    refine ⟨fun hnone => ?_, fun hpos hquiet => ?_⟩
    · rw [if_pos hnone] at hdrain
      exact congrArg Host.Outcome.next hdrain
    · rw [if_neg hpos.ne'] at hdrain
      obtain ⟨g, hwr, hbuf, hg, hhead, hmem, hstreams, hdram, hsafety⟩ := traceDrain_writes hpos (u := u) (by rw [hu]; exact hquiet)
      refine ⟨_, g, congrArg Host.Outcome.next hdrain, ?_, hbuf, fun hlost => hg ?_, hhead, ?_, ?_, ?_, ?_⟩
      · rw [hwr, hu]
      · rw [hu]; exact hlost
      · rw [hmem]
        exact ringMem_congr (by rw [hu]) (by rw [hu]) (by rw [hu]) _
      · rw [hstreams, hu]
      · rw [hdram, hu]
      · rw [hsafety, hu]
  · have htap := pictureTap_eq (w := w) (h := h) hon hd3 hevery hp htapped hfull
    obtain ⟨hd, ha, hu⟩ := readHead_shape ((tapPayload p).length + 32) h s
    dsimp only at htap ⊢
    generalize readHead ((tapPayload p).length + 32) h s = u at htap hu ⊢
    refine ⟨fun hlate hroom => ?_, fun hlate hroom => ?_, fun hlate => ?_⟩
    · rw [if_neg hlate, if_pos hroom] at htap
      exact congrArg Host.Outcome.next htap
    · rw [if_neg hlate, if_neg (Nat.not_lt.mpr hroom)] at htap
      obtain ⟨hstreams, hdram, hsafety, hdropped, hmem⟩ :=
        tapWrite_writes (n := s.obs.trace.tapSlot) (don := don) (w := w) (body := tapPayload p) (s := tapMarked s.obs.trace.tapSlot p.don u)
      obtain ⟨hpics, hothers⟩ := tapMarked_marks (s := s) (by rw [hu]) hstreams
      refine ⟨_, congrArg Host.Outcome.next htap, ⟨hpics, hothers, ?_, ?_⟩, hdropped, ?_⟩
      · rw [hdram, hu]; rfl
      · rw [hsafety, hu]; rfl
      · rw [hmem]
        refine (ringMem_congr (s := s) (by rw [hu]; rfl) (by rw [hu]; rfl) (by rw [hu]; rfl) _).trans ?_
        rw [show (tapMarked s.obs.trace.tapSlot p.don u).obs.tapDropped = s.obs.tapDropped by rw [hu]; rfl]
        cases w <;> rfl
    · rw [if_pos hlate] at htap
      have hstreams : (tapDrop s.obs.trace.tapSlot (tapMarked s.obs.trace.tapSlot p.don u)).streams = (tapMarked s.obs.trace.tapSlot p.don u).streams := rfl
      obtain ⟨hpics, hothers⟩ := tapMarked_marks (s := s) (by rw [hu]) hstreams
      refine ⟨_, congrArg Host.Outcome.next htap, ⟨hpics, hothers, ?_, ?_⟩, ?_, ?_, ?_⟩
      · rw [hu]; rfl
      · rw [hu]; rfl
      · rw [hu]; rfl
      · rw [hu]; rfl
      · rw [hu]
        exact tget_tput_same _ _ _ _

end Sys2Proof.TraceWrites
end


section
/-! Impressions as the host and the maintenance port read them, and the end of a capture (16 R374, R375; 15 R341, R342). -/

namespace Sys2Proof.ImpressionReads

open Sys2Proof.Machine Sys2Proof.Laws Sys2Proof.Opening Sys2Proof.Detections Sys2Proof.HeartbeatVerdicts
open Sys2Proof.CounterReads Sys2Proof.TrackCommands Sys2Proof.PortCommands Sys2Proof.TrainSteps

/-! ### What an index names -/

theorem impHead_length (i : Impression) : (impHead i).length = 16 := rfl

theorem logEntries_length (s : State) : (logEntries s).length = 256 := by
  rw [logEntries, List.length_map, List.length_range]

theorem logEntries_size {s : State} {x : List Byte} (h : x ∈ logEntries s) : x.length = 64 := by
  obtain ⟨k, -, rfl⟩ := List.mem_map.mp h
  split
  · next i _ => rw [Posting.wordsBytes_length, impHead_length]
  · rw [List.length_map, List.length_range]

theorem readTarget_log (s : State) : readTarget s 0xFFFFFFFF = some (logEntries s) := if_pos rfl

theorem readTarget_copy {k : Nat} (hk : k < 4) (s : State) :
    readTarget s (0x80000000 + k) = (tfind s.recov.copies k).map impEntries := by
  rw [readTarget, if_neg (by omega), if_pos (by omega), Nat.add_sub_cancel_left]

theorem readTarget_held {n : Nat} {i : Impression} {s : State} (hpos : 0 < n) (hn : n < 2 ^ 31) (hi : heldImp s n = some i) :
    readTarget s n = some (impEntries i) := by
  rw [readTarget, if_neg (by omega), if_neg (by omega), if_neg (by omega), hi, Option.map_some]

/-! ### IMPRESSION_READ of a host ring -/

theorem exec_read_host {j : Nat} {e : JEntry} {s : State} (hruns : Runs s j 0x93 e) : exec (.impressionRead (.journal j)) s = .next (
    match readTarget s (e.param 3).toNat with
    | none => finish j stBadParam [] (beginCmd e s)
    | some l =>
      if impBad s (e.param 3).toNat l then finish j stEcc [] (beginCmd e s)
      else writeObserved j (e.param64 0) (e.param 2).toNat l (beginCmd e s)) := by
  obtain ⟨he, hbegin, hstatic⟩ := hruns
  exact congrArg Host.Outcome.next (runCmd_body he hbegin hstatic _)

theorem read_host_clause {j : Nat} {e : JEntry} {s : State} {l : List (List Byte)} (hruns : Runs s j 0x93 e)
    (hl : readTarget s (e.param 3).toNat = some l) (hgood : impBad s (e.param 3).toNat l = false) : ∃ k v, Fits l (e.param 2).toNat k ∧
    exec (.impressionRead (.journal j)) s = .next (finish j (if k = l.length then stOk else stTruncated) [w32 (l.take k).flatten.length] v) ∧
    v.hostMem = mwrite s.hostMem (e.param64 0) (l.take k).flatten ∧ v.recov = s.recov ∧ v.streams = s.streams ∧ v.dram = s.dram ∧
    v.safety = s.safety := by
  have hexec := exec_read_host hruns
  obtain ⟨k, v, hk, hwrite, hmem, -, -, hstreams, -, hdram, hsafety, hrecov⟩ :=
    writeObserved_fits j (e.param64 0) (e.param 2).toNat l (beginCmd e s)
  rw [hl] at hexec
  dsimp only at hexec
  rw [if_neg (by rw [hgood]; decide), hwrite] at hexec
  exact ⟨k, v, hk, hexec, hmem, hrecov, hstreams, hdram, hsafety⟩

/-! ### IMPRESSION_READ of the maintenance port -/

section
variable {pkt : List Word} {s : State}

theorem staticCheck_read (hop : fld (pkt.getD 0 0) 7 0 = 0x93) (hext : fld (pkt.getD 0 0) 25 24 = 0) (hctx : fld (pkt.getD 2 0) 15 0 = 0)
    (hremote : bit (pkt.getD 3 0) 7 = false) (chip : Nat) : staticCheck chip (maintEntry pkt s) = none := by
  have hinfo : opInfo (maintEntry pkt s).opcode = some ⟨true, false, false, true, 0, .none⟩ := by
    rw [show (maintEntry pkt s).opcode = 0x93 from hop]
    rfl
  have hlocal : (maintEntry pkt s).remoteTo chip = false := by
    rw [JEntry.remoteTo, show (maintEntry pkt s).remote = false from hremote, Bool.false_and]
  have hlen : (maintEntry pkt s).ext = 0 := hext
  have hnumber : (maintEntry pkt s).ctx < CtxKind.bound .none := by
    rw [show (maintEntry pkt s).ctx = 0 from hctx]
    decide
  have hport : (maintEntry pkt s).port = .maintenance := rfl
  simp [staticCheck, hinfo, hlocal, hlen, hport, OpInfo.allows, hnumber]

/-- What the port answers to a read of index `ix` into a buffer of `room` bytes. -/
def readAnswer (ix room addr : Nat) (s : State) : Nat × List Word × State :=
  match readTarget s ix with
  | none => (stBadParam, [], s)
  | some l =>
    if impBad s ix l then (stEcc, [], s)
    else
      let c := cutImage l room
      (if c.2.2 then stTruncated else stOk, [w32 c.1.length], hostWrite addr c.1 (takePcie c.1.length s))

theorem exec_read_maintenance (hup : maintenanceUp s = true) (hd3 : s.pcie.d3 = false) (hroom : sharedUsed s < Config.journalShared)
    (hop : fld (pkt.getD 0 0) 7 0 = 0x93) (hext : fld (pkt.getD 0 0) 25 24 = 0) (hctx : fld (pkt.getD 2 0) 15 0 = 0)
    (hremote : bit (pkt.getD 3 0) 7 = false) : exec (.impressionRead (.maintenance pkt)) s = .next (maintAnswered pkt s
      (readAnswer (pkt.getD 7 0).toNat (pkt.getD 6 0).toNat (join64 (pkt.getD 4 0) (pkt.getD 5 0)) (maintTaken s))) := by
  refine congrArg Host.Outcome.next ?_
  have hopen : (!(maintenanceUp s && decide (fld (pkt.getD 0 0) 7 0 = 0x93)) || s.pcie.d3) = false := by rw [hup, hd3, decide_eq_true hop]; rfl
  have hstatic := staticCheck_read (s := s) hop hext hctx hremote (maintTaken s).link.chip
  change (if (!(maintenanceUp s && decide (fld (pkt.getD 0 0) 7 0 = 0x93)) || s.pcie.d3) = true then s else maintenance pkt s _) = _
  rw [hopen, if_neg (by decide), maintenance_taken hroom]
  refine congrArg (maintAnswered pkt s) ?_
  dsimp only
  rw [hstatic]
  rfl

/-- The answer is the completion shown; what the body changed stays. -/
theorem maintAnswered_answers (st : Nat) (r : List Word) (u : State) :
    let t := maintAnswered pkt s (st, r, u)
    (∃ c, t.mntCpl = some c ∧ c.status = st ∧ c.asn = s.mntAsn + 1 ∧ c.final = true) ∧ t.recov = u.recov ∧ t.streams = u.streams ∧
      t.hostMem = u.hostMem :=
  ⟨⟨_, rfl, rfl, rfl, rfl⟩, rfl, rfl, rfl⟩

theorem readAnswer_written {ix room addr : Nat} {l : List (List Byte)} (hl : readTarget s ix = some l) (hgood : impBad s ix l = false) :
    ∃ k v, Fits l room k ∧ readAnswer ix room addr s = (if k = l.length then stOk else stTruncated, [w32 (l.take k).flatten.length], v) ∧
      v.hostMem = mwrite s.hostMem addr (l.take k).flatten ∧ v.recov = s.recov ∧ v.streams = s.streams := by
  obtain ⟨k, hk, hcut⟩ := cutImage_fits l room
  obtain ⟨u, b, hidled, hwait, -⟩ := takePcie_waits (l.take k).flatten.length s
  refine ⟨k, hostWrite addr (l.take k).flatten (takePcie (l.take k).flatten.length s), hk, ?_, ?_, ?_, ?_⟩
  · rw [readAnswer, hl]
    dsimp only
    rw [if_neg (by rw [hgood]; decide), hcut]
    by_cases hall : k = l.length
    · simp [hall]
    · simp [hall]
  all_goals
    rw [hwait]
    obtain ⟨_, _, _, _, _, _, _, rfl⟩ := hidled
    rfl

end

/-! ### The end of a capture -/

theorem resetTrip_shape (b : Bool) (s : State) : ∃ f c r a d x y z, resetTrip b s =
    { s with safety := f, pcie := { s.pcie with cause := c, recent := r, asserted := a, deassertAt := d },
             obs := { s.obs with sources := x, trigger := y, tickTrig := z } } := by
  unfold resetTrip
  cases b
  · exact ⟨_, _, _, _, _, _, _, _, rfl⟩
  · exact detect_shape 13 s

/-- A capture in the store, its cause set (15 R342). -/
def stored (i : Impression) (rest : List (Impression × Nat × Nat)) (s : State) : State :=
  setCause 18 { s with recov := { s.recov with captures := rest, store := tput s.recov.store (storeSlot i.incident) i } }

theorem impressionWritten_stores {i : Impression} {code n : Nat} {rest : List (Impression × Nat × Nat)} {s : State} (hfatal : s.chip.fatal = false)
    (hcap : s.recov.captures = (i, code, n) :: rest) : doImpressionWritten s =
      if s.recov.incs.any (fun x => x.1 = i.incident) then requestReset code n (stored i rest s) else stored i rest s := by
  unfold doImpressionWritten
  rw [hfatal, hcap]
  rfl

theorem impressionWritten_idle {s : State} (h : s.chip.fatal = true ∨ s.recov.captures = []) : doImpressionWritten s = s := by
  unfold doImpressionWritten
  rcases h with hfatal | hnone
  · rw [hfatal]
    rfl
  · rw [hnone]
    exact ite_self s

theorem stored_shape (i : Impression) (rest : List (Impression × Nat × Nat)) (s : State) : ∃ r a d, stored i rest s =
    { s with recov := { s.recov with captures := rest, store := tput s.recov.store (storeSlot i.incident) i },
             pcie := { s.pcie with cause := s.pcie.cause ||| w32 (2 ^ 18), recent := r, asserted := a, deassertAt := d } } :=
  setCause_shape 18 { s with recov := { s.recov with captures := rest, store := tput s.recov.store (storeSlot i.incident) i } }

/-- A reset requested joins the requests, unless it is requested or in progress already (15 R338). -/
theorem requestReset_requests (code n : Nat) (s : State) : (requestReset code n s).recov =
    { s.recov with requests := if resetting s code n then s.recov.requests else s.recov.requests ++ [(code, n, s.chip.tick)] } := by
  unfold requestReset
  split
  · next h => rfl
  · next h =>
    obtain ⟨_, _, _, _, _, _, _, _, htrip⟩ := resetTrip_shape (safetyUnit s code n)
      { s with recov := { s.recov with requests := s.recov.requests ++ [(code, n, s.now)] } }
    rw [htrip]
    rfl

theorem requestReset_kept (code n : Nat) (s : State) : (requestReset code n s).streams = s.streams ∧ (requestReset code n s).hostMem = s.hostMem ∧
    (requestReset code n s).dram = s.dram ∧ (s.pcie.cause.getLsbD 18 = true → (requestReset code n s).pcie.cause.getLsbD 18 = true) := by
  have hdetect : ∀ t, (detect 13 t).streams = t.streams ∧ (detect 13 t).hostMem = t.hostMem ∧ (detect 13 t).dram = t.dram ∧
      (t.pcie.cause.getLsbD 18 = true → (detect 13 t).pcie.cause.getLsbD 18 = true) := by
    intro t
    obtain ⟨_, c, r, a, d, _, _, _, h⟩ := detect_shape 13 t
    exact ⟨by rw [h], by rw [h], by rw [h], detect_stands 13⟩
  unfold requestReset resetTrip
  split
  · exact ⟨rfl, rfl, rfl, id⟩
  · split
    · exact hdetect { s with recov := { s.recov with requests := s.recov.requests ++ [(code, n, s.now)] } }
    · exact ⟨rfl, rfl, rfl, id⟩

theorem impressionWritten_clause {i : Impression} {code n : Nat} {rest : List (Impression × Nat × Nat)} {s : State} (hfatal : s.chip.fatal = false)
    (hcap : s.recov.captures = (i, code, n) :: rest) :
    let t := doImpressionWritten s
    t.recov.captures = rest ∧ tfind t.recov.store (storeSlot i.incident) = some i ∧ t.pcie.cause.getLsbD 18 = true ∧
      t.streams = s.streams ∧ t.hostMem = s.hostMem ∧ t.dram = s.dram ∧
      (s.recov.incs.any (fun x => x.1 = i.incident) = true → resetting s code n = false →
        t.recov.requests = s.recov.requests ++ [(code, n, s.chip.tick)]) ∧
      (s.recov.incs.any (fun x => x.1 = i.incident) = false ∨ resetting s code n = true → t.recov.requests = s.recov.requests) := by
  have hcause : (stored i rest s).pcie.cause.getLsbD 18 = true := HostRings.setCause_cause (by decide) _
  obtain ⟨r, a, d, hstored⟩ := stored_shape i rest s
  have hresetting : resetting (stored i rest s) code n = resetting s code n := by rw [hstored]; rfl
  dsimp only
  rw [impressionWritten_stores hfatal hcap]
  split
  · next hopen =>
    have hrecov := requestReset_requests code n (stored i rest s)
    obtain ⟨hstreams, hmem, hdram, hstands⟩ := requestReset_kept code n (stored i rest s)
    rw [hresetting] at hrecov
    refine ⟨?_, ?_, hstands hcause, ?_, ?_, ?_, fun _ hfree => ?_, fun hno => ?_⟩
    · rw [hrecov, hstored]
    · rw [hrecov, hstored]
      exact tfind_tput_same _ _ _
    · rw [hstreams, hstored]
    · rw [hmem, hstored]
    · rw [hdram, hstored]
    · rw [hrecov, hfree, hstored]
      rfl
    · rw [hrecov, if_pos (hno.resolve_left (by rw [hopen]; decide)), hstored]
  · next hclosed =>
    refine ⟨?_, ?_, hcause, ?_, ?_, ?_, fun hopen => absurd hopen hclosed, fun _ => ?_⟩
    · rw [hstored]
    · rw [hstored]
      exact tfind_tput_same _ _ _
    · rw [hstored]
    · rw [hstored]
    · rw [hstored]
    · rw [hstored]

/-- Settles O57: what an index names decides the answer, and the entries that fit are written; the oldest capture moves into its slot. -/
theorem impressions : Obligations.Impressions := by
  unfold Obligations.Impressions
  intro s
  refine ⟨fun j e hruns => ⟨fun hnone => ?_, fun l hl => ⟨fun hbad => ?_, fun hgood => ?_⟩⟩, fun pkt hd3 => ?_,
    fun pkt hup hd3 hroom hop hext hctx hremote => ?_, ⟨logEntries s, readTarget_log s, logEntries_length s, fun x => logEntries_size⟩,
    fun k hk => readTarget_copy hk s, fun n i hpos hn hi => readTarget_held hpos hn hi,
    fun hidle => congrArg Host.Outcome.next (impressionWritten_idle hidle),
    fun i code n rest hfatal hcap => ⟨_, rfl, impressionWritten_clause hfatal hcap⟩⟩
  · have hexec := exec_read_host hruns
    rw [hnone] at hexec
    exact hexec
  · have hexec := exec_read_host hruns
    rw [hl] at hexec
    dsimp only at hexec
    rw [if_pos hbad] at hexec
    exact hexec
  · obtain ⟨k, v, ⟨hlisted, hfit, htight⟩, hread⟩ := read_host_clause hruns hl hgood
    exact ⟨k, v, ⟨hlisted, hfit, htight⟩, hread⟩
  · exact congrArg Host.Outcome.next (if_pos (by rw [hd3, Bool.or_true]))
  · have hexec := exec_read_maintenance hup hd3 hroom hop hext hctx hremote
    dsimp only
    have htarget : ∀ ix, readTarget (maintTaken s) ix = readTarget s ix := fun _ => rfl
    have hsector : ∀ ix l, impBad (maintTaken s) ix l = impBad s ix l := fun _ _ => rfl
    have hrejects : ∀ st, readAnswer (pkt.getD 7 0).toNat (pkt.getD 6 0).toNat (join64 (pkt.getD 4 0) (pkt.getD 5 0)) (maintTaken s) =
        (st, [], maintTaken s) → ∃ t, (exec (.impressionRead (.maintenance pkt)) s = .next t ∧
          (∃ c, t.mntCpl = some c ∧ c.status = st ∧ c.asn = s.mntAsn + 1 ∧ c.final = true) ∧ t.recov = s.recov ∧ t.streams = s.streams) ∧
          t.hostMem = s.hostMem := by
      intro st hanswer
      rw [hanswer] at hexec
      obtain ⟨hshown, hrecov, hstreams, hmem⟩ := maintAnswered_answers (pkt := pkt) (s := s) st [] (maintTaken s)
      exact ⟨_, ⟨hexec, hshown, hrecov, hstreams⟩, hmem⟩
    refine ⟨fun hnone => hrejects stBadParam ?_, fun l hl => ⟨fun hbad => hrejects stEcc ?_, fun hgood => ?_⟩⟩
    · rw [readAnswer, htarget, hnone]
    · rw [readAnswer, htarget, hl]
      exact if_pos hbad
    · obtain ⟨k, v, ⟨hlisted, hfit, htight⟩, hanswer, hvmem, hvrecov, hvstreams⟩ := readAnswer_written (s := maintTaken s)
        (room := (pkt.getD 6 0).toNat) (addr := join64 (pkt.getD 4 0) (pkt.getD 5 0)) ((htarget _).trans hl) ((hsector _ _).trans hgood)
      rw [hanswer] at hexec
      obtain ⟨hshown, hrecov, hstreams, hmem⟩ := maintAnswered_answers (pkt := pkt) (s := s) (if k = l.length then stOk else stTruncated)
        [w32 (l.take k).flatten.length] v
      exact ⟨k, _, ⟨hlisted, hfit, htight⟩, ⟨hexec, hshown, hrecov.trans hvrecov, hstreams.trans hvstreams⟩, hmem.trans hvmem⟩

end Sys2Proof.ImpressionReads
end


section
/-! START_UP of a part that still holds a shadow session (18 R388; 12 R295): the link plane meets a peer of a new INCARNATION, and what the session's buffers
say of the pools trips safety. -/

namespace Sys2Proof.StaleShadow

open Sys2Proof.Machine Sys2Proof.Laws

/-- Words of a boot configuration that makes the part chip 0 of a ring with port 0 enabled. -/
def ringBlock : List Word := [0x42430100, 0, 0, 0x40100000] ++ List.replicate 1019 0

/-- The block with its CRC. -/
def ringConfig : List Word := ringBlock ++ [crcWords ringBlock]

/-- Header of an image of security version 0 and version 1. -/
def header (kind : Word) : List Word := [0x50490100 + kind, 16, 0, 1]

def image (kind : Word) : ImageInfo := { header := header kind, keyOk := true, signatureOk := true }

/-- A start-up in which port 0 comes UP towards chip 5, with INCARNATION 7. -/
def boot : BootInfo :=
  { barSize := false, testEn := false, bootSrc := false, configA := ringConfig, configB := [], stageA := image 1,
    stageB := image 1, mainA := image 2, mainB := image 2, chanMib := 256, ranks := 1, uniform := true, trainFail := none, badCores := [],
    portsUp := [(0, .identity 5 1 1 0 0 7 [])], pcieSpeed := 32, pcieWidth := 8, stepping := 0 }

/-- A shadow session of chip 5 with one buffer. -/
def shadow : Session := { Session.closed 1 with shadow := some (5, 0, 0), allocs := [{ addr := 0, bytes := 4096, pool := 0, ecc := false }] }

/-- An armed part before start-up that knows chip 5 under INCARNATION 6. -/
def stale : State :=
  { State.reset with safety := { Safety.reset with state := 1 }, sessions := [(0, shadow)], link := { Link.reset 0 with peerInc := [(5, 6)] } }

/-! ### The boot configuration -/

theorem ringBlock_length : ringBlock.length = 1023 := by
  rw [ringBlock, List.length_append, List.length_replicate]
  rfl

theorem ringConfig_ok : configOk ringConfig = true := by
  have hlast : ringConfig.getD 1023 0 = crcWords ringBlock := by
    rw [ringConfig, ← ringBlock_length, List.getD_append_right _ _ _ _ (Nat.le_refl _), Nat.sub_self]
    rfl
  have hfirst : ringConfig.take 1023 = ringBlock := List.take_left' ringBlock_length
  have hlen : ringConfig.length = 1024 := by rw [ringConfig, List.length_append, ringBlock_length]; rfl
  have hmagic : fld (ringConfig.getD 0 0) 31 16 = 0x4243 := rfl
  have hver : fld (ringConfig.getD 0 0) 15 8 = 1 := rfl
  rw [configOk, hlast, hfirst, hlen, hmagic, hver, decide_eq_true rfl, decide_eq_true rfl, decide_eq_true rfl, decide_eq_true rfl]
  rfl

theorem bootConfig_eq {b : BootInfo} (h : configOk b.configA = true) : bootConfig b = some b.configA := by
  simp only [bootConfig, List.find?_cons, h]

/-- The part with the boot configuration of `ws` taken, as far as start-up reads it from there. -/
def withConfig (ws : List Word) (s : State) : State :=
  { s with pcie := { s.pcie with subsysVendor := fld (ws.getD 2 0) 15 0, subsysId := fld (ws.getD 2 0) 31 16 },
           chip := { s.chip with bootLink := ws.getD 3 0, bootRoutes := if bit (ws.getD 4 0) 0 then some ((ws.drop 5).take 16) else none,
                                 flashMap := ((ws.getD 21 0).toNat, (ws.getD 22 0).toNat, (ws.getD 23 0).toNat) } }

theorem takeConfig_eq {b : BootInfo} (h : configOk b.configA = true) (s : State) : takeConfig b s = withConfig b.configA s := by
  unfold takeConfig
  rw [bootConfig_eq h]
  rfl

/-- The part when the stage image runs: the link plane is to be chip 0 of a ring. -/
def taken : State := withConfig ringConfig (sampleStraps boot (trainPcie boot stale))

theorem takeConfig_boot : takeConfig boot (sampleStraps boot (trainPcie boot stale)) = taken := by
  have hconfig : boot.configA = ringConfig := rfl
  rw [takeConfig_eq (by rw [hconfig]; exact ringConfig_ok), hconfig, taken]

/-! ### The start -/

theorem stale_starts : stale.chip.phase = .starting ∧ bootPossible boot = true ∧
    (bootOrder (sampleStraps boot stale).chip.bootSrc boot).find? (fun y => imageValid stale.chip.minSvn 1 y.1) = some (image 1, image 2) ∧
    populationOk boot = true ∧ imageValid stale.chip.minSvn 2 (image 2) = true ∧ stale.chip.fenced ≠ 0xFFFF ∧ stale.chip.flrPending = false := by
  decide +kernel

theorem doStartUp_stale : doStartUp boot stale = bootFrom boot (image 1) (image 2) taken := by
  unfold doStartUp
  rw [takeConfig_boot]
  rfl

theorem stale_trips : (bootFrom boot (image 1) (image 2) taken).safety.state = 2 := by decide +kernel

/-- Refutes O8: it claims that a start-up without fault leaves the safety state as it was, from any starting state. The statement has no premise that no
session stands before start-up (03 R73). `stale` holds a shadow session of chip 5: once port 0 is UP, chip 5 shows another INCARNATION than the part knew, the
shadow closes (12 R292), and the release of its buffer, which nobody holds in the pools start-up has just made, is a fault of the memory plane (11 R274)
that trips the armed part. -/
theorem not_startUpOutcomes : ¬ Obligations.StartUpOutcomes := by
  unfold Obligations.StartUpOutcomes
  intro h
  obtain ⟨hphase, hpossible, hfirst, hpopulation, hmain, hfenced, hflr⟩ := stale_starts
  obtain ⟨t, ht, -, -, -, -, -, -, hsafety, -⟩ := h.1 boot (image 1, image 2) stale hphase hpossible hfirst hpopulation rfl hmain rfl rfl hfenced hflr
  obtain rfl : doStartUp boot stale = t := Host.Outcome.next.inj ht
  have hstate := congrArg Safety.state hsafety
  rw [doStartUp_stale, stale_trips] at hstate
  exact absurd hstate (by decide)

end Sys2Proof.StaleShadow
end


section
/-! Function-level reset, a stop's way back to start-up, and the power states (13 R302, R309-R311; 15 R346; 18 R390). -/

namespace Sys2Proof.FunctionResets

open Sys2Proof.Machine Sys2Proof.Laws Sys2Proof.CoalExpiry Sys2Proof.RecordWriter

/-! ### The link plane starts anew -/

/-- No port is UP. -/
def PortsDown (s : State) : Prop := ∀ q, (s.lport q).st ≠ 2

/-- Between the two states nothing changed but the link plane, which kept its INCARNATION, and INTA with its causes. -/
def Relinked (s t : State) : Prop := ∃ l c r a d,
  t = { s with link := l, pcie := { s.pcie with cause := c, recent := r, asserted := a, deassertAt := d } } ∧ l.incarnation = s.link.incarnation

theorem Relinked.refl (s : State) : Relinked s s := ⟨_, _, _, _, _, rfl, rfl⟩

theorem Relinked.trans {s t u : State} (h : Relinked s t) (h' : Relinked t u) : Relinked s u := by
  obtain ⟨_, _, _, _, _, rfl, hinc⟩ := h
  obtain ⟨_, _, _, _, _, rfl, hinc'⟩ := h'
  exact ⟨_, _, _, _, _, rfl, hinc'.trans hinc⟩

theorem setPort_relinked (p : Nat) (x : LPort) (s : State) : Relinked s (setPort p x s) := by
  unfold setPort
  dsimp only
  split
  · exact ⟨_, _, _, _, _, rfl, rfl⟩
  · obtain ⟨_, _, _, h⟩ := setCause_shape 19 (s.setLport p x)
    rw [h]
    exact ⟨_, _, _, _, _, rfl, rfl⟩

theorem setPort_link (p : Nat) (x : LPort) (s : State) : (setPort p x s).link = (s.setLport p x).link := by
  unfold setPort
  dsimp only
  split
  · rfl
  · obtain ⟨_, _, _, h⟩ := setCause_shape 19 (s.setLport p x)
    rw [h]

theorem setPort_down {p : Nat} {x : LPort} {s : State} (h : PortsDown s) (hx : x.st ≠ 2) : PortsDown (setPort p x s) := by
  intro q
  rw [show (setPort p x s).lport q = (s.setLport p x).lport q from congrArg (fun l : Link => tget l.ports q LPort.reset) (setPort_link p x s)]
  by_cases hq : q = p
  · rw [hq, lport_setLport]
    exact hx
  · rw [lport_setLport_other s x hq]
    exact h q

/-- A port that is not UP is configured without a fault. -/
theorem configPort_relinked (c : LinkWord) (p : Nat) {s : State} (h : PortsDown s) : Relinked s (configPort c p s) ∧ PortsDown (configPort c p s) := by
  have hstays : (if (s.lport p).enabled then (s.lport p).st else 1) ≠ 2 := by
    split
    · exact h p
    · decide
  unfold configPort
  dsimp only
  split
  · exact ⟨setPort_relinked _ _ _, setPort_down h hstays⟩
  · rw [PortFaults.portFault_down (h p)]
    exact ⟨setPort_relinked _ _ _, setPort_down h (show (0 : Nat) ≠ 2 by decide)⟩

theorem configPorts_relinked (c : LinkWord) (l : List Nat) {s : State} (h : PortsDown s) : Relinked s (forAll l (fun p s => configPort c p s) s) := by
  induction l generalizing s with
  | nil => exact .refl s
  | cons p l ih =>
    obtain ⟨hone, hdown⟩ := configPort_relinked c p h
    exact hone.trans (ih hdown)

theorem linkBoot_relinked {s : State} (h : PortsDown s) : Relinked s (linkBoot s) := by
  have happly : ∀ c : LinkWord, Relinked s (applyLink c s) := fun c =>
    Relinked.trans ⟨_, _, _, _, _, rfl, rfl⟩
      (configPorts_relinked c [0, 1, 2, 3] (s := { s with link := { s.link with role := c.role, chip := c.chip, torusX := if c.role = 2 then c.tx else s.link.torusX, torusY := if c.role = 2 then c.ty else s.link.torusY } }) h)
  unfold linkBoot
  dsimp only
  generalize (if (LinkWord.ofWord s.chip.bootLink).ok then LinkWord.ofWord s.chip.bootLink else LinkWord.ofWord 0) = c
  split
  · exact happly c
  · split
    · exact (happly c).trans ⟨_, _, _, _, _, rfl, rfl⟩
    · exact happly c

/-- Ports disabled, the INCARNATION new; only the link plane changed. -/
theorem linkFlr_shape (s : State) : ∃ l, linkFlr s = { s with link := l } ∧ l.incarnation = s.link.incarnation + 1 ∧ l.ports = [] := by
  have hnotices : ∀ (ps : List Nat) (s : State) (inc : Word), ∃ tx, forAll ps (fun p s =>
      { s with link := { s.link with tx := s.link.tx ++
          [(p, sealPkt { dest := (s.lport p).peer, src := s.link.chip, cls := 0, vc := 0, turned := false, type := 0x09, hops := 32,
                         context := 0xFFFF, gen := 0, seq := 0, aux := inc, aux2 := 0, crc := 0, data := [] })] } }) s =
      { s with link := { s.link with tx := tx } } := by
    intro ps
    induction ps with
    | nil => exact fun s _ => ⟨_, rfl⟩
    | cons p ps ih =>
      intro s inc
      obtain ⟨tx, h⟩ := ih { s with link := { s.link with tx := s.link.tx ++
          [(p, sealPkt { dest := (s.lport p).peer, src := s.link.chip, cls := 0, vc := 0, turned := false, type := 0x09, hops := 32,
                         context := 0xFFFF, gen := 0, seq := 0, aux := inc, aux2 := 0, crc := 0, data := [] })] } } inc
      exact ⟨tx, h⟩
  obtain ⟨tx, h⟩ := hnotices ([0, 1, 2, 3].filter (portUp s)) s (s.link.incarnation + 1)
  unfold linkFlr
  dsimp only
  rw [h]
  exact ⟨_, rfl, rfl, rfl⟩

/-! ### The reset -/

/-- The part with everything removed and its registers cleared, before it is said how it goes on. -/
def wiped (s : State) : State := clearRegs (removeAll (linkFlr s))

theorem wiped_shape (s : State) : ∃ l, wiped s = { clearRegs (removeAll s) with link := l } ∧ l.incarnation = s.link.incarnation + 1 ∧ l.ports = [] := by
  obtain ⟨l, h, hinc, hports⟩ := linkFlr_shape s
  unfold wiped
  rw [h]
  exact ⟨l, rfl, hinc, hports⟩

/-- The running part that a reset leaves, before the link plane is configured. -/
def restarted (s : State) : State :=
  { wiped s with chip := { (wiped s).chip with phase := .ready, fatal := false, faultN := true, flrPending := false },
                 pcie := { (wiped s).pcie with flrCount := (wiped s).pcie.flrCount + 1 } }

theorem restarted_down (s : State) : PortsDown (restarted s) := by
  obtain ⟨l, h, -, hports⟩ := wiped_shape s
  intro q
  have hport : (restarted s).lport q = LPort.reset := by
    rw [State.lport, show (restarted s).link = l from congrArg State.link h, hports]
    rfl
  rw [hport]
  decide

theorem flr_ready {s : State} (h : s.chip.phase = .ready) : flr false s = linkBoot (restarted s) := by
  unfold flr
  rw [h]
  rfl

/-- A host queue after a reset: the ASNs last accepted and posted are shown on (13 R309). -/
def clearQueue (x : HostQueue) : HostQueue := { HostQueue.reset with cmdLastAsn := x.cmdLastAsn, cplLastAsn := x.cplLastAsn }

theorem clearRegs_queue (s : State) (q : Nat) : (clearRegs s).queue q = clearQueue (s.queue q) :=
  tget_map (f := clearQueue) (d := HostQueue.reset) rfl s.hq q

/-! ### The power states -/

/-- A ring's active flag falls, or its last write-back is made, once the part is back in D0 (13 R302; 03 R53). -/
def settleRing (o : Nat) (s : State) : State :=
  let r := s.oring o
  if r.active && !r.ringEn then (if r.uncovered.isEmpty then s.setOring o { r with active := false } else tailWriteBack o s) else s

theorem doD0Return_eq {s : State} (h : s.pcie.d3 = true) :
    doD0Return s = forAll (List.range 8) settleRing (inta (flush { s with pcie := { s.pcie with d3 := false } })) := by
  unfold doD0Return
  rw [if_pos h]
  rfl

theorem settleRing_recorded (o : Nat) (s : State) : Recorded s (settleRing o s) ∧ (settleRing o s).safety = s.safety := by
  unfold settleRing
  dsimp only
  split
  · split
    · exact ⟨.setOring s o _, rfl⟩
    · exact ⟨.tailWriteBack s o, NicheEnds.tailWriteBack_safety o s⟩
  · exact ⟨.refl s, rfl⟩

theorem settleRings_recorded (l : List Nat) (s : State) : Recorded s (forAll l settleRing s) ∧ (forAll l settleRing s).safety = s.safety := by
  induction l generalizing s with
  | nil => exact ⟨.refl s, rfl⟩
  | cons o l ih =>
    obtain ⟨hone, hsafety⟩ := settleRing_recorded o s
    obtain ⟨hrest, hsafety'⟩ := ih (settleRing o s)
    exact ⟨hone.trans hrest, hsafety'.trans hsafety⟩

/-- What waited leaves when the part returns to D0, and the contexts stay. -/
theorem d0Return_clause {s : State} (h : s.pcie.d3 = true) :
    let t := doD0Return s
    t.pcie.d3 = false ∧ t.streams = s.streams ∧ t.sessions = s.sessions ∧ t.maquettes = s.maquettes ∧ t.armatures = s.armatures ∧ t.runs = s.runs ∧
      t.tracks = s.tracks ∧ t.dram = s.dram ∧ t.safety = s.safety ∧ t.link = s.link ∧ t.chip = s.chip ∧ t.recov = s.recov := by
  dsimp only
  rw [doD0Return_eq h]
  have hkept := flush_kept { s with pcie := { s.pcie with d3 := false } }
  have hlink := PeerLoss.flush_link { s with pcie := { s.pcie with d3 := false } }
  generalize flush { s with pcie := { s.pcie with d3 := false } } = u at hkept hlink
  have hsame : u.pcie.d3 = false ∧ u.streams = s.streams ∧ u.sessions = s.sessions ∧ u.maquettes = s.maquettes ∧ u.armatures = s.armatures ∧
      u.runs = s.runs ∧ u.tracks = s.tracks ∧ u.dram = s.dram ∧ u.safety = s.safety ∧ u.link = s.link ∧ u.chip = s.chip ∧ u.recov = s.recov :=
    ⟨congrArg (fun v : State => v.pcie.d3) hkept, (kept_streams hkept :), (kept_sessions hkept :), (kept_maquettes hkept :), (kept_armatures hkept :),
      (kept_runs hkept :), (kept_tracks hkept :), (kept_dram hkept :), (kept_safety hkept :), hlink, (kept_chip hkept :), (kept_recov hkept :)⟩
  obtain ⟨a, d, hinta⟩ := inta_shape u
  obtain ⟨hrec, hsafety⟩ := settleRings_recorded (List.range 8) (inta u)
  rw [hsafety, hinta]
  rw [hinta] at hrec
  generalize forAll (List.range 8) settleRing _ = t at hrec
  obtain ⟨_, _, _, _, _, _, _, _, _, _, _, _, rfl⟩ := hrec
  exact hsame

/-- Settles O9: a reset is `wiped` with the link plane started anew, where no port is UP any more. -/
theorem functionLevelResetsAndPowerStates : Obligations.FunctionLevelResetsAndPowerStates := by
  unfold Obligations.FunctionLevelResetsAndPowerStates
  refine ⟨fun s => ⟨fun h => rfl, fun hready => ?_⟩, fun h s hstopped => ?_, fun s hready => ?_, fun s hphase => ?_, fun s hd3 => ?_⟩
  · refine ⟨linkBoot (restarted s), congrArg Host.Outcome.next (flr_ready hready), ?_⟩
    obtain ⟨l, c, r, a, d, hboot, hinc⟩ := linkBoot_relinked (restarted_down s)
    obtain ⟨l', hwiped, hinc', -⟩ := wiped_shape s
    rw [hboot]
    have hrestarted : restarted s = { clearRegs (removeAll s) with
        link := l', chip := { s.chip with phase := .ready, fatal := false, faultN := true, flrPending := false }
        pcie := { (clearRegs (removeAll s)).pcie with flrCount := s.pcie.flrCount + 1 } } := by
      unfold restarted
      rw [hwiped]
      rfl
    rw [hrestarted] at hinc ⊢
    refine ⟨rfl, rfl, rfl, rfl, rfl, rfl, rfl, rfl, rfl, rfl, rfl, rfl, rfl, rfl, rfl, rfl, hinc.trans hinc', rfl, rfl, rfl, rfl, rfl, rfl, rfl, rfl, rfl,
      rfl, fun q => ?_⟩
    have hqueue := clearRegs_queue (removeAll s) q
    change ((clearRegs (removeAll s)).queue q).cmdLastAsn = _ ∧ ((clearRegs (removeAll s)).queue q).cplLastAsn = _ ∧
      ((clearRegs (removeAll s)).queue q).ringEn = _
    rw [hqueue]
    exact ⟨rfl, rfl, rfl⟩
  · obtain ⟨l', hwiped, hinc', -⟩ := wiped_shape s
    have hflr : flr h s = { wiped s with chip := { (wiped s).chip with phase := .starting, fwVersion := 0, flrPending := false },
                                         pcie := { (wiped s).pcie with flrCount := (wiped s).pcie.flrCount + 1 } } := by
      unfold flr
      rw [hstopped]
      rfl
    refine ⟨_, congrArg Host.Outcome.next hflr, rfl, rfl, ?_, ?_, ?_, ?_⟩
    · rw [hwiped]; rfl
    · rw [hwiped]; exact hinc'
    · rw [hwiped]; rfl
    · rw [hwiped]; rfl
  · have hflr : flr true s = { wiped s with chip := { (wiped s).chip with phase := .hung, faultN := false } } := by
      unfold flr
      rw [hready]
      rfl
    exact ⟨_, congrArg Host.Outcome.next hflr, rfl, rfl, fun h => rfl⟩
  · refine congrArg Host.Outcome.next ?_
    unfold doD3hotEntry
    rcases hphase with hready | hstopped
    · rw [if_pos (by rw [hready]; rfl)]
    · rw [if_pos (by rw [hstopped]; rfl)]
  · exact ⟨_, rfl, d0Return_clause hd3⟩

end Sys2Proof.FunctionResets
end


section
/-! ARMATURE_SWAP (02 R32; 15 R349): the schedule put in force, and what it means for jobs and sessions (09 R220; 10 R236). -/

namespace Sys2Proof.Swaps

open Sys2Proof.Machine Sys2Proof.Laws Sys2Proof.Opening Sys2Proof.Detections

/-! ### Jobs on the cores (10 R236) -/

/-- Between the two states jobs were placed anew: cores, jobs and observation changed. -/
def Replaced (s t : State) : Prop := ∃ c j o, t = { s with cores := c, jobs := j, obs := o }

theorem Replaced.refl (s : State) : Replaced s s := ⟨_, _, _, rfl⟩

theorem Replaced.trans {s t u : State} (h : Replaced s t) (h' : Replaced t u) : Replaced s u := by
  obtain ⟨_, _, _, rfl⟩ := h
  obtain ⟨_, _, _, rfl⟩ := h'
  exact ⟨_, _, _, rfl⟩

theorem Replaced.forAll {α : Type} {f : α → State → State} (hf : ∀ a s, Replaced s (f a s)) (l : List α) (s : State) : Replaced s (forAll l f s) :=
  PacketMoves.forAll_related Replaced.refl Replaced.trans hf l s

theorem accountJob_replaced (b : BeJob) (f : Account → Account) (s : State) : Replaced s (accountJob b f s) := by
  unfold accountJob
  split
  · exact ⟨_, _, _, rfl⟩
  · exact .refl s

theorem countPreempt_replaced (b : BeJob) (s : State) : Replaced s (countPreempt b s) := by
  unfold countPreempt
  dsimp only
  refine Replaced.trans ?_ (accountJob_replaced b _ _)
  split
  · exact ⟨_, _, _, rfl⟩
  · exact ⟨_, _, _, rfl⟩

theorem restartNiche_replaced (b : BeJob) (s : State) : Replaced s (restartNiche b s) := by
  unfold restartNiche
  split
  · exact .refl s
  · exact Replaced.trans ⟨_, _, _, rfl⟩ (countPreempt_replaced b _)

theorem swapCore_replaced (old : Nat → Region) (c : Nat) (s : State) : Replaced s (swapCore old c s) := by
  unfold swapCore
  dsimp only
  refine Replaced.trans ⟨_, _, _, rfl⟩ (Replaced.forAll (fun b s => ?_) _ _)
  split
  · exact (restartNiche_replaced b s).trans ⟨_, _, _, rfl⟩
  · exact (restartNiche_replaced b s).trans ⟨_, _, _, rfl⟩

theorem watchNewCores_replaced (s : State) : Replaced s (watchNewCores s) := by
  unfold watchNewCores
  split
  · exact .refl s
  · refine Replaced.forAll (fun c s => ?_) _ s
    split
    · exact ⟨_, _, _, rfl⟩
    · exact .refl s

/-! ### Sessions (09 R220) -/

/-- Session `y` is `x` as a swap leaves it: open or not, and with its context; its lane kept, or lost for best-effort work. -/
def LaneKept (x y : Session) : Prop :=
  (y.be = x.be ∧ y.lane = x.lane ∨ y.be = true ∧ y.lane = none) ∧ y.isOpen = x.isOpen ∧ y.tCtx = x.tCtx ∧ y.pages = x.pages

theorem LaneKept.refl (x : Session) : LaneKept x x := ⟨.inl ⟨rfl, rfl⟩, rfl, rfl, rfl⟩

theorem LaneKept.trans {x y z : Session} (h : LaneKept x y) (h' : LaneKept y z) : LaneKept x z := by
  obtain ⟨hlane, hopen, hctx, hpages⟩ := h
  obtain ⟨hlane', hopen', hctx', hpages'⟩ := h'
  refine ⟨?_, hopen'.trans hopen, hctx'.trans hctx, hpages'.trans hpages⟩
  rcases hlane' with ⟨hbe, hl⟩ | hlost
  · rw [hbe, hl]
    exact hlane
  · exact .inr hlost

/-- Between the two states sessions lost lanes or work, and jobs changed with them. -/
def Demoted (s t : State) : Prop := (∃ l j, t = { s with sessions := l, jobs := j }) ∧ ∀ n, LaneKept (s.session n) (t.session n)

theorem Demoted.refl (s : State) : Demoted s s := ⟨⟨_, _, rfl⟩, fun _ => .refl _⟩

theorem Demoted.trans {s t u : State} (h : Demoted s t) (h' : Demoted t u) : Demoted s u := by
  obtain ⟨⟨_, _, rfl⟩, hs⟩ := h
  obtain ⟨⟨_, _, rfl⟩, hs'⟩ := h'
  exact ⟨⟨_, _, rfl⟩, fun n => (hs n).trans (hs' n)⟩

theorem Demoted.forAll {α : Type} {f : α → State → State} (hf : ∀ a s, Demoted s (f a s)) (l : List α) (s : State) : Demoted s (forAll l f s) :=
  PacketMoves.forAll_related Demoted.refl Demoted.trans hf l s

theorem modSession_demoted (n : Nat) {f : Session → Session} (hf : ∀ x, LaneKept x (f x)) (j : List BeJob) (s : State) :
    Demoted s (State.modSession { s with jobs := j } n f) := by
  refine ⟨⟨_, _, rfl⟩, fun k => ?_⟩
  by_cases hk : k = n
  · subst hk
    rw [session_modSession]
    exact hf _
  · rw [session_modSession_other _ _ hk]
    exact .refl _

theorem modWork_demoted (n : Nat) (f : SeqWork → SeqWork) (j : List BeJob) (s : State) : Demoted s (modWork n f { s with jobs := j }) :=
  modSession_demoted n (f := fun x => { x with work := x.work.map f }) (fun _ => ⟨.inl ⟨rfl, rfl⟩, rfl, rfl, rfl⟩) j s

theorem unbindWork_demoted (n : Nat) (s : State) : Demoted s (unbindWork n s) := modWork_demoted n _ _ s

theorem queueUnit_demoted (n : Nat) (s : State) : Demoted s (queueUnit n s) := by
  unfold queueUnit
  dsimp only
  split
  · exact .refl s
  · split
    · exact modWork_demoted n _ s.jobs s
    · split
      · exact modWork_demoted n _ s.jobs s
      · split
        · exact modWork_demoted n _ s.jobs s
        · split
          · split
            · exact modWork_demoted n _ s.jobs s
            · exact modWork_demoted n _ _ s
          · exact modWork_demoted n _ s.jobs s

theorem demote_demoted (n : Nat) (s : State) : Demoted s (demote n s) := by
  have hlost : Demoted s (s.modSession n (fun x => { x with be := true, lane := none })) :=
    modSession_demoted n (f := fun x => { x with be := true, lane := none }) (fun _ => ⟨.inr ⟨rfl, rfl⟩, rfl, rfl, rfl⟩) s.jobs s
  unfold demote
  dsimp only
  split
  · exact hlost.trans (queueUnit_demoted n _)
  · exact hlost

/-! ### The schedule put in force -/

section
variable {s t : State} (hactive : t.active = s.active) (hsched : t.noSched = s.noSched) (harm : t.armatures = s.armatures)
  (hmaq : t.maquettes = s.maquettes)
include hactive harm hmaq

theorem modelEntry_congr (model : Nat) : modelEntry t model = modelEntry s model := by
  have hentry : beEntry t = beEntry s := by
    funext m k
    simp only [beEntry, hmaq]
  simp only [modelEntry, activeArm, hactive, harm, hentry]

theorem workUnbound_congr (x : Session) : workUnbound t x = workUnbound s x := by
  simp only [workUnbound, modelEntry_congr hactive harm hmaq]

include hsched

theorem laneLost_congr (x : Session) : laneLost t x = laneLost s x := by
  have hof : schedOf t = schedOf s := by
    funext r
    simp only [schedOf, harm]
  have hpack : packOf t = packOf s := by
    funext m
    simp only [packOf, activeSched, hsched, hactive, hof]
  simp only [laneLost, modelEntry_congr hactive harm hmaq, hpack]

end

/-- The part with the schedule `r` in force and no yield marks. -/
def inForce (r : SchedRef) (s : State) : State := { s with active := some r, noSched := false, marks := [] }

/-- Steps of models that are not bound end. -/
def unboundEnded (s : State) : State := forAll ((s.sessions.filter (fun e => workUnbound s e.2)).map (·.1)) unbindWork s

/-- Sessions whose lane is lost run on as best-effort work. -/
def lanesDropped (s : State) : State := forAll ((s.sessions.filter (fun e => laneLost s e.2)).map (·.1)) demote s

theorem activate_eq (r : SchedRef) (s : State) : activate r s =
    watchNewCores (lanesDropped (unboundEnded (forAll (List.range Config.cores) (swapCore (regionOf s)) (inForce r s)))) := rfl

theorem unboundEnded_none {s : State} (h : ∀ x ∈ s.sessions, workUnbound s x.2 = false) : unboundEnded s = s := by
  have hnone : s.sessions.filter (fun e => workUnbound s e.2) = [] := List.filter_eq_nil_iff.mpr fun x hx => by rw [h x hx]; decide
  rw [unboundEnded, hnone]
  rfl

theorem lanesDropped_none {s : State} (h : ∀ x ∈ s.sessions, laneLost s x.2 = false) : lanesDropped s = s := by
  have hnone : s.sessions.filter (fun e => laneLost s e.2) = [] := List.filter_eq_nil_iff.mpr fun x hx => by rw [h x hx]; decide
  rw [lanesDropped, hnone]
  rfl

/-- The schedule is in force, jobs have their places, then sessions lose what it does not have for them; where it has everything no session changes. -/
theorem activate_chain (r : SchedRef) (s : State) : ∃ u w, Replaced (inForce r s) u ∧ Demoted u w ∧ Replaced w (activate r s) ∧
    ((∀ x ∈ s.sessions, laneLost (inForce r s) x.2 = false ∧ workUnbound (inForce r s) x.2 = false) → w = u) := by
  have hreplaced : Replaced (inForce r s) (forAll (List.range Config.cores) (swapCore (regionOf s)) (inForce r s)) :=
    .forAll (fun c s => swapCore_replaced _ c s) _ _
  rw [activate_eq]
  generalize forAll (List.range Config.cores) (swapCore (regionOf s)) (inForce r s) = u at hreplaced ⊢
  refine ⟨u, lanesDropped (unboundEnded u), hreplaced,
    (Demoted.forAll unbindWork_demoted _ u).trans (Demoted.forAll demote_demoted _ _), watchNewCores_replaced _, fun hall => ?_⟩
  have hsame : u.active = (inForce r s).active ∧ u.noSched = (inForce r s).noSched ∧ u.armatures = (inForce r s).armatures ∧
      u.maquettes = (inForce r s).maquettes ∧ u.sessions = s.sessions := by
    obtain ⟨_, _, _, rfl⟩ := hreplaced
    exact ⟨rfl, rfl, rfl, rfl, rfl⟩
  obtain ⟨hactive, hsched, harm, hmaq, hsessions⟩ := hsame
  rw [← hsessions] at hall
  rw [unboundEnded_none fun x hx => (workUnbound_congr hactive harm hmaq x.2).trans (hall x hx).2,
    lanesDropped_none fun x hx => (laneLost_congr hactive hsched harm hmaq x.2).trans (hall x hx).1]

/-! ### ARMATURE_SWAP -/

theorem exec_swap {j : Nat} {e : JEntry} {s : State} (hruns : Runs s j 0x23 e) : exec (.armatureSwap j) s = .next (
    match tfind s.armatures e.ctx with
    | none => finish j stBadContext [] (beginCmd e s)
    | some a => match swapTarget s e.ctx a with
      | none => finish j stFenced [] (beginCmd e s)
      | some r => finish j stOk [match s.active with | some x => w32 x.arm | none => 0xFFFFFFFF] (activate r (detect 15 (beginCmd e s)))) := by
  obtain ⟨he, hbegin, hstatic⟩ := hruns
  exact congrArg Host.Outcome.next (runCmd_body he hbegin hstatic _)

/-- What a swap leaves as it is, and what it says of sessions. -/
theorem activate_leaves (r : SchedRef) (s : State) :
    let v := activate r s
    v.active = some r ∧ v.noSched = false ∧ v.marks = [] ∧ v.streams = s.streams ∧ v.armatures = s.armatures ∧ v.maquettes = s.maquettes ∧
      v.runs = s.runs ∧ v.dram = s.dram ∧ v.hostMem = s.hostMem ∧ v.safety = s.safety ∧ (∀ n, LaneKept (s.session n) (v.session n)) ∧
      ((∀ x ∈ s.sessions, laneLost (inForce r s) x.2 = false ∧ workUnbound (inForce r s) x.2 = false) → v.sessions = s.sessions) := by
  obtain ⟨u, w, hu, hw, hv, hnone⟩ := activate_chain r s
  dsimp only
  generalize activate r s = v at hv ⊢
  have hsessions : (∀ x ∈ s.sessions, laneLost (inForce r s) x.2 = false ∧ workUnbound (inForce r s) x.2 = false) → v.sessions = s.sessions := by
    intro hall
    obtain rfl := hnone hall
    obtain ⟨_, _, _, rfl⟩ := hu
    obtain ⟨_, _, _, rfl⟩ := hv
    rfl
  obtain ⟨⟨_, _, rfl⟩, hlanes⟩ := hw
  obtain ⟨_, _, _, rfl⟩ := hu
  obtain ⟨_, _, _, rfl⟩ := hv
  exact ⟨rfl, rfl, rfl, rfl, rfl, rfl, rfl, rfl, rfl, rfl, hlanes, hsessions⟩

/-- State `v` is `s` as a swap to the schedule `r` leaves it. -/
def SwappedTo (r : SchedRef) (s v : State) : Prop :=
  v.active = some r ∧ v.noSched = false ∧ v.marks = [] ∧ v.streams = s.streams ∧ v.armatures = s.armatures ∧ v.maquettes = s.maquettes ∧
  v.runs = s.runs ∧ v.dram = s.dram ∧ v.hostMem = s.hostMem ∧
  (∀ n, (v.session n).be = (s.session n).be ∧ (v.session n).lane = (s.session n).lane ∨ (v.session n).be = true ∧ (v.session n).lane = none) ∧
  (∀ n, (v.session n).isOpen = (s.session n).isOpen ∧ (v.session n).tCtx = (s.session n).tCtx ∧ (v.session n).pages = (s.session n).pages) ∧
  ((∀ x ∈ s.sessions, laneLost { s with active := some r, noSched := false } x.2 = false ∧
    workUnbound { s with active := some r, noSched := false } x.2 = false) → v.sessions = s.sessions) ∧
  (s.safety.state = 0 → v.safety.state = 0 ∧ tget v.safety.seen 15 0 = tget s.safety.seen 15 0 + 1) ∧
  (s.safety.state = 1 → v.safety.state = 2 ∧ v.safety.safeN = false ∧ maskBit v.safety.causes 15 = true)

theorem activate_swaps (r : SchedRef) (e : JEntry) (s : State) : SwappedTo r s (activate r (detect 15 (beginCmd e s))) := by
  obtain ⟨hactive, hsched, hmarks, hstreams, harm, hmaq, hruns, hdram, hmem, hsafety, hlanes, hsessions⟩ := activate_leaves r (detect 15 (beginCmd e s))
  have hoff := detect_off (k := 15) (s := beginCmd e s)
  have harmed := detect_armed (k := 15) (s := beginCmd e s)
  obtain ⟨f, c, q, b, d, x, y, z, hdetect⟩ := detect_shape 15 (beginCmd e s)
  have hsession : ∀ n, (detect 15 (beginCmd e s)).session n = s.session n := by
    intro n
    rw [hdetect]
    rfl
  refine ⟨hactive, hsched, hmarks, ?_, ?_, ?_, ?_, ?_, ?_, fun n => ?_, fun n => ?_, fun hall => ?_, fun hs => ?_, fun hs => ?_⟩
  · rw [hstreams, hdetect]; rfl
  · rw [harm, hdetect]; rfl
  · rw [hmaq, hdetect]; rfl
  · rw [hruns, hdetect]; rfl
  · rw [hdram, hdetect]; rfl
  · rw [hmem, hdetect]; rfl
  · rw [← hsession]
    exact (hlanes n).1
  · rw [← hsession]
    exact (hlanes n).2
  · have hlisted : (detect 15 (beginCmd e s)).sessions = s.sessions := by rw [hdetect]; rfl
    rw [hlisted] at hsessions
    refine hsessions fun x hx => ?_
    obtain ⟨hlane, hwork⟩ := hall x hx
    have harmatures : (inForce r (detect 15 (beginCmd e s))).armatures = s.armatures := by rw [inForce, hdetect]; rfl
    have hmaquettes : (inForce r (detect 15 (beginCmd e s))).maquettes = s.maquettes := by rw [inForce, hdetect]; rfl
    exact ⟨(laneLost_congr (t := inForce r (detect 15 (beginCmd e s))) (s := { s with active := some r, noSched := false }) rfl rfl harmatures hmaquettes x.2).trans hlane,
      (workUnbound_congr (t := inForce r (detect 15 (beginCmd e s))) (s := { s with active := some r, noSched := false }) rfl harmatures hmaquettes x.2).trans hwork⟩
  · rw [hsafety, hoff hs]
    exact ⟨hs, tget_tput_same _ _ _ _⟩
  · rw [hsafety]
    exact harmed hs

theorem swapTarget_fenced {h : Nat} {a : Armature} {s : State} (hgone : 2 ≤ ((maskList a.coreMask 16).filter s.isFenced).length) :
    swapTarget s h a = none := by
  unfold swapTarget
  split
  · next hnil => rw [hnil] at hgone; exact absurd hgone (by decide)
  · next c hone => rw [hone, List.length_singleton] at hgone; exact absurd hgone (by decide)
  · rfl

/-- Settles O35: by the fenced cores of the mask, which choose the target; what the swap then does is `activate_swaps`. -/
theorem armatureSwapped : Obligations.ArmatureSwapped := by
  unfold Obligations.ArmatureSwapped
  intro j e s hruns
  have hexec := exec_swap hruns
  refine ⟨fun hnone => by rw [hexec, hnone], fun a ha => ?_⟩
  rw [ha] at hexec
  dsimp only at hexec
  refine ⟨fun hgone => ?_, fun c hgone hvar => ?_, fun hgone => ⟨?_, ?_⟩⟩
  · have htarget : swapTarget s e.ctx a = some { arm := e.ctx, var := none } := by rw [swapTarget, hgone]
    rw [htarget] at hexec
    exact ⟨_, hexec, activate_swaps { arm := e.ctx, var := none } e s⟩
  · have htarget : swapTarget s e.ctx a = some { arm := e.ctx, var := some c } := by rw [swapTarget, hgone]; exact if_pos hvar
    rw [htarget] at hexec
    exact ⟨_, hexec, activate_swaps { arm := e.ctx, var := some c } e s⟩
  · rw [swapTarget_fenced hgone] at hexec
    exact hexec
  · exact kept_active (finish_kept j stFenced [] (beginCmd e s))

end Sys2Proof.Swaps
end


section
/-! A hang is detected, captured, and answered by the reset it precedes (15 R338-R341, Tables 15.1, 15.2). -/

namespace Sys2Proof.HangCaptures

open Sys2Proof.Machine Sys2Proof.Laws Sys2Proof.Opening Sys2Proof.Detections Sys2Proof.ImpressionReads Sys2Proof.Bar2

/-! ### A reset requested -/

theorem requestReset_shape (code n : Nat) (s : State) : ∃ q f c r a d x y z, requestReset code n s =
    { s with recov := { s.recov with requests := q }, safety := f, pcie := { s.pcie with cause := c, recent := r, asserted := a, deassertAt := d },
             obs := { s.obs with sources := x, trigger := y, tickTrig := z } } := by
  unfold requestReset
  split
  · exact ⟨_, _, _, _, _, _, _, _, _, rfl⟩
  · obtain ⟨f, c, r, a, d, x, y, z, h⟩ := resetTrip_shape (safetyUnit s code n)
      { s with recov := { s.recov with requests := s.recov.requests ++ [(code, n, s.now)] } }
    exact ⟨_, f, c, r, a, d, x, y, z, h⟩

/-! ### The part at the tick of a hang -/

/-- `u` is the part at tick `d`, where `s` has waited and a detection or a hung unit was noted: what a hang's answer reads or leaves is that of `s`. -/
structure Noticed (d : Nat) (s u : State) : Prop where
  tick : s.chip.tick < 2 ^ 64 → d < 2 ^ 64 → u.chip.tick = max s.chip.tick d
  fatal : u.chip.fatal = s.chip.fatal
  recov : ∃ l, u.recov = { s.recov with hung := l }
  cores : u.cores = s.cores
  runs : u.runs = s.runs
  streams : u.streams = s.streams
  mem : u.hostMem = s.hostMem

theorem Noticed.advanced (d : Nat) (s : State) : Noticed d s (advanceTo d s) := by
  obtain ⟨_, _, _, _, _, _, _, h⟩ := advanceTo_idled d s
  refine ⟨advanceTo_tick, ?_, ⟨s.recov.hung, ?_⟩, ?_, ?_, ?_, ?_⟩ <;> rw [h]

theorem Noticed.detect {d : Nat} {s u : State} (h : Noticed d s u) (k : Nat) : Noticed d s (detect k u) := by
  obtain ⟨htick, hfatal, ⟨l, hrecov⟩, hcores, hruns, hstreams, hmem⟩ := h
  obtain ⟨_, _, _, _, _, _, _, _, hshape⟩ := detect_shape k u
  rw [hshape]
  exact ⟨htick, hfatal, ⟨l, hrecov⟩, hcores, hruns, hstreams, hmem⟩

/-- The hung units with `u`, but for the record writer, whose hang is no incident. -/
def noteHung (u : UnitId) (s : State) : State :=
  if u = .out then s else { s with recov := { s.recov with hung := s.recov.hung.filter (fun v => decide (v ≠ u)) ++ [u] } }

theorem Noticed.noteHung {d : Nat} {s v : State} (h : Noticed d s v) (u : UnitId) : Noticed d s (noteHung u v) := by
  obtain ⟨htick, hfatal, ⟨l, hrecov⟩, hcores, hruns, hstreams, hmem⟩ := h
  unfold HangCaptures.noteHung
  split
  · exact ⟨htick, hfatal, ⟨l, hrecov⟩, hcores, hruns, hstreams, hmem⟩
  · exact ⟨htick, hfatal, ⟨_, congrArg (fun r => { r with hung := v.recov.hung.filter (fun w => decide (w ≠ u)) ++ [u] }) hrecov⟩, hcores, hruns,
      hstreams, hmem⟩

theorem Noticed.resetting {d : Nat} {s u : State} (h : Noticed d s u) (code n : Nat) : resetting u code n = resetting s code n := by
  obtain ⟨l, hrecov⟩ := h.recov
  simp only [Machine.resetting, State.core, h.cores, hrecov]

/-! ### An incident begins -/

/-- The one capture of `t` is of a hang detected at tick `max now d` of `s`, and precedes the reset of unit (`code2`, `n2`); the work of the part stays. -/
def Captured (s : State) (cond code unit code2 n2 d : Nat) (t : State) : Prop := ∃ i : Impression, t.recov.captures = [(i, code2, n2)] ∧
  i.condition = cond ∧ i.unitCode = code ∧ i.unit = unit ∧ i.detect = max s.chip.tick d ∧ i.outcome = 3 ∧
  t.recov.incidents = s.recov.incidents + 1 ∧ i.incident = t.recov.incidents ∧ t.chip.tick = max s.chip.tick d ∧ t.runs = s.runs ∧
  t.streams = s.streams ∧ t.hostMem = s.hostMem

section
variable {s u : State} {d : Nat}

theorem beginIncident_captured (h : Hang) (code n : Nat) (hu : Noticed d s u) (hcaptures : s.recov.captures = []) (hs : s.chip.tick < 2 ^ 64)
    (hd : d < 2 ^ 64) : Captured s h.condition h.unitCode h.unit code n d (beginIncident h code n u) := by
  obtain ⟨htick, -, ⟨l, hrecov⟩, -, hruns, hstreams, hmem⟩ := hu
  have hnone : u.recov.captures = [] := by rw [hrecov]; exact hcaptures
  have hcount : u.recov.incidents = s.recov.incidents := by rw [hrecov]
  exact ⟨_, congrArg (· ++ [_]) hnone, rfl, rfl, rfl, htick hs hd, rfl, congrArg (· + 1) hcount, rfl, htick hs hd, hruns, hstreams, hmem⟩

/-- No incident of the hang is open: no reset that answers it runs, and nothing is being captured. -/
theorem hangKnown_eq_false (h : Hang) {code n : Nat} (hu : Noticed d s u) (hcaptures : s.recov.captures = [])
    (hfree : resetting s code n = false) : hangKnown u h code n = false := by
  obtain ⟨l, hrecov⟩ := hu.recov
  rw [hangKnown, hu.resetting, hfree, hrecov]
  simp only [hcaptures, List.any_nil, Bool.or_self]

theorem hang_captured (h : Hang) {code n : Nat} (hu : Noticed d s u) (hcaptures : s.recov.captures = []) (hfree : resetting s code n = false)
    (hs : s.chip.tick < 2 ^ 64) (hd : d < 2 ^ 64) : Captured s h.condition h.unitCode h.unit code n d (hang h code n u) := by
  rw [hang, if_neg (by rw [hangKnown_eq_false h hu hcaptures hfree]; decide)]
  exact beginIncident_captured h code n hu hcaptures hs hd

end

/-! ### Engines of one core -/

section
variable {s u : State} {d c e : Nat}

/-- No hang of another engine of the core stands within 50 µs: every stored one is older. -/
theorem nearIncident_none (hu : Noticed d s u) (hcaptures : s.recov.captures = []) (hs : s.chip.tick < 2 ^ 64) (hd : d < 2 ^ 64)
    (hold : ∀ i ∈ s.recov.store, i.2.detect + 50 < max s.chip.tick d) : nearIncident u c e = none := by
  obtain ⟨l, hrecov⟩ := hu.recov
  rw [nearIncident, hrecov]
  simp only [hcaptures, List.map_nil, List.nil_append, Option.map_eq_none_iff, List.find?_eq_none, List.mem_map]
  rintro _ ⟨x, hx, rfl⟩
  have hlate : ¬ u.now ≤ x.2.detect + 50 := by
    rw [State.now, hu.tick hs hd]
    exact Nat.not_le.mpr (hold x hx)
  simp [hlate]

theorem nearIncident_some (hu : Noticed d s u) (hs : s.chip.tick < 2 ^ 64) (hd : d < 2 ^ 64) {i : Impression}
    (hi : i ∈ s.recov.store.map (·.2)) (hcond : i.condition = 1) (hfinal : i.finalUnit = 1) (hcore : i.unit / 4 = c) (hother : i.unit ≠ 4 * c + e)
    (hnear : max s.chip.tick d ≤ i.detect + 50) : ∃ n, nearIncident u c e = some n := by
  obtain ⟨l, hrecov⟩ := hu.recov
  have hnow : u.now ≤ i.detect + 50 := by
    rw [State.now, hu.tick hs hd]
    exact hnear
  refine Option.isSome_iff_exists.mp ?_
  rw [nearIncident, Option.isSome_map, List.find?_isSome, hrecov]
  exact ⟨i, List.mem_append_right _ hi, by simp [hcond, hfinal, hcore, hother, hnow]⟩

/-- The second of two hangs joins the first: no capture, one request for the reset of the core (15 R338). -/
theorem joinHang_requests (n : Nat) (hu : Noticed d s u) (hcaptures : s.recov.captures = []) (hrequests : s.recov.requests = [])
    (hfree : resetting s 2 c = false) (hs : s.chip.tick < 2 ^ 64) (hd : d < 2 ^ 64) : (joinHang n c u).recov.captures = [] ∧
      (joinHang n c u).recov.incidents = s.recov.incidents ∧ (joinHang n c u).recov.requests = [(2, c, max s.chip.tick d)] ∧
      (joinHang n c u).runs = s.runs := by
  have hclear := (hu.resetting 2 c).trans hfree
  obtain ⟨htick, -, ⟨l, hrecov⟩, -, hruns, -, -⟩ := hu
  have hnone : u.recov.captures = [] := by rw [hrecov]; exact hcaptures
  have hidle : u.recov.requests = [] := by rw [hrecov]; exact hrequests
  have hcount : u.recov.incidents = s.recov.incidents := by rw [hrecov]
  unfold joinHang
  dsimp only
  simp only [modImp, hnone, List.map_nil, List.any_nil, Bool.false_eq_true, if_false]
  generalize hv : ({ u with recov := _ } : State) = v
  have hvreset : resetting v 2 c = false := by rw [← hv]; exact hclear
  have hrecov' := requestReset_requests 2 c v
  rw [hvreset, if_neg (by decide)] at hrecov'
  have hvtick : v.chip.tick = max s.chip.tick d := by rw [← hv]; exact htick hs hd
  refine ⟨?_, ?_, ?_, ?_⟩
  · rw [hrecov', ← hv]
  · rw [hrecov', ← hv]
    exact hcount
  · rw [hrecov', hvtick, ← hv]
    exact congrArg (· ++ [_]) hidle
  · obtain ⟨_, _, _, _, _, _, _, _, _, hshape⟩ := requestReset_shape 2 c v
    rw [hshape, ← hv]
    exact hruns

end

/-! ### The answer to a hung Niche -/

section
variable {s u : State} {d : Nat}

/-- Each kind of unit has its first reset (15 Table 15.1), once the unit is noted. -/
theorem answerHang_engine (c e : Nat) (h : Hang) (u : State) : answerHang (.mx c e) h u =
    engineHang { h with condition := 1, unitCode := 1, unit := 4 * c + e, core := some c, units := enginesOf c ++ [.vx c] } c e
      (noteHung (.mx c e) u) := rfl

theorem answerHang_vector (c : Nat) (h : Hang) (u : State) : answerHang (.vx c) h u =
    hang { h with condition := 2, unitCode := 2, unit := c, core := some c, units := enginesOf c ++ [.vx c] } 2 c (noteHung (.vx c) u) := rfl

theorem answerHang_writer (h : Hang) (u : State) : answerHang .out h u = setFatal (noteHung .out u) := rfl

theorem answerHang_shared {v : UnitId} (hshared : v = .tae ∨ ∃ k, v = .shp k ∨ v = .enc k) (h : Hang) (u : State) : answerHang v h u =
    hang { h with condition := 6, unitCode := 3, unit := unitIx v, core := none, units := [v] } 3 0 (noteHung v u) := by
  obtain rfl | ⟨k, rfl | rfl⟩ := hshared
  all_goals rfl

theorem engineHang_joins (h : Hang) {c e n : Nat} (hu : Noticed d s u) (hcaptures : s.recov.captures = [])
    (hfree : resetting s 1 (4 * c + e) = false) (hnear : nearIncident u c e = some n) : engineHang h c e u = joinHang n c u := by
  rw [engineHang, if_neg (by rw [hangKnown_eq_false h hu hcaptures hfree]; decide), hnear]

theorem engineHang_begins (h : Hang) {c e : Nat} (hu : Noticed d s u) (hcaptures : s.recov.captures = [])
    (hfree : resetting s 1 (4 * c + e) = false) (hfar : nearIncident u c e = none) : engineHang h c e u = beginIncident h 1 (4 * c + e) u := by
  rw [engineHang, if_neg (by rw [hangKnown_eq_false h hu hcaptures hfree]; decide), hfar]

/-- No reset of an engine, or of what holds it, runs: none of its core does. -/
theorem resetting_core_of_engine {c e : Nat} (he : e < 4) (hrequests : s.recov.requests = []) (hfree : resetting s 1 (4 * c + e) = false) :
    resetting s 2 c = false := by
  have hcore : (4 * c + e) / 4 = c := by omega
  simp only [resetting, hrequests, List.any_nil, unitCore, hcore, if_true, Bool.or_eq_false_iff, Bool.or_false] at hfree
  obtain ⟨⟨hdomain, hreset⟩, -⟩ := hfree
  simp [resetting, unitCore, hrequests, hdomain] at hreset ⊢
  exact hreset

/-- FATAL is set, logged and reported, and safety's FATAL is detected (15 R345). -/
theorem setFatal_eq {t : State} (h : t.chip.fatal = false) : ∃ p, setFatal t =
    detect 14 (setCause 20 { t with chip := { t.chip with fatal := true, faultN := false }, pcie := p }) := by
  obtain ⟨p, hlog, -⟩ := uncorLog_shape (k := 22) (by decide) [3, w32 t.now, 0, 0] { t with chip := { t.chip with fatal := true, faultN := false } }
  unfold setFatal
  rw [h, if_neg (by decide), hlog]
  exact ⟨p, rfl⟩

theorem setFatal_falls {t : State} (h : t.chip.fatal = false) : (setFatal t).chip = { t.chip with fatal := true, faultN := false } := by
  obtain ⟨p, heq⟩ := setFatal_eq h
  obtain ⟨_, _, _, _, _, _, _, _, hdetect⟩ := detect_shape 14
    (setCause 20 { t with chip := { t.chip with fatal := true, faultN := false }, pcie := p })
  rw [heq, hdetect]
  exact kept_chip (setCause_kept 20 { t with chip := { t.chip with fatal := true, faultN := false }, pcie := p })

end

/-! ### The watchdog of a Niche (15 R339) -/

/-- The answer to a hang on `u` at tick `d`, whichever Niche it is of. -/
def Answered (s : State) (u : UnitId) (d : Nat) : Prop := ∃ h v, exec (.nicheWatchdog u) s = .next (answerHang u h v) ∧ Noticed d s v

section
variable {s : State}

theorem exec_watchdog {u : UnitId} (hlive : live s = true) (hdomain : domainUp s = true) (hup : unitDown s u = false) :
    exec (.nicheWatchdog u) s = .next (match running s u with
      | some x => if unitOf (runNiche s x) ≠ u then s
          else answerHang u (runHang (advanceTo (x.startAt + (runNiche s x).wdog + 1) s) x)
            (if (runNiche s x).safety then detect 6 (advanceTo (x.startAt + (runNiche s x).wdog + 1) s)
             else advanceTo (x.startAt + (runNiche s x).wdog + 1) s)
      | none => match beOn s u with
        | none => s
        | some b => match jobNiche s b with
          | some n => if b.running ≠ some u then s else answerHang u (beHang s u b n) (advanceTo (b.runAt + b.pausedTicks + n.wdog + 1) s)
          | none => s) := by
  refine congrArg Host.Outcome.next ?_
  unfold doNicheWatchdog
  rw [hlive, hdomain, hup]
  rfl

theorem watchdog_answers_run {u : UnitId} {x : Run} (hlive : live s = true) (hdomain : domainUp s = true) (hup : unitDown s u = false)
    (hrun : running s u = some x) (hunit : unitOf (runNiche s x) = u) : Answered s u (x.startAt + (runNiche s x).wdog + 1) := by
  have hexec := exec_watchdog hlive hdomain hup
  rw [hrun] at hexec
  dsimp only at hexec
  rw [if_neg (by rw [hunit]; exact fun hne => hne rfl)] at hexec
  exact ⟨_, _, hexec, of_ite (P := Noticed _ s) ((Noticed.advanced _ s).detect 6) (.advanced _ s)⟩

theorem watchdog_answers_job {u : UnitId} {b : BeJob} {n : OpNiche} (hlive : live s = true) (hdomain : domainUp s = true)
    (hup : unitDown s u = false) (hnone : running s u = none) (hjob : beOn s u = some b) (hniche : jobNiche s b = some n)
    (hon : b.running = some u) : Answered s u (b.runAt + b.pausedTicks + n.wdog + 1) := by
  have hexec := exec_watchdog hlive hdomain hup
  rw [hnone] at hexec
  dsimp only at hexec
  rw [hjob] at hexec
  dsimp only at hexec
  rw [hniche] at hexec
  dsimp only at hexec
  rw [if_neg (by rw [hon]; exact fun hne => hne rfl)] at hexec
  exact ⟨_, _, hexec, .advanced _ s⟩

variable {u : UnitId} {d : Nat}

theorem engine_joins {c e : Nat} {i : Impression} (h : Answered s (.mx c e) d) (he : e < 4) (hup : unitDown s (.mx c e) = false)
    (hcaptures : s.recov.captures = []) (hrequests : s.recov.requests = []) (hs : s.chip.tick < 2 ^ 64) (hd : d < 2 ^ 64)
    (hi : i ∈ s.recov.store.map (·.2)) (hcond : i.condition = 1) (hfinal : i.finalUnit = 1) (hcore : i.unit / 4 = c) (hother : i.unit ≠ 4 * c + e)
    (hnear : max s.chip.tick d ≤ i.detect + 50) : ∃ t, exec (.nicheWatchdog (.mx c e)) s = .next t ∧ t.recov.captures = [] ∧
      t.recov.incidents = s.recov.incidents ∧ t.recov.requests = [(2, c, max s.chip.tick d)] ∧ t.runs = s.runs := by
  obtain ⟨h, v, hexec, hv⟩ := h
  have hnoted := hv.noteHung (.mx c e)
  obtain ⟨n, hn⟩ := nearIncident_some hnoted hs hd hi hcond hfinal hcore hother hnear
  rw [answerHang_engine, engineHang_joins _ hnoted hcaptures hup hn] at hexec
  exact ⟨_, hexec, joinHang_requests n hnoted hcaptures hrequests (resetting_core_of_engine he hrequests hup) hs hd⟩

theorem engine_captured {c e : Nat} (h : Answered s (.mx c e) d) (hup : unitDown s (.mx c e) = false)
    (hcaptures : s.recov.captures = []) (hs : s.chip.tick < 2 ^ 64) (hd : d < 2 ^ 64)
    (hold : ∀ i ∈ s.recov.store, i.2.detect + 50 < max s.chip.tick d) :
    ∃ t, exec (.nicheWatchdog (.mx c e)) s = .next t ∧ Captured s 1 1 (4 * c + e) 1 (4 * c + e) d t := by
  obtain ⟨h, v, hexec, hv⟩ := h
  have hnoted := hv.noteHung (.mx c e)
  rw [answerHang_engine, engineHang_begins _ hnoted hcaptures hup (nearIncident_none hnoted hcaptures hs hd hold)] at hexec
  exact ⟨_, hexec, beginIncident_captured _ 1 (4 * c + e) hnoted hcaptures hs hd⟩

theorem vector_captured {c : Nat} (h : Answered s (.vx c) d) (hup : unitDown s (.vx c) = false)
    (hcaptures : s.recov.captures = []) (hs : s.chip.tick < 2 ^ 64) (hd : d < 2 ^ 64) :
    ∃ t, exec (.nicheWatchdog (.vx c)) s = .next t ∧ Captured s 2 2 c 2 c d t := by
  obtain ⟨h, v, hexec, hv⟩ := h
  rw [answerHang_vector] at hexec
  exact ⟨_, hexec, hang_captured _ (hv.noteHung (.vx c)) hcaptures hup hs hd⟩

theorem live_fatal (h : live s = true) : s.chip.fatal = false := by
  simp only [live, Bool.and_eq_true, Bool.not_eq_true'] at h
  exact h.2

theorem writer_fatal (h : Answered s .out d) (hlive : live s = true) :
    ∃ t, exec (.nicheWatchdog .out) s = .next t ∧ t.chip.fatal = true ∧ t.chip.faultN = false := by
  obtain ⟨h, v, hexec, hv⟩ := h
  have halive : (noteHung .out v).chip.fatal = false := by
    rw [(hv.noteHung .out).fatal]
    exact live_fatal hlive
  rw [answerHang_writer] at hexec
  refine ⟨_, hexec, ?_, ?_⟩ <;> rw [setFatal_falls halive]

theorem shared_captured (hshared : u = .tae ∨ ∃ k, u = .shp k ∨ u = .enc k) (h : Answered s u d) (hup : unitDown s u = false)
    (hcaptures : s.recov.captures = []) (hs : s.chip.tick < 2 ^ 64) (hd : d < 2 ^ 64) :
    ∃ t, exec (.nicheWatchdog u) s = .next t ∧ Captured s 6 3 (unitIx u) 3 0 d t := by
  obtain ⟨h, v, hexec, hv⟩ := h
  have hfree : resetting s 3 0 = false := by
    obtain rfl | ⟨k, rfl | rfl⟩ := hshared
    all_goals exact hup
  rw [answerHang_shared hshared] at hexec
  exact ⟨_, hexec, hang_captured _ (hv.noteHung u) hcaptures hfree hs hd⟩

end

/-! ### Exchanges, entropy engines, rows and tile rows (15 Table 15.2) -/

/-- The least tick of a list is that of `earliest`. -/
theorem earliest_least (l : List (Nat × Nat)) : (∀ y, earliest l = some y → y ∈ l ∧ ∀ x ∈ l, y.2 ≤ x.2) ∧ (earliest l = none → l = []) := by
  induction l with
  | nil => exact ⟨fun y h => (by cases h), fun _ => rfl⟩
  | cons x l ih =>
    obtain ⟨hsome, hnone⟩ := ih
    unfold earliest
    cases hl : earliest l with
    | none =>
      rw [hnone hl]
      exact ⟨fun y h => by cases h; simp, fun h => by cases h⟩
    | some z =>
      obtain ⟨hmem, hleast⟩ := hsome z hl
      dsimp only
      split
      · next hlt =>
        refine ⟨fun y h => ?_, fun h => by cases h⟩
        cases h
        exact ⟨List.mem_cons_of_mem _ hmem, List.forall_mem_cons.mpr ⟨hlt.le, hleast⟩⟩
      · next hge =>
        refine ⟨fun y h => ?_, fun h => by cases h⟩
        cases h
        exact ⟨List.mem_cons_self, List.forall_mem_cons.mpr ⟨le_rfl, fun q hq => (Nat.not_lt.mp hge).trans (hleast q hq)⟩⟩

theorem earliest_tick {l : List (Nat × Nat)} {n k : Nat} (hmem : (n, k) ∈ l) (hleast : ∀ x ∈ l, k ≤ x.2) :
    ∃ y, earliest l = some y ∧ y.2 = k := by
  obtain ⟨hsome, hnone⟩ := earliest_least l
  cases hl : earliest l with
  | none =>
    rw [hnone hl] at hmem
    cases hmem
  | some y =>
    obtain ⟨hy, hbelow⟩ := hsome y hl
    exact ⟨y, rfl, Nat.le_antisymm (hbelow _ hmem) (hleast y hy)⟩

theorem maxNat_eq {l : List Nat} {m : Nat} (hmem : m ∈ l) (habove : ∀ x ∈ l, x ≤ m) : maxNat l = m := by
  have hle : ∀ l' : List Nat, (∀ x ∈ l', x ≤ m) → ∀ a ≤ m, l'.foldl Nat.max a ≤ m := by
    intro l'
    induction l' with
    | nil => exact fun _ a ha => ha
    | cons x l' ih =>
      intro h a ha
      obtain ⟨hx, hl⟩ := List.forall_mem_cons.mp h
      exact ih hl _ (Nat.max_le.mpr ⟨ha, hx⟩)
  have hge : ∀ l' : List Nat, ∀ a, a ≤ l'.foldl Nat.max a ∧ ∀ x ∈ l', x ≤ l'.foldl Nat.max a := by
    intro l'
    induction l' with
    | nil => exact fun a => ⟨le_rfl, fun x hx => absurd hx List.not_mem_nil⟩
    | cons x l' ih =>
      intro a
      obtain ⟨hstart, hall⟩ := ih (Nat.max a x)
      exact ⟨(Nat.le_max_left a x).trans hstart, List.forall_mem_cons.mpr ⟨(Nat.le_max_right a x).trans hstart, hall⟩⟩
  exact Nat.le_antisymm (hle l habove 0 (Nat.zero_le m)) ((hge l 0).2 m hmem)

section
variable {s : State}

/-- With no reset requested, none of a core without its own runs, nor one of the compute domain. -/
theorem resetting_domain (hdomain : domainUp s = true) (hrequests : s.recov.requests = []) : resetting s 3 0 = false := by
  simp only [domainUp, Bool.and_eq_true, Option.isNone_iff_eq_none] at hdomain
  simp [resetting, hrequests, hdomain.1]

theorem resetting_core {c : Nat} (hdomain : domainUp s = true) (hrequests : s.recov.requests = []) (hcore : (s.core c).resetAt = none) :
    resetting s 2 c = false := by
  simp only [domainUp, Bool.and_eq_true, Option.isNone_iff_eq_none] at hdomain
  simp [resetting, unitCore, hrequests, hdomain.1, hcore]

theorem exchange_captured {c : Nat} {x : Xchg} (hlive : live s = true) (hdomain : domainUp s = true)
    (hx : s.recov.xchgs.find? (fun x => x.sender = c) = some x) (hfree : resetting s 2 c = false) (hcaptures : s.recov.captures = [])
    (hs : s.chip.tick < 2 ^ 64) (hd : x.since + 100 < 2 ^ 64) :
    ∃ t, exec (.xchgHang c) s = .next t ∧ Captured s 3 2 c 2 c (x.since + 100) t := by
  refine ⟨_, rfl, ?_⟩
  unfold doXchgHang
  rw [hlive, hdomain, hx]
  exact hang_captured _ (.advanced _ s) hcaptures hfree hs hd

theorem stream_captured (cond unit slot don band : Nat) {d : Nat} (hfree : resetting s 3 0 = false) (hcaptures : s.recov.captures = [])
    (hs : s.chip.tick < 2 ^ 64) (hd : d < 2 ^ 64) : Captured s cond 3 unit 3 0 d (streamHang cond unit slot don band (advanceTo d s)) :=
  hang_captured _ (.advanced d s) hcaptures hfree hs hd

theorem entropy_captured {e n k last : Nat} (hlive : live s = true) (hdomain : domainUp s = true) (hmem : (n, k) ∈ binsDue s e)
    (hleast : ∀ x ∈ binsDue s e, k ≤ x.2) (hlast : ∀ m ∈ s.openSlots, (s.stream m).engine = e → (s.stream m).binAt ≤ last)
    (hreached : ∃ m ∈ s.openSlots, (s.stream m).engine = e ∧ (s.stream m).binAt = last) (hfree : resetting s 3 0 = false)
    (hcaptures : s.recov.captures = []) (hs : s.chip.tick < 2 ^ 64) (hd : max k last + 1000 < 2 ^ 64) :
    ∃ t, exec (.entropyHang e) s = .next t ∧ Captured s 4 3 e 3 0 (max k last + 1000) t := by
  obtain ⟨y, hy, rfl⟩ := earliest_tick hmem hleast
  have hmax : maxNat ((s.openSlots.filter (fun n => decide ((s.stream n).engine = e))).map (fun n => (s.stream n).binAt)) = last := by
    obtain ⟨m, hm, hengine, hbin⟩ := hreached
    refine maxNat_eq (List.mem_map.mpr ⟨m, List.mem_filter.mpr ⟨hm, decide_eq_true hengine⟩, hbin⟩) ?_
    rintro _ hx
    obtain ⟨q, hq, rfl⟩ := List.mem_map.mp hx
    obtain ⟨hopen, hon⟩ := List.mem_filter.mp hq
    exact hlast q hopen (of_decide_eq_true hon)
  refine ⟨_, rfl, ?_⟩
  unfold doEntropyHang
  rw [hlive, hdomain, hy, hmax]
  exact stream_captured 4 e _ _ _ hfree hcaptures hs hd

theorem recon_captured {e n : Nat} (hlive : live s = true) (hdomain : domainUp s = true) (hrow : rowOf s e = some n)
    (hfree : resetting s 3 0 = false) (hcaptures : s.recov.captures = []) (hs : s.chip.tick < 2 ^ 64)
    (hd : (s.stream n).rowStart + 2000 < 2 ^ 64) :
    ∃ t, exec (.reconHang e) s = .next t ∧ Captured s 5 3 e 3 0 ((s.stream n).rowStart + 2000) t := by
  refine ⟨_, rfl, ?_⟩
  unfold doReconHang
  rw [hlive, hdomain, hrow]
  exact stream_captured 5 e _ _ _ hfree hcaptures hs hd

theorem strip_captured {u n k b d : Nat} {p : Picture} {rest : List (Nat × Nat × Picture × Nat × Nat)} (hlive : live s = true)
    (hdomain : domainUp s = true) (hdue : stripDue s u = (n, k, p, b, d) :: rest) (hfree : resetting s 3 0 = false)
    (hcaptures : s.recov.captures = []) (hs : s.chip.tick < 2 ^ 64) (hd : d + 200 < 2 ^ 64) :
    ∃ t, exec (.stripRowHang u) s = .next t ∧ Captured s 6 3 u 3 0 (d + 200) t := by
  refine ⟨_, rfl, ?_⟩
  unfold doStripRowHang
  rw [hlive, hdomain, hdue]
  exact hang_captured _ (.advanced _ s) hcaptures hfree hs hd

theorem binsDue_spec {e n k : Nat} (h : (n, k) ∈ binsDue s e) : (s.stream n).engine = e ∧ bound s n = true ∧ binFull (s.stream n) = false ∧
    ∃ t, pendingTick s n = some t ∧ k = max t (s.stream n).roomAt := by
  obtain ⟨m, hm, hpend⟩ := List.mem_filterMap.mp h
  obtain ⟨t, ht, heq⟩ := Option.map_eq_some_iff.mp hpend
  cases heq
  obtain ⟨-, hkept⟩ := List.mem_filter.mp hm
  simp only [Bool.and_eq_true, decide_eq_true_eq, Bool.not_eq_true'] at hkept
  obtain ⟨⟨hengine, hbound⟩, hroom⟩ := hkept
  exact ⟨hengine, hbound, hroom, t, ht, rfl⟩

end

/-! ### The obligation -/

theorem caught {s : State} {c : Instr} {cond code unit code2 n2 d : Nat}
    (h : ∃ t, exec c s = .next t ∧ Captured s cond code unit code2 n2 d t) : ∃ t i, exec c s = .next t ∧
      t.recov.captures = [(i, code2, n2)] ∧ i.condition = cond ∧ i.unitCode = code ∧ i.unit = unit ∧ i.detect = max s.chip.tick d ∧ i.outcome = 3 ∧
      t.recov.incidents = s.recov.incidents + 1 ∧ i.incident = t.recov.incidents ∧ t.chip.tick = max s.chip.tick d ∧ t.runs = s.runs ∧
      t.streams = s.streams ∧ t.hostMem = s.hostMem := by
  obtain ⟨t, hexec, i, hi⟩ := h
  exact ⟨t, i, hexec, hi⟩

/-- What an answered hang leaves, by the unit it is on (15 Table 15.1). -/
def AnsweredByUnit (s : State) (u : UnitId) (d : Nat) : Prop :=
  let captures (cond code unit code2 n2 : Nat) : Prop := d < 2 ^ 64 → ∃ t i, exec (.nicheWatchdog u) s = .next t ∧
    t.recov.captures = [(i, code2, n2)] ∧ i.condition = cond ∧ i.unitCode = code ∧ i.unit = unit ∧ i.detect = max s.chip.tick d ∧ i.outcome = 3 ∧
    t.recov.incidents = s.recov.incidents + 1 ∧ i.incident = t.recov.incidents ∧ t.chip.tick = max s.chip.tick d ∧ t.runs = s.runs ∧
    t.streams = s.streams ∧ t.hostMem = s.hostMem
  (∀ c e i, u = .mx c e → e < 4 → d < 2 ^ 64 → i ∈ s.recov.store.map (·.2) → i.condition = 1 → i.finalUnit = 1 → i.unit / 4 = c →
    i.unit ≠ 4 * c + e → max s.chip.tick d ≤ i.detect + 50 → ∃ t, exec (.nicheWatchdog u) s = .next t ∧ t.recov.captures = [] ∧
      t.recov.incidents = s.recov.incidents ∧ t.recov.requests = [(2, c, max s.chip.tick d)] ∧ t.runs = s.runs) ∧
  (∀ c e, u = .mx c e → e < 4 → (∀ i ∈ s.recov.store, i.2.detect + 50 < max s.chip.tick d) → captures 1 1 (4 * c + e) 1 (4 * c + e)) ∧
  (∀ c, u = .vx c → captures 2 2 c 2 c) ∧
  (u = .out → ∃ t, exec (.nicheWatchdog u) s = .next t ∧ t.chip.fatal = true ∧ t.chip.faultN = false) ∧
  (u = .tae ∨ (∃ k, u = .shp k ∨ u = .enc k) → captures 6 3 (unitIx u) 3 0)

theorem answered_byUnit {s : State} {u : UnitId} {d : Nat} (hlive : live s = true) (hcaptures : s.recov.captures = [])
    (hrequests : s.recov.requests = []) (hs : s.chip.tick < 2 ^ 64) (hup : unitDown s u = false) (h : Answered s u d) : AnsweredByUnit s u d := by
  refine ⟨?_, ?_, ?_, ?_, ?_⟩
  · rintro c e i rfl he hd hi hcond hfinal hcore hother hnear
    exact engine_joins h he hup hcaptures hrequests hs hd hi hcond hfinal hcore hother hnear
  · rintro c e rfl - hold hd
    exact caught (engine_captured h hup hcaptures hs hd hold)
  · rintro c rfl hd
    exact caught (vector_captured h hup hcaptures hs hd)
  · rintro rfl
    exact writer_fatal h hlive
  · exact fun hshared hd => caught (shared_captured hshared h hup hcaptures hs hd)

/-- Settles O60: what is hung is found, the answer waits for its tick, and with no capture and no reset under way an incident begins; a second engine of
a core joins the first. -/
theorem hangsCaptured : Obligations.HangsCaptured := by
  unfold Obligations.HangsCaptured
  intro s htakes hcaptures hrequests hs
  obtain ⟨hlive, hdomain⟩ := NicheEnds.takesWork_up htakes
  have hfree := resetting_domain hdomain hrequests
  exact ⟨fun u x hrun hunit hup => answered_byUnit hlive hcaptures hrequests hs hup (watchdog_answers_run hlive hdomain hup hrun hunit),
    fun u b n hnone hjob hniche hon hup =>
      answered_byUnit hlive hcaptures hrequests hs hup (watchdog_answers_job hlive hdomain hup hnone hjob hniche hon),
    fun c x hx hcore hd => caught (exchange_captured hlive hdomain hx (resetting_core hdomain hrequests hcore) hcaptures hs hd),
    fun e n k last hmem hleast hlast hreached hd => caught (entropy_captured hlive hdomain hmem hleast hlast hreached hfree hcaptures hs hd),
    fun e n hrow hd => caught (recon_captured hlive hdomain hrow hfree hcaptures hs hd),
    fun u n k p b d rest hdue hd => caught (strip_captured hlive hdomain hdue hfree hcaptures hs hd),
    fun e n k h => binsDue_spec h⟩

end Sys2Proof.HangCaptures
end


section
/-! What ends work leaves to the recovery: the chip, the resets requested and in progress, and what they keep of the cores (15 R343, R344). -/

namespace Sys2Proof.ResetFrames

open Sys2Proof.Machine Sys2Proof.Laws Sys2Proof.NicheEnds Sys2Proof.RecordWriter Sys2Proof.RecordWords Sys2Proof.BandResults

/-! ### What stays of the units -/

/-- Whatever happened to work, the chip, the resets requested, awaited and in progress, and every core but for its Proof casts under way stay. -/
structure UnitsKept (s t : State) : Prop where
  chip : t.chip = s.chip
  requests : t.recov.requests = s.recov.requests
  waiters : t.recov.waiters = s.recov.waiters
  domain : t.recov.domainAt = s.recov.domainAt
  core : ∀ k, ∃ l, t.core k = { s.core k with castRunning := l }

namespace UnitsKept

/-- The same chip, recovery and cores. -/
theorem of_same {s t : State} (hchip : t.chip = s.chip) (hrecov : t.recov = s.recov) (hcores : t.cores = s.cores) : UnitsKept s t where
  chip := hchip
  requests := congrArg (·.requests) hrecov
  waiters := congrArg (·.waiters) hrecov
  domain := congrArg (·.domainAt) hrecov
  core k := ⟨(s.core k).castRunning, congrArg (fun l => tget l k Core.reset) hcores⟩

theorem refl (s : State) : UnitsKept s s := of_same rfl rfl rfl

theorem trans {s t u : State} (h : UnitsKept s t) (h' : UnitsKept t u) : UnitsKept s u where
  chip := h'.chip.trans h.chip
  requests := h'.requests.trans h.requests
  waiters := h'.waiters.trans h.waiters
  domain := h'.domain.trans h.domain
  core k := by
    obtain ⟨l, hl⟩ := h.core k
    obtain ⟨l', hl'⟩ := h'.core k
    exact ⟨l', by rw [hl', hl]⟩

theorem forAll {α : Type} (l : List α) {f : α → State → State} (hf : ∀ a s, UnitsKept s (f a s)) (s : State) : UnitsKept s (forAll l f s) := by
  induction l generalizing s with
  | nil => exact refl s
  | cons a l ih => exact (hf a s).trans (ih (f a s))

/-- Streams, sessions, runs, jobs, counters and the free values are none of the units'. -/
theorem outside (s : State) (streams : Tab Stream) (sessions : Tab Session) (runs : List Run) (jobs : List BeJob) (obs : Obs) (free : Nat) :
    UnitsKept s { s with streams := streams, sessions := sessions, runs := runs, jobs := jobs, obs := obs, free := free } := of_same rfl rfl rfl

theorem of_kept {s t : State} (h : kept t = kept s) : UnitsKept s t := of_same (kept_chip h) (kept_recov h) (kept_cores h)

theorem of_recorded {s t : State} (h : Recorded s t) : UnitsKept s t := by
  obtain ⟨_, _, _, _, _, _, _, _, _, _, _, _, rfl⟩ := h
  exact of_same rfl rfl rfl

theorem of_fed {s t : State} (h : FedSessions s t) : UnitsKept s t := by
  obtain ⟨_, _, rfl⟩ := h
  exact of_same rfl rfl rfl

theorem modStream (n : Nat) (f : Stream → Stream) (s : State) : UnitsKept s (s.modStream n f) := of_same rfl rfl rfl

theorem modSession (n : Nat) (f : Session → Session) (s : State) : UnitsKept s (s.modSession n f) := of_same rfl rfl rfl

theorem modJob (b : BeJob) (f : BeJob → BeJob) (s : State) : UnitsKept s (modJob b f s) := of_same rfl rfl rfl

end UnitsKept

/-! ### Settling a stream -/

theorem issueTo_unitsKept (o : Nat) (last : Bool) (r : RecordReq) (s : State) : UnitsKept s (issueTo o last r s) := by
  have hraised : UnitsKept s (seqRaised r s) := of_ite (.modSession _ _ s) (.modStream _ _ s)
  exact hraised.trans (.of_recorded (issueTo_recorded o last r s))

theorem placeLate_unitsKept (n : Nat) (l : LateRec) (s : State) : UnitsKept s (placeLate n l s) := by
  rw [placeLate_eq]
  exact (issueTo_unitsKept _ l.last _ s).trans (.of_fed (fedIfAny_fed n _ l.feed _))

theorem statusRecord_unitsKept (n : Nat) (p : Picture) (s : State) : UnitsKept s (statusRecord n p s) := by
  unfold statusRecord
  dsimp only
  refine UnitsKept.trans ?_ (issueTo_unitsKept _ _ _ _)
  have hcounted : UnitsKept s (if p.concealed then count (ctrSlot n 5) 1 s else s) := of_ite (.of_same rfl rfl rfl) (.refl s)
  exact of_ite (hcounted.trans (.of_same rfl rfl rfl)) hcounted

theorem writeStatus_unitsKept (n : Nat) (p : Picture) (s : State) : UnitsKept s (writeStatus n p s) :=
  (statusRecord_unitsKept n p s).trans (.outside _ _ _ _ _ _ _)

theorem placeDue_unitsKept (n fuel : Nat) (s : State) : UnitsKept s (placeDue n fuel s) := by
  induction fuel generalizing s with
  | zero => exact .refl s
  | succ fuel ih =>
    unfold placeDue
    split
    · exact ((UnitsKept.modStream _ _ s).trans (placeLate_unitsKept _ _ _)).trans (ih _)
    · split
      · exact of_ite ((writeStatus_unitsKept n _ s).trans (ih _)) (.refl s)
      · split
        · exact ((statusRecord_unitsKept _ _ s).trans (.modStream _ _ _)).trans (ih _)
        · exact .refl s

theorem dropRuns_unitsKept (n don : Nat) (s : State) : UnitsKept s (dropRuns n don s) := .of_same rfl rfl rfl

theorem settle_unitsKept (n : Nat) (s : State) : UnitsKept s (settle n s) := by
  have hswept : ∀ t, UnitsKept t (sweepPics n t) := fun t =>
    (UnitsKept.outside t _ _ _ _ _ _).trans (.forAll _ (fun _ u => dropRuns_unitsKept _ _ u) _)
  exact (placeDue_unitsKept n _ s).trans (hswept _)

theorem sweepBlocks_unitsKept (n : Nat) (s : State) : UnitsKept s (sweepBlocks n s) :=
  ((placeDue_unitsKept n _ s).trans (.modStream _ _ _)).trans (.forAll _ (fun _ u => dropRuns_unitsKept _ _ u) _)

/-! ### The end of a run -/

theorem refresh_unitsKept (s : State) : UnitsKept s (refresh s) := .of_same rfl rfl rfl

theorem endUnit_unitsKept (n status : Nat) (s : State) : UnitsKept s (endUnit n status s) := .of_same rfl rfl rfl

theorem sweepGroup_unitsKept (x : Run) (s : State) : UnitsKept s (sweepGroup x s) :=
  of_ite ((UnitsKept.outside s _ _ _ _ _ _).trans (.forAll _ (fun _ u => endUnit_unitsKept _ _ u) _)) (.refl s)

theorem afterRun_unitsKept (x : Run) (s : State) : UnitsKept s (afterRun x s) :=
  (refresh_unitsKept s).trans
    (of_ite (sweepGroup_unitsKept x _) (of_ite (.refl _) (of_ite (sweepBlocks_unitsKept _ _) (settle_unitsKept _ _))))

theorem skipFrom_unitsKept (x : Run) (status : Nat) (wide : Bool) (s : State) : UnitsKept s (skipFrom x status wide s) := by
  unfold skipFrom
  split
  · exact .refl s
  · exact .of_same rfl rfl rfl

theorem rerunGroup_unitsKept (x : Run) (s : State) : UnitsKept s (rerunGroup x s) := by
  have hstopped : UnitsKept s (groupStopped x s) := .forAll _ (fun _ u => .modSession _ _ u) s
  have hagain : ∀ u, UnitsKept u (groupRerun x u) := fun _ => ⟨rfl, rfl, rfl, rfl, fun _ => ⟨_, rfl⟩⟩
  exact (hstopped.trans (hagain _)).trans (refresh_unitsKept _)

theorem abortRun_unitsKept (x : Run) (status : Nat) (s : State) : UnitsKept s (abortRun x status s) := by
  unfold abortRun
  split
  · exact of_ite (rerunGroup_unitsKept x s) (skipFrom_unitsKept x status true s)
  · split
    · next c e _ =>
      refine ⟨rfl, rfl, rfl, rfl, fun k => ?_⟩
      by_cases hk : k = c
      · subst hk
        exact ⟨_, core_modCore _ k _⟩
      · exact ⟨_, core_modCore_other _ _ hk⟩
    · exact skipFrom_unitsKept x status true s

theorem afterAbort_unitsKept (x : Run) (status : Nat) (s : State) : UnitsKept s (afterRun x (abortRun x status s)) :=
  (abortRun_unitsKept x status s).trans (afterRun_unitsKept x _)

/-! ### The end of a job -/

theorem finish_unitsKept (j status : Nat) (r : List Word) (s : State) : UnitsKept s (finish j status r s) := .of_kept (finish_kept j status r s)

theorem endJob_unitsKept (b : BeJob) (status : Nat) (s : State) : UnitsKept s (endJob b status s) := by
  unfold endJob
  dsimp only
  split
  · exact (UnitsKept.outside s _ _ _ _ _ _).trans (endUnit_unitsKept _ _ _)
  · exact (UnitsKept.outside s _ _ _ _ _ _).trans (finish_unitsKept _ _ _ _)

theorem accountJob_unitsKept (b : BeJob) (f : Account → Account) (s : State) : UnitsKept s (accountJob b f s) := by
  unfold accountJob
  split
  · exact .of_same rfl rfl rfl
  · exact .refl s

theorem countPreempt_unitsKept (b : BeJob) (s : State) : UnitsKept s (countPreempt b s) := by
  unfold countPreempt
  refine UnitsKept.trans ?_ (accountJob_unitsKept _ _ _)
  split
  · exact (UnitsKept.modJob _ _ s).trans (.outside _ _ _ _ _ _ _)
  · exact .modJob _ _ s

theorem restartNiche_unitsKept (b : BeJob) (s : State) : UnitsKept s (restartNiche b s) :=
  of_ite (.refl s) ((UnitsKept.modJob _ _ s).trans (countPreempt_unitsKept _ _))

theorem restartUnit_unitsKept (b : BeJob) (s : State) : UnitsKept s (restartUnit b s) := by
  unfold restartUnit
  refine UnitsKept.trans ?_ (.modJob _ _ _)
  split
  · exact .modSession _ _ s
  · exact .refl s

theorem restartJob_unitsKept (b : BeJob) (s : State) : UnitsKept s (restartJob b s) := .modJob _ _ s

theorem abortJob_unitsKept (b : BeJob) (status : Nat) (s : State) : UnitsKept s (abortJob b status s) :=
  of_ite (endJob_unitsKept b status s) (of_ite (restartUnit_unitsKept b s) ((restartNiche_unitsKept b s).trans (.modJob _ _ _)))

/-! ### Units that stop (15 R343, R344) -/

theorem traceEnd_unitsKept (u : UnitId) (ctx niche don band status : Nat) (s : State) : UnitsKept s (traceEnd u ctx niche don band status s) :=
  (UnitsKept.outside s s.streams s.sessions s.runs s.jobs s.obs (s.free + 1)).trans (.of_kept (emit_kept _ _ _ _ _ _ _ _ _))

theorem stopUnit_unitsKept (u : UnitId) (s : State) : UnitsKept s (stopUnit u s) := by
  unfold stopUnit
  dsimp only
  refine UnitsKept.trans ?_ (.forAll _ (fun b t => (traceEnd_unitsKept u _ _ _ _ _ t).trans (abortJob_unitsKept b _ _)) _)
  have hnoted : UnitsKept s { s with recov := { s.recov with hung := s.recov.hung.filter (fun v => decide (v ≠ u)) } } :=
    ⟨rfl, rfl, rfl, rfl, fun _ => ⟨_, rfl⟩⟩
  split
  · exact (hnoted.trans (traceEnd_unitsKept u _ _ _ _ _ _)).trans (afterAbort_unitsKept _ _ _)
  · exact hnoted

theorem dropExchanges_unitsKept (c : Nat) (s : State) : UnitsKept s (dropExchanges c s) := by
  have hdropped : UnitsKept s { s with recov := { s.recov with xchgs := s.recov.xchgs.filter (fun x => x.sender ≠ c) } } :=
    ⟨rfl, rfl, rfl, rfl, fun _ => ⟨_, rfl⟩⟩
  exact hdropped.trans (.forAll _ (fun _ t => afterAbort_unitsKept _ _ t) _)

theorem traceReset_unitsKept (code n : Nat) (s : State) : UnitsKept s (traceReset code n s) := .of_kept (emit_kept _ _ _ _ _ _ _ _ s)

end Sys2Proof.ResetFrames
end


section
/-! Resets commanded, and requested resets that begin (15 R338, R343, R344, R350; Table 15.5). -/

namespace Sys2Proof.ResetsBegun

open Sys2Proof.Machine Sys2Proof.Laws Sys2Proof.ImpressionReads Sys2Proof.HangCaptures Sys2Proof.ResetFrames Sys2Proof.PoolCommands

/-! ### Commanded resets (15 R338) -/

theorem runs_jpos {s : State} {j op : Nat} {e : JEntry} (h : Runs s j op e) : e.jpos = j := by
  obtain ⟨he, -, -⟩ := h
  simpa using List.find?_some he

/-- The command waits for the end of a reset. -/
def awaiting (w : Waiter) (s : State) : State := { s with recov := { s.recov with waiters := s.recov.waiters ++ [w] } }

theorem commandReset_eq (e : JEntry) (code n : Nat) (s : State) : commandReset e code n s =
    if (e.during && !(s.recov.domainAt.isSome || domainRequested s)) = true then finish e.jpos stOk [0] s
    else if e.during = true then awaiting ⟨e.jpos, s.now, if e.during then 3 else code, if e.during then 0 else n, e.during⟩ s
    else requestReset code n (awaiting ⟨e.jpos, s.now, if e.during then 3 else code, if e.during then 0 else n, e.during⟩ s) := rfl

theorem requestReset_safety {code n : Nat} {s : State} (h : resetting s code n = true) : (requestReset code n s).safety = s.safety := by
  rw [requestReset, if_pos h]

/-- What a commanded reset of unit (`code`, `n`) does, whichever command it is of. -/
theorem commanded {s : State} {j : Nat} {e : JEntry} {c : Instr} {code n : Nat} (hj : e.jpos = j)
    (hexec : exec c s = .next (commandReset e code n (beginCmd e s))) :
    let busy : Prop := s.recov.domainAt.isSome = true ∨ domainRequested s = true
    (e.during = false → ∃ t, exec c s = .next t ∧ t.journal = (beginCmd e s).journal ∧
      t.recov.waiters = s.recov.waiters ++ [{ j := j, start := s.chip.tick, code := code, unit := n, during := false }] ∧
      t.runs = s.runs ∧ t.streams = s.streams ∧ t.cores = s.cores ∧ t.dram = s.dram ∧ t.hostMem = s.hostMem ∧
      (resetting s code n = false → t.recov.requests = s.recov.requests ++ [(code, n, s.chip.tick)]) ∧
      (resetting s code n = true → t.recov.requests = s.recov.requests ∧ t.safety = s.safety)) ∧
    (e.during = true → busy → ∃ t, exec c s = .next t ∧ t.journal = (beginCmd e s).journal ∧ t.recov.requests = s.recov.requests ∧
      t.recov.waiters = s.recov.waiters ++ [{ j := j, start := s.chip.tick, code := 3, unit := 0, during := true }] ∧ t.safety = s.safety) ∧
    (e.during = true → ¬ busy → exec c s = .next (finish j stOk [0] (beginCmd e s))) := by
  rw [commandReset_eq, hj] at hexec
  have hdomain : (beginCmd e s).recov.domainAt = s.recov.domainAt := rfl
  have hrequested : domainRequested (beginCmd e s) = domainRequested s := rfl
  rw [hdomain, hrequested] at hexec
  refine ⟨fun hlater => ?_, fun hduring hbusy => ?_, fun hduring hidle => ?_⟩
  · rw [hlater] at hexec
    simp only [Bool.false_and, Bool.false_eq_true, if_false] at hexec
    have hsame : resetting (awaiting ⟨j, (beginCmd e s).now, code, n, false⟩ (beginCmd e s)) code n = resetting s code n := rfl
    have hrecov := requestReset_requests code n (awaiting ⟨j, (beginCmd e s).now, code, n, false⟩ (beginCmd e s))
    have hsafety := requestReset_safety (code := code) (n := n) (s := awaiting ⟨j, (beginCmd e s).now, code, n, false⟩ (beginCmd e s))
    obtain ⟨_, _, _, _, _, _, _, _, _, hshape⟩ := requestReset_shape code n (awaiting ⟨j, (beginCmd e s).now, code, n, false⟩ (beginCmd e s))
    rw [hsame] at hrecov hsafety
    refine ⟨_, hexec, ?_, by rw [hrecov]; rfl, ?_, ?_, ?_, ?_, ?_, fun hfree => ?_, fun hjoined => ⟨?_, hsafety hjoined⟩⟩
    · rw [hshape]; rfl
    · rw [hshape]; rfl
    · rw [hshape]; rfl
    · rw [hshape]; rfl
    · rw [hshape]; rfl
    · rw [hshape]; rfl
    · rw [hrecov, if_neg (by rw [hfree]; decide)]
      rfl
    · rw [hrecov, if_pos hjoined]
      rfl
  · have hbusy' : (s.recov.domainAt.isSome || domainRequested s) = true := Bool.or_eq_true _ _ ▸ hbusy
    rw [hduring, hbusy'] at hexec
    exact ⟨_, hexec, rfl, rfl, rfl, rfl⟩
  · have hidle' : (s.recov.domainAt.isSome || domainRequested s) = false :=
      Bool.eq_false_iff.mpr (fun h => hidle (Bool.or_eq_true _ _ ▸ h))
    rw [hduring, hidle'] at hexec
    exact hexec

theorem exec_resetEngine {s : State} {j : Nat} {e : JEntry} (h : Runs s j 0x90 e) : exec (.resetEngine j) s = .next
    (if s.isFenced (e.ctx / 4) then finish j stFenced [] (beginCmd e s) else commandReset e 1 e.ctx (beginCmd e s)) := by
  obtain ⟨he, hbegin, hstatic⟩ := h
  exact congrArg Host.Outcome.next (runCmd_body he hbegin hstatic _)

theorem exec_resetCore {s : State} {j : Nat} {e : JEntry} (h : Runs s j 0x91 e) : exec (.resetCore j) s = .next
    (if s.isFenced e.ctx then finish j stFenced [] (beginCmd e s) else commandReset e 2 e.ctx (beginCmd e s)) := by
  obtain ⟨he, hbegin, hstatic⟩ := h
  exact congrArg Host.Outcome.next (runCmd_body he hbegin hstatic _)

theorem exec_resetCompute {s : State} {j : Nat} {e : JEntry} (h : Runs s j 0x92 e) : exec (.resetCompute j) s = .next
    (commandReset e 3 0 (beginCmd e s)) := by
  obtain ⟨he, hbegin, hstatic⟩ := h
  exact congrArg Host.Outcome.next (runCmd_body he hbegin hstatic _)

/-! ### An engine's reset begins (15 R343) -/

section
variable {s : State}

theorem absorb_requested {code n code' n' : Nat} (h : inside (code, n) (code', n') = true) (s : State) : requested (absorb code' n' s) code n = none := by
  rw [requested, Option.map_eq_none_iff, List.find?_eq_none]
  intro r hr
  have hkept := (List.mem_filter.mp hr).2
  intro hsame
  simp only [Bool.and_eq_true, decide_eq_true_eq] at hsame
  obtain ⟨hcode, hunit⟩ := hsame
  rw [hcode, hunit, h] at hkept
  cases hkept

theorem requested_congr {s t : State} (h : t.recov.requests = s.recov.requests) (code n : Nat) : requested t code n = requested s code n := by
  rw [requested, requested, h]

theorem tget_clearBank (e : Nat) (acc : Tab Word) (k : Nat) : tget (clearBank e acc) k 0 = if k / 49152 = e then 0 else tget acc k 0 := by
  split
  · next h => exact tget_filter_dropped (fun _ => by simp [h])
  · next h => exact tget_filter_kept (fun _ => by simp [h])

/-- The state of an engine's reset before its work stops. -/
def engineCleared (c e d : Nat) (s : State) : State :=
  (absorb 1 (4 * c + e) s).modCore c (fun k => { k with engineReset := tput k.engineReset e d, acc := clearBank e k.acc })

theorem doEngineReset_eq {c e d : Nat} (hlive : live s = true) (hdomain : domainUp s = true) (hreq : requested s 1 (4 * c + e) = some d)
    (hcore : (s.core c).resetAt = none) : doEngineReset c e s = stopUnit (.mx c e) (traceReset 1 (4 * c + e) (engineCleared c e d s)) := by
  unfold doEngineReset
  rw [hreq, hlive, hdomain, hcore]
  rfl

theorem engineReset_clause {c e d : Nat} (hlive : live s = true) (hdomain : domainUp s = true) (hreq : requested s 1 (4 * c + e) = some d)
    (hcore : (s.core c).resetAt = none) : ∃ t, exec (.engineReset c e) s = .next t ∧
      tfind (t.core c).engineReset e = some d ∧ requested t 1 (4 * c + e) = none ∧
      (∀ k, tget (t.core c).acc k 0 = if k / 49152 = e then 0 else tget (s.core c).acc k 0) ∧ ∀ k, k ≠ c → (t.core k).acc = (s.core k).acc := by
  have hkept : UnitsKept (engineCleared c e d s) (doEngineReset c e s) := by
    rw [doEngineReset_eq hlive hdomain hreq hcore]
    exact (traceReset_unitsKept 1 (4 * c + e) _).trans (stopUnit_unitsKept _ _)
  have hself : (engineCleared c e d s).core c =
      { s.core c with engineReset := tput (s.core c).engineReset e d, acc := clearBank e (s.core c).acc } := core_modCore (absorb 1 (4 * c + e) s) c _
  obtain ⟨_, hunit⟩ := hkept.core c
  refine ⟨_, rfl, ?_, ?_, fun k => ?_, fun k hk => ?_⟩
  · rw [hunit, hself]
    exact tfind_tput_same _ _ _
  · rw [requested_congr hkept.requests]
    exact absorb_requested (by simp [inside]) s
  · rw [hunit, hself]
    exact tget_clearBank e (s.core c).acc k
  · obtain ⟨_, hother⟩ := hkept.core k
    rw [hother]
    exact congrArg (·.acc) (core_modCore_other (absorb 1 (4 * c + e) s) _ hk)

/-! ### A core's reset begins (15 R344) -/

/-- The state of a core's reset before its work stops. -/
def coreCleared (c d : Nat) (s : State) : State :=
  (absorb 2 c s).modCore c (fun k => { k with resetAt := some d, engineReset := [], acc := [], weights := none })

theorem doCoreReset_eq {c d : Nat} (hlive : live s = true) (hdomain : domainUp s = true) (hreq : requested s 2 c = some d) :
    doCoreReset c s = dropExchanges c (forAll (enginesOf c ++ [.vx c]) stopUnit (traceReset 2 c
      { coreCleared c d s with marks := (coreCleared c d s).marks.filter (fun m => decide (coreOf m.1 ≠ some c)) })) := by
  unfold doCoreReset
  rw [hreq]
  dsimp only
  rw [if_neg (by rw [hlive, hdomain]; decide)]
  rfl

theorem coreReset_clause {c d : Nat} (hlive : live s = true) (hdomain : domainUp s = true) (hreq : requested s 2 c = some d) :
    ∃ t, exec (.coreReset c) s = .next t ∧ (t.core c).resetAt = some d ∧ (t.core c).acc = [] ∧
      (t.core c).engineReset = [] ∧ (t.core c).weights = none ∧ (∀ e, e < 4 → requested t 1 (4 * c + e) = none) ∧
      ∀ k, k ≠ c → (t.core k).acc = (s.core k).acc := by
  have hunmarked : UnitsKept (coreCleared c d s) { coreCleared c d s with marks := (coreCleared c d s).marks.filter (fun m => decide (coreOf m.1 ≠ some c)) } :=
    .of_same rfl rfl rfl
  have hkept : UnitsKept (coreCleared c d s) (doCoreReset c s) := by
    rw [doCoreReset_eq hlive hdomain hreq]
    exact ((hunmarked.trans (traceReset_unitsKept 2 c _)).trans (.forAll _ stopUnit_unitsKept _)).trans (dropExchanges_unitsKept c _)
  have hself : (coreCleared c d s).core c = { s.core c with resetAt := some d, engineReset := [], acc := [], weights := none } :=
    core_modCore (absorb 2 c s) c _
  obtain ⟨_, hunit⟩ := hkept.core c
  refine ⟨_, rfl, ?_, ?_, ?_, ?_, fun e he => ?_, fun k hk => ?_⟩
  · rw [hunit, hself]
  · rw [hunit, hself]
  · rw [hunit, hself]
  · rw [hunit, hself]
  · have hcore : (4 * c + e) / 4 = c := by omega
    rw [requested_congr hkept.requests]
    exact absorb_requested (by simp [inside, hcore]) s
  · obtain ⟨_, hother⟩ := hkept.core k
    rw [hother]
    exact congrArg (·.acc) (core_modCore_other (absorb 2 c s) _ hk)

end

/-! ### The compute domain's reset begins (15 R350, Table 15.5) -/

section
variable {s : State}

theorem markResume_shape (n : Nat) (s : State) : ∃ l, markResume n s = { s with streams := l } := by
  unfold markResume
  dsimp only
  split
  · exact ⟨_, rfl⟩
  · exact ⟨_, rfl⟩

theorem marksResume_shape (l : List Nat) (s : State) : ∃ x, forAll l markResume s = { s with streams := x } := by
  induction l generalizing s with
  | nil => exact ⟨s.streams, rfl⟩
  | cons n l ih =>
    obtain ⟨x, hx⟩ := markResume_shape n s
    obtain ⟨y, hy⟩ := ih (markResume n s)
    exact ⟨y, by rw [show forAll (n :: l) markResume s = forAll l markResume (markResume n s) from rfl, hy, hx]⟩

theorem restartJobs_shape (l : List BeJob) (s : State) : ∃ x, forAll l restartJob s = { s with jobs := x } := by
  induction l generalizing s with
  | nil => exact ⟨s.jobs, rfl⟩
  | cons b l ih =>
    obtain ⟨y, hy⟩ := ih (restartJob b s)
    exact ⟨y, hy⟩

/-- The cores of a list are changed each in its place. -/
theorem modCores_shape (f : Core → Core) (l : List Nat) (s : State) : ∃ x, forAll l (fun c s => s.modCore c f) s = { s with cores := x } := by
  induction l generalizing s with
  | nil => exact ⟨s.cores, rfl⟩
  | cons c l ih =>
    obtain ⟨y, hy⟩ := ih (s.modCore c f)
    exact ⟨y, hy⟩

theorem modCores_outside (f : Core → Core) {l : List Nat} {k : Nat} (h : k ∉ l) (s : State) :
    (forAll l (fun c s => s.modCore c f) s).core k = s.core k := by
  induction l generalizing s with
  | nil => rfl
  | cons c l ih =>
    obtain ⟨hk, hl⟩ := not_or.mp (fun h' => h (List.mem_cons.mpr h'))
    exact (ih hl (s.modCore c f)).trans (core_modCore_other s f hk)

/-- What every change of a core establishes holds of each core of the list. -/
theorem modCores_each {f : Core → Core} {P : Core → Prop} (hf : ∀ x, P (f x)) {l : List Nat} {k : Nat} (h : k ∈ l) (s : State) :
    P ((forAll l (fun c s => s.modCore c f) s).core k) := by
  induction l generalizing s with
  | nil => cases h
  | cons c l ih =>
    by_cases hl : k ∈ l
    · exact ih hl (s.modCore c f)
    · have hk : k = c := (List.mem_cons.mp h).resolve_right hl
      subst hk
      have hsame : (forAll (k :: l) (fun c s => s.modCore c f) s).core k = f (s.core k) :=
        (modCores_outside f hl (s.modCore k f)).trans (core_modCore s k f)
      rw [hsame]
      exact hf _

/-- The compute domain with its streams marked and its cores reset. -/
def domainCleared (s : State) : State :=
  let u := forAll s.openSlots markResume (traceReset 3 0 (absorb 3 0 s))
  forAll ((List.range Config.cores).filter (fun c => !u.isFenced c)) (fun c s => s.modCore c resetCore) u

/-- Every Niche is out of work, and the units of sessions wait to start again. -/
def domainEmptied (d : Nat) (s : State) : State :=
  { s with jobs := s.jobs.filter (fun b => b.sess.isNone), sessions := List.map (fun (e : Nat × Session) => (e.1, resetUnit e.2)) s.sessions,
           runs := [], marks := [], packs := [], stages := [], stageNext := [], recov := { s.recov with domainAt := some d, xchgs := [], hung := [] } }

theorem doComputeReset_eq {d : Nat} (hlive : live s = true) (hdomain : domainUp s = true) (hreq : requested s 3 0 = some d) :
    doComputeReset s = forAll (domainEmptied d (domainCleared s)).jobs restartJob (domainEmptied d (domainCleared s)) := by
  unfold doComputeReset
  rw [hreq]
  dsimp only
  rw [if_neg (by rw [hlive, hdomain]; decide)]
  rfl

theorem absorb_domain (s : State) : absorb 3 0 s = { s with recov := { s.recov with requests := [] } } := by
  have hall : s.recov.requests.filter (fun r => !inside (r.1, r.2.1) (3, 0)) = [] := List.filter_eq_nil_iff.mpr (fun r _ => by simp [inside])
  rw [absorb, hall]

theorem domainCleared_shape (s : State) : (∃ p o x y, domainCleared s =
    { s with pcie := p, obs := o, streams := x, cores := y, recov := { s.recov with requests := [] } }) ∧
    ∀ c, c < 16 → s.isFenced c = false → ((domainCleared s).core c).spad = [] ∧ ((domainCleared s).core c).acc = [] ∧
      ((domainCleared s).core c).resetAt = none := by
  obtain ⟨_, _, _, _, _, _, htrace⟩ := emit_shape 0x09 0x24 0xFFFF 0xFFFFFF 0 0xFFF 3 0 (absorb 3 0 s)
  obtain ⟨x, hmarked⟩ := marksResume_shape s.openSlots (traceReset 3 0 (absorb 3 0 s))
  rw [traceReset, htrace, absorb_domain] at hmarked
  unfold domainCleared
  dsimp only
  rw [traceReset, htrace, absorb_domain, hmarked]
  generalize hu : ({ s with pcie := _, obs := _, streams := x, recov := _ } : State) = u
  have hfenced : ∀ c, u.isFenced c = s.isFenced c := fun c => by rw [← hu]; rfl
  refine ⟨?_, fun c hc hup => ?_⟩
  · obtain ⟨y, hy⟩ := modCores_shape resetCore ((List.range Config.cores).filter (fun c => !u.isFenced c)) u
    rw [hy, ← hu]
    exact ⟨_, _, _, _, rfl⟩
  · refine modCores_each (P := fun k => k.spad = [] ∧ k.acc = [] ∧ k.resetAt = none) (fun _ => ⟨rfl, rfl, rfl⟩) ?_ u
    exact List.mem_filter.mpr ⟨List.mem_range.mpr hc, by rw [hfenced, hup]; rfl⟩

theorem resetUnit_kept (x : Session) : (resetUnit x).tCtx = x.tCtx ∧ (resetUnit x).pos = x.pos ∧ (resetUnit x).pages = x.pages ∧
    (x.work = none → resetUnit x = x) := by
  unfold resetUnit
  split
  · exact ⟨rfl, rfl, rfl, fun _ => rfl⟩
  · next hwork => exact ⟨rfl, rfl, rfl, fun hnone => absurd (by rw [hnone]; rfl) hwork⟩

theorem computeReset_clause {d : Nat} (hlive : live s = true) (hdomain : domainUp s = true) (hreq : requested s 3 0 = some d) :
    ∃ t, exec .computeReset s = .next t ∧ t.recov.domainAt = some d ∧ t.recov.requests = [] ∧ t.runs = [] ∧
      t.recov.xchgs = [] ∧ computeUp t = false ∧ (∀ c, c < 16 → s.isFenced c = false → (t.core c).spad = [] ∧ (t.core c).acc = [] ∧
        (t.core c).resetAt = none) ∧ t.tracks = s.tracks ∧ (∀ n, (t.session n).tCtx = (s.session n).tCtx ∧
        (t.session n).pos = (s.session n).pos ∧ (t.session n).pages = (s.session n).pages ∧
        ((s.session n).work = none → t.session n = s.session n)) ∧ t.dram = s.dram ∧ t.safety = s.safety ∧ t.journal = s.journal ∧
      t.hostMem = s.hostMem := by
  obtain ⟨⟨p, o, x, y, hcleared⟩, hcores⟩ := domainCleared_shape s
  obtain ⟨jobs, hjobs⟩ := restartJobs_shape (domainEmptied d (domainCleared s)).jobs (domainEmptied d (domainCleared s))
  refine ⟨_, congrArg Host.Outcome.next ((doComputeReset_eq hlive hdomain hreq).trans hjobs), rfl, ?_, rfl, rfl, rfl, fun c hc hup => hcores c hc hup,
    ?_, fun n => ?_, ?_, ?_, ?_, ?_⟩
  · show (domainCleared s).recov.requests = []
    rw [hcleared]
  · show (domainCleared s).tracks = s.tracks
    rw [hcleared]
  · have hsession : ({ domainEmptied d (domainCleared s) with jobs := jobs } : State).session n = resetUnit (s.session n) := by
      refine (CoalExpiry.tget_map (f := resetUnit) rfl (domainCleared s).sessions n).trans ?_
      rw [hcleared]
      rfl
    rw [hsession]
    exact resetUnit_kept _
  · show (domainCleared s).dram = s.dram
    rw [hcleared]
  · show (domainCleared s).safety = s.safety
    rw [hcleared]
  · show (domainCleared s).journal = s.journal
    rw [hcleared]
  · show (domainCleared s).hostMem = s.hostMem
    rw [hcleared]

end

/-- Settles O58: a commanded reset joins or makes a request and waits; a requested one clears its unit, and the work it stops leaves the units as they
are. -/
theorem resetsCommandedAndBegun : Obligations.ResetsCommandedAndBegun := by
  unfold Obligations.ResetsCommandedAndBegun
  refine ⟨fun j e s => ⟨fun hruns => ⟨fun hfenced => ?_, fun hup => ?_⟩, fun hruns => ⟨fun hfenced => ?_, fun hup => ?_⟩, fun hruns => ?_⟩,
    fun s hlive hdomain => ⟨fun c e d _ hreq hcore => engineReset_clause hlive hdomain hreq hcore,
      fun c d hreq => coreReset_clause hlive hdomain hreq, fun d hreq => computeReset_clause hlive hdomain hreq, fun c e hnone => ?_,
      fun c hnone => ?_, fun hnone => ?_⟩⟩
  · rw [exec_resetEngine hruns, if_pos hfenced]
  · have hexec := exec_resetEngine hruns
    rw [if_neg (by rw [hup]; decide)] at hexec
    exact commanded (runs_jpos hruns) hexec
  · rw [exec_resetCore hruns, if_pos hfenced]
  · have hexec := exec_resetCore hruns
    rw [if_neg (by rw [hup]; decide)] at hexec
    exact commanded (runs_jpos hruns) hexec
  · exact commanded (runs_jpos hruns) (exec_resetCompute hruns)
  · refine congrArg Host.Outcome.next ?_
    unfold doEngineReset
    rw [hnone]
  · refine congrArg Host.Outcome.next ?_
    unfold doCoreReset
    rw [hnone]
  · refine congrArg Host.Outcome.next ?_
    unfold doComputeReset
    rw [hnone]

end Sys2Proof.ResetsBegun
end


section
/-! The end of a reset: incidents settle, waiting commands complete, stopped work sends its layers again; a failed one escalates (15 R337, R338, R341,
R345, R347; 12 Table 12.7). -/

namespace Sys2Proof.ResetEnds

open Sys2Proof.Machine Sys2Proof.Laws Sys2Proof.NicheEnds Sys2Proof.Detections Sys2Proof.ImpressionReads Sys2Proof.HangCaptures
open Sys2Proof.ResetFrames Sys2Proof.Posting Sys2Proof.Opening Sys2Proof.RecordWriter

/-! ### Incidents that settle (15 R341) -/

/-- From `s` to `t` the Impressions and their stores change, and nothing else: resets requested, awaited and in progress stay. -/
def Settled (s t : State) : Prop := ∃ r : Recovery, t = { s with recov := r } ∧ r.requests = s.recov.requests ∧ r.waiters = s.recov.waiters ∧
  r.domainAt = s.recov.domainAt

theorem Settled.refl (s : State) : Settled s s := ⟨s.recov, rfl, rfl, rfl, rfl⟩

theorem Settled.trans {s t u : State} (h : Settled s t) (h' : Settled t u) : Settled s u := by
  obtain ⟨r, rfl, hrequests, hwaiters, hdomain⟩ := h
  obtain ⟨r', rfl, hrequests', hwaiters', hdomain'⟩ := h'
  exact ⟨r', rfl, hrequests'.trans hrequests, hwaiters'.trans hwaiters, hdomain'.trans hdomain⟩

theorem settleInc_settled (n code outcome : Nat) (s : State) : Settled s (settleInc n code outcome s) := by
  unfold settleInc
  dsimp only
  split
  · exact ⟨_, rfl, rfl, rfl, rfl⟩
  · exact ⟨_, rfl, rfl, rfl, rfl⟩

theorem Settled.forAll {α : Type} (l : List α) {f : α → State → State} (hf : ∀ a s, Settled s (f a s)) (s : State) : Settled s (forAll l f s) := by
  induction l generalizing s with
  | nil => exact .refl s
  | cons a l ih => exact (hf a s).trans (ih (f a s))

/-! ### Layers sent again (12 Table 12.7) -/

/-- From `s` to `t` sessions, packets handed to the links and free values change, and nothing else. -/
def Resent (s t : State) : Prop := ∃ l se k fr, t = { s with link := l, sessions := se, jpos := k, free := fr }

theorem Resent.refl (s : State) : Resent s s := ⟨_, _, _, _, rfl⟩

theorem Resent.trans {s t u : State} (h : Resent s t) (h' : Resent t u) : Resent s u := by
  obtain ⟨_, _, _, _, rfl⟩ := h
  obtain ⟨_, _, _, _, rfl⟩ := h'
  exact ⟨_, _, _, _, rfl⟩

theorem Resent.forAll {α : Type} (l : List α) {f : α → State → State} (hf : ∀ a s, Resent s (f a s)) (s : State) : Resent s (forAll l f s) := by
  induction l generalizing s with
  | nil => exact .refl s
  | cons a l ih => exact (hf a s).trans (ih (f a s))

/-- Cores, streams, host memory and the journal are none of what is sent again. -/
theorem Resent.frame {s t : State} (h : Resent s t) : (∀ k, t.core k = s.core k) ∧ t.streams = s.streams ∧ t.hostMem = s.hostMem ∧
    t.journal = s.journal := by
  obtain ⟨_, _, _, _, rfl⟩ := h
  exact ⟨fun _ => rfl, rfl, rfl, rfl⟩

theorem Resent.modSession (n : Nat) (f : Session → Session) (s : State) : Resent s (s.modSession n f) := ⟨_, _, _, _, rfl⟩

theorem sendSeq_resent (dest cls type ctx gen : Nat) (aux aux2 : Word) (data : List Word) (s : State) :
    Resent s (sendSeq dest cls type ctx gen aux aux2 data s) := by
  obtain ⟨l, h⟩ := sendSeq_shape dest cls type ctx gen aux aux2 data s
  exact ⟨l, s.sessions, s.jpos, s.free, h⟩

theorem scatterLayer_resent (n layer : Nat) (s : State) : Resent s (scatterLayer n layer s) := by
  unfold scatterLayer
  dsimp only
  exact Resent.trans ⟨_, _, _, _, rfl⟩ (.forAll _ (fun _ t => sendSeq_resent _ _ _ _ _ _ _ _ t) _)

theorem sendLayers_resent (n : Nat) (s : State) : Resent s (sendLayers n s) := by
  unfold sendLayers
  dsimp only
  split
  · exact .modSession _ _ s
  · exact of_ite (.modSession _ _ s) ((Resent.modSession _ _ s).trans (scatterLayer_resent n 0 _))

theorem layersAgain_resent (hit : UnitId → Bool) (s : State) : Resent s (layersAgain hit s) := .forAll _ (fun _ t => sendLayers_resent _ t) s

theorem layersAgain_idle (hit : UnitId → Bool) {s : State} (h : ∀ x ∈ s.sessions, x.2.work = none) : layersAgain hit s = s := by
  have hnone : s.sessions.filter (fun e => e.2.work.any (fun w => w.stopped.any hit)) = [] :=
    List.filter_eq_nil_iff.mpr (fun x hx => by simp [h x hx])
  rw [layersAgain, hnone]
  rfl

/-! ### The end of a reset (15 R338) -/

/-- The part with the incidents of a unit settled. -/
def incidentsSettled (code n outcome : Nat) (s : State) : State :=
  forAll (s.recov.incs.filter (fun x => inside x.2 (code, n))) (fun x s => settleInc x.1 code outcome s) s

theorem incidentsSettled_settled (code n outcome : Nat) (s : State) : Settled s (incidentsSettled code n outcome s) :=
  .forAll (f := fun (x : Nat × Nat × Nat) => settleInc x.1 code outcome) _ (fun x t => settleInc_settled x.1 code outcome t) s

theorem endReset_eq (code n outcome : Nat) (s : State) : endReset code n outcome s =
    layersAgain (fun u => unitUp s u || (coreOf u).any s.isFenced) (endWaiters code n (incidentsSettled code n outcome s)) := rfl

/-- The part with the waiters of a unit taken out. -/
def waitersOut (code n : Nat) (s : State) : State :=
  { s with recov := { s.recov with waiters := s.recov.waiters.filter (fun w => !inside (w.code, w.unit) (code, n)) } }

/-- The completion of a commanded reset: CORE_FENCED where its core was fenced meanwhile, else the ticks it took (15 R338). -/
def resetDone (w : Waiter) (s : State) : State :=
  if decide (w.code ≤ 2) && s.isFenced (unitCore w.code w.unit) then finish w.j stFenced [] s
  else finish w.j stOk [w32 (if w.during then 0 else s.now - w.start)] s

theorem endWaiters_eq (code n : Nat) (s : State) : endWaiters code n s =
    forAll (s.recov.waiters.filter (fun w => inside (w.code, w.unit) (code, n))) resetDone (waitersOut code n s) := rfl

theorem endWaiters_none {code n : Nat} {s : State} (h : s.recov.waiters = []) : endWaiters code n s = waitersOut code n s := by
  rw [endWaiters_eq, h]
  rfl

/-- No unit changes at the end of a reset beside the commands that waited. -/
theorem endWaiters_kept (code n : Nat) (s : State) : (endWaiters code n s).chip = s.chip ∧ (endWaiters code n s).cores = s.cores ∧
    (endWaiters code n s).recov.domainAt = s.recov.domainAt := by
  have hdone : ∀ w u, kept (resetDone w u) = kept u := fun w u => kept_ite (finish_kept _ _ _ u) (finish_kept _ _ _ u)
  have hkept := forAll_kept (s.recov.waiters.filter (fun w => inside (w.code, w.unit) (code, n))) resetDone hdone (waitersOut code n s)
  rw [endWaiters_eq]
  exact ⟨(kept_chip hkept :), (kept_cores hkept :), congrArg (·.domainAt) (kept_recov hkept)⟩

theorem endReset_kept (code n outcome : Nat) (s : State) : (endReset code n outcome s).chip = s.chip ∧ (endReset code n outcome s).cores = s.cores ∧
    (endReset code n outcome s).recov.domainAt = s.recov.domainAt := by
  obtain ⟨_, hsettled, -, -, hdomain⟩ := incidentsSettled_settled code n outcome s
  obtain ⟨hchip, hcores, hdomain'⟩ := endWaiters_kept code n (incidentsSettled code n outcome s)
  rw [endReset_eq]
  obtain ⟨_, _, _, _, hresent⟩ := layersAgain_resent (fun u => unitUp s u || (coreOf u).any s.isFenced)
    (endWaiters code n (incidentsSettled code n outcome s))
  rw [hresent]
  refine ⟨hchip.trans (by rw [hsettled]), hcores.trans (by rw [hsettled]), hdomain'.trans ?_⟩
  rw [hsettled]
  exact hdomain

/-- With no command waiting, a reset's end writes no completion. -/
theorem endReset_quiet {code n outcome : Nat} {s : State} (h : s.recov.waiters = []) : ∃ r : Recovery, r.domainAt = s.recov.domainAt ∧
    Resent { s with recov := r } (endReset code n outcome s) ∧
    ((∀ x ∈ s.sessions, x.2.work = none) → endReset code n outcome s = { s with recov := r }) := by
  obtain ⟨r, hsettled, -, hwaiters, hdomain⟩ := incidentsSettled_settled code n outcome s
  rw [endReset_eq, endWaiters_none (by rw [hsettled]; exact hwaiters.trans h), hsettled]
  refine ⟨_, ?_, layersAgain_resent _ _, fun hidle => layersAgain_idle _ hidle⟩
  exact hdomain

/-- The one command that waits for the unit completes (15 R338). -/
theorem endReset_completes {code n outcome : Nat} {s : State} {w : Waiter} (hw : s.recov.waiters = [w]) (hcode : w.code = code) (hunit : w.unit = n)
    (hinside : inside (code, n) (code, n) = true) (hup : (decide (code ≤ 2) && s.isFenced (unitCore code n)) = false) :
    ∃ v again, endReset code n outcome s = layersAgain again (finish w.j stOk [w32 (if w.during then 0 else s.chip.tick - w.start)] v) ∧
      v.recov.waiters = [] := by
  obtain ⟨r, hsettled, -, hwaiters, -⟩ := incidentsSettled_settled code n outcome s
  have hmine : inside (w.code, w.unit) (code, n) = true := by rw [hcode, hunit]; exact hinside
  have hone : (incidentsSettled code n outcome s).recov.waiters = [w] := by
    rw [hsettled]
    exact hwaiters.trans hw
  have hend : endWaiters code n (incidentsSettled code n outcome s) = resetDone w (waitersOut code n (incidentsSettled code n outcome s)) := by
    rw [endWaiters_eq, hone, List.filter_cons, if_pos hmine]
    rfl
  have hdone : resetDone w (waitersOut code n (incidentsSettled code n outcome s)) =
      finish w.j stOk [w32 (if w.during then 0 else s.chip.tick - w.start)] (waitersOut code n (incidentsSettled code n outcome s)) := by
    have hfenced : (waitersOut code n (incidentsSettled code n outcome s)).isFenced (unitCore w.code w.unit) = s.isFenced (unitCore code n) := by
      rw [hsettled, hcode, hunit]
      rfl
    have hnow : (waitersOut code n (incidentsSettled code n outcome s)).now = s.chip.tick := by
      rw [hsettled]
      rfl
    rw [resetDone, hfenced, hcode, hup, hnow]
    rfl
  rw [endReset_eq, hend, hdone]
  refine ⟨_, _, rfl, ?_⟩
  show (incidentsSettled code n outcome s).recov.waiters.filter (fun w => !inside (w.code, w.unit) (code, n)) = []
  rw [hone, List.filter_cons, hmine]
  rfl

/-! ### Escalation (15 R337, R341) -/

theorem modImp_shape (n : Nat) (f : Impression → Impression) (s : State) : ∃ x y, modImp n f s =
    { s with recov := { s.recov with captures := x, store := y } } := ⟨_, _, rfl⟩

theorem modImps_shape {α : Type} (l : List α) (g : α → Nat) (f : Impression → Impression) (s : State) :
    ∃ x y, forAll l (fun a s => modImp (g a) f s) s = { s with recov := { s.recov with captures := x, store := y } } := by
  induction l generalizing s with
  | nil => exact ⟨_, _, rfl⟩
  | cons a l ih =>
    obtain ⟨x, y, h⟩ := ih (modImp (g a) f s)
    exact ⟨x, y, h⟩

/-- A reset once requested is requested or in progress. -/
theorem requestReset_resetting {code n : Nat} (h : inside (code, n) (code, n) = true) (s : State) :
    resetting (requestReset code n s) code n = true := by
  by_cases hjoined : resetting s code n = true
  · rw [requestReset, if_pos hjoined]
    exact hjoined
  · have hrecov := requestReset_requests code n s
    rw [if_neg hjoined] at hrecov
    rw [resetting, hrecov]
    simp [h]

theorem escalate_begins {code n : Nat} (code2 n2 : Nat) {s : State} (h : ∀ x ∈ s.recov.incs, inside x.2 (code, n) = false) :
    escalate code n code2 n2 s = beginIncident (failedReset code n) code2 n2 s := by
  have hnone : s.recov.incs.filter (fun x => inside x.2 (code, n)) = [] := List.filter_eq_nil_iff.mpr (fun x hx => by simp [h x hx])
  rw [escalate, hnone]
  rfl

theorem escalate_carries {code n code2 n2 : Nat} {s : State} (h : ∃ x ∈ s.recov.incs, inside x.2 (code, n) = true)
    (hinside : inside (code2, n2) (code2, n2) = true) : resetting (escalate code n code2 n2 s) code2 n2 = true ∧
      (escalate code n code2 n2 s).recov.incs = s.recov.incs.map (fun x => if inside x.2 (code, n) then (x.1, code2, n2) else x) ∧
      (escalate code n code2 n2 s).recov.incidents = s.recov.incidents := by
  have hsome : (s.recov.incs.filter (fun x => inside x.2 (code, n))).isEmpty = false := by
    obtain ⟨x, hx, hin⟩ := h
    rw [List.isEmpty_eq_false_iff_exists_mem]
    exact ⟨x, List.mem_filter.mpr ⟨hx, hin⟩⟩
  obtain ⟨_, _, hmod⟩ := modImps_shape (s.recov.incs.filter (fun x => inside x.2 (code, n))) (·.1) (fun i => { i with finalUnit := code2 })
    { s with recov := { s.recov with incs := s.recov.incs.map (fun x => if inside x.2 (code, n) then (x.1, code2, n2) else x) } }
  have heq : escalate code n code2 n2 s = requestReset code2 n2 (forAll (s.recov.incs.filter (fun x => inside x.2 (code, n)))
      (fun x s => modImp x.1 (fun i => { i with finalUnit := code2 }) s)
      { s with recov := { s.recov with incs := s.recov.incs.map (fun x => if inside x.2 (code, n) then (x.1, code2, n2) else x) } }) := by
    unfold escalate
    dsimp only
    rw [hsome]
    rfl
  refine ⟨heq ▸ requestReset_resetting hinside _, ?_, ?_⟩
  · rw [heq, requestReset_requests, hmod]
  · rw [heq, requestReset_requests, hmod]

/-- What a failed reset of unit (`code`, `n`) leads to, whichever command carries out `u`'s escalation. -/
theorem escalated {s u : State} {c : Instr} {code n code2 n2 : Nat} (hexec : exec c s = .next (escalate code n code2 n2 u))
    (hu : u.recov = s.recov) (hinside : inside (code2, n2) (code2, n2) = true) :
    ((∀ x ∈ s.recov.incs, inside x.2 (code, n) = false) → ∃ t i, exec c s = .next t ∧ t.recov.captures = s.recov.captures ++ [(i, code2, n2)] ∧
      t.recov.incidents = s.recov.incidents + 1 ∧ i.condition = 8 ∧ i.finalUnit = code2) ∧
    ((∃ x ∈ s.recov.incs, inside x.2 (code, n) = true) → ∃ t, exec c s = .next t ∧ resetting t code2 n2 = true ∧
      t.recov.incs = s.recov.incs.map (fun x => if inside x.2 (code, n) then (x.1, code2, n2) else x) ∧
      t.recov.incidents = s.recov.incidents) := by
  rw [← hu]
  refine ⟨fun hnone => ?_, fun hsome => ⟨_, hexec, escalate_carries hsome hinside⟩⟩
  rw [escalate_begins code2 n2 hnone] at hexec
  exact ⟨_, _, hexec, rfl, rfl, rfl, rfl⟩

/-! ### An engine's reset ends (15 R336, R337) -/

section
variable {s : State} {c e d : Nat}

theorem advanceTo_recov (d : Nat) (s : State) : (advanceTo d s).recov = s.recov := by
  obtain ⟨_, _, _, _, _, _, _, h⟩ := advanceTo_idled d s
  rw [h]

theorem inside_engine (n : Nat) : inside (1, n) (1, n) = true := by simp [inside]

theorem inside_core (n : Nat) : inside (2, n) (2, n) = true := by simp [inside]

theorem inside_domain : inside (3, 0) (3, 0) = true := rfl

/-- The part with an engine's reset over. -/
def engineBack (c e : Nat) (s : State) : State := s.modCore c (fun k => { k with engineReset := tdel k.engineReset e })

theorem engineBack_self (c e : Nat) (s : State) :
    (engineBack c e s).core c = { s.core c with engineReset := tdel (s.core c).engineReset e } := core_modCore s c _

theorem engineBack_other {k : Nat} (hk : k ≠ c) (e : Nat) (s : State) : (engineBack c e s).core k = s.core k := core_modCore_other s _ hk

theorem exec_engineResetEnd (h : engineEnding s c e = some d) (pass : Bool) : exec (.engineResetEnd c e pass) s = .next
    (if s.chip.tick > d + 50 then s else if pass then endReset 1 (4 * c + e) 0 (engineBack c e s) else escalate 1 (4 * c + e) 2 c s) := by
  refine congrArg Host.Outcome.next ?_
  unfold doEngineResetEnd
  rw [h]
  rfl

theorem exec_engineResetTimeout (h : engineEnding s c e = some d) :
    exec (.engineResetTimeout c e) s = .next (escalate 1 (4 * c + e) 2 c (advanceTo (d + 51) s)) := by
  refine congrArg Host.Outcome.next ?_
  unfold doEngineResetTimeout
  rw [h]

theorem exec_engineResetEnd_passed (h : engineEnding s c e = some d) (htime : s.chip.tick ≤ d + 50) :
    exec (.engineResetEnd c e true) s = .next (endReset 1 (4 * c + e) 0 (engineBack c e s)) := by
  rw [exec_engineResetEnd h, if_neg (Nat.not_lt.mpr htime), if_pos rfl]

theorem exec_engineResetEnd_failed (h : engineEnding s c e = some d) (htime : s.chip.tick ≤ d + 50) :
    exec (.engineResetEnd c e false) s = .next (escalate 1 (4 * c + e) 2 c s) := by
  rw [exec_engineResetEnd h, if_neg (Nat.not_lt.mpr htime), if_neg (by decide)]

theorem exec_engineResetEnd_late (h : engineEnding s c e = some d) (htime : d + 50 < s.chip.tick) (pass : Bool) :
    exec (.engineResetEnd c e pass) s = .next s := by
  rw [exec_engineResetEnd h, if_pos htime]

theorem engine_back (h : engineEnding s c e = some d) (htime : s.chip.tick ≤ d + 50) (hquiet : s.recov.waiters = []) :
    ∃ t, exec (.engineResetEnd c e true) s = .next t ∧ tfind (t.core c).engineReset e = none ∧ (∀ k, k ≠ c → t.core k = s.core k) ∧
      t.streams = s.streams ∧ t.hostMem = s.hostMem ∧ t.journal = s.journal := by
  obtain ⟨r, -, hresent, -⟩ := endReset_quiet (code := 1) (n := 4 * c + e) (outcome := 0) (s := engineBack c e s) hquiet
  obtain ⟨hcores, hstreams, hmem, hjournal⟩ := hresent.frame
  refine ⟨_, exec_engineResetEnd_passed h htime, ?_, fun k hk => (hcores k).trans (engineBack_other hk e s), hstreams, hmem, hjournal⟩
  rw [hcores c]
  show tfind ((engineBack c e s).core c).engineReset e = none
  rw [engineBack_self]
  exact PeerLoss.tfind_tdel _ e

theorem engine_completes (h : engineEnding s c e = some d) (he : e < 4) (htime : s.chip.tick ≤ d + 50) (hup : s.isFenced c = false) {w : Waiter}
    (hw : s.recov.waiters = [w]) (hcode : w.code = 1) (hunit : w.unit = 4 * c + e) : ∃ v again, exec (.engineResetEnd c e true) s =
      .next (layersAgain again (finish w.j stOk [w32 (if w.during then 0 else s.chip.tick - w.start)] v)) ∧ v.recov.waiters = [] := by
  have hcore : unitCore 1 (4 * c + e) = c := show (4 * c + e) / 4 = c by omega
  have hfree : (decide (1 ≤ 2) && (engineBack c e s).isFenced (unitCore 1 (4 * c + e))) = false := by
    rw [hcore]
    exact hup
  obtain ⟨v, again, hend, hnone⟩ := endReset_completes (code := 1) (n := 4 * c + e) (outcome := 0) (s := engineBack c e s) hw hcode hunit
    (inside_engine _) hfree
  exact ⟨v, again, (exec_engineResetEnd_passed h htime).trans (congrArg Host.Outcome.next hend), hnone⟩

end

/-! ### A core's reset ends (15 R337, R347) -/

section
variable {s : State} {c d : Nat}

/-- The part with a core's reset over. -/
def coreBack (c : Nat) (s : State) : State := s.modCore c (fun k => { k with resetAt := none })

theorem coreBack_self (c : Nat) (s : State) : (coreBack c s).core c = { s.core c with resetAt := none } := core_modCore s c _

theorem coreBack_other {k : Nat} (hk : k ≠ c) (s : State) : (coreBack c s).core k = s.core k := core_modCore_other s _ hk

theorem exec_coreResetEnd (h : coreEnding s c = some d) (pass : Bool) : exec (.coreResetEnd c pass) s = .next
    (if s.chip.tick > d + 200 then s else if pass then endReset 2 c 0 (coreBack c s) else coreFailed c s) := by
  refine congrArg Host.Outcome.next ?_
  unfold doCoreResetEnd
  rw [h]
  rfl

theorem exec_coreResetTimeout (h : coreEnding s c = some d) :
    exec (.coreResetTimeout c) s = .next (coreFailed c (advanceTo (d + 201) s)) := by
  refine congrArg Host.Outcome.next ?_
  unfold doCoreResetTimeout
  rw [h]

theorem exec_coreResetEnd_passed (h : coreEnding s c = some d) (htime : s.chip.tick ≤ d + 200) :
    exec (.coreResetEnd c true) s = .next (endReset 2 c 0 (coreBack c s)) := by
  rw [exec_coreResetEnd h, if_neg (Nat.not_lt.mpr htime), if_pos rfl]

theorem exec_coreResetEnd_failed (h : coreEnding s c = some d) (htime : s.chip.tick ≤ d + 200) :
    exec (.coreResetEnd c false) s = .next (coreFailed c s) := by
  rw [exec_coreResetEnd h, if_neg (Nat.not_lt.mpr htime), if_neg (by decide)]

theorem exec_coreResetEnd_late (h : coreEnding s c = some d) (htime : d + 200 < s.chip.tick) (pass : Bool) :
    exec (.coreResetEnd c pass) s = .next s := by
  rw [exec_coreResetEnd h, if_pos htime]

theorem core_back (h : coreEnding s c = some d) (htime : s.chip.tick ≤ d + 200) (hquiet : s.recov.waiters = []) :
    ∃ t, exec (.coreResetEnd c true) s = .next t ∧ (t.core c).resetAt = none ∧ (t.core c).failed = (s.core c).failed ∧
      (∀ k, k ≠ c → t.core k = s.core k) ∧ t.streams = s.streams ∧ t.journal = s.journal := by
  obtain ⟨r, -, hresent, -⟩ := endReset_quiet (code := 2) (n := c) (outcome := 0) (s := coreBack c s) hquiet
  obtain ⟨hcores, hstreams, -, hjournal⟩ := hresent.frame
  have hself : (endReset 2 c 0 (coreBack c s)).core c = { s.core c with resetAt := none } := (hcores c).trans (coreBack_self c s)
  refine ⟨_, exec_coreResetEnd_passed h htime, ?_, ?_, fun k hk => (hcores k).trans (coreBack_other hk s), hstreams, hjournal⟩
  · rw [hself]
  · rw [hself]

theorem core_completes (h : coreEnding s c = some d) (htime : s.chip.tick ≤ d + 200) (hup : s.isFenced c = false) {w : Waiter}
    (hw : s.recov.waiters = [w]) (hcode : w.code = 2) (hunit : w.unit = c) : ∃ v again, exec (.coreResetEnd c true) s =
      .next (layersAgain again (finish w.j stOk [w32 (if w.during then 0 else s.chip.tick - w.start)] v)) ∧ v.recov.waiters = [] := by
  obtain ⟨v, again, hend, hnone⟩ := endReset_completes (code := 2) (n := c) (outcome := 0) (s := coreBack c s) hw hcode hunit
    (inside_core c) hup
  exact ⟨v, again, (exec_coreResetEnd_passed h htime).trans (congrArg Host.Outcome.next hend), hnone⟩

/-! ### A core that failed -/

/-- The part with one more failure of a core counted. -/
def coreBlamed (c : Nat) (s : State) : State := s.modCore c (fun k => { k with failed := k.failed + 1 })

theorem coreFailed_eq (c : Nat) (s : State) : coreFailed c s =
    if ((coreBlamed c s).core c).failed ≥ 2 then endReset 2 c 1 (leaveCore c (stopSchedules (fence c (coreBlamed c s))))
    else escalate 2 c 3 0 (coreBlamed c s) := rfl

theorem coreBlamed_failed (c : Nat) (s : State) : ((coreBlamed c s).core c).failed = (s.core c).failed + 1 :=
  congrArg (·.failed) (core_modCore s c _)

theorem coreFailed_first (h : (s.core c).failed = 0) : coreFailed c s = escalate 2 c 3 0 (coreBlamed c s) := by
  rw [coreFailed_eq, if_neg (by rw [coreBlamed_failed, h]; decide)]

theorem coreFailed_again (h : 1 ≤ (s.core c).failed) :
    coreFailed c s = endReset 2 c 1 (leaveCore c (stopSchedules (fence c (coreBlamed c s)))) := by
  rw [coreFailed_eq, if_pos (by rw [coreBlamed_failed]; omega)]

theorem stopSchedules_unitsKept (s : State) : UnitsKept s (stopSchedules s) := by
  unfold stopSchedules
  split
  · exact .refl s
  · dsimp only
    refine UnitsKept.trans ?_ (.forAll _ settle_unitsKept _)
    exact ⟨rfl, rfl, rfl, rfl, fun _ => ⟨_, rfl⟩⟩

theorem leaveCore_unitsKept (c : Nat) (s : State) : UnitsKept s (leaveCore c s) := by
  unfold leaveCore
  dsimp only
  refine UnitsKept.trans (UnitsKept.trans (.outside s _ _ _ _ _ _) (.forAll _ (fun x t => ?_) _)) (.forAll _ restartJob_unitsKept _)
  split
  · exact of_ite ((skipFrom_unitsKept _ _ _ t).trans (afterRun_unitsKept _ _)) (.refl t)
  · exact .refl t

/-- What a fencing leaves of the chip, the recovery, the cores and a trip of safety (15 R347). -/
theorem swapToVariant_recorded (c : Nat) (s : State) : ∃ a m n, Recorded { s with active := a, marks := m, noSched := n } (swapToVariant c s) := by
  unfold swapToVariant
  split
  · split
    · exact ⟨_, _, _, .refl s⟩
    · dsimp only
      split
      · exact ⟨_, _, _, .detect _ 15⟩
      · exact ⟨_, _, _, .refl _⟩
  · exact ⟨_, _, _, .refl s⟩

/-- The part with a core taken out of service. -/
def coreOut (c : Nat) (s : State) : State :=
  ({ s with chip := { s.chip with fenced := maskSet s.chip.fenced c } } : State).modCore c
    (fun x => { x with resetAt := none, engineReset := [], weights := none, castRunning := [], castDone := [] })

theorem fence_eq (c : Nat) (s : State) : fence c s = swapToVariant c (setCause 18 (coreOut c s)) := rfl

theorem fence_kept (c : Nat) (s : State) : (fence c s).chip = { s.chip with fenced := maskSet s.chip.fenced c } ∧ (fence c s).recov = s.recov ∧
    (fence c s).cores = (coreOut c s).cores := by
  have hcause := setCause_kept 18 (coreOut c s)
  obtain ⟨_, _, _, _, _, _, _, _, _, _, _, _, _, _, _, hswap⟩ := swapToVariant_recorded c (setCause 18 (coreOut c s))
  rw [fence_eq, hswap]
  exact ⟨(kept_chip hcause :), (kept_recov hcause :), (kept_cores hcause :)⟩

theorem maskBit_maskSet_other {m k n : Nat} (h : n ≠ k) : maskBit (maskSet m k) n = maskBit m n := by
  simp [maskBit, maskSet, Nat.testBit_or, Nat.testBit_two_pow_of_ne h.symm]

theorem coreFailed_fences (h : 1 ≤ (s.core c).failed) : (coreFailed c s).isFenced c = true ∧
    ((coreFailed c s).core c).failed = (s.core c).failed + 1 ∧ ((coreFailed c s).core c).weights = none ∧
    ∀ k, k ≠ c → (coreFailed c s).isFenced k = s.isFenced k := by
  obtain ⟨hchip, -, hcores⟩ := fence_kept c (coreBlamed c s)
  have hkept := (stopSchedules_unitsKept (fence c (coreBlamed c s))).trans (leaveCore_unitsKept c _)
  obtain ⟨hendchip, hendcores, -⟩ := endReset_kept 2 c 1 (leaveCore c (stopSchedules (fence c (coreBlamed c s))))
  rw [← coreFailed_again h] at hendchip hendcores
  have hmask : (coreFailed c s).chip.fenced = maskSet s.chip.fenced c := by
    rw [hendchip, hkept.chip, hchip]
    rfl
  have hout : (fence c (coreBlamed c s)).core c = { (coreBlamed c s).core c with
      resetAt := none, engineReset := [], weights := none, castRunning := [], castDone := [] } :=
    (congrArg (fun l => tget l c Core.reset) hcores).trans (core_modCore _ c _)
  obtain ⟨l, hl⟩ := hkept.core c
  have hcore : (coreFailed c s).core c = { (fence c (coreBlamed c s)).core c with castRunning := l } :=
    (congrArg (fun l => tget l c Core.reset) hendcores).trans hl
  refine ⟨?_, ?_, ?_, fun k hk => ?_⟩
  · rw [State.isFenced, hmask]
    exact maskBit_maskSet _ _
  · rw [hcore, hout]
    exact coreBlamed_failed c s
  · rw [hcore, hout]
  · rw [State.isFenced, hmask]
    exact maskBit_maskSet_other hk

end

end Sys2Proof.ResetEnds
end


section
/-! Recovery after a compute-domain reset: what the scan, the settled log, the casts, the streams and the sessions leave of the chip and of the resets
awaited (15 R347, R350-R355). -/

namespace Sys2Proof.DomainRecovery

open Sys2Proof.Machine Sys2Proof.Laws Sys2Proof.NicheEnds Sys2Proof.Detections Sys2Proof.ResetFrames Sys2Proof.ResetEnds Sys2Proof.RecordWriter

/-! ### What recovery leaves -/

/-- The chip, the commands that wait for a reset, and the compute domain's own reset stay. -/
structure Recovering (s t : State) : Prop where
  chip : t.chip = s.chip
  waiters : t.recov.waiters = s.recov.waiters
  domain : t.recov.domainAt = s.recov.domainAt

namespace Recovering

theorem refl (s : State) : Recovering s s := ⟨rfl, rfl, rfl⟩

theorem trans {s t u : State} (h : Recovering s t) (h' : Recovering t u) : Recovering s u :=
  ⟨h'.chip.trans h.chip, h'.waiters.trans h.waiters, h'.domain.trans h.domain⟩

theorem forAll {α : Type} (l : List α) {f : α → State → State} (hf : ∀ a s, Recovering s (f a s)) (s : State) :
    Recovering s (forAll l f s) := by
  induction l generalizing s with
  | nil => exact refl s
  | cons a l ih => exact (hf a s).trans (ih (f a s))

theorem of_units {s t : State} (h : UnitsKept s t) : Recovering s t := ⟨h.chip, h.waiters, h.domain⟩

theorem of_resent {s t : State} (h : Resent s t) : Recovering s t := by
  obtain ⟨_, _, _, _, rfl⟩ := h
  exact ⟨rfl, rfl, rfl⟩

/-- Memory, cores, tracks and everything that commands work on lie outside. -/
theorem outside (s : State) (streams : Tab Stream) (sessions : Tab Session) (jobs : List BeJob) (cores : Tab Core) (dram : Dram) (obs : Obs) :
    Recovering s { s with streams := streams, sessions := sessions, jobs := jobs, cores := cores, dram := dram, obs := obs } := ⟨rfl, rfl, rfl⟩

theorem modCore (c : Nat) (f : Core → Core) (s : State) : Recovering s (s.modCore c f) := ⟨rfl, rfl, rfl⟩

theorem modSession (n : Nat) (f : Session → Session) (s : State) : Recovering s (s.modSession n f) := ⟨rfl, rfl, rfl⟩

theorem count (key k : Nat) (s : State) : Recovering s (count key k s) := ⟨rfl, rfl, rfl⟩

theorem detect (k : Nat) (s : State) : Recovering s (detect k s) := of_units (.of_recorded (.detect s k))

end Recovering

/-! ### The scan of the journal (11 R269) -/

theorem mirrorUe_recovering (b : Bool) (a : Nat) (s : State) : Recovering s (mirrorUe b a s) := by
  unfold mirrorUe
  dsimp only
  split
  · exact ⟨rfl, rfl, rfl⟩
  · exact ⟨rfl, rfl, rfl⟩

theorem scanSector_recovering (lostA lostB : List Nat) (k : Nat) (x : Bool × State) : Recovering x.2 (scanSector lostA lostB k x).2 := by
  unfold scanSector
  dsimp only
  split
  · exact .refl x.2
  · split
    · exact ⟨rfl, rfl, rfl⟩
    · exact mirrorUe_recovering false _ x.2

theorem scanSectors_recovering (lostA lostB l : List Nat) (x : Bool × State) :
    Recovering x.2 (l.foldl (fun x k => scanSector lostA lostB k x) x).2 := by
  induction l generalizing x with
  | nil => exact .refl x.2
  | cons k l ih => exact (scanSector_recovering lostA lostB k x).trans (ih _)

theorem scanEntry_recovering (lostA lostB : List Nat) (e : JEntry) (s : State) : Recovering s (scanEntry lostA lostB e s) := by
  have hread := scanSectors_recovering lostA lostB (entrySectors e) (false, s)
  unfold scanEntry
  dsimp only
  refine of_ite (P := Recovering s) (.refl s) (of_ite (P := Recovering s) hread ?_)
  exact ((hread.trans (.outside _ _ _ _ _ _ _)).trans (.detect 17 _)).trans (.of_units (finish_unitsKept _ _ _ _))

/-! ### The TAE's log, the contents and the casts (15 R351, R352) -/

theorem settleTrk_recovering (s : State) : Recovering s (settleTrk s) := by
  unfold settleTrk
  split
  · exact .refl s
  · dsimp only
    split
    · exact ⟨rfl, rfl, rfl⟩
    · exact ⟨rfl, rfl, rfl⟩

theorem placeContents_recovering (l : List (Nat × Nat × List Byte)) (s : State) : Recovering s (placeContents l s) :=
  .forAll l (fun x t => .modCore x.1 (fun c => { c with spad := mwrite c.spad x.2.1 x.2.2 }) t) s

theorem applyMx_recovering (c : Nat) (d : MxDesc) (s : State) : Recovering s (applyMx c d s) := by
  unfold applyMx applyMxOn
  exact ((((Recovering.modCore c _ s).trans (.count _ _ _)).trans (.count _ _ _)).trans (.count _ _ _)).trans (.count _ _ _)

theorem applyVx_recovering (c : Nat) (d : VxDesc) (s : State) : Recovering s (applyVx c d s) := by
  unfold applyVx applyVxOn
  exact ((((Recovering.modCore c _ s).trans (.count _ _ _)).trans (.count _ _ _)).trans (.count _ _ _)).trans (.count _ _ _)

theorem runCastNiche_recovering (n : NicheEntry) (s : State) : Recovering s (runCastNiche n s) :=
  of_ite (applyVx_recovering _ _ s) (applyMx_recovering _ _ s)

theorem runCast_recovering (t : Schedule) (c e : Nat) (s : State) : Recovering s (runCast t c e s) := by
  unfold runCast
  exact (Recovering.forAll _ (fun k u => runCastNiche_recovering (t.niches.getD k default) u) s).trans (.modCore c _ _)

/-- The engines that run a Proof cast set at once. -/
def castSets (s : State) : List (Nat × Nat) := (castCores s).flatMap (fun c => (List.range 4).map (fun e => (c, e)))

/-- Every set of the engines has run. -/
def castsRun (t : Schedule) (l : List (Nat × Nat)) (s : State) : State := forAll l (fun x s => runCast t x.1 x.2 s) s

theorem runCasts_none {s : State} (h : activeSched s = none) : runCasts s = (s, (castCores s).isEmpty) := by
  unfold runCasts
  rw [h]

theorem runCasts_down {s : State} {t : Schedule} (h : activeSched s = some t) (hdown : computeUp s = false) : runCasts s = (s, false) := by
  unfold runCasts
  rw [h, hdown]
  rfl

theorem runCasts_runs {s : State} {t : Schedule} (h : activeSched s = some t) (hup : computeUp s = true) : runCasts s =
    (castsRun t (castSets s) s, (castSets s).all (fun x => castPasses (castsRun t (castSets s) s) t x.1 x.2)) := by
  unfold runCasts
  rw [h, hup]
  rfl

theorem castsRun_recovering (t : Schedule) (l : List (Nat × Nat)) (s : State) : Recovering s (castsRun t l s) :=
  .forAll l (fun x u => runCast_recovering t x.1 x.2 u) s

theorem runCasts_recovering (s : State) : Recovering s (runCasts s).1 := by
  cases hsched : activeSched s with
  | none =>
    rw [runCasts_none hsched]
    exact .refl s
  | some t =>
    cases hup : computeUp s with
    | false =>
      rw [runCasts_down hsched hup]
      exact .refl s
    | true =>
      rw [runCasts_runs hsched hup]
      exact castsRun_recovering t _ s

theorem restartVideo_recovering (n : Nat) (bad : Bool) (s : State) : Recovering s (restartVideo n bad s) := by
  unfold restartVideo
  dsimp only
  split
  · exact .refl s
  · exact ⟨rfl, rfl, rfl⟩

theorem restartStream_recovering (bad : List Nat) (n : Nat) (s : State) : Recovering s (restartStream bad n s) :=
  of_ite (.refl s) ((restartVideo_recovering n _ s).trans (.of_units (settle_unitsKept n _)))

/-- The contents that the active Armature places are written again. -/
def contentsPlaced (s : State) : State :=
  match activeArm s with
  | some a => placeContents (a.plan.contents.filter (fun x => !s.isFenced x.1)) s
  | none => s

theorem contentsPlaced_recovering (s : State) : Recovering s (contentsPlaced s) := by
  unfold contentsPlaced
  split
  · exact placeContents_recovering _ s
  · exact .refl s

/-- A Proof cast set runs where a safety-class stream is bound, and must pass. -/
def castsPassed (s : State) : State :=
  let cast := if bindsSafety s then runCasts s else (s, true)
  if cast.2 then cast.1 else detect 3 cast.1

theorem castsPassed_recovering (s : State) : Recovering s (castsPassed s) := by
  have hcast : Recovering s (if bindsSafety s then runCasts s else (s, true)).1 := by
    split
    · exact runCasts_recovering s
    · exact .refl s
  exact of_ite (P := Recovering s) hcast (hcast.trans (.detect 3 _))

theorem recover_eq (bad : List Nat) (s : State) : recover bad s =
    forAll (castsPassed (contentsPlaced (settleTrk s))).openSlots (restartStream bad) (castsPassed (contentsPlaced (settleTrk s))) := rfl

theorem recover_recovering (bad : List Nat) (s : State) : Recovering s (recover bad s) := by
  rw [recover_eq]
  exact (((settleTrk_recovering s).trans (contentsPlaced_recovering _)).trans (castsPassed_recovering _)).trans
    (.forAll _ (fun n u => restartStream_recovering bad n u) _)

/-! ### Sessions start their unit again (15 R353) -/

theorem rewait_recovering (n : Nat) (s : State) : Recovering s (rewait n s) := by
  unfold rewait
  split
  · exact .refl s
  · exact ⟨rfl, rfl, rfl⟩

theorem sendCollective_recovering (n kind : Nat) (ps : List Word) (peer : Nat) (s : State) : Recovering s (sendCollective n kind ps peer s) := by
  unfold sendCollective
  dsimp only
  exact .of_resent (Resent.trans ⟨_, _, _, _, rfl⟩ (sendSeq_resent _ _ _ _ _ _ _ _ _))

theorem sendUnit_recovering (n kind positions : Nat) (s : State) : Recovering s (sendUnit n kind positions s) := by
  unfold sendUnit
  dsimp only
  refine of_ite (P := Recovering s) (.modSession n _ s) ?_
  have hsent := (Recovering.modSession n (fun x => { x with stepId := (s.session n).stepId + 1, colls := [], gathers := [], headRows := [] }) s).trans
    (.forAll (peersOf s (s.session n).spread) (fun p u => sendCollective_recovering n kind
      [0, w32 (s.session n).tCtx, w32 ((s.session n).stepId + 1), w32 positions, 0] p u) _)
  exact of_ite (P := Recovering s) hsent (hsent.trans (.of_resent (scatterLayer_resent n 0 _)))

theorem slideTimes_recovering (n m : Nat) (s : State) : Recovering s (slideTimes n m s) := by
  induction m generalizing s with
  | zero => exact .refl s
  | succ m ih => exact (Recovering.modSession n _ s).trans (ih _)

theorem slideIf_recovering (n k : Nat) (s : State) : Recovering s (slideIf n k s).2 := by
  unfold slideIf
  dsimp only
  generalize (if (s.session n).slide = true then slidesFor (s.session n).tMax k (s.session n).tCtx else 0) = m
  split
  · exact .refl s
  · have hheaders : ∀ u, Recovering u (writeHeaders n u) := fun _ => ⟨rfl, rfl, rfl⟩
    exact (slideTimes_recovering n m s).trans (hheaders _)

theorem modWork_recovering (n : Nat) (f : SeqWork → SeqWork) (s : State) : Recovering s (modWork n f s) := ⟨rfl, rfl, rfl⟩

theorem queueUnit_recovering (n : Nat) (s : State) : Recovering s (queueUnit n s) := by
  unfold queueUnit
  dsimp only
  split
  · exact .refl s
  · refine of_ite (modWork_recovering n _ s) (of_ite (modWork_recovering n _ s) (of_ite (modWork_recovering n _ s) ?_))
    split
    · exact of_ite (modWork_recovering n _ s) ⟨rfl, rfl, rfl⟩
    · exact modWork_recovering n _ s

theorem beginUnit_recovering (n kind k : Nat) (s : State) : Recovering s (beginUnit n kind k s) := by
  unfold beginUnit
  exact (((sendUnit_recovering n kind k s).trans (slideIf_recovering n k _)).trans (modWork_recovering n _ _)).trans (queueUnit_recovering n _)

theorem endWork_recovering (n status : Nat) (s : State) : Recovering s (endWork n status s) := by
  have hended : Recovering s (({ s with jobs := s.jobs.filter (fun b => decide (b.sess ≠ some n)) } : State).modSession n
      (fun x => { x with work := none, gathers := [], headRows := [] })) := ⟨rfl, rfl, rfl⟩
  unfold endWork
  dsimp only
  split
  · exact hended
  · split
    · exact hended.trans (.of_units (finish_unitsKept _ _ _ _))
    · exact hended

theorem nextUnit_recovering (n : Nat) (s : State) : Recovering s (nextUnit n s) := by
  unfold nextUnit
  dsimp only
  split
  · exact .refl s
  · exact of_ite ((modWork_recovering n _ s).trans (beginUnit_recovering n 2 _ _))
      (of_ite (beginUnit_recovering n 1 1 s) (endWork_recovering n 0 s))

theorem restartUnits_recovering (s : State) : Recovering s (restartUnits s) :=
  .forAll _ (fun n u => (rewait_recovering n u).trans (nextUnit_recovering n _)) s

end Sys2Proof.DomainRecovery
end


section
/-! The end of a compute-domain reset, and the resets of Table 15.1 from their request to their end or escalation (15 R336-R338, R345, R347, R351). -/

namespace Sys2Proof.DomainEnds

open Sys2Proof.Machine Sys2Proof.Laws Sys2Proof.NicheEnds Sys2Proof.Detections Sys2Proof.HangCaptures Sys2Proof.Opening
open Sys2Proof.ResetFrames Sys2Proof.ResetEnds Sys2Proof.DomainRecovery

/-! ### Self-tests (15 R351 step 2) -/

/-- Core `c` is out of service after self-tests that failed on `f`, and once more on `g`. -/
def LostCore (s : State) (f g : List Nat) (c : Nat) : Prop := s.isFenced c = true ∨ c ∈ f ∧ (1 ≤ (s.core c).failed ∨ c ∈ g)

/-- From `s` to `t` the cores of `l` were tested: those lost are fenced, and the chip, the recovery and the other cores' failures stay. -/
structure Tested (f g l : List Nat) (s t : State) : Prop where
  chip : ∃ m, t.chip = { s.chip with fenced := m }
  recov : t.recov = s.recov
  fenced : ∀ c, t.isFenced c = true ↔ s.isFenced c = true ∨ c ∈ l ∧ LostCore s f g c
  failed : ∀ c, c ∉ l → (t.core c).failed = (s.core c).failed
  armed : ArmedOrTripped s → ArmedOrTripped t

theorem coreOut_other {c k : Nat} (hk : k ≠ c) (s : State) : (coreOut c s).core k = s.core k :=
  core_modCore_other ({ s with chip := { s.chip with fenced := maskSet s.chip.fenced c } } : State) _ hk

theorem fence_armed (c : Nat) {s : State} (h : ArmedOrTripped s) : ArmedOrTripped (fence c s) := by
  have hout : ArmedOrTripped (setCause 18 (coreOut c s)) := by
    rw [ArmedOrTripped, Tripped, setCause_safety]
    exact h
  rw [fence_eq]
  generalize setCause 18 (coreOut c s) = u at hout ⊢
  unfold swapToVariant
  split
  · split
    · exact hout
    · dsimp only
      split
      · exact .inr (ArmedOrTripped.detect hout)
      · exact hout
  · exact hout

section
variable {s : State} {f g : List Nat} {c : Nat}

/-- A core fenced with its count at 2. -/
theorem fence_tested (hf : c ∈ f) (hlost : 1 ≤ (s.core c).failed ∨ c ∈ g) : Tested f g [c] s (fence c (s.modCore c (fun x => { x with failed := 2 }))) := by
  obtain ⟨hchip, hrecov, hcores⟩ := fence_kept c (s.modCore c (fun x => { x with failed := 2 }))
  have hmask : (fence c (s.modCore c (fun x => { x with failed := 2 }))).chip.fenced = maskSet s.chip.fenced c := by
    rw [hchip]
    rfl
  refine ⟨⟨_, hchip⟩, hrecov, fun k => ?_, fun k hk => ?_, fun harmed => fence_armed c harmed⟩
  · rw [State.isFenced, hmask]
    by_cases hk : k = c
    · subst hk
      simp [maskBit_maskSet, LostCore, hf, hlost]
    · rw [maskBit_maskSet_other hk]
      simp [hk, State.isFenced]
  · have hne : k ≠ c := fun h => hk (List.mem_singleton.mpr h)
    have hother : (coreOut c (s.modCore c (fun x => { x with failed := 2 }))).core k = s.core k :=
      (coreOut_other hne _).trans (core_modCore_other s _ hne)
    exact congrArg (·.failed) ((congrArg (fun l => tget l k Core.reset) hcores).trans hother)

theorem testCore_tested (f g : List Nat) (c : Nat) (s : State) : Tested f g [c] s (testCore f g c s) := by
  unfold testCore
  split
  · next hskip =>
    refine ⟨⟨_, rfl⟩, rfl, fun k => ?_, fun _ _ => rfl, id⟩
    simp only [Bool.or_eq_true, Bool.not_eq_true', List.contains_eq_mem, decide_eq_false_iff_not] at hskip
    refine ⟨.inl, fun h => h.elim id (fun ⟨hk, hlost⟩ => ?_)⟩
    obtain rfl := List.mem_singleton.mp hk
    obtain hfenced | ⟨hf, -⟩ := hlost
    · exact hfenced
    · exact hskip.resolve_right (fun hno => hno hf)
  · next hfails =>
    simp only [Bool.or_eq_true, Bool.not_eq_true', List.contains_eq_mem, decide_eq_false_iff_not, not_or, Decidable.not_not] at hfails
    obtain ⟨hup, hf⟩ := hfails
    dsimp only
    split
    · next hagain => exact fence_tested hf (.inl (by omega))
    · next hfirst =>
      split
      · next hg => exact fence_tested hf (.inr (by simpa using hg))
      · next hg =>
        have hkept : ¬ LostCore s f g c := by
          rintro (hfenced | ⟨-, hmore | hsecond⟩)
          · exact hup hfenced
          · omega
          · exact hg (by simpa using hsecond)
        refine ⟨⟨_, rfl⟩, rfl, fun k => ⟨.inl, fun h => h.elim id (fun ⟨hk, hlost⟩ => ?_)⟩, fun k hk => ?_, id⟩
        · obtain rfl := List.mem_singleton.mp hk
          exact absurd hlost hkept
        · exact congrArg (·.failed) (core_modCore_other s _ (fun h => hk (List.mem_singleton.mpr h)))

theorem tests_tested (f g : List Nat) {l : List Nat} (h : l.Nodup) (s : State) : Tested f g l s (forAll l (testCore f g) s) := by
  induction l generalizing s with
  | nil => exact ⟨⟨_, rfl⟩, rfl, fun c => by simp [forAll], fun _ _ => rfl, id⟩
  | cons a l ih =>
    obtain ⟨hnew, hrest⟩ := List.nodup_cons.mp h
    obtain ⟨⟨m, hchip⟩, hrecov, hfenced, hfailed, harmed⟩ := testCore_tested f g a s
    obtain ⟨⟨m', hchip'⟩, hrecov', hfenced', hfailed', harmed'⟩ := ih hrest (testCore f g a s)
    refine ⟨⟨m', hchip'.trans (by rw [hchip])⟩, hrecov'.trans hrecov, fun c => (hfenced' c).trans ?_, fun c hc => ?_, fun hs => harmed' (harmed hs)⟩
    · rw [hfenced c]
      by_cases hca : c = a
      · subst hca
        simp [hnew]
      · have hone : c ∉ [a] := fun hmem => hca (List.mem_singleton.mp hmem)
        have hsame : LostCore (testCore f g a s) f g c ↔ LostCore s f g c := by
          rw [LostCore, hfenced c, hfailed c hone]
          simp [hone, LostCore]
        rw [hsame]
        simp [hca]
    · obtain ⟨hca, hcl⟩ := not_or.mp (fun hmem => hc (List.mem_cons.mpr hmem))
      exact (hfailed' c hcl).trans (hfailed c (fun hmem => hca (List.mem_singleton.mp hmem)))

end

theorem tests_pass (s : State) (l : List Nat) : forAll l (testCore [] []) s = s := by
  have hone : ∀ c, testCore [] [] c s = s := fun c => by simp [testCore]
  induction l with
  | nil => rfl
  | cons c l ih => exact (congrArg (forAll l (testCore [] [])) (hone c)).trans ih

/-! ### FATAL (15 R345) -/

/-- A cause detected while safety is armed or tripped has its bit. -/
theorem detect_causes {n : Nat} {s : State} (h : ArmedOrTripped s) : maskBit (detect n s).safety.causes n = true := by
  obtain harmed | ⟨htripped, -⟩ := h
  · obtain ⟨_, _, hcauses, -⟩ := trips_detect (n := n) (TripKept.refl s) harmed
    exact hcauses
  · obtain ⟨m, hsafety, -⟩ := detect_safety_tripped (n := n) htripped
    rw [hsafety]
    exact maskBit_maskSet _ _

theorem domainFatal_clause {u : State} (hlive : live u = true) : (domainFatal u).chip.fatal = true ∧ (domainFatal u).chip.faultN = false ∧
    live (domainFatal u) = false ∧ (domainFatal u).pcie.cause.getLsbD 20 = true ∧
    (ArmedOrTripped u → maskBit (domainFatal u).safety.causes 14 = true ∧ (domainFatal u).safety.safeN = false) := by
  have hsettled : Settled u (forAll u.recov.incs (fun x s => settleInc x.1 3 2 s) u) :=
    .forAll (f := fun (x : Nat × Nat × Nat) => settleInc x.1 3 2) _ (fun x t => settleInc_settled x.1 3 2 t) u
  obtain ⟨r, hshape, -⟩ := hsettled
  have halive : ({ u with recov := r } : State).chip.fatal = false := live_fatal hlive
  have heq : domainFatal u = setFatal { u with recov := r } := congrArg setFatal hshape
  have hfalls := setFatal_falls halive
  obtain ⟨p, hfatal⟩ := setFatal_eq halive
  rw [← heq] at hfalls hfatal
  have hcause := setCause_safety 20 { u with chip := { u.chip with fatal := true, faultN := false }, pcie := p, recov := r }
  refine ⟨by rw [hfalls], by rw [hfalls], ?_, ?_, fun harmed => ?_⟩
  · rw [live, hfalls]
    exact Bool.and_false _
  · rw [hfatal]
    exact detect_stands 14 (HostRings.setCause_cause (by decide) _)
  · have hstill : ArmedOrTripped (setCause 20 { u with chip := { u.chip with fatal := true, faultN := false }, pcie := p, recov := r }) := by
      rw [ArmedOrTripped, Tripped, hcause]
      exact harmed
    rw [hfatal]
    obtain ⟨-, hlow⟩ := ArmedOrTripped.detect (k := 14) hstill
    exact ⟨detect_causes hstill, hlow⟩

/-! ### The compute domain's reset ends (15 R351) -/

section
variable {s : State} {d : Nat}

/-- Every core not fenced tested. -/
def domainTested (f g : List Nat) (s : State) : State := forAll (List.range Config.cores) (testCore f g) s

/-- The domain in service again, its journal scanned, its state settled and its work begun anew. -/
def domainBack (a b k : List Nat) (s : State) : State :=
  let v := stopSchedules { s with recov := { s.recov with domainAt := none } }
  restartUnits (recover k (forAll v.journal (scanEntry a b) v))

theorem domainTested_tested (f g : List Nat) (s : State) : Tested f g (List.range Config.cores) s (domainTested f g s) :=
  tests_tested f g List.nodup_range s

theorem domainBack_recovering (a b k : List Nat) (s : State) : Recovering { s with recov := { s.recov with domainAt := none } } (domainBack a b k s) := by
  unfold domainBack
  exact (((Recovering.of_units (stopSchedules_unitsKept _)).trans (.forAll _ (fun e u => scanEntry_recovering a b e u) _)).trans
    (recover_recovering k _)).trans (restartUnits_recovering _)

theorem exec_computeResetEnd (f g a b k : List Nat) (hdomain : s.recov.domainAt = some d) (hlive : live s = true)
    (htime : s.chip.tick ≤ d + 2000) : exec (.computeResetEnd f g a b k) s = .next
      (if (List.range Config.cores).all (domainTested f g s).isFenced then domainFatal (domainTested f g s)
       else endReset 3 0 (if (domainBack a b k (domainTested f g s)).chip.fenced = s.chip.fenced then 0 else 1)
         (domainBack a b k (domainTested f g s))) := by
  refine congrArg Host.Outcome.next ?_
  have hsoon : decide (s.now > d + 2000) = false := decide_eq_false (Nat.not_lt.mpr htime)
  unfold doComputeResetEnd
  rw [hdomain]
  dsimp only
  rw [hlive, hsoon, if_neg (by decide)]
  rfl

theorem computeResetEnd_late (f g a b k : List Nat) (hdomain : s.recov.domainAt = some d) (htime : d + 2000 < s.chip.tick) :
    exec (.computeResetEnd f g a b k) s = .next s := by
  refine congrArg Host.Outcome.next ?_
  have hlate : decide (s.now > d + 2000) = true := decide_eq_true htime
  unfold doComputeResetEnd
  rw [hdomain]
  dsimp only
  rw [hlate, Bool.or_true, if_pos rfl]

/-- All cores are fenced after the tests exactly when every core is lost. -/
theorem allFenced_iff (f g : List Nat) (s : State) :
    (List.range Config.cores).all (domainTested f g s).isFenced = true ↔ ∀ c, c < 16 → LostCore s f g c := by
  have hfenced := (domainTested_tested f g s).fenced
  rw [List.all_eq_true]
  constructor
  · intro hall c hc
    obtain hwas | ⟨-, hlost⟩ := (hfenced c).mp (hall c (List.mem_range.mpr hc))
    · exact .inl hwas
    · exact hlost
  · exact fun hall c hc => (hfenced c).mpr (.inr ⟨hc, hall c (List.mem_range.mp hc)⟩)

theorem exec_computeResetEnd_survives {f g : List Nat} (a b k : List Nat) (hdomain : s.recov.domainAt = some d) (hlive : live s = true)
    (htime : s.chip.tick ≤ d + 2000) (hsome : ∃ c, c < 16 ∧ ¬ LostCore s f g c) : exec (.computeResetEnd f g a b k) s = .next
      (endReset 3 0 (if (domainBack a b k (domainTested f g s)).chip.fenced = s.chip.fenced then 0 else 1)
        (domainBack a b k (domainTested f g s))) := by
  obtain ⟨c, hc, hkept⟩ := hsome
  rw [exec_computeResetEnd f g a b k hdomain hlive htime, if_neg (fun hall => hkept ((allFenced_iff f g s).mp hall c hc))]

theorem domain_back {f g : List Nat} (a b k : List Nat) (hdomain : s.recov.domainAt = some d) (hlive : live s = true)
    (htime : s.chip.tick ≤ d + 2000) (hsome : ∃ c, c < 16 ∧ ¬ LostCore s f g c) : ∃ t, exec (.computeResetEnd f g a b k) s = .next t ∧
      t.recov.domainAt = none ∧ t.chip.fatal = false ∧ ∀ c, c < 16 → (t.isFenced c = true ↔ LostCore s f g c) := by
  obtain ⟨⟨m, hchip⟩, -, hfenced, -, -⟩ := domainTested_tested f g s
  have hback := domainBack_recovering a b k (domainTested f g s)
  obtain ⟨hendchip, -, henddomain⟩ := endReset_kept 3 0
    (if (domainBack a b k (domainTested f g s)).chip.fenced = s.chip.fenced then 0 else 1) (domainBack a b k (domainTested f g s))
  have hsame := hendchip.trans hback.chip
  refine ⟨_, exec_computeResetEnd_survives a b k hdomain hlive htime hsome, henddomain.trans hback.domain, ?_, fun c hc => ?_⟩
  · rw [hsame]
    show (domainTested f g s).chip.fatal = false
    rw [hchip]
    exact live_fatal hlive
  · rw [State.isFenced, hsame]
    refine (hfenced c).trans ⟨fun h => h.elim .inl (fun ⟨_, hlost⟩ => hlost), fun h => .inr ⟨List.mem_range.mpr hc, h⟩⟩

theorem domain_fatal {f g : List Nat} (a b k : List Nat) (hdomain : s.recov.domainAt = some d) (hlive : live s = true)
    (htime : s.chip.tick ≤ d + 2000) (hall : ∀ c, c < 16 → LostCore s f g c) : ∃ t, exec (.computeResetEnd f g a b k) s = .next t ∧
      t.chip.fatal = true ∧ t.chip.faultN = false ∧ live t = false ∧ t.pcie.cause.getLsbD 20 = true ∧
      (s.safety.state = 1 → maskBit t.safety.causes 14 = true ∧ t.safety.safeN = false) := by
  obtain ⟨⟨m, hchip⟩, -, -, -, harmed⟩ := domainTested_tested f g s
  have halive : live (domainTested f g s) = true := by
    rw [live, hchip]
    exact hlive
  have hexec := exec_computeResetEnd f g a b k hdomain hlive htime
  rw [if_pos ((allFenced_iff f g s).mpr hall)] at hexec
  obtain ⟨hfatal, hfault, hdead, hcause, hsafety⟩ := domainFatal_clause halive
  exact ⟨_, hexec, hfatal, hfault, hdead, hcause, fun hstate => hsafety (harmed (.inl hstate))⟩

theorem domain_timeout (hdomain : s.recov.domainAt = some d) (hlive : live s = true) : ∃ t, exec .computeResetTimeout s = .next t ∧
      t.chip.fatal = true ∧ t.chip.faultN = false ∧ live t = false ∧ t.pcie.cause.getLsbD 20 = true ∧
      (s.safety.state = 1 → maskBit t.safety.causes 14 = true ∧ t.safety.safeN = false) := by
  have hexec : exec .computeResetTimeout s = .next (domainFatal (advanceTo (d + 2001) s)) := by
    refine congrArg Host.Outcome.next ?_
    unfold doComputeResetTimeout
    rw [hdomain]
    dsimp only
    rw [hlive]
    rfl
  obtain ⟨_, _, _, _, _, _, _, hlater⟩ := advanceTo_idled (d + 2001) s
  have halive : live (advanceTo (d + 2001) s) = true := by
    rw [hlater]
    exact hlive
  have hsame : (advanceTo (d + 2001) s).safety = s.safety := by rw [hlater]
  obtain ⟨hfatal, hfault, hdead, hcause, hsafety⟩ := domainFatal_clause halive
  refine ⟨_, hexec, hfatal, hfault, hdead, hcause, fun hstate => hsafety (.inl ?_)⟩
  rw [hsame]
  exact hstate

theorem domain_completes (hdomain : s.recov.domainAt = some d) (hlive : live s = true) (htime : s.chip.tick ≤ d + 2000)
    (hsome : ∃ c, c < 16 ∧ ¬ LostCore s [] [] c) {w : Waiter} (hw : s.recov.waiters = [w]) (hcode : w.code = 3) (hunit : w.unit = 0) :
    ∃ v again, exec (.computeResetEnd [] [] [] [] []) s =
      .next (layersAgain again (finish w.j stOk [w32 (if w.during then 0 else s.chip.tick - w.start)] v)) ∧ v.recov.waiters = [] := by
  have hpass : domainTested [] [] s = s := tests_pass s _
  have hexec := exec_computeResetEnd_survives [] [] [] hdomain hlive htime hsome
  rw [hpass] at hexec
  obtain ⟨hchip, hwaiters, -⟩ := domainBack_recovering [] [] [] s
  obtain ⟨v, again, hend, hnone⟩ := endReset_completes (code := 3) (n := 0)
    (outcome := if (domainBack [] [] [] s).chip.fenced = s.chip.fenced then 0 else 1) (s := domainBack [] [] [] s)
    (hwaiters.trans hw) hcode hunit inside_domain (by rw [show decide (3 ≤ 2) = false from rfl, Bool.false_and])
  rw [show (domainBack [] [] [] s).chip.tick = s.chip.tick from congrArg (·.tick) hchip] at hend
  exact ⟨v, again, hexec.trans (congrArg Host.Outcome.next hend), hnone⟩

/-! ### With nothing to recover -/

theorem scanEntry_clean {e : JEntry} (h : s.dram.bad = []) : scanEntry [] [] e s = s := by
  have hsector : ∀ k, scanSector [] [] k (false, s) = (false, s) := fun k => by simp [scanSector, h]
  have hsectors : ∀ l : List Nat, l.foldl (fun x k => scanSector [] [] k x) (false, s) = (false, s) := by
    intro l
    induction l with
    | nil => rfl
    | cons k l ih => rw [List.foldl_cons, hsector, ih]
  unfold scanEntry
  dsimp only
  rw [hsectors]
  split
  · rfl
  · rfl

theorem scan_clean (l : List JEntry) (h : s.dram.bad = []) : forAll l (scanEntry [] []) s = s := by
  induction l with
  | nil => rfl
  | cons e l ih => exact (congrArg (forAll l (scanEntry [] [])) (scanEntry_clean h)).trans ih

theorem settleTrk_shape (s : State) : ∃ x y l, settleTrk s = { s with tracks := x, embs := y, recov := { s.recov with taeLog := l } } := by
  unfold settleTrk
  split
  · exact ⟨s.tracks, s.embs, s.recov.taeLog, rfl⟩
  · dsimp only
    split
    · exact ⟨_, _, _, rfl⟩
    · exact ⟨_, _, _, rfl⟩

theorem recover_idle (hactive : s.active = none) (hslots : s.openSlots = []) : ∃ x y l, recover [] s =
    { s with tracks := x, embs := y, recov := { s.recov with taeLog := l } } := by
  obtain ⟨x, y, l, h⟩ := settleTrk_shape s
  refine ⟨x, y, l, ?_⟩
  rw [recover_eq, h]
  generalize hu : ({ s with tracks := x, embs := y, recov := { s.recov with taeLog := l } } : State) = u
  have harm : activeArm u = none := by
    rw [← hu, activeArm, hactive]
    rfl
  have hplaced : contentsPlaced u = u := by rw [contentsPlaced, harm]
  have hunbound : bindsSafety u = false := by rw [bindsSafety, harm]
  have hpassed : castsPassed u = u := by rw [castsPassed, hunbound]; rfl
  have hopen : u.openSlots = [] := by
    rw [← hu]
    exact hslots
  rw [hplaced, hpassed, hopen]
  rfl

theorem restartUnits_idle (h : ∀ x ∈ s.sessions, x.2.work = none) : restartUnits s = s := by
  have hnone : s.sessions.filter (fun e => e.2.work.isSome) = [] := List.filter_eq_nil_iff.mpr (fun x hx => by simp [h x hx])
  rw [restartUnits, hnone]
  rfl

/-- The domain with nothing to recover comes back as it was, but for its recovery and the tracks of a log it held. -/
theorem domainBack_idle (hactive : s.active = none) (hsched : s.noSched = false) (hslots : s.openSlots = []) (hbad : s.dram.bad = [])
    (hwork : ∀ x ∈ s.sessions, x.2.work = none) : ∃ x y l, domainBack [] [] [] s =
      { s with tracks := x, embs := y, recov := { s.recov with domainAt := none, taeLog := l } } := by
  have hstop : stopSchedules { s with recov := { s.recov with domainAt := none } } = { s with recov := { s.recov with domainAt := none } } := by
    unfold stopSchedules
    rw [show ({ s with recov := { s.recov with domainAt := none } } : State).noSched = false from hsched]
    rfl
  obtain ⟨x, y, l, hrecover⟩ := recover_idle (s := { s with recov := { s.recov with domainAt := none } }) hactive hslots
  have hscan := scan_clean (s := { s with recov := { s.recov with domainAt := none } }) s.journal hbad
  refine ⟨x, y, l, ?_⟩
  unfold domainBack
  dsimp only
  rw [hstop, hscan, hrecover]
  exact restartUnits_idle hwork

theorem domain_quiet (hdomain : s.recov.domainAt = some d) (hlive : live s = true) (htime : s.chip.tick ≤ d + 2000)
    (hsome : ∃ c, c < 16 ∧ ¬ LostCore s [] [] c) (hactive : s.active = none) (hsched : s.noSched = false) (hslots : s.openSlots = [])
    (hbad : s.dram.bad = []) (hquiet : s.recov.waiters = []) (hwork : ∀ x ∈ s.sessions, x.2.work = none) :
    ∃ t, exec (.computeResetEnd [] [] [] [] []) s = .next t ∧ t.recov.domainAt = none ∧ t.chip.fenced = s.chip.fenced ∧ t.journal = s.journal ∧
      t.sessions = s.sessions ∧ t.hostMem = s.hostMem := by
  have hpass : domainTested [] [] s = s := tests_pass s _
  have hexec := exec_computeResetEnd_survives [] [] [] hdomain hlive htime hsome
  obtain ⟨x, y, l, hback⟩ := domainBack_idle hactive hsched hslots hbad hwork
  rw [hpass, hback] at hexec
  obtain ⟨r, hnone, -, hend⟩ := endReset_quiet (code := 3) (n := 0)
    (outcome := if s.chip.fenced = s.chip.fenced then 0 else 1)
    (s := { s with tracks := x, embs := y, recov := { s.recov with domainAt := none, taeLog := l } }) hquiet
  refine ⟨_, hexec.trans (congrArg Host.Outcome.next (hend hwork)), hnone, rfl, rfl, rfl, rfl⟩

end

/-- Settles O59: within its bound a reset ends or escalates by Table 15.1, and the compute domain's recovery leaves the chip but for the cores it loses. -/
theorem resetsEnd : Obligations.ResetsEnd := by
  unfold Obligations.ResetsEnd
  intro s hlive
  refine ⟨fun c e d he hend => ⟨fun htime => ⟨engine_back hend htime, fun hup w => engine_completes hend he htime hup, ?_⟩,
      fun htime => exec_engineResetEnd_late hend htime, ?_⟩,
    fun c d hend => ⟨fun htime => ⟨core_back hend htime, fun hup w => core_completes hend htime hup⟩,
      fun htime => exec_coreResetEnd_late hend htime, fun hfirst => ⟨fun htime => ?_, ?_⟩, fun hmore => ⟨fun htime => ?_, ?_⟩⟩,
    fun d hdomain => ⟨fun htime hsome => ⟨domain_quiet hdomain hlive htime hsome, fun w => domain_completes hdomain hlive htime hsome⟩,
      fun f g a b k htime => domain_back a b k hdomain hlive htime, fun f g a b k htime => domain_fatal a b k hdomain hlive htime,
      fun f g a b k => computeResetEnd_late f g a b k hdomain, domain_timeout hdomain hlive⟩⟩
  · exact escalated (exec_engineResetEnd_failed hend htime) rfl (inside_core c)
  · exact escalated (exec_engineResetTimeout hend) (advanceTo_recov _ s) (inside_core c)
  · have hexec := exec_coreResetEnd_failed hend htime
    rw [coreFailed_first hfirst] at hexec
    exact escalated hexec rfl inside_domain
  · have hexec := exec_coreResetTimeout hend
    obtain ⟨_, _, _, _, _, _, _, hlater⟩ := advanceTo_idled (d + 201) s
    have hcount : ((advanceTo (d + 201) s).core c).failed = 0 := by
      rw [hlater]
      exact hfirst
    rw [coreFailed_first hcount] at hexec
    exact escalated hexec (advanceTo_recov _ s) inside_domain
  · exact ⟨_, exec_coreResetEnd_failed hend htime, coreFailed_fences hmore⟩
  · obtain ⟨_, _, _, _, _, _, _, hlater⟩ := advanceTo_idled (d + 201) s
    have hcore : ∀ k, (advanceTo (d + 201) s).core k = s.core k := fun k => by rw [hlater]; rfl
    have hfenced : ∀ k, (advanceTo (d + 201) s).isFenced k = s.isFenced k := fun k => by rw [hlater]; rfl
    have hfences := coreFailed_fences (c := c) (s := advanceTo (d + 201) s) (by rw [hcore c]; exact hmore)
    simp only [hcore, hfenced] at hfences
    exact ⟨_, exec_coreResetTimeout hend, hfences⟩

end Sys2Proof.DomainEnds
end


section
/-! SAFETY_ARM, SAFETY_CLEAR and SAFETY_STATUS, and the Proof cast sets that they run at once (14 R319, R321, R330-R332). -/

namespace Sys2Proof.SafetyCommands

open Sys2Proof.Machine Sys2Proof.Laws Sys2Proof.Detections Sys2Proof.Opening Sys2Proof.Mechanisms Sys2Proof.NicheEnds
open Sys2Proof.DomainRecovery Sys2Proof.DomainEnds

/-! ### Niches of a set (14 R321) -/

/-- From `s` to `t` Niches ran on cores: scratchpads and accumulators change, and counters. -/
def Ran (s t : State) : Prop := (∃ cs o, t = { s with cores := cs, obs := o }) ∧ ∀ c, ∃ sp ac, t.core c = { s.core c with spad := sp, acc := ac }

theorem Ran.refl (s : State) : Ran s s := ⟨⟨_, _, rfl⟩, fun _ => ⟨_, _, rfl⟩⟩

theorem Ran.trans {s t u : State} (h : Ran s t) (h' : Ran t u) : Ran s u := by
  obtain ⟨⟨_, _, hst⟩, hcore⟩ := h
  obtain ⟨⟨cs, o, htu⟩, hcore'⟩ := h'
  refine ⟨⟨cs, o, by rw [htu, hst]⟩, fun c => ?_⟩
  obtain ⟨_, _, hc⟩ := hcore c
  obtain ⟨sp, ac, hc'⟩ := hcore' c
  exact ⟨sp, ac, by rw [hc', hc]⟩

theorem Ran.forAll {α : Type} (l : List α) {f : α → State → State} (hf : ∀ a s, Ran s (f a s)) (s : State) : Ran s (forAll l f s) := by
  induction l generalizing s with
  | nil => exact .refl s
  | cons a l ih => exact (hf a s).trans (ih (f a s))

theorem Ran.count (key k : Nat) (s : State) : Ran s (count key k s) := ⟨⟨_, _, rfl⟩, fun _ => ⟨_, _, rfl⟩⟩

theorem Ran.modCore (c : Nat) {f : Core → Core} (hf : ∀ k, ∃ sp ac, f k = { k with spad := sp, acc := ac }) (s : State) : Ran s (s.modCore c f) := by
  refine ⟨⟨_, _, rfl⟩, fun k => ?_⟩
  by_cases hk : k = c
  · subst hk
    rw [core_modCore]
    exact hf _
  · rw [core_modCore_other s f hk]
    exact ⟨_, _, rfl⟩

theorem applyMx_ran (c : Nat) (d : MxDesc) (s : State) : Ran s (applyMx c d s) := by
  unfold applyMx applyMxOn
  exact ((((Ran.modCore c (fun _ => ⟨_, _, rfl⟩) s).trans (.count _ _ _)).trans (.count _ _ _)).trans (.count _ _ _)).trans (.count _ _ _)

theorem applyVx_ran (c : Nat) (d : VxDesc) (s : State) : Ran s (applyVx c d s) := by
  unfold applyVx applyVxOn
  exact ((((Ran.modCore c (fun _ => ⟨_, _, rfl⟩) s).trans (.count _ _ _)).trans (.count _ _ _)).trans (.count _ _ _)).trans (.count _ _ _)

theorem runCastNiche_ran (n : NicheEntry) (s : State) : Ran s (runCastNiche n s) := of_ite (applyVx_ran _ _ s) (applyMx_ran _ _ s)

/-! ### Sets that ran at once -/

/-- From `s` to `t` the sets of `l` ran: their engines have completed in this tick, and beside the scratchpads, the accumulators and the ticks of
completion no core changes. -/
structure CastsRan (l : List (Nat × Nat)) (s t : State) : Prop where
  shape : ∃ cs o, t = { s with cores := cs, obs := o }
  core : ∀ c, ∃ sp ac x, t.core c = { s.core c with spad := sp, acc := ac, castAt := x }
  ran : ∀ x ∈ l, tfind (t.core x.1).castAt x.2 = some s.chip.tick
  others : ∀ c e, (c, e) ∉ l → tfind (t.core c).castAt e = tfind (s.core c).castAt e

theorem runCast_ran (t : Schedule) (c e : Nat) (s : State) : CastsRan [(c, e)] s (runCast t c e s) := by
  have hran : Ran s (forAll (castNiches t c e) (fun k s => runCastNiche (t.niches.getD k default) s) s) :=
    .forAll _ (fun k u => runCastNiche_ran (t.niches.getD k default) u) s
  have heq : runCast t c e s = (forAll (castNiches t c e) (fun k s => runCastNiche (t.niches.getD k default) s) s).modCore c
    (fun x => { x with castAt := tput x.castAt e
                         (forAll (castNiches t c e) (fun k s => runCastNiche (t.niches.getD k default) s) s).now }) := rfl
  rw [heq]
  generalize forAll (castNiches t c e) (fun k s => runCastNiche (t.niches.getD k default) s) s = u at hran ⊢
  obtain ⟨⟨cs, o, hu⟩, hcore⟩ := hran
  have hnow : u.now = s.chip.tick := by rw [hu]; rfl
  have hself : (u.modCore c (fun x => { x with castAt := tput x.castAt e u.now })).core c =
      { u.core c with castAt := tput (u.core c).castAt e u.now } := core_modCore u c _
  refine ⟨⟨(u.modCore c (fun x => { x with castAt := tput x.castAt e u.now })).cores, o, by rw [hu]; rfl⟩, fun k => ?_, fun x hx => ?_,
    fun k q hne => ?_⟩
  · obtain ⟨sp, ac, hk⟩ := hcore k
    by_cases hkc : k = c
    · subst hkc
      exact ⟨sp, ac, tput (u.core k).castAt e u.now, by rw [hself, hk]⟩
    · exact ⟨sp, ac, (s.core k).castAt, by rw [core_modCore_other u _ hkc, hk]⟩
  · obtain rfl := List.mem_singleton.mp hx
    rw [hself, hnow]
    exact tfind_tput_same _ _ _
  · obtain ⟨sp, ac, hk⟩ := hcore k
    by_cases hkc : k = c
    · subst hkc
      have hqe : q ≠ e := fun h => hne (by rw [h]; exact List.mem_singleton_self _)
      rw [hself, hk]
      exact tfind_tput_other _ _ hqe
    · rw [core_modCore_other u _ hkc, hk]

theorem castsRun_ran (t : Schedule) (l : List (Nat × Nat)) (s : State) : CastsRan l s (castsRun t l s) := by
  induction l generalizing s with
  | nil => exact ⟨⟨_, _, rfl⟩, fun _ => ⟨_, _, _, rfl⟩, fun x hx => (by cases hx), fun _ _ _ => rfl⟩
  | cons a l ih =>
    obtain ⟨⟨_, _, hshape⟩, hcore, hran, hothers⟩ := runCast_ran t a.1 a.2 s
    obtain ⟨⟨cs, o, hshape'⟩, hcore', hran', hothers'⟩ := ih (runCast t a.1 a.2 s)
    have heq : castsRun t (a :: l) s = castsRun t l (runCast t a.1 a.2 s) := rfl
    have htick : (runCast t a.1 a.2 s).chip.tick = s.chip.tick := by rw [hshape]
    rw [heq]
    refine ⟨⟨cs, o, by rw [hshape', hshape]⟩, fun c => ?_, fun x hx => ?_, fun c e hne => ?_⟩
    · obtain ⟨_, _, _, hc⟩ := hcore c
      obtain ⟨sp, ac, x, hc'⟩ := hcore' c
      exact ⟨sp, ac, x, by rw [hc', hc]⟩
    · by_cases hl : x ∈ l
      · rw [hran' x hl, htick]
      · obtain rfl := (List.mem_cons.mp hx).resolve_right hl
        rw [hothers' x.1 x.2 hl]
        exact hran x (List.mem_singleton_self _)
    · obtain ⟨ha, hl⟩ := not_or.mp (fun h => hne (List.mem_cons.mpr h))
      rw [hothers' c e hl]
      exact hothers c e (fun h => ha (List.mem_singleton.mp h))

theorem runCasts_shape (s : State) : ∃ cs o, (runCasts s).1 = { s with cores := cs, obs := o } := by
  cases hsched : activeSched s with
  | none =>
    rw [runCasts_none hsched]
    exact ⟨_, _, rfl⟩
  | some t =>
    cases hup : computeUp s with
    | false =>
      rw [runCasts_down hsched hup]
      exact ⟨_, _, rfl⟩
    | true =>
      rw [runCasts_runs hsched hup]
      exact (castsRun_ran t _ s).shape

/-- The sets of every engine in use have run in this tick, and where the command's condition [4] holds each has its Niches, its engine up and the
expected results (14 R330). -/
def Compared (s v : State) (ok : Bool) : Prop :=
  ∀ t, activeSched s = some t → computeUp s = true → ∀ c k, c ∈ castCores s → k < 4 → tfind (v.core c).castAt k = some s.chip.tick ∧
    (ok = true → castMatch v c k = true ∧ (castNiches t c k).length = (if k = 0 then 4 else 3) ∧ unitUp s (.mx c k) = true)

theorem mem_castSets {s : State} {c k : Nat} (hc : c ∈ castCores s) (hk : k < 4) : (c, k) ∈ castSets s :=
  List.mem_flatMap.mpr ⟨c, hc, List.mem_map.mpr ⟨k, List.mem_range.mpr hk, rfl⟩⟩

theorem castsRun_compared {s v : State} {t : Schedule} {c k : Nat} (hc : c ∈ castCores s) (hk : k < 4)
    (hv : v.cores = (castsRun t (castSets s) s).cores) : tfind (v.core c).castAt k = some s.chip.tick ∧
      (castPasses (castsRun t (castSets s) s) t c k = true →
        castMatch v c k = true ∧ (castNiches t c k).length = (if k = 0 then 4 else 3) ∧ unitUp s (.mx c k) = true) := by
  obtain ⟨⟨_, _, hshape⟩, hcore, hran, -⟩ := castsRun_ran t (castSets s) s
  generalize castsRun t (castSets s) s = u at hv hshape hcore hran ⊢
  have hsame : ∀ n, v.core n = u.core n := fun n => congrArg (fun l => tget l n Core.reset) hv
  refine ⟨by rw [hsame c]; exact hran _ (mem_castSets hc hk), fun hpasses => ?_⟩
  simp only [castPasses, Bool.and_eq_true, decide_eq_true_eq] at hpasses
  obtain ⟨⟨hlength, hunit⟩, hmatch⟩ := hpasses
  refine ⟨?_, hlength, ?_⟩
  · rw [← hmatch]
    exact castMatch_congr (by rw [hsame c]) k
  · obtain ⟨_, _, _, hkept⟩ := hcore c
    have hfenced : u.isFenced c = s.isFenced c := by
      rw [hshape]
      rfl
    rw [unitUp, hfenced, hkept] at hunit
    exact hunit

theorem runCasts_compared {s v : State} (pass : Bool) (hv : v.cores = (runCasts s).1.cores) : Compared s v (pass && (runCasts s).2) := by
  intro t hsched hup c k hc hk
  have hruns := runCasts_runs hsched hup
  have hpass : (runCasts s).2 = true → castPasses (castsRun t (castSets s) s) t c k = true := by
    rw [hruns]
    generalize castsRun t (castSets s) s = u
    intro hall
    rw [List.all_eq_true] at hall
    exact hall (c, k) (mem_castSets hc hk)
  rw [hruns] at hv
  obtain ⟨hat, hmatches⟩ := castsRun_compared hc hk hv
  refine ⟨hat, fun hok => hmatches (hpass ?_)⟩
  rw [Bool.and_eq_true] at hok
  exact hok.2

/-! ### Reasons (14 R330, R331) -/

/-- The bit of a condition that fails. -/
def reasonBit (b : Bool) (k : Nat) : Nat := if b then 0 else 2 ^ k

theorem reasons_arm : ∀ b1 b2 b3 b4 b5 : Bool, reasons [(0, true), (1, b1), (2, b2), (3, b3), (4, b4), (5, b5)] =
    reasonBit b1 1 + reasonBit b2 2 + reasonBit b3 3 + reasonBit b4 4 + reasonBit b5 5 := by decide

theorem reasons_clear : ∀ b2 b3 b4 b5 b7 b8 : Bool, reasons [(2, b2), (3, b3), (4, b4), (5, b5), (6, true), (7, b7), (8, b8)] =
    reasonBit b2 2 + reasonBit b3 3 + reasonBit b4 4 + reasonBit b5 5 + reasonBit b7 7 + reasonBit b8 8 := by decide

theorem reasons_during : ∀ b2 b3 b4 b5 b7 b8 : Bool,
    maskBit (reasons [(2, b2), (3, b3), (4, b4), (5, b5), (6, false), (7, b7), (8, b8)]) 6 = true ∧
      reasons [(2, b2), (3, b3), (4, b4), (5, b5), (6, false), (7, b7), (8, b8)] ≠ 0 := by decide

theorem w32_bit {m k : Nat} (hk : k < 32) (h : maskBit m k = true) : (w32 m).getLsbD k = true := by
  rw [w32, BitVec.getLsbD_ofNat, decide_eq_true hk, Bool.true_and]
  exact h

/-! ### What is left alone -/

/-- Streams, sessions, memories and Niches stay. -/
def Rests (s v : State) : Prop :=
  v.streams = s.streams ∧ v.sessions = s.sessions ∧ v.dram = s.dram ∧ v.hostMem = s.hostMem ∧ v.runs = s.runs

/-- Safety is armed, and the change of its word reported. -/
def Armed (v : State) : Prop :=
  v.safety.state = 1 ∧ v.safety.safeN = true ∧ v.safety.causes = 0 ∧ v.safety.first = none ∧ v.pcie.cause.getLsbD 17 = true

theorem runCasts_rests (s : State) : Rests s (runCasts s).1 := by
  obtain ⟨_, _, h⟩ := runCasts_shape s
  rw [h]
  exact ⟨rfl, rfl, rfl, rfl, rfl⟩

theorem setSafety_rests (f : Safety) {s u : State} (h : Rests s u) : Rests s (setSafety f u) ∧ (setSafety f u).cores = u.cores := by
  obtain ⟨_, _, _, _, hset⟩ := setSafety_shape f u
  rw [hset]
  exact ⟨h, rfl⟩

/-- A change of the state is a change of the word, and sets its cause (14 R327). -/
theorem setSafety_signals {f : Safety} {u : State} (h : f.state % 4 ≠ u.safety.state % 4) : (setSafety f u).pcie.cause.getLsbD 17 = true := by
  have hword : f.word ≠ u.safety.word := by
    intro hsame
    have hstates := congrArg (fun w => w.toNat / 2 ^ 30) hsame
    simp only [word_state] at hstates
    exact h hstates
  rw [setSafety_eq, if_neg hword]
  exact HostRings.setCause_cause (by decide) _

/-! ### SAFETY_ARM (14 R330) -/

section
variable {s : State} {j : Nat} {e : JEntry}

/-- The mask that the packet carries. -/
def armMask (e : JEntry) : Nat := (e.param 1).toNat + (e.param 2).toNat * 2 ^ 32 + (e.param 3).toNat * 2 ^ 64 + (e.param 4).toNat * 2 ^ 96

/-- The conditions of SAFETY_ARM that fail, with condition [4] as given. -/
def armReasons (mask : Nat) (ok : Bool) (u : State) : Nat :=
  reasons [(0, decide (u.chip.phase = .ready)), (1, bindsSafety u), (2, maskMatches u mask), (3, !causePresent u), (4, ok),
           (5, decide (u.safety.state = 0))]

/-- The safety state that SAFETY_ARM leaves. -/
def armedSafety (e : JEntry) (u : State) : Safety :=
  { u.safety with state := 1, causes := 0, first := none, key := e.param 0, mask := armMask e, hbAt := u.now, hbOk := false, hbCount := 0, hbGap := 0,
                  safeN := true }

theorem exec_safetyArm (pass : Bool) (h : Runs s j 0x70 e) : exec (.safetyArm j pass) s = .next (
    if armMask e = 0 then finish j stBadParam [] (beginCmd e s)
    else if armReasons (armMask e) (pass && (runCasts (beginCmd e s)).2) (runCasts (beginCmd e s)).1 ≠ 0 then
      finish j stOk [(runCasts (beginCmd e s)).1.safety.word,
        w32 (armReasons (armMask e) (pass && (runCasts (beginCmd e s)).2) (runCasts (beginCmd e s)).1)] (runCasts (beginCmd e s)).1
    else finish j stOk [(setSafety (armedSafety e (runCasts (beginCmd e s)).1) (runCasts (beginCmd e s)).1).safety.word, 0]
      (setSafety (armedSafety e (runCasts (beginCmd e s)).1) (runCasts (beginCmd e s)).1)) := by
  obtain ⟨he, hbegin, hstatic⟩ := h
  exact congrArg Host.Outcome.next (runCmd_body he hbegin hstatic _)

theorem runs_ready {op : Nat} (h : Runs s j op e) : s.chip.phase = .ready := by
  obtain ⟨he, hbegin, -⟩ := h
  simp only [mayBegin, he, live, Bool.and_eq_true, decide_eq_true_eq] at hbegin
  obtain ⟨⟨⟨⟨⟨-, hready, -⟩, -⟩, -⟩, -⟩, -⟩ := hbegin
  exact hready

theorem armReasons_eq {mask : Nat} {ok : Bool} {u : State} (hready : u.chip.phase = .ready) : armReasons mask ok u =
    reasonBit (bindsSafety u) 1 + reasonBit (maskMatches u mask) 2 + reasonBit (!causePresent u) 3 + reasonBit ok 4 +
      reasonBit (decide (u.safety.state = 0)) 5 := by
  rw [armReasons, decide_eq_true hready]
  exact reasons_arm _ _ _ _ _

/-- The conditions do not read what the casts change. -/
theorem armReasons_ran (mask : Nat) (ok : Bool) {u v : State} (h : ∃ cs o, v = { u with cores := cs, obs := o }) :
    armReasons mask ok v = armReasons mask ok u := by
  obtain ⟨_, _, rfl⟩ := h
  rfl

theorem setSafety_armed {f : Safety} {u : State} (hstate : f.state = 1) (hsafe : f.safeN = true) (hcauses : f.causes = 0) (hfirst : f.first = none)
    (hu : u.safety.state = 0 ∨ u.safety.state = 2) : Armed (setSafety f u) := by
  have hsignal : (setSafety f u).pcie.cause.getLsbD 17 = true := by
    refine setSafety_signals ?_
    rw [hstate]
    obtain h | h := hu <;> rw [h] <;> decide
  rw [Armed, setSafety_safety]
  exact ⟨hstate, hsafe, hcauses, hfirst, hsignal⟩

theorem reasonBit_eq_zero {b : Bool} {k : Nat} (h : reasonBit b k = 0) : b = true := by
  cases b
  · exact absurd h (Nat.two_pow_pos k).ne'
  · rfl

theorem arm_clause (pass : Bool) (h : Runs s j 0x70 e) :
    let ok := pass && (runCasts (beginCmd e s)).2
    let r := reasonBit (bindsSafety s) 1 + reasonBit (maskMatches s (armMask e)) 2 + reasonBit (!causePresent s) 3 + reasonBit ok 4 +
      reasonBit (decide (s.safety.state = 0)) 5
    (armMask e = 0 → exec (.safetyArm j pass) s = .next (finish j stBadParam [] (beginCmd e s))) ∧
    (armMask e ≠ 0 → r ≠ 0 → ∃ v, exec (.safetyArm j pass) s = .next (finish j stOk [s.safety.word, w32 r] v) ∧ v.safety = s.safety ∧ Rests s v ∧
      Compared s v ok) ∧
    (armMask e ≠ 0 → r = 0 → ∃ v, exec (.safetyArm j pass) s = .next (finish j stOk [v.safety.word, 0] v) ∧ Armed v ∧ v.safety.key = e.param 0 ∧
      v.safety.mask = armMask e ∧ v.safety.hbAt = s.chip.tick ∧ v.safety.hbCount = 0 ∧ v.safety.hbGap = 0 ∧ Rests s v ∧ Compared s v ok) := by
  intro ok r
  have hexec := exec_safetyArm pass h
  have hran := runCasts_shape (beginCmd e s)
  have hrests : Rests s (runCasts (beginCmd e s)).1 := runCasts_rests (beginCmd e s)
  have hcompared : ∀ v : State, v.cores = (runCasts (beginCmd e s)).1.cores → Compared s v ok :=
    fun v hv => runCasts_compared (s := beginCmd e s) pass hv
  have hready : (beginCmd e s).chip.phase = .ready := (runs_ready h :)
  have hreasons : armReasons (armMask e) ok (runCasts (beginCmd e s)).1 = r := (armReasons_ran _ ok hran).trans (armReasons_eq hready)
  rw [hreasons] at hexec
  generalize (runCasts (beginCmd e s)).1 = u at hexec hran hrests hcompared
  obtain ⟨_, _, hu⟩ := hran
  have hsafety : u.safety = s.safety := by rw [hu]; rfl
  have htick : u.now = s.chip.tick := by rw [hu]; rfl
  refine ⟨fun hmask => by rw [hexec, if_pos hmask], fun hmask hr => ?_, fun hmask hr => ?_⟩
  · rw [if_neg hmask, if_pos hr, hsafety] at hexec
    exact ⟨u, hexec, hsafety, hrests, hcompared u rfl⟩
  · rw [if_neg hmask, if_neg (not_not_intro hr)] at hexec
    obtain ⟨hkept, hcores⟩ := setSafety_rests (armedSafety e u) hrests
    have hoff : s.safety.state = 0 := of_decide_eq_true (reasonBit_eq_zero (k := 5) (by omega))
    have hnew : (setSafety (armedSafety e u) u).safety = armedSafety e u := setSafety_safety _ _
    refine ⟨_, hexec, setSafety_armed rfl rfl rfl rfl (.inl (hsafety ▸ hoff)), ?_, ?_, ?_, ?_, ?_, hkept, hcompared _ hcores⟩
    · rw [hnew]; rfl
    · rw [hnew]; rfl
    · rw [hnew]; exact htick
    · rw [hnew]; rfl
    · rw [hnew]; rfl

end

/-! ### Causes detected while SAFETY_CLEAR runs (14 R319) -/

/-- From `s` to `t` causes were detected: safety, INTA and the freeze trigger may change. -/
def Detected (s t : State) : Prop := ∃ f c r a d x y z, t =
  { s with safety := f, pcie := { s.pcie with cause := c, recent := r, asserted := a, deassertAt := d },
           obs := { s.obs with sources := x, trigger := y, tickTrig := z } }

theorem detects_detected (l : List Nat) (s : State) : Detected s (forAll l detect s) := by
  induction l generalizing s with
  | nil => exact ⟨_, _, _, _, _, _, _, _, rfl⟩
  | cons n l ih =>
    obtain ⟨_, _, _, _, _, _, _, _, hone⟩ := detect_shape n s
    obtain ⟨f, c, r, a, d, x, y, z, hrest⟩ := ih (detect n s)
    exact ⟨f, c, r, a, d, x, y, z, by rw [show forAll (n :: l) detect s = forAll l detect (detect n s) from rfl, hrest, hone]⟩

/-- While safety is off, a detection only counts (14 R315). -/
theorem detects_off (l : List Nat) {s : State} (h : s.safety.state = 0) : ∃ x, (forAll l detect s).safety = { s.safety with seen := x } := by
  induction l generalizing s with
  | nil => exact ⟨_, rfl⟩
  | cons n l ih =>
    have hone : (detect n s).safety = { s.safety with seen := tput s.safety.seen n (tget s.safety.seen n 0 + 1) } := by
      rw [detect_off h]
    obtain ⟨x, hx⟩ := ih (s := detect n s) (by rw [hone]; exact h)
    exact ⟨x, by rw [show forAll (n :: l) detect s = forAll l detect (detect n s) from rfl, hx, hone]⟩

theorem maskBit_maskSet_of {m k n : Nat} (h : maskBit m n = true) : maskBit (maskSet m k) n = true := by
  rw [maskBit] at h
  rw [maskBit, maskSet, Nat.testBit_or, h, Bool.true_or]

/-- A detection while safety is armed or tripped leaves it tripped, with its cause and those before. -/
theorem detect_trips_causes {n : Nat} {s : State} (h : s.safety.state = 1 ∨ s.safety.state = 2) : (detect n s).safety.state = 2 ∧
    maskBit (detect n s).safety.causes n = true ∧
    ∀ m, s.safety.state = 2 → maskBit s.safety.causes m = true → maskBit (detect n s).safety.causes m = true := by
  obtain harmed | htripped := h
  · obtain ⟨hstate, -, hcauses, -⟩ := trips_detect (n := n) (TripKept.refl s) harmed
    exact ⟨hstate, hcauses, fun _ h => absurd (harmed.symm.trans h) (by decide)⟩
  · obtain ⟨_, hsafety, -⟩ := detect_safety_tripped (n := n) htripped
    rw [hsafety]
    exact ⟨htripped, maskBit_maskSet _ _, fun m _ hm => maskBit_maskSet_of hm⟩

theorem detects_keep (l : List Nat) {m : Nat} {s : State} (h : s.safety.state = 2) (hm : maskBit s.safety.causes m = true) :
    (forAll l detect s).safety.state = 2 ∧ maskBit (forAll l detect s).safety.causes m = true := by
  induction l generalizing s with
  | nil => exact ⟨h, hm⟩
  | cons n l ih =>
    obtain ⟨hstate, -, hkept⟩ := detect_trips_causes (n := n) (.inr h)
    exact ih hstate (hkept m h hm)

theorem detects_tripped {l : List Nat} {m : Nat} {s : State} (h : s.safety.state = 1 ∨ s.safety.state = 2) (hm : m ∈ l) :
    (forAll l detect s).safety.state = 2 ∧ maskBit (forAll l detect s).safety.causes m = true := by
  induction l generalizing s with
  | nil => cases hm
  | cons n l ih =>
    obtain ⟨hstate, hcause, -⟩ := detect_trips_causes (n := n) h
    by_cases hl : m ∈ l
    · exact ih (.inr hstate) hl
    · obtain rfl := (List.mem_cons.mp hm).resolve_right hl
      exact detects_keep l hstate hcause

/-! ### SAFETY_CLEAR (14 R331) -/

theorem lowestCause_flr (m : Nat) : lowestCause (m &&& flrCauses) =
    if maskBit m 0 then some 0 else if maskBit m 14 then some 14 else none := by
  have hbit : ∀ k, maskBit (m &&& flrCauses) k = (maskBit m k && maskBit flrCauses k) := fun k => Nat.testBit_and _ _ _
  have hlist : List.range 24 = [0] ++ (List.range 13).map (· + 1) ++ [14] ++ (List.range 9).map (· + 15) := by decide
  have hlow : ∀ k ∈ (List.range 13).map (· + 1), maskBit flrCauses k = false := by decide
  have hhigh : ∀ k ∈ (List.range 9).map (· + 15), maskBit flrCauses k = false := by decide
  have hnone : ∀ l : List Nat, (∀ k ∈ l, maskBit flrCauses k = false) → l.find? (fun k => maskBit (m &&& flrCauses) k) = none := by
    intro l hl
    rw [List.find?_eq_none]
    exact fun k hk => by rw [hbit, hl k hk, Bool.and_false]; decide
  have h0 : maskBit flrCauses 0 = true := by decide
  have h14 : maskBit flrCauses 14 = true := by decide
  rw [lowestCause, hlist, List.find?_append, List.find?_append, List.find?_append, hnone _ hlow, hnone _ hhigh]
  simp only [List.find?_cons, List.find?_nil, hbit, h0, h14, Bool.and_true]
  cases maskBit m 0 <;> cases maskBit m 14 <;> rfl

section
variable {s : State} {j : Nat} {e : JEntry}

/-- The part with the causes detected while the command runs. -/
def causesSeen (during : Nat) (e : JEntry) (s : State) : State := forAll (maskList during 18) detect (beginCmd e s)

/-- The safety state that MODE = 1 leaves. -/
def clearedSafety (f : Safety) : Safety :=
  { f with state := 0, causes := f.causes &&& flrCauses, first := lowestCause (f.causes &&& flrCauses), safeN := false, mask := 0 }

/-- The safety state that MODE = 0 leaves where it arms again. -/
def rearmedSafety (f : Safety) : Safety := { f with state := 1, causes := 0, first := none, safeN := true }

/-- The conditions of SAFETY_CLEAR that fail in `u`, with condition [4] as given; `f` is the safety state before the casts. -/
def clearReasons (f : Safety) (during : Nat) (ok : Bool) (u : State) : Nat :=
  reasons [(2, maskMatches u f.mask), (3, !causePresent u), (4, ok), (5, decide (f.state = 2)), (6, decide (during = 0)), (7, heartbeatRecent u),
           (8, !f.locked)]

theorem exec_safetyClear (pass : Bool) (during : Nat) (h : Runs s j 0x71 e) : exec (.safetyClear j pass during) s = .next (
    if (bit (e.param 0) 0 && decide (during ≠ 0) && decide ((causesSeen during e s).safety.state = 2)) = true then
      finish j stOk [(causesSeen during e s).safety.word, w32 (maskSet 0 6)] (causesSeen during e s)
    else if bit (e.param 0) 0 = true then
      finish j stOk [(setSafety (clearedSafety (causesSeen during e s).safety) (causesSeen during e s)).safety.word, 0]
        (setSafety (clearedSafety (causesSeen during e s).safety) (causesSeen during e s))
    else if clearReasons (causesSeen during e s).safety during (pass && (runCasts (causesSeen during e s)).2) (runCasts (causesSeen during e s)).1 ≠ 0 then
      finish j stOk [(runCasts (causesSeen during e s)).1.safety.word,
        w32 (clearReasons (causesSeen during e s).safety during (pass && (runCasts (causesSeen during e s)).2) (runCasts (causesSeen during e s)).1)]
        (runCasts (causesSeen during e s)).1
    else finish j stOk [(setSafety (rearmedSafety (causesSeen during e s).safety) (runCasts (causesSeen during e s)).1).safety.word, 0]
      (setSafety (rearmedSafety (causesSeen during e s).safety) (runCasts (causesSeen during e s)).1)) := by
  obtain ⟨he, hbegin, hstatic⟩ := h
  exact congrArg Host.Outcome.next (runCmd_body he hbegin hstatic _)

theorem causesSeen_none (e : JEntry) (s : State) : causesSeen 0 e s = beginCmd e s := by
  have hlist : maskList 0 18 = [] := by decide
  rw [causesSeen, hlist]
  rfl

theorem causesSeen_rests (during : Nat) (e : JEntry) (s : State) : Rests s (causesSeen during e s) := by
  obtain ⟨_, _, _, _, _, _, _, _, h⟩ := detects_detected (maskList during 18) (beginCmd e s)
  rw [causesSeen, h]
  exact ⟨rfl, rfl, rfl, rfl, rfl⟩

theorem Rests.trans {u v : State} (h : Rests s u) (h' : Rests u v) : Rests s v := by
  obtain ⟨hstreams, hsessions, hdram, hmem, hruns⟩ := h
  obtain ⟨hstreams', hsessions', hdram', hmem', hruns'⟩ := h'
  exact ⟨hstreams'.trans hstreams, hsessions'.trans hsessions, hdram'.trans hdram, hmem'.trans hmem, hruns'.trans hruns⟩

/-- With nothing detected, or while safety is off, the state that MODE = 1 turns off is the one before, but for the counts of detections. -/
theorem causesSeen_safety {during : Nat} (h : during = 0 ∨ s.safety.state = 0) : ∃ x, (causesSeen during e s).safety = { s.safety with seen := x } := by
  obtain rfl | hoff := h
  · rw [causesSeen_none]
    exact ⟨s.safety.seen, rfl⟩
  · exact detects_off (maskList during 18) (s := beginCmd e s) hoff

theorem clear_off_clause (pass : Bool) {during : Nat} (h : Runs s j 0x71 e) (hmode : bit (e.param 0) 0 = true)
    (hquiet : during = 0 ∨ s.safety.state = 0) :
    ∃ v, exec (.safetyClear j pass during) s = .next (finish j stOk [v.safety.word, 0] v) ∧ v.safety.state = 0 ∧
      v.safety.safeN = false ∧ v.safety.key = s.safety.key ∧ Rests s v ∧ v.safety.causes = s.safety.causes &&& 0x4001 ∧
      v.safety.first = (if maskBit s.safety.causes 0 then some 0 else if maskBit s.safety.causes 14 then some 14 else none) := by
  have hexec := exec_safetyClear pass during h
  obtain ⟨x, hsafety⟩ := causesSeen_safety (e := e) hquiet
  have hclear : (bit (e.param 0) 0 && decide (during ≠ 0) && decide ((causesSeen during e s).safety.state = 2)) = false := by
    rw [hsafety, hmode]
    obtain rfl | hoff := hquiet
    · rfl
    · rw [show ({ s.safety with seen := x } : Safety).state = 0 from hoff]
      exact Bool.and_false _
  rw [hclear, if_neg (by decide), if_pos hmode] at hexec
  obtain ⟨hkept, -⟩ := setSafety_rests (clearedSafety (causesSeen during e s).safety) (causesSeen_rests during e s)
  have hnew : (setSafety (clearedSafety (causesSeen during e s).safety) (causesSeen during e s)).safety = clearedSafety { s.safety with seen := x } := by
    rw [setSafety_safety, hsafety]
  refine ⟨_, hexec, ?_, ?_, ?_, hkept, ?_, ?_⟩
  · rw [hnew]; rfl
  · rw [hnew]; rfl
  · rw [hnew]; rfl
  · rw [hnew]; rfl
  · rw [hnew]
    exact lowestCause_flr _

theorem clearReasons_eq (f : Safety) (ok : Bool) (u : State) : clearReasons f 0 ok u =
    reasonBit (maskMatches u f.mask) 2 + reasonBit (!causePresent u) 3 + reasonBit ok 4 + reasonBit (decide (f.state = 2)) 5 +
      reasonBit (heartbeatRecent u) 7 + reasonBit (!f.locked) 8 := reasons_clear _ _ _ _ _ _

theorem clearReasons_ran (f : Safety) (during : Nat) (ok : Bool) {u v : State} (h : ∃ cs o, v = { u with cores := cs, obs := o }) :
    clearReasons f during ok v = clearReasons f during ok u := by
  obtain ⟨_, _, rfl⟩ := h
  rfl

theorem clear_again_clause (pass : Bool) (h : Runs s j 0x71 e) (hmode : bit (e.param 0) 0 = false) :
    let ok := pass && (runCasts (beginCmd e s)).2
    let r := reasonBit (maskMatches s s.safety.mask) 2 + reasonBit (!causePresent s) 3 + reasonBit ok 4 + reasonBit (decide (s.safety.state = 2)) 5 +
      reasonBit (heartbeatRecent s) 7 + reasonBit (!s.safety.locked) 8
    (r = 0 → ∃ v, exec (.safetyClear j pass 0) s = .next (finish j stOk [v.safety.word, 0] v) ∧ Armed v ∧
      v.safety.mask = s.safety.mask ∧ v.safety.key = s.safety.key ∧ Rests s v ∧ Compared s v ok) ∧
    (r ≠ 0 → ∃ v, exec (.safetyClear j pass 0) s = .next (finish j stOk [s.safety.word, w32 r] v) ∧ v.safety = s.safety ∧ Rests s v ∧
      Compared s v ok) := by
  intro ok r
  have hexec := exec_safetyClear pass 0 h
  rw [causesSeen_none, hmode] at hexec
  simp only [Bool.false_and, Bool.false_eq_true, if_false] at hexec
  have hran := runCasts_shape (beginCmd e s)
  have hrests : Rests s (runCasts (beginCmd e s)).1 := runCasts_rests (beginCmd e s)
  have hcompared : ∀ v : State, v.cores = (runCasts (beginCmd e s)).1.cores → Compared s v ok :=
    fun v hv => runCasts_compared (s := beginCmd e s) pass hv
  have hreasons : clearReasons (beginCmd e s).safety 0 ok (runCasts (beginCmd e s)).1 = r :=
    (clearReasons_ran _ 0 ok hran).trans (clearReasons_eq _ ok _)
  rw [hreasons] at hexec
  generalize (runCasts (beginCmd e s)).1 = u at hexec hran hrests hcompared
  obtain ⟨_, _, hu⟩ := hran
  have hsafety : u.safety = s.safety := by rw [hu]; rfl
  refine ⟨fun hr => ?_, fun hr => ?_⟩
  · rw [if_neg (not_not_intro hr)] at hexec
    obtain ⟨hkept, hcores⟩ := setSafety_rests (rearmedSafety (beginCmd e s).safety) hrests
    have htripped : s.safety.state = 2 := of_decide_eq_true (reasonBit_eq_zero (k := 5) (by omega))
    have hnew : (setSafety (rearmedSafety (beginCmd e s).safety) u).safety = rearmedSafety s.safety := setSafety_safety _ _
    refine ⟨_, hexec, setSafety_armed rfl rfl rfl rfl (.inr (hsafety ▸ htripped)), ?_, ?_, hkept, hcompared _ hcores⟩
    · rw [hnew]; rfl
    · rw [hnew]; rfl
  · rw [if_pos hr, hsafety] at hexec
    exact ⟨u, hexec, hsafety, hrests, hcompared u rfl⟩

theorem mem_maskList {m k n : Nat} (hk : k < n) (h : maskBit m k = true) : k ∈ maskList m n :=
  List.mem_filter.mpr ⟨List.mem_range.mpr hk, h⟩

theorem clear_during_clause (pass : Bool) {during n : Nat} (h : Runs s j 0x71 e) (hon : s.safety.state = 1 ∨ s.safety.state = 2) (hn : n < 18)
    (hcause : maskBit during n = true) : ∃ v w, exec (.safetyClear j pass during) s = .next (finish j stOk [v.safety.word, w] v) ∧
      v.safety.state = 2 ∧ maskBit v.safety.causes n = true ∧ w.getLsbD 6 = true ∧ Rests s v := by
  have hexec := exec_safetyClear pass during h
  have hrests := causesSeen_rests during e s
  have htripped : (causesSeen during e s).safety.state = 2 ∧ maskBit (causesSeen during e s).safety.causes n = true :=
    detects_tripped (s := beginCmd e s) hon (mem_maskList hn hcause)
  generalize causesSeen during e s = u at hexec hrests htripped
  obtain ⟨hstate, hbit⟩ := htripped
  have hsome : during ≠ 0 := by
    rintro rfl
    rw [maskBit, Nat.zero_testBit] at hcause
    cases hcause
  cases hmode : bit (e.param 0) 0 with
  | true =>
    rw [hmode, decide_eq_true hsome, decide_eq_true hstate, if_pos rfl] at hexec
    exact ⟨u, _, hexec, hstate, hbit, w32_bit (by decide) (maskBit_maskSet 0 6), hrests⟩
  | false =>
    rw [hmode] at hexec
    simp only [Bool.false_and, Bool.false_eq_true, if_false] at hexec
    have hran := runCasts_shape u
    have hrests' := hrests.trans (runCasts_rests u)
    generalize hr : clearReasons u.safety during (pass && (runCasts u).2) (runCasts u).1 = r at hexec
    generalize (runCasts u).1 = v at hexec hran hrests' hr
    have hsix : maskBit r 6 = true ∧ r ≠ 0 := by
      rw [← hr, clearReasons, decide_eq_false hsome]
      exact reasons_during _ _ _ _ _ _
    obtain ⟨hset, hfails⟩ := hsix
    obtain ⟨_, _, hv⟩ := hran
    have hsafety : v.safety = u.safety := by rw [hv]
    rw [if_pos hfails] at hexec
    exact ⟨v, _, hexec, hsafety ▸ hstate, hsafety ▸ hbit, w32_bit (by decide) hset, hrests'⟩

theorem exec_safetyStatus (h : Runs s j 0x72 e) :
    exec (.safetyStatus j) s = .next (finish j stOk (statusWords s.safety) (beginCmd e s)) := by
  obtain ⟨he, hbegin, hstatic⟩ := h
  exact congrArg Host.Outcome.next (runCmd_body he hbegin hstatic _)

end

/-- Settles O51: the casts leave what the conditions read, so each reason is that of the state before; causes that come while SAFETY_CLEAR runs leave
safety tripped. -/
theorem safetyCommands : Obligations.SafetyCommands := by
  unfold Obligations.SafetyCommands
  intro j e pass s
  refine ⟨fun hruns => arm_clause pass hruns, fun hruns => ⟨fun during hmode hquiet => clear_off_clause pass hruns hmode hquiet, fun hmode => ?_,
    fun hmode => ?_, fun during n hon hn hcause => clear_during_clause pass hruns hon hn hcause⟩, fun hruns => exec_safetyStatus hruns⟩
  · obtain ⟨hagain, -⟩ := clear_again_clause pass hruns hmode
    exact hagain
  · obtain ⟨-, hfails⟩ := clear_again_clause pass hruns hmode
    exact hfails

end Sys2Proof.SafetyCommands
end
